-- ==== Sys2Proof/Word.lean ====
section
/-! DEFINITION. The word types of the EVD6480 model: a register word (R7), a byte of a frame, image or
    bank (R5), an address of the 24-bit space (R7), and the index ranges of the manual's index letters. -/

namespace Sys2Proof

/-- A register or scratchpad word: 32 bits (R7). -/
abbrev Word := BitVec 32
/-- A byte of a frame, an image, a token or a bank (R5). -/
abbrev Byte := BitVec 8
/-- A byte address of the 24-bit address space (R7). -/
abbrev Addr := BitVec 24
/-- A tick of the time base (R6, R111); the 64-bit count never wraps in service, so it is a natural number. -/
abbrev Tick := Nat
/-- Phase index n. -/
abbrev PhaseIx := Fin 64
/-- Phase-card slot index s. -/
abbrev CardIx := Fin 8
/-- Quad index q. -/
abbrev QuadIx := Fin 4
/-- Rail index r. -/
abbrev RailIx := Fin 8
/-- Storage port index p. -/
abbrev PortIx := Fin 4
/-- Loop context index c. -/
abbrev CtxIx := Fin 80
/-- Accumulator index k. -/
abbrev AccIx := Fin 256
/-- Tracker index k. -/
abbrev TrkIx := Fin 64
/-- Calibration entry index e. -/
abbrev CalIx := Fin 112
/-- Fault source index k. -/
abbrev SrcIx := Fin 256
/-- Fault line index: 0 to 3 are EXT_FLT_N[i], 4 to 11 are CARD_FLT_N[s] (R359). -/
abbrev LineIx := Fin 12

/-- Increment that holds at the largest value of its width ("holds at 0xFFFF"). -/
def satInc {w : Nat} (x : BitVec w) : BitVec w := if x = BitVec.allOnes w then x else x + 1

/-- One bit as a Bool-valued field. -/
abbrev Bit := Bool

end Sys2Proof
end

