-- ==== Sys2Proof/Syntax.lean ====
section
/-! DEFINITION. The commands of the EVD6480 block: `Instr`, one constructor per row of spec/opcode_table.json,
    and the structures their operands are made of. Every command carries first the tick `t` at which it happens,
    counted from the PLL lock of the last cold start (R6, R111, assumption 1). An operand beyond that is what the host sends, or what the environment
    (pins, supplies, sensors, comparators, link partners) shows the device at that tick. -/

namespace Sys2Proof.Machine

/-- A symbol of the line (R459): K28.5, K27.7, K29.7, and a data byte. -/
inductive Symbol where
  | idle | sof | eof
  | data (b : Byte)
  deriving DecidableEq, Repr

end Sys2Proof.Machine

namespace Sys2Proof

/-- What a measurement of one slice delivers (R240, R245): the sum of the 4096 raw codes at each reference and the
    spread (largest minus smallest raw code) at each. -/
structure SliceMeas where
  sum0 : Int := 0
  sum1 : Int := 31457280
  span0 : Nat := 0
  span1 : Nat := 0
  deriving DecidableEq, Repr

/-- What one delay-line calibration measures: T_MEAS of the HI and of the LO line (R190, R191). -/
structure LineMeas where
  hi : Byte := 64
  lo : Byte := 64
  deriving DecidableEq, Repr

/-- What a cold start (R119) finds. -/
structure ColdOutcome where
  /-- The step that fails fatally, 2, 3, 4 or 6; 0: none. -/
  failStep : BitVec 4 := 0
  /-- A reset ends the start after step 2 and before its end (R117). -/
  cut : Bool := false
  /-- Lock time of step 3 in microseconds (CLK.RELOCK). -/
  lockUs : BitVec 16 := 80
  /-- Ticks from the internal reset to the end, and from the PLL lock of step 3 to the end. -/
  ticks : Nat := 0
  sinceLock : Nat := 0
  /-- Words corrected by the scan of step 4. -/
  corrections : Word := 0
  /-- Uncorrectable words (R122): boot-control copies, slots, calibration entries, owner slots, device key,
      claim flag, Lantern records by SEQ; the whole Lantern store unreadable (R137). -/
  badBoot1 : Bool := false
  badBoot2 : Bool := false
  badSlotA : Bool := false
  badSlotB : Bool := false
  badCal : BitVec 112 := 0
  badOwner : BitVec 4 := 0
  badDevkey : Bool := false
  badClaim : Bool := false
  badRecords : List Nat := []
  badStore : Bool := false
  /-- Ticks of the time base at which the events of steps 4, 5, 7 and 8 are observed (R125). -/
  t4 : Nat := 0
  t5 : Nat := 0
  t7 : Nat := 0
  t8 : Nat := 0
  /-- Step 7, phase by phase; a phase beyond the list measures 64. -/
  lines : List LineMeas := []
  /-- Step 8, slice 5q + s; a slice beyond the list measures ideally. -/
  slices : List SliceMeas := []
  deriving DecidableEq, Repr

/-- What a warm start (R129) finds. -/
structure WarmOutcome where
  /-- A reset ends the start after W2 and before its end (R117). -/
  cut : Bool := false
  /-- W3 finds no lock within 20 ms. -/
  noLock : Bool := false
  lockUs : BitVec 16 := 80
  ticks : Nat := 0
  /-- W4 fails and the start escalates (R131); `cold` is then what steps 2 to 9 find. -/
  w4Fails : Bool := false
  cold : ColdOutcome := {}
  /-- Lantern RAM records whose CRC-32C fails at W4, by SEQ (R132). -/
  badRecords : List Nat := []
  badSlotA : Bool := false
  badSlotB : Bool := false
  lines : List LineMeas := []
  deriving DecidableEq, Repr

/-- One raw code of a conversion (R239) and whether it passed the common-mode check (R277). -/
structure Sample where
  raw : Int
  cmOk : Bool := true
  deriving DecidableEq, Repr

/-- One edge of a phase's signals (R211, R222): HI of stage A, GH or GL of stage B. -/
inductive EdgeKind where
  | hiRise | hiFall | ghRise | ghFall | glRise | glFall
  deriving DecidableEq, Repr

/-- Which comparator a settling window belongs to (R344). -/
inductive CmpIx where
  | trip (n : PhaseIx) | uv (r : RailIx) | ov (r : RailIx) | rt (r : RailIx)
  deriving DecidableEq, Repr

/-- What a neighbour's Chord rail block says (R491): MODE, DEFINED, HELD, SLEW, TARGET, TOTAL. -/
structure ChainRail where
  mode : BitVec 3 := 0
  defined : Bool := false
  held : Bool := false
  slew : BitVec 16 := 0
  target : Word := 0
  total : Word := 0
  deriving DecidableEq, Repr

/-- A DOWN frame (R491): its header's HOP and SWEEP and its payload. -/
structure DownFrame where
  hop : Byte := 0
  sweep : Word := 0
  headId : BitVec 64 := 0
  tb : Nat := 0
  syncIndex : Word := 0
  syncPer : BitVec 16 := 2400
  delay : BitVec 16 := 0
  state : BitVec 2 := 0
  size : Byte := 0
  hold : Bool := false
  step : Byte := 0
  fwver : Word := 0
  digest : BitVec 64 := 0
  rails : Vector ChainRail 8 := Vector.replicate 8 {}
  deriving DecidableEq, Repr

/-- One rail of a report (R493). -/
structure ReportRail where
  current : BitVec 16 := 0
  mode : BitVec 3 := 0
  event : BitVec 2 := 0
  shared : Bool := false
  deriving DecidableEq, Repr

/-- One member's report (R493). -/
structure Report where
  pos : Byte := 0
  downOk : Bool := false
  holdReq : Bool := false
  free : Bool := false
  mismatch : BitVec 6 := 0
  rails : Vector ReportRail 8 := Vector.replicate 8 {}
  deriving DecidableEq, Repr

/-- An UP frame (R493). -/
structure UpFrame where
  hop : Byte := 0
  sweep : Word := 0
  reports : List Report := []
  deriving DecidableEq, Repr

/-- The commands, in the order of spec/opcode_table.json. -/
inductive Instr where
  | powerOn (t : Nat)
  | supplyMonitorTrip (t : Nat) (mask : BitVec 5)
  | vddlDip (t : Nat) (len : Nat)
  | rstNAsserted (t : Nat)
  | hkWatchdogReset (t : Nat)
  | coldStart (t : Nat) (o : ColdOutcome)
  | warmStart (t : Nat) (o : WarmOutcome)
  | bootWindowTick (t : Nat)
  | retry (t : Nat) (v : Word)
  | clockFailure (t : Nat) (refLoss : Bool)
  | lockRetry (t : Nat)
  | pllRelock (t : Nat) (lockUs : BitVec 16)
  | clockWatchdogReset (t : Nat)
  | tbLoRead (t : Nat)
  | epochHiWrite (t : Nat) (v : Word)
  | dieTempReading (t : Nat) (code : BitVec 12)
  | dieTempDwell (t : Nat)
  | jtagExtestClamp (t : Nat) (on : Bool)
  | maintEnter (t : Nat)
  | maintExit (t : Nat)
  | latchRelease (t : Nat)
  | tileBlock (t : Nat) (offset : Word) (data : List Byte)
  | mramBurstDone (t : Nat) (ok : Bool)
  | tileAbort (t : Nat)
  | tileVerify (t : Nat)
  | tileCommit (t : Nat)
  | directCommitDone (t : Nat)
  | retilePlanDone (t : Nat)
  | retileDrainRequest (t : Nat)
  | retileStep (t : Nat)
  | retileCapacityRecheck (t : Nat)
  | retileWaitLimit (t : Nat)
  | retileStop (t : Nat)
  | rtStop (t : Nat)
  | rtContinue (t : Nat)
  | rtResume (t : Nat)
  | rtRevert (t : Nat)
  | phaseUpdatePoint (t : Nat) (n : PhaseIx) (apex : Bool)
  | dlineBgMeasure (t : Nat) (m : LineMeas)
  | loadAll (t : Nat) (mask : BitVec 16)
  | hostOvrWrite (t : Nat) (n : PhaseIx) (v : Word)
  | rperWrite (t : Nat) (r : RailIx) (v : Word)
  | syncPerWrite (t : Nat) (v : Word)
  | trigHit (t : Nat) (n : PhaseIx) (b : Bool)
  | interlockLatch (t : Nat) (n : PhaseIx)
  | blankWindowClose (t : Nat) (n : PhaseIx)
  | sliceRotation (t : Nat) (q : QuadIx)
  | sliceMeasureDone (t : Nat) (q : QuadIx) (m : SliceMeas)
  | sliceStale (t : Nat) (q : QuadIx)
  | sliceInlineFail (t : Nat) (q : QuadIx) (slot : Fin 4)
  | lowpowerEnter (t : Nat) (q : QuadIx)
  | fgcal (t : Nat)
  | fgcalDone (t : Nat) (ms : List SliceMeas)
  | selftest (t : Nat)
  | selftestDone (t : Nat) (hits : List Nat)
  | calZero (t : Nat)
  | calFs (t : Nat)
  | calAbort (t : Nat)
  | calDone (t : Nat) (slices : List (Fin 5)) (ats : List Nat) (raws : List Int) (cms : List Bool)
  | calValueWrite (t : Nat) (e : CalIx) (v : Word)
  | calUnlockExpire (t : Nat)
  | seqRegStart (t : Nat) (q : QuadIx)
  | seqInjStart (t : Nat) (q : QuadIx)
  | seqEntStart (t : Nat) (q : QuadIx) (e : Fin 32)
  | seqTimer (t : Nat) (q : QuadIx)
  | conversionStart (t : Nat) (q : QuadIx)
  | conversionReady (t : Nat) (q : QuadIx) (xs : List Sample)
  | requestLateDiscard (t : Nat) (q : QuadIx)
  | trkReset (t : Nat) (k : TrkIx) (v : Word)
  | trkWindowClose (t : Nat) (k : TrkIx)
  | ctxStart (t : Nat) (c : CtxIx)
  | ctxComputeIssue (t : Nat)
  | ctxComputeDone (t : Nat) (c : CtxIx)
  | ctxDelayClr (t : Nat) (c : CtxIx) (v : Word)
  | loopHistClr (t : Nat) (v : Word)
  | railUpdatePoint (t : Nat) (r : RailIx) (apex : Bool)
  | railCmdNone (t : Nat) (r : RailIx)
  | railCmdOff (t : Nat) (r : RailIx)
  | railCmdOn (t : Nat) (r : RailIx)
  | railCmdCharge (t : Nat) (r : RailIx)
  | railCmdSupport (t : Nat) (r : RailIx)
  | railCmdReserved (t : Nat) (r : RailIx) (code : Fin 3)
  | shedNoticeExpire (t : Nat) (r : RailIx)
  | undershootCrossing (t : Nat) (r : RailIx) (crossed : Bool)
  | flareRearm (t : Nat) (r : RailIx)
  | hiccupToffExpire (t : Nat) (r : RailIx)
  | retriesClear (t : Nat) (r : RailIx)
  | cardRemoval (t : Nat) (s : CardIx)
  | cardInsert (t : Nat) (s : CardIx)
  | cardDebounceDone (t : Nat) (s : CardIx)
  | cardQualCheck (t : Nat) (s : CardIx) (high : Bool)
  | cardQualTimeout (t : Nat) (s : CardIx)
  | oltEnWrite (t : Nat) (r : RailIx) (v : Word)
  | trip (t : Nat) (n : PhaseIx) (crossed : Bool)
  | tripCounterLatch (t : Nat) (n : PhaseIx)
  | comparatorSettleEnd (t : Nat) (which : CmpIx)
  | ovCrossing (t : Nat) (r : RailIx)
  | ovRelease (t : Nat) (r : RailIx)
  | rampTrackExit (t : Nat) (r : RailIx) (high : Bool) (crossed : Bool)
  | safeLevelTaken (t : Nat) (b : Bool) (level : Bool)
  | safeDiscrepancyTimeout (t : Nat)
  | faultLineTaken (t : Nat) (line : LineIx) (low : Bool)
  | faultLineChatter (t : Nat) (line : LineIx)
  | faultLineChatterEnd (t : Nat) (line : LineIx)
  | faultLineStuck (t : Nat) (line : LineIx)
  | vselCodeTaken (t : Nat) (code : BitVec 4)
  | storeDecisionPoint (t : Nat) (p : PortIx)
  | wickRelight (t : Nat) (p : PortIx) (v : Word)
  | wickTimeout (t : Nat) (p : PortIx)
  | faultRaise (t : Nat) (k : SrcIx) (inst : PhaseIx) (present : Bool)
  | faultForce (t : Nat) (word : Fin 8) (v : Word)
  | faultAck (t : Nat) (r : RailIx) (v : Word)
  | recordCloseTimeout (t : Nat)
  | logRefill (t : Nat)
  | recordPersisted (t : Nat)
  | snapshotStart (t : Nat) (i : Fin 8)
  | logRead (t : Nat) (start : Nat) (max : Byte)
  | rselHiWrite (t : Nat) (v : Word)
  | snapSelWrite (t : Nat) (v : Word)
  | tokenClear (t : Nat) (bytes : List Byte)
  | tokenClaim (t : Nat) (bytes : List Byte)
  | tokenInstall (t : Nat) (bytes : List Byte)
  | tokenRevoke (t : Nat) (bytes : List Byte)
  | tokenUnlock (t : Nat) (bytes : List Byte)
  | trustOpDone (t : Nat)
  | attestIdentity (t : Nat) (bytes : List Byte)
  | attestRecords (t : Nat) (bytes : List Byte)
  | attestCalibration (t : Nat) (bytes : List Byte)
  | rxSyncGain (t : Nat)
  | rxSyncLoss (t : Nat) (inFrame : Bool)
  | requestFrame (t : Nat) (seq : Byte) (payload : List Byte)
  | frameRxFail (t : Nat) (received : List (Option Machine.Symbol))
  | nakHoldoffExpire (t : Nat)
  | sync (t : Nat) (seq : Byte)
  | read (t : Nat) (addr : Addr)
  | write (t : Nat) (addr : Addr) (data : Word)
  | readBurst (t : Nat) (addr : Addr) (count : Byte)
  | writeBurst (t : Nat) (addr : Addr) (words : List Word)
  | atomicAdd (t : Nat) (addr : Addr) (operand : Word)
  | atomicSwap (t : Nat) (addr : Addr) (operand : Word)
  | linkCtrlClr (t : Nat) (v : Word)
  | chordPortSyncChange (t : Nat) (up : Bool) (sync : Bool)
  | chordProbeSend (t : Nat)
  | chordProbeRx (t : Nat) (received : List (Option Machine.Symbol))
  | chordEchoRx (t : Nat) (received : List (Option Machine.Symbol)) (rt : Nat)
  | chordHeadTimeout (t : Nat)
  | chordUnjoined (t : Nat)
  | sweepMarkHead (t : Nat)
  | chordDownRx (t : Nat) (received : List (Option Machine.Symbol)) (sinceSof : Nat)
  | chordUpRx (t : Nat) (received : List (Option Machine.Symbol))
  | chordMemberBreak (t : Nat)
  | chordRideExpire (t : Nat)
  | leaveGrant (t : Nat)
  | leaveMaxwaitExpire (t : Nat)
  | phaseStartRelease (t : Nat) (n : PhaseIx)
  | hkLeaseTake (t : Nat)
  | leaseExpire (t : Nat)
  | fullBist (t : Nat)
  | fullBistDone (t : Nat) (failed : BitVec 4)
  | phaseTest (t : Nat)
  | phaseTestDone (t : Nat) (mismatch : Bool)
  | bankTest (t : Nat)
  | bankTestDone (t : Nat) (failWord : Option (BitVec 14))
  | emittedEdge (t : Nat) (n : PhaseIx) (edge : EdgeKind)
  | deviceReferenceValley (t : Nat)
  | responseSent (t : Nat)
  | leaseRelease (t : Nat)
  | cardIdHoldDone (t : Nat) (s : CardIx)
  deriving DecidableEq, Repr

/-- The tick at which a command happens. -/
def Instr.tick : Instr → Nat
  | .powerOn t | .supplyMonitorTrip t _ | .vddlDip t _ | .rstNAsserted t | .hkWatchdogReset t | .coldStart t _
  | .warmStart t _ | .bootWindowTick t | .retry t _ | .clockFailure t _ | .lockRetry t | .pllRelock t _
  | .clockWatchdogReset t | .tbLoRead t | .epochHiWrite t _ | .dieTempReading t _ | .dieTempDwell t
  | .jtagExtestClamp t _ | .maintEnter t | .maintExit t | .latchRelease t | .tileBlock t _ _ | .mramBurstDone t _
  | .tileAbort t | .tileVerify t | .tileCommit t | .directCommitDone t | .retilePlanDone t | .retileDrainRequest t
  | .retileStep t | .retileCapacityRecheck t | .retileWaitLimit t | .retileStop t | .rtStop t | .rtContinue t
  | .rtResume t | .rtRevert t | .phaseUpdatePoint t _ _ | .dlineBgMeasure t _ | .loadAll t _ | .hostOvrWrite t _ _
  | .rperWrite t _ _ | .syncPerWrite t _ | .trigHit t _ _ | .interlockLatch t _ | .blankWindowClose t _
  | .sliceRotation t _ | .sliceMeasureDone t _ _ | .sliceStale t _ | .sliceInlineFail t _ _ | .lowpowerEnter t _
  | .fgcal t | .fgcalDone t _ | .selftest t | .selftestDone t _ | .calZero t | .calFs t | .calAbort t
  | .calDone t _ _ _ _ | .calValueWrite t _ _ | .calUnlockExpire t | .seqRegStart t _ | .seqInjStart t _
  | .seqEntStart t _ _ | .seqTimer t _ | .conversionStart t _ | .conversionReady t _ _ | .requestLateDiscard t _
  | .trkReset t _ _ | .trkWindowClose t _ | .ctxStart t _ | .ctxComputeIssue t | .ctxComputeDone t _
  | .ctxDelayClr t _ _ | .loopHistClr t _ | .railUpdatePoint t _ _ | .railCmdNone t _ | .railCmdOff t _
  | .railCmdOn t _ | .railCmdCharge t _ | .railCmdSupport t _ | .railCmdReserved t _ _ | .shedNoticeExpire t _
  | .undershootCrossing t _ _ | .flareRearm t _ | .hiccupToffExpire t _ | .retriesClear t _ | .cardRemoval t _
  | .cardInsert t _ | .cardDebounceDone t _ | .cardQualCheck t _ _ | .cardQualTimeout t _ | .oltEnWrite t _ _
  | .trip t _ _ | .tripCounterLatch t _ | .comparatorSettleEnd t _ | .ovCrossing t _ | .ovRelease t _
  | .rampTrackExit t _ _ _ | .safeLevelTaken t _ _ | .safeDiscrepancyTimeout t | .faultLineTaken t _ _
  | .faultLineChatter t _ | .faultLineChatterEnd t _ | .faultLineStuck t _ | .vselCodeTaken t _
  | .storeDecisionPoint t _ | .wickRelight t _ _ | .wickTimeout t _ | .faultRaise t _ _ _ | .faultForce t _ _
  | .faultAck t _ _ | .recordCloseTimeout t | .logRefill t | .recordPersisted t | .snapshotStart t _
  | .logRead t _ _ | .rselHiWrite t _ | .snapSelWrite t _ | .tokenClear t _ | .tokenClaim t _ | .tokenInstall t _
  | .tokenRevoke t _ | .tokenUnlock t _ | .trustOpDone t | .attestIdentity t _ | .attestRecords t _
  | .attestCalibration t _ | .rxSyncGain t | .rxSyncLoss t _ | .requestFrame t _ _ | .frameRxFail t _
  | .nakHoldoffExpire t | .sync t _ | .read t _ | .write t _ _ | .readBurst t _ _ | .writeBurst t _ _
  | .atomicAdd t _ _ | .atomicSwap t _ _ | .linkCtrlClr t _ | .chordPortSyncChange t _ _ | .chordProbeSend t
  | .chordProbeRx t _ | .chordEchoRx t _ _ | .chordHeadTimeout t | .chordUnjoined t | .sweepMarkHead t
  | .chordDownRx t _ _ | .chordUpRx t _ | .chordMemberBreak t | .chordRideExpire t | .leaveGrant t
  | .leaveMaxwaitExpire t | .phaseStartRelease t _ | .hkLeaseTake t | .leaseExpire t | .fullBist t
  | .fullBistDone t _ | .phaseTest t | .phaseTestDone t _ | .bankTest t | .bankTestDone t _ | .emittedEdge t _ _
  | .deviceReferenceValley t | .responseSent t | .leaseRelease t | .cardIdHoldDone t _ => t

end Sys2Proof
end

