-- ==== Sys2Proof/Machine/Tiling.lean ====
section
/-! DEFINITION. The structure a Tiling image describes (R140 to R155), decoded: plain data, one record per
    section type. The running structure, the committed image and a retile's goal are values of `Tiling`. -/

namespace Sys2Proof.Machine

/-- One PHASE_MAP entry (R145). `rail = none` is an unused (or parked) phase. -/
structure PhaseEnt where
  rail : Option RailIx := none
  host : Bool := false
  addRank : Byte := 0
  group : Fin 16 := 0
  arc : BitVec 16 := 0
  deriving DecidableEq, Repr

/-- One RAIL section (R146). -/
structure RailEnt where
  storage : Bool := false
  homeQuad : QuadIx := 0
  l2Hold : Bool := false
  minPhases : Byte := 1
  margin : Byte := 0
  rating : Word := 1
  deriving DecidableEq, Repr

/-- One sequence entry (R147). -/
structure SeqEntry where
  input : Byte := 0
  slices : Byte := 0
  eflags : Byte := 0
  deriving DecidableEq, Repr

/-- One SEQUENCE section (R147). -/
structure SeqEnt where
  reg : List SeqEntry := []
  inj : List SeqEntry := []
  timer : Word := 0
  deriving DecidableEq, Repr

/-- One binding of RESULT_BIND (R148). -/
structure Bind where
  quad : QuadIx := 0
  entry : Fin 40 := 0
  n : BitVec 13 := 0
  deriving DecidableEq, Repr

/-- One LOOP_TOPOLOGY entry (R149). -/
structure TopoEnt where
  enable : Bool := false
  law3 : Bool := false
  compat : Bool := false
  div : Byte := 0
  input : AccIx := 0
  target : Option RailIx := none
  deriving DecidableEq, Repr

/-- One Sector entry (R150). -/
structure SectorEnt where
  iLo : Word := 0
  iHi : Word := 0
  vLo : Word := 0
  vHi : Word := 0
  modeMask : Byte := 0
  priority : Byte := 0
  coef : List Word := []
  shift : List Byte := []
  intMax : Word := 0
  intMin : Word := 0
  outMax : Word := 0
  outMin : Word := 0
  deriving DecidableEq, Repr

/-- One route of FABRIC (R151). -/
structure Route where
  src : BitVec 16
  dst : BitVec 16
  latch : Bool
  deriving DecidableEq, Repr

/-- The class entry of one fault source (R152). -/
structure ClassEnt where
  cls : BitVec 5 := 0
  level : Fin 5 := 0
  deriving DecidableEq, Repr

/-- One reaction entry (R152). `none` in `source` or `cls` is the wildcard. -/
structure Reaction where
  source : Option SrcIx := none
  cls : Option (BitVec 5) := none
  railMask : Byte := 0
  action : Fin 6 := 0
  snap : Option (Fin 8) := none
  deriving DecidableEq, Repr

/-- One STORAGE section (R153). -/
structure StoreEnt where
  rail : RailIx := 0
  tempQuad : QuadIx := 0
  tempMask : BitVec 4 := 0
  inreg : Option CtxIx := none
  deriving DecidableEq, Repr

/-- One SHARE word of CHORD (R154). -/
structure ShareEnt where
  chainRail : RailIx := 0
  members : Byte := 0
  share : BitVec 16 := 0
  deriving DecidableEq, Repr

/-- The CHORD section (R154). -/
structure ChordEnt where
  digest : List Byte := []
  position : Fin 8 := 0
  size : Byte := 1
  shared : Byte := 0
  share : Vector ShareEnt 8 := Vector.replicate 8 {}
  deriving DecidableEq, Repr

/-- The whole structure (R144): what every "structural field" (R19) reads. -/
structure Tiling where
  phases : Vector PhaseEnt 64 := Vector.replicate 64 {}
  rails : Vector (Option RailEnt) 8 := Vector.replicate 8 none
  seqs : Vector (Option SeqEnt) 4 := Vector.replicate 4 none
  accs : Vector (Option Bind) 256 := Vector.replicate 256 none
  trks : Vector (Option Bind) 64 := Vector.replicate 64 none
  topo : Vector TopoEnt 80 := Vector.replicate 80 {}
  sectors : Vector (List SectorEnt) 80 := Vector.replicate 80 []
  routes : List Route := []
  classes : Vector ClassEnt 256 := Vector.replicate 256 {}
  reactions : List Reaction := []
  stores : Vector (Option StoreEnt) 4 := Vector.replicate 4 none
  chord : Option ChordEnt := none
  snaps : Vector (Option (List Word)) 8 := Vector.replicate 8 none
  deriving DecidableEq, Repr

/-- No structure: what UNTILED runs (R35). -/
def Tiling.empty : Tiling := {}

/-- What identifies an image apart from its structure: digest (R140), GENERATION, SIGNER and LENGTH. -/
structure ImageId where
  digest : BitVec 256 := 0
  gen : Word := 0
  signer : Byte := 0
  length : Nat := 0
  deriving DecidableEq, Repr

/-- The number of 64-byte blocks of an image, rounded up (B of R162). -/
def ImageId.blocks (i : ImageId) : Nat := (i.length + 63) / 64

end Sys2Proof.Machine
end

