-- ==== Sys2Proof/Machine/State.lean ====
section
/-! DEFINITION. The state of the EVD6480 block as plain data: one record per block of the register index (R531),
    the scratchpad bytes and the queue of waiting commands; the reset state; the reasons a step can stop. -/

namespace Sys2Proof.Machine

/-! ## Device, starts and pins (chapters 01 to 03, 05) -/

/-- The six device states of R35. -/
inductive DevState where
  | boot | untiled | standby | run | maint | latched
  deriving DecidableEq, Repr

/-- The rail modes of R308, R319. -/
inductive RailMode where
  | off | ramp | regulate | ember | charge | support | hiccup | hold
  deriving DecidableEq, Repr

/-- The START_FAIL entry of the boot-control region (R121): the failing step and the time base. -/
structure StartFail where
  step : BitVec 4
  tick : Tick
  deriving DecidableEq, Repr

/-- The boot-control region of MRAM, held in two copies that read alike between commands (R122, R134 to R136). -/
structure BootCtl where
  /-- SYS.BOOTFAIL.WINDOW, 10 s units (R135). -/
  window : Byte := 0
  windowOpen : Bool := false
  hold : Bool := false
  failCount : BitVec 2 := 0
  /-- The causes of the counted failures, for the BOOT_HOLD record (R136). -/
  failCauses : List (BitVec 4) := []
  /-- START_FAIL entries that await their record, oldest first (R121). -/
  startFails : List StartFail := []
  coldCount : BitVec 16 := 0
  /-- Both copies were found unreadable: at the RETRY the sequence counter resumes 65 536 above the highest persisted number
      (R122). -/
  resume : Bool := false
  deriving DecidableEq, Repr

/-- A start in progress (R117): cold or warm, whether its step 2 or W2 has counted what it counts (R134), and whether its PLL has
    locked (R127, R481). -/
structure StartPending where
  cold : Bool
  counted : Bool := false
  locked : Bool := false
  deriving DecidableEq, Repr

/-- SYS block and pins (R1, R35, R45, R54 to R59, R84, R102, R117, R139). -/
structure Sys where
  devState : DevState := .boot
  latchCause : BitVec 2 := 0
  bootHold : Bool := false
  start : Option StartPending := some { cold := true }
  boot : BootCtl := {}
  /-- SYS.RESET fields (R139). -/
  tripSupply : BitVec 5 := 0
  prevState : BitVec 3 := 7
  failStep : BitVec 4 := 0
  cause : BitVec 4 := 1
  /-- SYS.START fields. -/
  duration : BitVec 16 := 0
  fallback : Bool := false
  sigSkipped : Bool := false
  escalated : Bool := false
  kindWarm : Bool := false
  warmCount : BitVec 16 := 0
  /-- A RETRY has been accepted; the cold start begins when its response has left (R138). -/
  retryPending : Bool := false
  /-- Pin levels as last taken; those of CARD_PRES_N, which has no filter, are PINLVL's (R57). -/
  cardFltLvl : Byte := 0xFF
  cardPresLvl : Byte := 0xFF
  extFltLvl : BitVec 4 := 0xF
  vselLvl : BitVec 4 := 0
  safeBLvl : Bool := true
  safeALvl : Bool := false
  /-- EXTEST or CLAMP stands in the JTAG instruction register (R59). -/
  jtag : Bool := false
  /-- VDDL lies below its falling threshold until this tick: outputs high-impedance (R55). -/
  hiZUntil : Tick := 0
  /-- VDDL has not passed its rising threshold since the power-on or its trip: outputs high-impedance (R55, R85). -/
  vddlLow : Bool := true
  /-- RDY level (R56, R127, R128, R165, R178): the causes that hold it low, other than the link window. -/
  rdyLowStart : Bool := true
  rdyLowBackup : Bool := false
  rdyLowCommit : Bool := false
  rdyLowBist : Bool := false
  /-- RDY is low for a retile step or the writes of a commit point until this tick (R178). -/
  rdyStepUntil : Tick := 0
  /-- SYS.DIETEMP (R102). -/
  temp : BitVec 12 := 0
  hot : Bool := false
  overtemp : Bool := false
  /-- Tick since which HOT's (OVERTEMP's) opposite condition has held without a break. -/
  hotSince : Option Tick := none
  overSince : Option Tick := none
  deriving DecidableEq, Repr

/-! ## Clocks and time base (chapter 04) -/

/-- CLK block (R105 to R116). -/
structure Clk where
  /-- Ticks counted since the PLL lock of the last cold start (R6, R111). -/
  now : Tick := 0
  /-- What discipline and steps have added to that count: the time base is `now + off` (R115, R116). -/
  off : Int := 0
  unlockCount : BitVec 16 := 0
  tbUncertain : Bool := false
  onBackup : Bool := false
  refOk : Bool := true
  pllLock : Bool := false
  tbHi : Word := 0
  epochLo : Word := 0
  epochHi : Word := 0
  epochTbLo : Word := 0
  epochTbHi : Word := 0
  /-- CLK.TB_ADJ, signed (R115). -/
  adj : Word := 0
  lastLock : BitVec 16 := 0
  /-- Tick at which the present clock failure was detected (R110). -/
  failAt : Option Tick := none
  /-- Tick of the backup-oscillator edge from which the count goes on in steps of 12 (R111). -/
  backupFrom : Option Tick := none
  /-- Tick of the last insertion or withholding (R115); the tick of the latest change of `off`, by discipline or a step, with the
      change, which shows from the tick after (R115, R116). -/
  lastAdj : Option Tick := none
  adjAt : Option (Tick × Int) := none
  /-- The whole LOOP_CLK cycles, in ticks, by which the steps of the time base have moved it (R116): the cycles go on through a step. -/
  turn : Int := 0
  deriving DecidableEq, Repr

/-! ## Tiling slots, loads, commits and retiles (chapters 06, 07) -/

/-- Slot states of R159. -/
inductive SlotState where
  | empty | unchecked | busy | valid | invalid
  deriving DecidableEq, Repr

/-- One MRAM slot (R159, R534). `recLen = none` is the vendor-test marker. -/
structure Slot where
  bytes : List Byte := []
  recLen : Option Nat := none
  /-- An uncorrectable word lies within the recorded length (check 18). -/
  badWord : Bool := false
  state : SlotState := .empty
  reject : Byte := 0
  deriving DecidableEq, Repr

/-- Where the completion of a load or a verification stands (R161, R163). -/
inductive VerStage where
  | leaveSig | sig | leaveMram | mram
  deriving DecidableEq, Repr

/-- An open load (R160). -/
structure Load where
  bytes : List Byte
  total : Nat
  /-- The completion in progress, and the composed full image it works on. -/
  stage : Option VerStage := none
  full : List Byte := []
  /-- Its last unit is no longer a transaction that waits for a response (R110, R480). -/
  silent : Bool := false
  deriving DecidableEq, Repr

/-- One copy of the committed mark (R159). -/
structure Mark where
  slotB : Bool := false
  count : Nat := 0
  deriving DecidableEq, Repr

/-- Retile sequencer states of TILE.RT_STATUS.STATE. -/
inductive RtState where
  | idle | planning | running | waiting | paused | stopped | refused
  deriving DecidableEq, Repr

/-- Step kinds of the retile step kind table. -/
inductive StepKind where
  | define | set | widen | park | join | arc | loops | fabric | narrow | undefine | storage | chord
  deriving DecidableEq, Repr

/-- One retile step (R172): kind, target as the kind table codes it, and the rails it takes from and gives to. -/
structure RtStep where
  kind : StepKind
  target : Byte
  fromRail : Option RailIx := none
  toRail : Option RailIx := none
  deriving DecidableEq, Repr

/-- The retile sequencer (R169 to R185). -/
structure Retile where
  pauseAtPark : Bool := false
  waitLimit : Byte := 10
  stopCause : Byte := 0
  reason : Byte := 0
  isPartial : Bool := false
  toward : Bool := false
  state : RtState := .idle
  total : BitVec 16 := 0
  done : BitVec 16 := 0
  /-- TILE.RT_STEP. -/
  step : Option RtStep := none
  need : Word := 0
  have_ : Word := 0
  /-- Steps still to apply. -/
  plan : List RtStep := []
  goal : Tiling := {}
  goalId : ImageId := {}
  /-- Tick at which the present capacity wait began, and of its last check (R180). -/
  waitSince : Option Tick := none
  /-- A stop asked for, by its cause (R183). -/
  stopAsked : Option Byte := none
  /-- Rails that a DEFINE of the plan creates, and that an UNDEFINE of it removes (R182). -/
  defines : Byte := 0
  undefines : Byte := 0
  /-- Tick of the last step applied: no two steps share a LOOP_CLK cycle (R174). -/
  stepAt : Tick := 0
  deriving DecidableEq, Repr

/-- Why the structure is being loaded as a whole: a direct commit, a MAINT_EXIT, a REVERT in STANDBY. -/
inductive Loading where
  | commit | restore | revert
  deriving DecidableEq, Repr

/-- TILE block (R140 to R168, R534). -/
structure Tile where
  slotA : Slot := {}
  slotB : Slot := {}
  mark1 : Mark := {}
  mark2 : Mark := {}
  highGen : Word := 0
  runB : Bool := false
  tiled : Bool := false
  /-- The running image's identity and structure: the committed image of R14 and R34. -/
  image : ImageId := {}
  committed : Tiling := {}
  /-- The running structure (R167): that of the committed image, or of a stopped retile. -/
  cur : Tiling := {}
  /-- Retained Tiling digest and generation (R130). -/
  keptDigest : BitVec 256 := 0
  keptGen : Word := 0
  lastReject : Byte := 0
  dirty : Bool := false
  /-- The structure is being loaded, and what for (R165, R167, R185). -/
  loading : Option Loading := none
  load : Option Load := none
  verify : Option VerStage := none
  /-- The slot that the verification in progress judges (R163), which an exchange of the slots does not change. -/
  verifyB : Bool := false
  /-- State of the load slot before a VERIFY, restored by a refused leave (R163). -/
  verifyPrev : SlotState := .empty
  verifyReject : Byte := 0
  rt : Retile := {}
  /-- A verification has succeeded since the start (R453). -/
  verified : Bool := false
  deriving DecidableEq, Repr

/-! ## Phase PWM (chapters 08, 09) -/

/-- A duty code written into a phase's shadow by the loop engine or the rail manager (R195). -/
structure LoopShadow where
  duty : BitVec 22
  at_ : Tick
  deriving DecidableEq, Repr

/-- A LOAD_ALL transfer waiting in a phase's shadow (R197). -/
structure LoadShadow where
  per : BitVec 16
  duty : BitVec 22
  at_ : Tick
  deriving DecidableEq, Repr

/-- What stage C does with one output (R220). -/
inductive StageC where
  | free | held | heldAfterPulse | freeAfterPulse
  deriving DecidableEq, Repr

/-- The mask source bits of R218. -/
structure MaskBits where
  unused : Bool := true
  park : Bool := false
  fail : Bool := false
  card : Bool := false
  shed : Bool := false
  ember : Bool := false
  hmask : Bool := false
  deriving DecidableEq, Repr

/-- A change of the mask bits of a phase or of their Flare lift, with the tick at which it was complete (R219, R220). -/
structure MaskChange where
  at_ : Tick
  bits : MaskBits
  lift : Bool
  deriving DecidableEq, Repr

/-- One converter trigger, TRIG_A or TRIG_B (R225 to R227). -/
structure Trig where
  /-- Staged EN, PRESCALE and POS, with the tick of the write. -/
  en : Bool := false
  prescale : BitVec 4 := 0
  pos : BitVec 17 := 0
  written : Option Tick := none
  /-- In effect. -/
  enEff : Bool := false
  prescaleEff : BitVec 4 := 0
  posEff : BitVec 17 := 0
  /-- Periods until the next due one; 0: the present period is due. -/
  count : Nat := 0
  /-- The trigger has fired in the present period. -/
  fired : Bool := false
  skips : BitVec 16 := 0
  deriving DecidableEq, Repr

/-- One delay line (R190 to R193). -/
structure DLine where
  use : Byte := 64
  meas : Byte := 64
  deriving DecidableEq, Repr

/-- One phase block PWM[n] (R186 to R231). -/
structure Pwm where
  hostOvr : Bool := false
  perStaged : BitVec 16 := 2400
  dutyStaged : BitVec 22 := 0
  perEff : BitVec 16 := 0
  /-- The code taken; it saturates where it is compared (R189). -/
  dutyEff : BitVec 22 := 0
  loopShadow : Option LoopShadow := none
  loadShadow : Option LoadShadow := none
  arcTgt : BitVec 16 := 0
  arcNow : BitVec 16 := 0
  overwrites : Byte := 0
  dlFail : Bool := false
  free : Bool := false
  /-- Aligned anew to a reference: at its next valley the carrier slews from its real offset (R172, R203, R204). -/
  joined : Bool := false
  lineHi : DLine := {}
  lineLo : DLine := {}
  /-- The carrier: tick of the valley that began the present period, and the lengths of its up-count and
      down-count (R186, R205). -/
  valley : Tick := 0
  upLen : Nat := 0
  downLen : Nat := 0
  /-- The apex of the present period has passed; OFS mod 64, the fine phase offset of the present period (R190, R202). -/
  down : Bool := false
  fine : Nat := 0
  /-- Chord correction in ticks still to be carried out at the next valley (R496). -/
  corr : Int := 0
  /-- Dead times: staged with the tick of the write, and in effect, both before the floor of R212 (R211 to R213). -/
  dtFall : BitVec 16 := 3072
  dtRise : BitVec 16 := 3072
  dtWritten : Option Tick := none
  dtf : BitVec 16 := 3072
  dtr : BitVec 16 := 3072
  mask : MaskBits := {}
  /-- Changes that wait for their update point, oldest first (R220, R221). -/
  maskChanges : List MaskChange := []
  /-- The bits and the lift in effect, whether their pattern masks the phase, and stage C per output. -/
  maskEff : MaskBits := {}
  liftEff : Bool := false
  masked : Bool := true
  cHi : StageC := .held
  cLo : StageC := .held
  flareLift : Bool := false
  trigA : Trig := {}
  trigB : Trig := {}
  blank : BitVec 10 := 48
  blankUntil : Option Tick := none
  ilkCount : Byte := 0
  ilkLatch : Bool := false
  swallowHi : BitVec 16 := 0
  swallowLo : BitVec 16 := 0
  /-- Stage A: HI as the carrier or the Flare forms it, and the position of its next edge before the next update point, in 1/64
      tick (R188, R332). -/
  cmd : Bool := false
  edgeAt : Option Int := none
  /-- Stage A command HI with trips and holds, and stage B outputs GH, GL (R211). -/
  hi : Bool := false
  gh : Bool := false
  gl : Bool := false
  /-- Positions at which the pulses of GH and GL that have still to begin are due (R211, R214). -/
  ghAt : Option Int := none
  glAt : Option Int := none
  /-- Taps from which the latest edges of GH and of GL were taken (R190). -/
  tapHi : Nat := 0
  tapLo : Nat := 0
  /-- The phase is a Flare participant still under the Flare command, and its on-pulse has not ended (R332). -/
  flareOn : Bool := false
  flarePulse : Bool := false
  /-- The duty code of the Flare command, which stands in place of the code taken (R332). -/
  flareCode : BitVec 22 := 0
  /-- The present duty came after a duty of 0 under HOST_OVR and waits for leave (R200). -/
  hostStartWait : Bool := false
  hostStarted : Bool := false
  /-- HOST_OVR has ended: from the next update point the code is 0 (R199). -/
  zeroDue : Bool := false
  /-- The rail that a PARK has taken the phase from: its carrier goes on against that rail's reference (R176, R222). -/
  parkRail : Option RailIx := none
  /-- Tick of the first emitted GH edge of a phase start whose leave is still held (R519). -/
  startEdge : Option Tick := none
  deriving DecidableEq, Repr

/-- A reference carrier (R201, R204): period in effect, period written and waiting for the next valley. -/
structure RefCarrier where
  running : Bool := false
  per : BitVec 16 := 2400
  pend : Option (BitVec 16) := none
  valley : Tick := 0
  /-- Holding at count 0 for a valley of the device reference, or due to hold at its next valley (R204). -/
  holding : Bool := false
  alignDue : Bool := false
  /-- Created by a DEFINE step and waiting for its first valley (R201). -/
  startDue : Bool := false
  /-- The apex of the present period has passed; the valley with which the carrier started has still to be carried out. -/
  down : Bool := false
  first : Bool := false
  /-- The period before the write for which the reference holds (R204). -/
  wasPer : BitVec 16 := 2400
  /-- Ticks by which Chord lengthens the period that begins at the valley named: the latest two (R496, R497). -/
  exts : List (Tick × Int) := []
  deriving DecidableEq, Repr

/-- PWMG block (R197, R201 to R209). -/
structure Pwmg where
  rper : Vector (BitVec 16) 8 := Vector.replicate 8 2400
  syncPer : BitVec 16 := 2400
  rslew : Vector (BitVec 13) 8 := Vector.replicate 8 655
  loadCount : BitVec 16 := 0
  loadMask : BitVec 16 := 0
  dev : RefCarrier := {}
  refs : Vector RefCarrier 8 := Vector.replicate 8 {}
  /-- The phase whose delay lines the background calibration measures next (R191). -/
  bgPhase : PhaseIx := 0
  /-- Tick at which its present slot of 7 500 ticks ends. -/
  bgAt : Tick := 0
  deriving DecidableEq, Repr

/-! ## Sensing (chapters 10, 11) -/

/-- Slice states of R232. -/
inductive SliceState where
  | service | spare | measure | test | failed
  deriving DecidableEq, Repr

/-- One converter slice: its state, both coefficient sets with the tick of their measurement, and skew trim
    (R232, R239 to R244). Before its first measurement in low-power mode the set of that mode is offset 0 and gain 0, its age counted
    from tick 0 (R241; DESIGN CHOICE, assumption 110). -/
structure Slice where
  st : SliceState := .spare
  osFull : BitVec 16 := 0
  gsFull : BitVec 16 := 0
  osLow : BitVec 16 := 0
  gsLow : BitVec 16 := 0
  measFull : Tick := 0
  measLow : Tick := 0
  skew : Byte := 0
  deriving DecidableEq, Repr

/-- What brought a request into a quad's queue (R256, R261, R264). -/
inductive ReqKind where
  | pass | ent
  deriving DecidableEq, Repr

/-- A pending conversion request (R258 to R260). -/
structure Req where
  entry : Fin 40
  inj : Bool
  kind : ReqKind
  /-- Start tick, which orders the queue, and the tick from which the wait of R260 counts. -/
  tick : Tick
  waitFrom : Tick
  /-- The wait of a reconverted run has not begun: the injected pass still holds priority (R264). -/
  waitHeld : Bool := false
  deriving DecidableEq, Repr

/-- A conversion or interleaved run in progress (R236, R237). -/
structure Conv where
  req : Req
  slots : List (Fin 4)
  /-- Slices that convert, in run order. -/
  slices : List (Fin 5)
  sampleAt : Tick
  /-- Ticks at which its slots fall free and at which its last code is ready. -/
  slotsFree : Tick
  ready : Tick
  count : Nat
  interleaved : Bool
  /-- Half ticks between the samples of a run; the run goes on fewer slices than its group has (R237, R238, R247). -/
  step2 : Nat := 12
  degraded : Bool := false
  /-- The entry it converts, as it stood at the start. -/
  ent : SeqEntry := {}
  /-- It began at the pace of low-power mode, and how many samples a run took at it where the mode was left on the way (R247). -/
  low : Bool := false
  slow : Option Nat := none
  /-- Values of its calibration entry written since, each with the tick up to which the earlier one, as offset and gain, stood (R252). -/
  cals : List (Tick × Int × Int) := []
  /-- Lost to a slice failure (R246). -/
  lost : Bool := false
  deriving DecidableEq, Repr

/-- One quad (R232 to R247, R256 to R266). -/
structure Quad where
  slices : Vector Slice 5 := Vector.replicate 5 {}
  slots : Vector (Option (Fin 5)) 4 := Vector.replicate 4 none
  outOfLine : Option (Fin 5) := none
  lowPower : Bool := false
  stale : Bool := false
  degraded : Bool := false
  rotDone : BitVec 16 := 0
  rotSkipped : BitVec 16 := 0
  clips : Word := 0
  nextSlot : Fin 4 := 0
  /-- The rotation holds leave and waits to enter; tick of the next rotation's anchor; end of the present measurement (R242). -/
  rotGranted : Bool := false
  rotDue : Bool := false
  rotAt : Tick := 0
  measEnd : Option Tick := none
  /-- Tick from which the granted rotation waits for its edge, and the SLICE_CLK edge of the last entry (R242, R246). -/
  rotFrom : Tick := 0
  rotEdge : Option Tick := none
  /-- The out-of-line slice is to take the slot of a failed one at a SLICE_CLK edge (R246). -/
  refill : Option (Fin 4 × Fin 5 × Tick) := none
  /-- Run samples of each slot, and the estimated error of its sampling instant, in 2^-16 ps (R244). -/
  skewRuns : Vector Nat 4 := Vector.replicate 4 0
  skewErr : Vector Int 4 := Vector.replicate 4 0
  /-- The low-power coefficient set is used from the tick at which the mode was entered until this tick after leaving it (R241, R247). -/
  lpFrom : Tick := 0
  lpUntil : Tick := 0
  /-- Earlier such intervals, while a conversion goes on that began in one. -/
  lows : List (Tick × Tick) := []
  queue : List Req := []
  convs : List Conv := []
  /-- Regular and injected pass in progress: the entry at which each stands (R261). -/
  regPass : Option (Fin 40) := none
  injPass : Option (Fin 40) := none
  regPend : Bool := false
  injPend : Bool := false
  /-- The regular pass has an entry to request when the injected pass releases its priority (R263). -/
  regHeld : Bool := false
  timerNext : Option Tick := none
  dropFull : BitVec 16 := 0
  dropLate : BitVec 16 := 0
  passesReg : BitVec 16 := 0
  passesInj : BitVec 16 := 0
  aborts : BitVec 16 := 0
  passOvr : BitVec 16 := 0
  deriving DecidableEq, Repr

/-- A completed valid result: SUM, VALID and the tick of completion (R269). -/
structure AccResult where
  sum : Word
  valid : BitVec 13
  at_ : Tick
  deriving DecidableEq, Repr

/-- One accumulator ACC[k] (R267 to R271). -/
structure Acc where
  sum : Word := 0
  valid : BitVec 13 := 0
  results : BitVec 16 := 0
  ts : Nat := 0
  /-- Partial sum of a single-conversion entry. -/
  pSum : Int := 0
  pValid : Nat := 0
  pCount : Nat := 0
  /-- The latest valid results, newest first, at most 16 (R269, R339 check 3). -/
  history : List AccResult := []
  deriving DecidableEq, Repr

/-- The contents of a tracker window (R272). -/
structure TrkWin where
  min : BitVec 16 := 0x7FFF
  max : BitVec 16 := 0x8000
  count : BitVec 16 := 0
  tMin : Word := 0
  tMax : Word := 0
  deriving DecidableEq, Repr

/-- One tracker TRK[k] (R272 to R274). -/
structure Trk where
  win : BitVec 16 := 0
  cur : TrkWin := {}
  last : TrkWin := {}
  opened : Tick := 0
  deriving DecidableEq, Repr

/-- One calibration entry CAL.E[e] in MRAM (R252 to R254). -/
structure CalEnt where
  value : Word := 0
  valid : Bool := true
  user : Bool := false
  deriving DecidableEq, Repr

/-- An operation that asks leave: waiting, or running since a tick. -/
inductive OpStage where
  | waiting
  | running (since : Tick)
  deriving DecidableEq, Repr

/-- The operations of SENSE.CTRL (R248 to R250). -/
inductive CalOp where
  | none | zero | fs | fgcal | selftest
  deriving DecidableEq, Repr

/-- SENSE block beyond the quads, with ACC, TRK and CAL. -/
structure Sense where
  quads : Vector Quad 4 := Vector.replicate 4 {}
  accs : Vector Acc 256 := Vector.replicate 256 {}
  trks : Vector Trk 64 := Vector.replicate 64 {}
  cal : Vector CalEnt 112 := Vector.replicate 112 {}
  /-- CAL.UNLOCK: the tick at which the unlock ends (R450). -/
  unlockUntil : Option Tick := none
  target : BitVec 16 := 0
  stQuad : BitVec 2 := 0
  entry : Byte := 0
  op : CalOp := .none
  stage : Option OpStage := none
  result : BitVec 4 := 0
  mean : Word := 0
  /-- Full-rate coefficients that a slice of the input's quad lost while a CAL_ZERO or CAL_FS ran, with the tick up to which they stood
      (R250). -/
  calCoefs : List (Fin 5 × Tick × Int × Int) := []
  rotInt : Byte := 10
  rotEn : Bool := true
  lpForce : Bool := false
  lpAuto : Bool := true
  stSlice : BitVec 4 := 0
  stResult : BitVec 2 := 0
  auxOpen : BitVec 16 := 0
  /-- Consecutive readings of each AUX input beyond the threshold that would change its flag (R278). -/
  auxRun : Vector Nat 16 := Vector.replicate 16 0
  cmBad : BitVec 64 := 0
  /-- Consecutive ISNS conversions of each phase that speak against its present bit (R277). -/
  cmRun : Vector Nat 64 := Vector.replicate 64 0
  deriving DecidableEq, Repr

/-! ## Loop engine, Sectors and the event fabric (chapters 12, 13) -/

/-- What a compute writes when it completes, fixed at its issue (R282 to R290). -/
structure ComputeRes where
  meas : Word
  err : Word
  y : Word
  out : Word
  sector : Fin 8
  accSat : Bool
  intClamp : Bool
  outLim : Bool
  deriving DecidableEq, Repr

/-- A compute in a lane: cycles at which its start was taken and at which it completes; `none` is a held
    compute (R282). -/
structure Flight where
  taken : Nat
  done : Nat
  res : Option ComputeRes
  /-- The context became idle meanwhile: nothing is written (R281). -/
  dead : Bool := false
  deriving DecidableEq, Repr

/-- One context CTX[c] (R280 to R294) with its Sector status (R307 to R314). -/
structure Ctx where
  cmpOsh : BitVec 4 := 0
  polarity : Bool := false
  ref : Word := 0
  meas : Word := 0
  err : Word := 0
  out : Word := 0
  y1 : Word := 0
  y2 : Word := 0
  y3 : Word := 0
  e1 : Word := 0
  e2 : Word := 0
  e3 : Word := 0
  invalidRun : Byte := 0
  sectorUsed : Fin 8 := 0
  accSat : Bool := false
  outLim : Bool := false
  intClamp : Bool := false
  active : Bool := false
  computes : BitVec 16 := 0
  invalid : BitVec 16 := 0
  clampsInt : BitVec 16 := 0
  clampsOut : BitVec 16 := 0
  delayMax : Byte := 0
  delayLast : Byte := 0
  /-- Cycle in which the pending start was taken (R292). -/
  pending : Option Nat := none
  flight : Option Flight := none
  /-- Last delivered output: out, or d_k during a slew (R313). -/
  delivered : Word := 0
  /-- Sector in effect, candidate and its consecutive wins (R308, R309). -/
  sector : Option (Fin 8) := none
  candidate : Option (Fin 8) := none
  wins : Nat := 0
  changes : Byte := 0
  noMatch : Bool := false
  /-- Slewed hand-over: computes left, its length and its P (R313). -/
  slewLeft : Nat := 0
  slewSteps : Nat := 0
  slewP : Int := 0
  /-- A PRELOAD waiting for the compute in flight: P, or the last delivered output; with or without slew; its place in R314
      (R311). -/
  preload : Option (Option Int × Bool × Nat) := none
  /-- The rail that LOOP_INPUT named when eight computes had been held; none once a compute has run (R283). -/
  inputRail : Option RailIx := none
  deriving DecidableEq, Repr

/-- The LOOP registers of one rail (R304 to R307, R313, R317). -/
structure RailLoop where
  keyI : Word := 0
  keyV : Word := 0
  /-- KEY_V as last written under VKSRC.HOST, used from the next mark (R318). -/
  keyVHost : Word := 0
  vkHost : Bool := false
  vkAcc : Byte := 0
  vkScale : Word := 0
  hoSteps : BitVec 5 := 16
  sdwell : Byte := 4
  ssMode : BitVec 2 := 0
  duty0 : BitVec 22 := 0
  iref : Word := 0
  auxLim : Bool := false
  keyStale : Bool := false
  /-- Update points left until the next RAIL_DIV; `none` until the rail's first one (R304). -/
  divLeft : Option Nat := none
  deriving DecidableEq, Repr

/-- Task inputs that can hold a start, and the OVERRUN bits (R300 to R303). -/
structure Fabric where
  ctxHeld : Vector Byte 80 := Vector.replicate 80 0
  snapHeld : Vector Byte 8 := Vector.replicate 8 0
  /-- Task input codes reached in the present LOOP_CLK cycle, for the merging of Latch mode (R301). -/
  cycle : Nat := 0
  reached : List (BitVec 16) := []
  ovrReg : BitVec 4 := 0
  ovrInj : BitVec 4 := 0
  ovrEnt : Vector Word 4 := Vector.replicate 4 0
  ovrCtx : BitVec 80 := 0
  ovrSnap : Byte := 0
  ovrCount : Word := 0
  deriving DecidableEq, Repr

/-- LOOP block (R280 to R318). -/
structure LoopEng where
  ctx : Vector Ctx 80 := Vector.replicate 80 {}
  /-- Dispatch queue, oldest first (R292). -/
  queue : List CtxIx := []
  /-- Cycle from which each lane is free. -/
  lanes : Vector Nat 4 := Vector.replicate 4 0
  hist : Vector Word 12 := Vector.replicate 12 0
  qmax : Byte := 0
  rails : Vector RailLoop 8 := Vector.replicate 8 {}
  stabCtx : BitVec 7 := 0
  stabSector : BitVec 3 := 0
  fab : Fabric := {}
  /-- Computes that have completed: the context, the cycle, and whether the results were written. A waiting preload and the next start
      follow in the cycle after it (R292, R311). -/
  ended : List (CtxIx × Nat × Bool) := []
  deriving DecidableEq, Repr

/-! ## Rails and cards (chapter 14) -/

/-- A shed in notice (R325) or a drain (R175). -/
structure Notice where
  phase : PhaseIx
  /-- Tick at which it began, and at which it has run out; a mark forms the second anew from SHED_DELAY (R341). -/
  began : Tick
  until_ : Tick
  drain : Bool
  deriving DecidableEq, Repr

/-- One rail manager RAIL[r] (R319 to R341). -/
structure Rail where
  mode : RailMode := .off
  retries : BitVec 4 := 0
  /-- Flare in progress: entry tick (R331). -/
  flare : Option Tick := none
  flareLastExit : Option Tick := none
  notice : Option Notice := none
  /-- The member whose add waits for leave (R326). -/
  addWait : Option PhaseIx := none
  /-- Ember burst in progress: tick it began; members of the bursts (R328, R329). -/
  burst : Option Tick := none
  burstMembers : BitVec 64 := 0
  /-- The active set for which the targets stand (R327). -/
  spread : BitVec 64 := 0
  sleepSince : Tick := 0
  shortSleeps : Nat := 0
  /-- Packet duty code of the last burst (R312). -/
  packetDuty : BitVec 22 := 0
  vstale : Bool := false
  staleRun : Nat := 0
  oltEn : Bool := false
  flareEn : Bool := true
  emberEn : Bool := false
  shedEn : Bool := true
  vscale : Word := 0
  iscale : Word := 0
  vout : Word := 0
  demand : Word := 0
  /-- |KEY_I| at the valid marks of the last 10 ms, newest first (R173). -/
  demandMarks : List (Tick × Nat) := []
  shedTh : BitVec 24 := 0
  addTh : BitVec 24 := 0xFFFFFF
  shedDelay : Byte := 5
  addDwell : Byte := 1
  shedDwell : Byte := 20
  emberDwell : Byte := 50
  emberEnter : BitVec 24 := 0
  embLo : BitVec 16 := 2000
  embHi : BitVec 16 := 2000
  embExit : BitVec 16 := 6000
  minSleep : Byte := 20
  pktLen : Byte := 8
  emberDuty : BitVec 22 := 0
  flareDuty : BitVec 22 := 0
  flareGap : BitVec 16 := 100
  flareTime : BitVec 16 := 100
  flareRec : BitVec 16 := 2000
  tOff : BitVec 16 := 100
  retryMax : BitVec 4 := 3
  retryClr : BitVec 12 := 100
  /-- Tick at which the hiccup off-timer expires, and the mode the rail left (R336). -/
  toffAt : Option Tick := none
  hiccupFrom : RailMode := .ramp
  flares : Byte := 0
  blocked : Byte := 0
  hiccups : Byte := 0
  timeouts : Byte := 0
  /-- The last mark; marks since which the shed, add and Ember conditions have held (R325, R326, R328). -/
  markAt : Tick := 0
  shedSince : Option Tick := none
  addSince : Option Tick := none
  emberSince : Option Tick := none
  /-- Tick since which the rail has stayed in REGULATE or EMBER (R336). -/
  regSince : Option Tick := none
  /-- RAMP waits for M0: marks that have passed without one (R316). -/
  m0Wait : Option Nat := none
  /-- Phases drained for a retile, not added again before their PARK (R175). -/
  drained : BitVec 64 := 0
  deriving DecidableEq, Repr

/-- Card states of R339. -/
inductive CardState where
  | absent | debounce | qualifying | qualified | failed
  deriving DecidableEq, Repr

/-- Where the qualification checks of R339 stand. -/
inductive QualStep where
  /-- Check 1: waiting for CARD_FLT_N high after being held low. -/
  | ready
  /-- Check 2: waiting for the ID pulse; in the pulse since a tick; holding high since its end. -/
  | idWait
  | idPulse (since : Tick)
  | idHold (since : Tick)
  /-- Check 3: waiting for 16 valid results of every member. -/
  | offset
  deriving DecidableEq, Repr

/-- One phase card CARD[s] (R337 to R339, R341). -/
structure Card where
  ofsTol : BitVec 16 := 64
  idExp : BitVec 4 := 0xF
  fail : Byte := 0
  idRead : BitVec 4 := 0
  state : CardState := .absent
  removals : BitVec 16 := 0
  since : Tick := 0
  qual : QualStep := .ready
  /-- CARD_FLT_N has been low since the card was put in (check 1). -/
  lowSeen : Bool := false
  deriving DecidableEq, Repr

/-! ## Protection (chapter 15) -/

/-- One trip block PROT.TRIP[n] (R343 to R347). -/
structure Trip where
  polSup : Bool := true
  thrSup : BitVec 10 := 0
  pol : Bool := false
  thr : BitVec 10 := 1023
  win : BitVec 11 := 64
  n : Byte := 8
  /-- WIN and N as they count in the present period: a write takes them at the phase's next valley (R363). -/
  winNow : BitVec 11 := 64
  nNow : Byte := 8
  total : BitVec 16 := 0
  count : Byte := 0
  active : Bool := false
  cmp : Bool := false
  latch : Bool := false
  /-- Limited carrier periods, newest first, at most 1024; the present period is limited (R346). -/
  periods : List Bool := []
  limited : Bool := false
  settleUntil : Option Tick := none
  /-- Stage A holds HI off on this phase for an overvoltage or ramp-tracking hold until the next rising edge of
      HI after the comparator's release (R351, R352). -/
  hold : Bool := false
  deriving DecidableEq, Repr

/-- One set of rail window comparators PROT.WIN[r] (R348 to R352). -/
structure Win where
  uvBelow : BitVec 16 := 0
  ovAct : Bool := true
  ovTh : BitVec 24 := 0
  rtAbove : BitVec 16 := 0
  rtBelow : BitVec 16 := 0
  uvCode : BitVec 10 := 0
  ovCode : BitVec 10 := 1023
  rtHiCode : BitVec 10 := 1023
  rtLoCode : BitVec 10 := 0
  /-- The edge was loaded with a threshold at the last forming of its code, not with the disabled code (R349). -/
  rtHiOn : Bool := false
  rtLoOn : Bool := false
  ovCount : Byte := 0
  rtCount : Byte := 0
  uv : Bool := false
  ov : Bool := false
  rtLo : Bool := false
  rtHi : Bool := false
  uvSettle : Option Tick := none
  ovSettle : Option Tick := none
  rtLoSettle : Option Tick := none
  rtHiSettle : Option Tick := none
  deriving DecidableEq, Repr

/-- One fault line with its filter, chatter and stuck detection (R359 to R362). -/
structure FLine where
  filt : Byte := 10
  low : Bool := false
  chatter : Bool := false
  stuck : Bool := false
  assertSince : Option Tick := none
  chatterSince : Option Tick := none
  deriving DecidableEq, Repr

/-- PROT block (R342 to R363). -/
structure Prot where
  trips : Vector Trip 64 := Vector.replicate 64 {}
  wins : Vector Win 8 := Vector.replicate 8 {}
  discTime : BitVec 10 := 100
  stops : BitVec 16 := 0
  cycled : Bool := false
  disc : Bool := false
  aStop : Bool := true
  bStop : Bool := true
  /-- Tick at which the present disagreement began (R356, R358). -/
  disSince : Option Tick := none
  dtime : Word := 0
  lines : Vector FLine 12 := Vector.replicate 12 {}
  stuckTime : BitVec 16 := 600
  deriving DecidableEq, Repr

/-! ## Set-points (chapter 16) -/

/-- One VTAB entry (R368). -/
structure VtabEnt where
  target : BitVec 24 := 0
  slew : BitVec 16 := 1000
  rails : Byte := 0
  cmask : BitVec 4 := 0xF
  code : BitVec 4 := 0
  deriving DecidableEq, Repr

/-- One set-point block SP[r] (R364 to R374). -/
structure Sp where
  ssSlew : BitVec 16 := 0
  src : BitVec 2 := 0
  target : BitVec 24 := 0
  slew : BitVec 16 := 1000
  trim : BitVec 16 := 0
  vmin : BitVec 24 := 0
  vmax : BitVec 24 := 0xFFFFFF
  slewing : Bool := false
  clamped : Bool := false
  noMatch : Bool := false
  entry : BitVec 4 := 0
  cmdMv : BitVec 24 := 0
  /-- The target in effect P in units of 2^-16 mV (R370). -/
  p : Int := 0
  /-- A VTAB entry has matched since the start; commanded target before limits and slew last in use (R369). -/
  matched : Bool := false
  lastTarget : Int := 0
  lastSlew : Nat := 1000
  deriving DecidableEq, Repr

/-- Set-point registers of the device (R364 to R375). -/
structure SetPt where
  vtab : Vector VtabEnt 16 := Vector.replicate 16 {}
  vsel : BitVec 4 := 0
  filt : Byte := 20
  /-- A code has been taken since the start (R367). -/
  taken : Bool := false
  sp : Vector Sp 8 := Vector.replicate 8 {}
  deriving DecidableEq, Repr

/-! ## Storage ports (chapter 17) -/

/-- Charge phases of STORE[p].STAT.PHASE. -/
inductive StPhase where
  | none | trickle | precharge | cc | cv | done | boost | stopped
  deriving DecidableEq, Repr

/-- One temperature window (R393). -/
structure TempWin where
  hi : BitVec 12
  lo : BitVec 12
  deriving DecidableEq, Repr

/-- One storage port STORE[p] (R376 to R399). -/
structure Port where
  openIn : Bool := false
  cold : Bool := false
  hot : Bool := false
  tempHold : Bool := false
  /-- First decision point of the running termination count (STAT.TERM). -/
  termSince : Option Tick := none
  stopCause : BitVec 2 := 0
  inreg : Bool := false
  safe : Bool := false
  phase : StPhase := .none
  wdTime : BitVec 10 := 60
  /-- Tick at which the Wick timer reaches 0; running or expired (R395, R396). -/
  wickAt : Option Tick := none
  /-- Ticks at which the stopped timer stands while the rail is OFF. -/
  wickStop : Nat := 0
  wickOut : Bool := false
  /-- The Wick fallback waits for the next decision point (R381). -/
  fallback : Bool := false
  preTime : BitVec 16 := 3600
  dwell : Byte := 10
  phaseLvl : Bool := false
  vTrickle : BitVec 24 := 0
  vPre : BitVec 24 := 0
  vCv : BitVec 24 := 0
  vRechg : BitVec 24 := 0
  iTrickle : BitVec 24 := 0
  iPre : BitVec 24 := 0
  iCc : BitVec 24 := 0
  termPct : BitVec 5 := 5
  tTerm : BitVec 16 := 600
  iSlew : BitVec 24 := 10000
  vInreg : BitVec 24 := 0
  vSup : BitVec 24 := 0
  iSup : BitVec 24 := 0
  vCutoff : BitVec 24 := 0
  safeIcc : BitVec 24 := 0
  safeVcv : BitVec 24 := 0
  tempAcc : Word := 0xFFFFFFFF
  tSlope : BitVec 16 := 0
  tOfs : BitVec 16 := 0
  tChg : TempWin := { hi := 360, lo := 0 }
  tSup : TempWin := { hi := 440, lo := 0xF60 }
  tDwell : Byte := 10
  hyst : Byte := 16
  hottest : BitVec 12 := 0x800
  coldest : BitVec 12 := 0x800
  iNow : Word := 0
  dones : Byte := 0
  wickOuts : Byte := 0
  tempHolds : Byte := 0
  recharges : Byte := 0
  /-- Tick at which the present phase began (PHASE_TIME). -/
  phaseSince : Tick := 0
  /-- Tick of the rail's entry into CHARGE or SUPPORT, and the next decision point's earliest tick (R380). -/
  entered : Tick := 0
  nextPoint : Option Tick := none
  /-- Consecutive points at which the present phase's DWELL condition held. -/
  dwellRun : Nat := 0
  /-- Consecutive points for setting or clearing HOT and COLD (R393). -/
  hotRun : Nat := 0
  coldRun : Nat := 0
  /-- Ticks spent in TRICKLE and PRECHARGE since the phase was taken, and the last point's tick (R384). -/
  preSpent : Nat := 0
  lastPoint : Tick := 0
  /-- The phase is still to be taken by R382 (VSTALE at entry), and the marks that have passed so (R316, R382). -/
  takePhase : Bool := false
  /-- The phase that is still to be taken resumes after DONE or STOPPED (R391). -/
  resumes : Bool := false
  staleMarks : Nat := 0
  /-- The fallback limits govern: SAFE, or SAFE cleared since the last decision point (R397). -/
  safeGov : Bool := false
  deriving DecidableEq, Repr

/-! ## Faults (chapter 18) -/

/-- One open entry (R410). -/
structure OpenEnt where
  level : Fin 5
  seq : Nat
  merges : BitVec 16 := 0
  escalations : Byte := 0
  deriving DecidableEq, Repr

/-- A fault seen and not yet matched: source, instance, its tick, origin and source detail (R400, R415). -/
structure Seen where
  src : SrcIx
  inst : PhaseIx
  tick : Tick
  forced : Bool
  detail : List Byte
  /-- TB_UNCERTAIN at that tick (R420). -/
  tbu : Bool := false
  deriving DecidableEq, Repr

/-- One fault source FSRC[k] (R400, R404, R405). -/
structure FSrc where
  status : Bool := false
  force : Bool := false
  /-- Instances whose real cause was present when last examined; bit 0 for a source of one instance. -/
  cause : BitVec 64 := 0
  /-- The phase whose forced cause the force bit holds (R405). -/
  forcedInst : PhaseIx := 0
  faults : BitVec 16 := 0
  last : Nat := 0
  /-- Rails that a fault of the source has reached with an action of 2 or above since its bit was last clear (R322). -/
  reach : Byte := 0
  deriving DecidableEq, Repr

/-- FAULT block (R400 to R419). -/
structure FaultMgr where
  src : Vector FSrc 256 := Vector.replicate 256 {}
  finstIlk : PhaseIx := 0
  finstTrip : PhaseIx := 0
  finstCm : PhaseIx := 0
  finstDl : PhaseIx := 0
  sel : Byte := 0
  /-- Open entries of each rail, by class, ascending. -/
  entries : Vector (List (BitVec 5 × OpenEnt)) 8 := Vector.replicate 8 []
  selRail : BitVec 3 := 0
  selCls : BitVec 5 := 0
  pend : Bool := false
  alertSeq : Nat := 0
  reactions : BitVec 16 := 0
  merges : BitVec 16 := 0
  /-- Faults seen in this command that the fault manager has still to take, and fabric events, each with its tick, still to be
      delivered (R296, R299, R409), both empty between commands; faults taken, whose reaction starts in the LOOP_CLK cycle after
      (R409). -/
  seen : List Seen := []
  due : List Seen := []
  events : List (BitVec 16 × Tick) := []
  deriving DecidableEq, Repr

/-! ## Lantern (chapter 19) -/

/-- One Lantern record (R420), fields in place of bytes. -/
structure Record where
  seq : Nat
  level : Fin 5
  isOpen : Bool := false
  tbu : Bool := false
  persisted : Bool := false
  ts : Tick
  code : BitVec 16
  source : BitVec 16
  count : BitVec 16 := 0
  suppressed : BitVec 16 := 0
  snapRef : Option (BitVec 16) := none
  data : List Byte := []
  link : BitVec 64 := 0
  lost : BitVec 16 := 0
  deriving DecidableEq, Repr

/-- A captured snapshot (R432). -/
structure Snap where
  seq : Nat
  list : Fin 8
  serial : BitVec 16
  tick : Tick
  values : List Word
  deriving DecidableEq, Repr

/-- The token bucket of one record code (R426, R427). A code without an entry has lost no token since the start. -/
structure Bucket where
  code : BitVec 16
  tokens : Nat
  suppressed : BitVec 16 := 0
  /-- A record of the code was suppressed since the last refill. -/
  recent : Bool := false
  deriving DecidableEq, Repr

/-- LOG block (R420 to R437). -/
structure Lantern where
  /-- Lantern RAM, ascending SEQ (R428). -/
  ram : List Record := []
  /-- RAM entries whose record a fault of the RAM would damage are absent: the records dropped from the persisted
      store and so reusable (R430). -/
  droppedSeqs : List Nat := []
  /-- The persisted store: occupied slots by slot number (R430), and the writer's pointer. -/
  store : List (Nat × Record) := []
  writePtr : Nat := 0
  /-- Slots that hold a damaged record: a reset cut their row write, or a recovery scan found them so (R429, R125). -/
  torn : List Nat := []
  /-- The 16 staging slots of 0x13_F800 to 0x13_FFFF, which of them wait for persistence, and the snapshots in
      MRAM (R432). -/
  staging : Vector (Option Snap) 16 := Vector.replicate 16 none
  /-- The bytes last captured into each slot: its words keep them (R513). -/
  staged : Vector (List Byte) 16 := Vector.replicate 16 []
  stagedBusy : BitVec 16 := 0
  snaps : List Snap := []
  /-- Next SEQ to number, and the reservation (R435). -/
  next : Nat := 1
  resv : Nat := 1
  floor : Nat := 0
  clears : Word := 0
  /-- The 58 bytes p of the newest record's LINK (R424), the tick at which it closes when open, and LINK of the
      newest closed record. -/
  chainP : List Byte := List.replicate 58 0
  openUntil : Tick := 0
  newestClosed : BitVec 64 := 0
  buckets : List Bucket := []
  /-- Tokens of a bucket that has no entry: RL_DEPTH, but for refills that a raised depth has still to bring (R426). -/
  fullTokens : Nat := 16
  repeatWin : Byte := 10
  rlDepth : Byte := 16
  rlRate : BitVec 16 := 100
  drops : Vector Word 5 := Vector.replicate 5 0
  suppressed : Word := 0
  gaps : Word := 0
  snapLost : Word := 0
  serial : BitVec 16 := 0
  /-- Records lost since the last persisted record (LOST of R420). -/
  lostPend : BitVec 16 := 0
  rselLo : Word := 0
  rselHi : BitVec 16 := 0
  selSeq : Nat := 0
  /-- LOG.SNAP_SEL.SERIAL; none until a snapshot is selected (R434). -/
  snapSel : Option (BitVec 16) := none
  /-- Step 9 of the last cold start could not read the persisted store (R137). -/
  storeBad : Bool := false
  deriving DecidableEq, Repr

/-! ## Trust (chapter 20) -/

/-- Owner slot states of R441. -/
inductive KeyState where
  | empty | installed | revoked | damaged
  deriving DecidableEq, Repr

/-- One owner key slot (R441): the 64-byte key, X then Y. -/
structure OwnerSlot where
  st : KeyState := .empty
  key : BitVec 512 := 0
  deriving DecidableEq, Repr

/-- What the trust engine is asked to do (R443); an ATTEST of records with the range it covers and the number of records in it (R455). -/
inductive TrustJob where
  | load | verify
  | token (bytes : List Byte)
  | attest (bytes : List Byte) (cover : Option (Nat × Nat × Nat) := none)
  deriving DecidableEq, Repr

/-- TRUST block (R438 to R457). -/
structure Trust where
  slots : Vector OwnerSlot 4 := Vector.replicate 4 {}
  claimOpen : Bool := true
  devkeyBad : Bool := false
  /-- How many challenges the DRBG has given; TRUST.CHAL is the model's free value at this count (R443, R451). -/
  chalCount : Nat := 0
  lastStatus : Byte := 0
  lastReason : Byte := 0
  lastSigner : Byte := 0
  lastKind : Byte := 0
  attStatus : Byte := 0
  /-- KIND of TRUST.LAST_ATTEST: its Cold and Warm entries are 0 (assumption 56). -/
  attKind : Byte := 0
  ownerSel : BitVec 2 := 0
  accepted : BitVec 16 := 0
  refused : BitVec 16 := 0
  /-- Jobs that hold leave, in the order it was granted, and the job waiting for leave. -/
  running : List TrustJob := []
  waiting : List TrustJob := []
  deriving DecidableEq, Repr

/-! ## Host link (chapter 21) -/

/-- A response frame (R461): SEQ, status, the EXPECT and EPOCH it was formed with, OP and payload. -/
structure Response where
  seq : Byte
  status : Byte
  expect : Byte
  epoch : Byte
  op : Byte
  payload : List Byte
  deriving DecidableEq, Repr

/-- A taken transaction (R465): its number and payload, and whether its response has been formed. -/
structure Taken where
  seq : Byte
  payload : List Byte
  done : Bool := false
  deriving DecidableEq, Repr

/-- A frame of the device (R461, R470): a SYNC_ACK carries the SEQ of the SYNC it answers, a NAK names EXPECT. -/
inductive TxFrame where
  | response (r : Response)
  | syncAck (seq status expect : Byte)
  | nak (status expect : Byte)
  deriving DecidableEq, Repr

/-- LINK block (R458 to R483). -/
structure Link where
  expect : Byte := 0
  window : List Taken := []
  replay : List Response := []
  rxSync : Bool := false
  epoch : BitVec 16 := 0
  frames : BitVec 16 := 0
  failed : BitVec 16 := 0
  discard : BitVec 16 := 0
  busy : BitVec 16 := 0
  naks : BitVec 16 := 0
  replays : BitVec 16 := 0
  syncLoss : BitVec 16 := 0
  /-- NAK interval of R466: the EXPECT named and the tick at which it ends. -/
  nakHold : Option (Byte × Tick) := none
  /-- Frames handed to the transmitter and not yet sent, oldest first. -/
  tx : List TxFrame := []
  /-- What the transmitter puts out (R459): the tick from which it has sent idle symbols, the PLL lock or the end of the last
      frame; whether the next frame waits out the four idle symbols, as every one does but the first after a start's lock; the
      last frame's symbols and the idle symbols between it and what stood before it. -/
  lineFrom : Tick := 0
  framed : Bool := false
  idles : Nat := 0
  line : List Symbol := []
  /-- Status and payload of the last transaction that completed execution, whoever asked for it. -/
  lastStatus : Byte := 0
  lastData : List Byte := []
  /-- The transaction that holds the link until its heavy operation ends (R478). -/
  holding : Bool := false
  /-- Tick at which RDY fell for a cause of bits 9 to 12, and from when to when it was low for one before, within the time of the longest
      frame (R468). -/
  rdyFell : Option Tick := none
  rdyLows : List (Tick × Tick) := []
  /-- The same for a full window, which has no grace: since when it stands full, and from when to when it did before. -/
  fullSince : Option Tick := none
  fulls : List (Tick × Tick) := []
  /-- Tick from which the link has been running: the PLL lock of the start, or the relock after a clock failure (R480, R481). -/
  upFrom : Tick := 0
  /-- LOOP_CLK cycle in which the last transaction completed; none executes in it any more (R478). -/
  doneCycle : Option Nat := none
  /-- Running disparity of the transmitter at the end of the last frame: positive (R458). -/
  rd : Bool := false
  deriving DecidableEq, Repr

/-! ## Chord (chapter 22) -/

/-- What the device last sent on one of its Chord transmitters. -/
inductive ChordTx where
  | probe (payload : List Byte) | echo (payload : List Byte) | down (f : DownFrame) (spoilt : Bool) | up (f : UpFrame) (spoilt : Bool)
  deriving DecidableEq, Repr

/-- What the head keeps of one position (R505, R507, R508). -/
structure PosTrack where
  /-- Consecutive incomplete sweeps without the position's report. -/
  missing : Nat := 0
  /-- Consecutive applied sweeps with its report since it went out of service. -/
  back : Nat := 0
  deriving DecidableEq, Repr

/-- The EVENT of a shared rail (R502) and how long it still excuses RAIL_STATE (R508). -/
structure RailEvent where
  pend : BitVec 2 := 0
  recent : Nat := 0
  deriving DecidableEq, Repr

/-- CHORD block (R484 to R511). -/
structure Chord where
  size : BitVec 4 := 0
  /-- STATUS.STATE: 0 FORMING, 1 WHOLE, 2 BROKEN, 3 DIVERGENT. -/
  st : BitVec 2 := 0
  free : Bool := false
  timeOk : Bool := false
  dnSync : Bool := false
  upSync : Bool := false
  posOvf : Bool := false
  loop : Bool := false
  enum : Bool := false
  head : Bool := false
  position : BitVec 3 := 0
  shMargin : Byte := 10
  ride : BitVec 16 := 100
  mismatchPos : Byte := 0
  oos : Byte := 0
  /-- Positions lost since the last mark, from which a report is expected until the next one (R505). -/
  lost : Byte := 0
  reach : Byte := 0
  cause : BitVec 6 := 0
  sweep : Word := 0
  applied : BitVec 16 := 0
  bad : BitVec 16 := 0
  slips : BitVec 16 := 0
  err : BitVec 16 := 0
  terr : Word := 0
  linkDn : BitVec 16 := 0
  fromHead : BitVec 16 := 0
  held : Byte := 0
  total : Vector Word 8 := Vector.replicate 8 0
  /-- Shared rails of a member that are armed (R501). -/
  armed : Byte := 0
  /-- What was last agreed for each chain rail: applied on a member, sent with HELD clear by the head. -/
  agreed : Vector ChainRail 8 := Vector.replicate 8 {}
  /-- HEAD_ID of the last DOWN applied, and its SIZE. -/
  headId : Option (BitVec 64) := none
  rxSize : Byte := 0
  /-- The head's sweep number, and the sweeps sent that no UP has settled, newest first. -/
  sent : Word := 0
  awaiting : List Word := []
  /-- Enumeration: consecutive intact sweeps with the same number of reports (R490). -/
  runReports : Nat := 0
  runCount : Nat := 0
  /-- Consecutive applied sweeps without a mismatch (R508). -/
  goodRun : Nat := 0
  pos : Vector PosTrack 8 := Vector.replicate 8 {}
  /-- DOWNs that still carry CHAIN_HOLD, reports that still carry HOLD_REQ (R504). -/
  holdMarks : Nat := 0
  holdReports : Nat := 0
  /-- On the head: the positions whose last report carried HOLD_REQ, so that the first of a request is told from its repeats (R504). -/
  holdFrom : Byte := 0
  /-- Tick of the last applied DOWN, and of the present entry into BROKEN. -/
  lastDown : Option Tick := none
  brokenSince : Option Tick := none
  /-- The member has left unjoined or a break and takes the time step at its first applied DOWN (R498). -/
  stepDue : Bool := true
  unjoined : Bool := false
  /-- Remaining slip error (R497), and correction waiting for the next valley (R496). -/
  slipLeft : Int := 0
  corr : Int := 0
  probeSent : Option Tick := none
  leftBoot : Option Tick := none
  upSyncAt : Option Tick := none
  events : Vector RailEvent 8 := Vector.replicate 8 {}
  txDn : Option ChordTx := none
  txUp : Option ChordTx := none
  deriving DecidableEq, Repr

/-! ## Banks, Leave governor and tests (chapter 23) -/

/-- The six kinds of heavy operation (R519). -/
inductive LeaveKind where
  | fgcal | rotation | mram | signature | selftest | phaseStart
  deriving DecidableEq, Repr

/-- A queued leave request (R521). -/
structure LeaveReq where
  kind : LeaveKind
  target : Byte
  arrival : Tick
  deriving DecidableEq, Repr

/-- A leave held (R520). -/
structure LeaveGrant where
  kind : LeaveKind
  target : Byte
  deriving DecidableEq, Repr

/-- LEAVE.COUNT and MAXWAIT of one kind. -/
structure LeaveCnt where
  maxwait : BitVec 16
  granted : BitVec 16 := 0
  refused : BitVec 16 := 0
  deriving DecidableEq, Repr

/-- LEAVE registers (R519 to R524). -/
structure Leave where
  cardMax : BitVec 4 := 2
  budget : BitVec 16 := 1000
  queue : List LeaveReq := []
  grants : List LeaveGrant := []
  cnt : Vector LeaveCnt 6 :=
    #v[{ maxwait := 100 }, { maxwait := 1 }, { maxwait := 50 }, { maxwait := 20 }, { maxwait := 10 }, { maxwait := 10 }]
  deriving DecidableEq, Repr

/-- Leases of bank 3 and the lease counters (R516, R517). -/
structure Banks where
  leaseSince : Option Tick := none
  pauseUntil : Tick := 0
  /-- The holder's operation ended before its release and is carried out again after the pause. -/
  redo : Bool := false
  /-- The housekeeping processor has had a lease since bank 3 was last overwritten with 0 (R513; assumption 101). -/
  hkWrote : Bool := false
  expiries : Vector Byte 4 := Vector.replicate 4 0
  revokes : Vector Byte 4 := Vector.replicate 4 0
  deriving DecidableEq, Repr

/-- TEST registers (R525 to R530). -/
structure Test where
  selPhase : PhaseIx := 0
  selBank : BitVec 2 := 0
  failWord : BitVec 14 := 0
  phaseRes : BitVec 4 := 0
  bankRes : BitVec 4 := 0
  /-- The shed-phase test: its phase and stage, and the valleys it has seen. -/
  phase : Option (PhaseIx × OpStage) := none
  /-- The mode of the phase's rail at acceptance; the test does not outlive it (R526). -/
  phaseIn : Option RailMode := none
  periods : Nat := 0
  bank : Option (BitVec 2 × OpStage) := none
  bist : Option Tick := none
  bistDone : Bool := false
  bistFailed : BitVec 4 := 0
  deriving DecidableEq, Repr

/-! ## The LOOP_CLK cycle (R12, R106) -/

/-- A W1C bit that hardware sets (R8, R12). -/
inductive W1cBit where
  | tbUncertain | disc | pend
  | ilk (n : PhaseIx) | overrun (dst : Nat) | safe (p : PortIx) | status (k : SrcIx)
  deriving DecidableEq, Repr

/-- A counter of the link that counted (R483): the counters of LINK by their register order. -/
inductive LinkCount where
  | frames | failed | discard | busy | naks | replays | syncLoss
  deriving DecidableEq, Repr

/-- What the present LOOP_CLK cycle has seen, and what stood at its start, for the rules that settle two happenings of one
    cycle: the model's own bookkeeping of R12, R40, R59, R221, R273, R290, R294, R295, R304, R321, R331, R362, R402, R423 and R483 (assumption 57). -/
structure Cyc where
  no : Nat := 0
  /-- W1C bits that hardware has set in the cycle. -/
  sets : List W1cBit := []
  /-- A reaction has taken the device to LATCHED; the rails that a fault reaction has taken to HICCUP or HOLD, and those that
      another trigger has. -/
  latched : Bool := false
  struck : Byte := 0
  stopped : Byte := 0
  /-- Mask bits set in the cycle, by phase: a clear of one of them leaves it set (R221). -/
  masks : List (PhaseIx × MaskBits) := []
  /-- Trackers whose window a timed close or a RESET has closed; windows as they stood before the cycle's first codes, and those codes. -/
  trkClosed : BitVec 64 := 0
  trkWas : List (TrkIx × TrkWin) := []
  trkOffers : List (TrkIx × List (Option Int × Tick)) := []
  /-- Contexts whose compute set a new maximum delay, and the bins of the computes completed. -/
  delays : BitVec 80 := 0
  bins : List (Fin 12) := []
  counts : List LinkCount := []
  /-- Hand-overs of the cycle, newest first: the context, the place of R314, P and whether it slews. -/
  handed : List (CtxIx × Nat × Option Int × Bool) := []
  /-- Event causes of the cycle, which are present in it alone (R402). -/
  raised : List (SrcIx × PhaseIx) := []
  /-- How many of the newest records are of this cycle and of rules that give them no order (R423). -/
  notes : Nat := 0
  /-- A transition of the device state has taken place in the cycle, and whether its record was written (R40). -/
  moved : Option Bool := none
  /-- Rails whose reference has had an update point in the cycle (R304); bits of SYS.PINLVL whose balls a command of the cycle has
      shown at the level taken (R59). -/
  points : Byte := 0
  pins : Word := 0
  /-- At the start of the cycle. -/
  cur : Tiling := {}
  rails : Vector Rail 8 := Vector.replicate 8 {}
  cards : Vector Card 8 := Vector.replicate 8 {}
  ctx : Vector Ctx 80 := Vector.replicate 80 {}
  lines : Vector FLine 12 := Vector.replicate 12 {}
  state : DevState := .boot
  deriving DecidableEq, Repr

/-! ## The machine -/

/-- Everything but the scratchpad bytes and the command queue. -/
structure Dev where
  sys : Sys := {}
  clk : Clk := {}
  tile : Tile := {}
  pwm : Vector Pwm 64 := Vector.replicate 64 {}
  pwmg : Pwmg := {}
  sense : Sense := {}
  loop : LoopEng := {}
  rails : Vector Rail 8 := Vector.replicate 8 {}
  cards : Vector Card 8 := Vector.replicate 8 {}
  prot : Prot := {}
  sp : SetPt := {}
  ports : Vector Port 4 := Vector.replicate 4 {}
  fault : FaultMgr := {}
  lantern : Lantern := {}
  trust : Trust := {}
  link : Link := {}
  chord : Chord := {}
  leave : Leave := {}
  banks : Banks := {}
  test : Test := {}
  cyc : Cyc := {}
  /-- The model's own counter of free values taken (not the spec's). -/
  free : Nat := 0
  deriving DecidableEq, Repr

/-- The machine: the device, the bytes of the scratchpad banks (R512), and the commands that wait, first in first
    out. -/
structure State where
  dev : Dev := {}
  mem : List Host.Cell := []
  pending : List Instr := []
  deriving DecidableEq, Repr

/-- The reasons a step can stop the machine: none. Every access the spec refuses completes with a status. -/
inductive Fault where
  deriving DecidableEq, Repr

/-- The reasons for a refusal. -/
inductive Refusal where
  /-- Raised by `exec` for a command without a meaning, by its mnemonic. Safe: the machine stops. -/
  | notModelled (mnemonic : String)
  deriving DecidableEq, Repr

/-- The machine right after reset: powered on, in BOOT, before the cold start of R119 has run; every register at its
    Cold entry, MRAM as vendor test leaves it (R534). -/
def State.reset : State := {}

end Sys2Proof.Machine
end

