-- ==== Sys2Proof/Machine/Bits.lean ====
section
/-! DEFINITION. Bit fields, byte strings, roundings and vector updates used by every chapter. -/

namespace Sys2Proof.Machine

/-- Apply `f` to one component. -/
def upd {α : Type} {n : Nat} (v : Vector α n) (i : Fin n) (f : α → α) : Vector α n := v.set i (f v[i])

/-- Apply `f` to every component. -/
def mapV {α : Type} {n : Nat} (v : Vector α n) (f : Fin n → α → α) : Vector α n := Vector.ofFn fun i => f i v[i]

/-- Bit `i` set to `b`. -/
def setBit {w : Nat} (x : BitVec w) (i : Nat) (b : Bool) : BitVec w :=
  if b then x ||| (1#w <<< i) else x &&& ~~~(1#w <<< i)

/-- Bits [lo + n - 1 : lo] of a word. -/
def fld (v : Word) (lo n : Nat) : BitVec n := v.extractLsb' lo n

/-- A field placed at bit `lo` of a word. -/
def at' {w : Nat} (x : BitVec w) (lo : Nat) : Word := x.setWidth 32 <<< lo

/-- A flag placed at bit `lo` of a word. -/
def bitAt (b : Bool) (lo : Nat) : Word := if b then 1#32 <<< lo else 0

/-- The mask of the indices that satisfy `p`. -/
def maskOf (w : Nat) {n : Nat} (p : Fin n → Bool) : BitVec w :=
  (List.finRange n).foldl (fun m i => if p i then m ||| (1#w <<< i.val) else m) 0

/-- Number of bits set. -/
def popCount {w : Nat} (x : BitVec w) : Nat := ((List.range w).filter fun i => x.getLsbD i).length

/-- Index of the lowest bit set (R20). -/
def lowBit {w : Nat} (x : BitVec w) : Option Nat := (List.range w).find? fun i => x.getLsbD i

/-- Rounding of num / den half-even (R4), den positive. -/
def rhe (num : Int) (den : Nat) : Int :=
  let q := num / (den : Int)
  let r := num % (den : Int)
  if 2 * r < den then q else if (den : Int) < 2 * r then q + 1 else if q % 2 = 0 then q else q + 1

/-- Value forced into lo … hi. -/
def clampI (lo hi x : Int) : Int := if x < lo then lo else if hi < x then hi else x

/-- Saturation to a signed number of `w` bits. -/
def satS (w : Nat) (x : Int) : BitVec w := BitVec.ofInt w (clampI (-(2 ^ (w - 1))) (2 ^ (w - 1) - 1) x)

/-- Saturation to an unsigned number of `w` bits. -/
def satU (w : Nat) (x : Int) : BitVec w := BitVec.ofInt w (clampI 0 (2 ^ w - 1) x)

/-- A count that holds at the largest value of `w` bits. -/
def satN (w : Nat) (x : Nat) : BitVec w := BitVec.ofNat w (min x (2 ^ w - 1))

/-- The bytes of a number, `n` of them, least significant first (R5). -/
def leBytes (n x : Nat) : List Byte := (List.range n).map fun i => BitVec.ofNat 8 (x >>> (8 * i))

/-- The number whose bytes are given least significant first. -/
def leNat : List Byte → Nat
  | [] => 0
  | b :: bs => b.toNat + 256 * leNat bs

/-- The bytes of a number, `n` of them, most significant first. -/
def beBytes (n x : Nat) : List Byte := (leBytes n x).reverse

/-- The number whose bytes are given most significant first. -/
def beNat (bs : List Byte) : Nat := bs.foldl (fun a b => a * 256 + b.toNat) 0

/-- `n` bytes from offset `o`; bytes beyond the end read 0. -/
def slice (bs : List Byte) (o n : Nat) : List Byte :=
  let xs := (bs.drop o).take n
  xs ++ List.replicate (n - xs.length) 0

/-- One byte of a string; 0 beyond its end. -/
def byteAt (bs : List Byte) (o : Nat) : Byte := bs.getD o 0

/-- Little-endian number of `n` bytes at offset `o`. -/
def numAt (bs : List Byte) (o n : Nat) : Nat := leNat (slice bs o n)

/-- Little-endian word at offset `o`. -/
def wordAt (bs : List Byte) (o : Nat) : Word := BitVec.ofNat 32 (numAt bs o 4)

/-- All bytes zero. -/
def allZero (bs : List Byte) : Bool := bs.all fun b => b == 0

/-- The ticks of one millisecond, microsecond, LOOP_CLK cycle (R6, R42, R104). -/
abbrev msTicks : Nat := 480000
abbrev usTicks : Nat := 480
abbrev cycTicks : Nat := 2

/-! ## Checksums, over plain numbers below 2^32 -/

/-- `f n`, with `n` evaluated to a numeral before it is passed on. -/
def forced {α : Type} (n : Nat) (f : Nat → α) : α := match n with
  | 0 => f 0
  | k + 1 => f (k + 1)

/-- One bit of a CRC with a reflected polynomial: a shift, and the polynomial added where the bit shifted out is 1. -/
def crcStep (poly c : Nat) : Nat := Nat.xor (Nat.shiftRight c 1) (Nat.mul poly (Nat.mod c 2))

/-- One byte of a CRC. -/
def crcByte (poly c : Nat) (b : Byte) : Nat :=
  let s := crcStep poly
  s (s (s (s (s (s (s (s (Nat.xor c b.toNat))))))))

/-- A byte string, from a given remainder. -/
def crcFold (poly : Nat) : List Byte → Nat → Nat
  | [], c => c
  | b :: bs, c => forced (crcByte poly c b) (crcFold poly bs)

/-- CRC-32 of IEEE 802.3 (R462). -/
def crc32 (bs : List Byte) : BitVec 32 := ~~~(BitVec.ofNat 32 (crcFold 0xEDB88320 bs 0xFFFFFFFF))

/-- CRC-32C (R420, R140). -/
def crc32c (bs : List Byte) : BitVec 32 := ~~~(BitVec.ofNat 32 (crcFold 0x82F63B78 bs 0xFFFFFFFF))

end Sys2Proof.Machine
end

