-- ==== Sys2Proof/Machine/Scratch.lean ====
section
/-! DEFINITION. The bytes of scratchpad banks 0 to 2 (R512, R513): an address not listed reads 0, and no listed byte is 0. -/

namespace Sys2Proof.Machine

open Sys2Proof

/-- The scratchpad range, and the part of it that a host may write (R512). -/
abbrev scratchBase : Nat := 0x100000
abbrev bank3Base : Nat := 0x130000
abbrev stageBase : Nat := 0x13F800
abbrev scratchEnd : Nat := 0x140000

/-- One byte. -/
def Memory.read : List Host.Cell → Nat → Byte
  | [], _ => 0
  | c :: m, a => if c.1 = a then c.2 else Memory.read m a

/-- One byte written; a 0 is not listed. -/
def Memory.write : List Host.Cell → Nat → Byte → List Host.Cell
  | [], a, v => if v = 0 then [] else [(a, v)]
  | c :: m, a, v =>
    if a < c.1 then (if v = 0 then c :: m else (a, v) :: c :: m)
    else if a = c.1 then (if v = 0 then m else (a, v) :: m)
    else c :: Memory.write m a v

/-- One word, least significant byte first (R5). -/
def Memory.word (m : List Host.Cell) (a : Nat) : Word :=
  (Memory.read m (a + 3)) ++ (Memory.read m (a + 2)) ++ (Memory.read m (a + 1)) ++ (Memory.read m a)

/-- One word written. -/
def Memory.setWord (m : List Host.Cell) (a : Nat) (v : Word) : List Host.Cell :=
  Memory.write (Memory.write (Memory.write (Memory.write m a (v.extractLsb' 0 8)) (a + 1) (v.extractLsb' 8 8)) (a + 2) (v.extractLsb' 16 8))
    (a + 3) (v.extractLsb' 24 8)

/-- Addresses ascend from one above `lo`, lie in banks 0 to 2, and no byte is 0. -/
def Memory.above : Nat → List Host.Cell → Bool
  | _, [] => true
  | lo, c :: m => decide (lo ≤ c.1) && decide (c.1 < bank3Base) && c.2 != 0 && Memory.above (c.1 + 1) m

/-- The canonical form. -/
def Memory.wf (m : List Host.Cell) : Bool := Memory.above scratchBase m

end Sys2Proof.Machine
end

