-- ==== Sys2Proof/Config.lean ====
section
/-! DEFINITION. What one device or one run fixes and the spec leaves open: fuses and vendor-test contents, secrets, and
    the free values. Each is opaque: no proof can see a value of it. -/

namespace Sys2Proof

/-- SHA-256 of the vendor root key, in fuses (R439). -/
opaque Config.rootHash : BitVec 256
/-- TRUST.FWVER of the firmware in the device (chapter 20). -/
opaque Config.fwver : Word
/-- SERIAL and the vendor root's signature (r then s) of the device certificate (R440). -/
opaque Config.serial : BitVec 64
opaque Config.certSig : BitVec 512
/-- What the device's private key is made of (R438): a secret of the device. -/
opaque Config.deviceSeed : BitVec 256
/-- The challenge of TRUST.CHAL, the i-th the DRBG gives (R443, R451). -/
opaque Config.challenge : Nat → BitVec 128
/-- Spare column repair of bank b (R518): REPAIR_A, REPAIR_B. -/
opaque Config.repairA : Fin 4 → Word
opaque Config.repairB : Fin 4 → Word
/-- The sequence number a record carries for a record that was not numbered, the i-th time. -/
opaque Config.noSeq : Nat → BitVec 48
/-- The levels of CARD_FLT_N, EXT_FLT_N, VSEL, SAFE_B and SAFE_A_N before their filters in a LOOP_CLK cycle, at the bits of SYS.PINLVL
    (R57, R59). -/
opaque Config.ballLevels : Nat → Word
/-- A free value: the i-th one the run takes. -/
opaque Config.freeWord : Nat → Word

end Sys2Proof
end

