-- ==== Sys2Proof/Machine/Crypto.lean ====
section
/-! DEFINITION. SHA-256, and the verification and the making of an ECDSA P-256 signature, which the manual names and whose
    definitions it takes as known (R143, R440, R443, R445). PRESUMED (assumption 6): the constants are those of the
    published standards. -/

namespace Sys2Proof.Machine

/-- Sum of 32-bit words, which are plain numbers below 2^32 here. -/
def add32 (a b : Nat) : Nat := Nat.mod (Nat.add a b) 4294967296

/-- Rotation to the right of a 32-bit word by fewer than 32 places. -/
def rotr (x k : Nat) : Nat := Nat.lor (Nat.shiftRight x k) (Nat.mod (Nat.shiftLeft x (Nat.sub 32 k)) 4294967296)

def xor3 (a b c : Nat) : Nat := Nat.xor (Nat.xor a b) c

/-- The largest number below 2^n whose power `e` is at most `x`, bit by bit from the highest. -/
def rootBits (e x : Nat) : Nat → Nat → Nat
  | 0, r => r
  | n + 1, r =>
    let y := Nat.add r (Nat.pow 2 n)
    rootBits e x n (cond (Nat.ble (Nat.pow y e) x) y r)

/-- The first 32 bits of the fraction of a root of a small prime: FIPS 180-4 gives its constants so. -/
def rootFrac (e p : Nat) : Nat := Nat.mod (rootBits e (Nat.mul p (Nat.pow 2 (Nat.mul 32 e))) 37 0) 4294967296

/-- The first 64 primes. -/
def smallPrimes : List Nat :=
  [2, 3, 5, 7, 11, 13, 17, 19, 23, 29, 31, 37, 41, 43, 47, 53,
   59, 61, 67, 71, 73, 79, 83, 89, 97, 101, 103, 107, 109, 113, 127, 131,
   137, 139, 149, 151, 157, 163, 167, 173, 179, 181, 191, 193, 197, 199, 211, 223,
   227, 229, 233, 239, 241, 251, 257, 263, 269, 271, 277, 281, 283, 293, 307, 311]

/-- The constant of round j: from the cube root of the j-th prime. -/
def shaK : List Nat := smallPrimes.map (rootFrac 3)

/-- The chaining value before the first block: from the square roots of the first eight primes. -/
def shaInit : List Nat := (smallPrimes.take 8).map (rootFrac 2)

/-- Message padding to a multiple of 64 bytes. -/
def shaPad (bs : List Byte) : List Byte :=
  let r := (bs.length + 9) % 64
  bs ++ 0x80 :: (List.replicate ((64 - r) % 64) 0 ++ beBytes 8 (8 * bs.length))

/-- Steps of the message schedule, newest word first. -/
def shaSched : Nat → List Nat → List Nat
  | 0, w => w
  | n + 1, w =>
    let a := w.getD 14 0
    let b := w.getD 1 0
    let s0 := xor3 (rotr a 7) (rotr a 18) (Nat.shiftRight a 3)
    let s1 := xor3 (rotr b 17) (rotr b 19) (Nat.shiftRight b 10)
    shaSched n (add32 (add32 (w.getD 15 0) s0) (add32 (w.getD 6 0) s1) :: w)

/-- The rounds of one block: a round for each constant and schedule word. -/
def shaRounds : List Nat → List Nat → Nat → Nat → Nat → Nat → Nat → Nat → Nat → Nat → List Nat
  | k :: ks, w :: ws, a, b, c, d, e, f, g, h =>
    let s1 := xor3 (rotr e 6) (rotr e 11) (rotr e 25)
    let t1 := add32 (add32 (add32 h s1) (Nat.xor (Nat.land e f) (Nat.land (Nat.sub 4294967295 e) g))) (add32 k w)
    let s0 := xor3 (rotr a 2) (rotr a 13) (rotr a 22)
    let t2 := add32 s0 (xor3 (Nat.land a b) (Nat.land a c) (Nat.land b c))
    shaRounds ks ws (add32 t1 t2) a b c (add32 d t1) e f g
  | _, _, a, b, c, d, e, f, g, h => [a, b, c, d, e, f, g, h]

/-- The 16 words of a block, most significant byte first. -/
def shaWords (blk : List Byte) : List Nat := (List.range 16).map fun i => beNat ((blk.drop (4 * i)).take 4)

/-- Every number of a list, each evaluated before the list is passed on; `acc` holds those done, the last first. -/
def forcedAll : List Nat → List Nat → List Nat
  | [], acc => acc.reverse
  | x :: xs, acc => forced x fun y => forcedAll xs (y :: acc)

/-- One block. -/
def shaBlock (hash : List Nat) (blk : List Byte) : List Nat := match hash with
  | [a, b, c, d, e, f, g, h] =>
    let w := (shaSched 48 (shaWords blk).reverse).reverse
    forcedAll (List.zipWith add32 hash (shaRounds shaK w a b c d e f g h)) []
  | _ => hash

/-- All blocks; the fuel is their number. -/
def shaBlocks : Nat → List Nat → List Byte → List Nat
  | 0, h, _ => h
  | n + 1, h, bs => shaBlocks n (shaBlock h (bs.take 64)) (bs.drop 64)

/-- SHA-256 of a byte string. -/
def sha256 (bs : List Byte) : List Byte :=
  let p := shaPad bs
  (shaBlocks (p.length / 64) shaInit p).flatMap fun w => beBytes 4 w

/-- Powers modulo m by squaring; the fuel bounds the bits of the exponent. -/
def powMod (m : Nat) : Nat → Nat → Nat → Nat
  | 0, _, _ => 1
  | n + 1, b, e =>
    let r := powMod m n (b * b % m) (e / 2)
    if e % 2 = 1 then b * r % m else r

/-- P-256: the field prime, the order, the coefficient b and the base point. -/
def p256p : Nat := 0xffffffff00000001000000000000000000000000ffffffffffffffffffffffff
def p256n : Nat := 0xffffffff00000000ffffffffffffffffbce6faada7179e84f3b9cac2fc632551
def p256b : Nat := 0x5ac635d8aa3a93e7b3ebbd55769886bc651d06b0cc53b0f63bce3c3e27d2604b
def p256g : Nat × Nat := (0x6b17d1f2e12c4247f8bce6e563a440f277037d812deb33a0f4a13945d898c296, 0x4fe342e2fe1a7f9b8ee7eb4a7c0f9e162bce33576b315ececbb6406837bf51f5)

/-- Inverse modulo a prime. -/
def invMod (m x : Nat) : Nat := powMod m 256 (x % m) (m - 2)

/-- Difference modulo p. -/
def subP (a b : Nat) : Nat := (a + p256p - b % p256p) % p256p

/-- Sum of two points of the curve; `none` is the point at infinity. -/
def p256Add : Option (Nat × Nat) → Option (Nat × Nat) → Option (Nat × Nat)
  | none, q => q
  | p, none => p
  | some (x1, y1), some (x2, y2) =>
    if x1 = x2 ∧ (y1 + y2) % p256p = 0 then none
    else
      let l := if x1 = x2 then (3 * x1 * x1 + (p256p - 3)) % p256p * invMod p256p (2 * y1) % p256p
        else subP y2 y1 * invMod p256p (subP x2 x1) % p256p
      let x := subP (subP (l * l % p256p) x1) x2
      some (x, subP (l * subP x1 x % p256p) y1)

/-- Scalar multiple of a point; the fuel bounds the bits of the scalar. -/
def p256Mul : Nat → Nat → Option (Nat × Nat) → Option (Nat × Nat)
  | 0, _, _ => none
  | n + 1, k, p =>
    let r := p256Mul n (k / 2) (p256Add p p)
    if k % 2 = 1 then p256Add p r else r

/-- A key is valid when its point lies on the curve (R441). -/
def keyValid (key : BitVec 512) : Bool :=
  let x := key.toNat / 2 ^ 256
  let y := key.toNat % 2 ^ 256
  decide (x < p256p) && decide (y < p256p) &&
    decide (y * y % p256p = (x * x * x + (p256p - 3) * x + p256b) % p256p)

/-- ECDSA P-256 over SHA-256: does the signature (r then s) of the message verify under the key? -/
def ecdsaVerify (key : BitVec 512) (msg : List Byte) (sig : BitVec 512) : Bool :=
  let r := sig.toNat / 2 ^ 256
  let s := sig.toNat % 2 ^ 256
  let z := beNat (sha256 msg)
  let w := invMod p256n s
  let q := some (key.toNat / 2 ^ 256, key.toNat % 2 ^ 256)
  decide (0 < r ∧ r < p256n ∧ 0 < s ∧ s < p256n) && keyValid key &&
    match p256Add (p256Mul 256 (z * w % p256n) (some p256g)) (p256Mul 256 (r * w % p256n) q) with
    | some (x, _) => decide (x % p256n = r)
    | none => false

/-- HMAC with SHA-256, of a key of at most 64 bytes (FIPS 198-1). -/
def hmac (key msg : List Byte) : List Byte :=
  let k := key ++ List.replicate (64 - key.length) 0
  sha256 (k.map (· ^^^ 0x5C) ++ sha256 (k.map (· ^^^ 0x36) ++ msg))

/-- A signature with the nonce k: r and s; none where one of them is 0 (FIPS 186-5). -/
def ecdsaWith (x z k : Nat) : Option (Nat × Nat) := match p256Mul 256 k (some p256g) with
  | some (px, _) =>
    let r := px % p256n
    let s := invMod p256n k * ((z + r * x) % p256n) % p256n
    if r = 0 ∨ s = 0 then none else some (r, s)
  | none => none

/-- The nonces of RFC 6979 3.2 h, one after another, until one signs. The chance that a nonce does not is below 2^-32: the fuel is never
    used up. -/
def rfc6979 (x z : Nat) (key v : List Byte) : Nat → Nat × Nat
  | 0 => (0, 0)
  | n + 1 =>
    let v := hmac key v
    let k := beNat v
    match if 1 ≤ k ∧ k < p256n then ecdsaWith x z k else none with
    | some rs => rs
    | none =>
      let key := hmac key (v ++ [0])
      rfc6979 x z key (hmac key v) n

/-- ECDSA P-256 over SHA-256 with the nonce of RFC 6979: r then s (R443). -/
def ecdsaSign (x : Nat) (msg : List Byte) : BitVec 512 :=
  let z := beNat (sha256 msg)
  let seed := beBytes 32 x ++ beBytes 32 (z % p256n)
  let v := List.replicate 32 1
  let key := hmac (List.replicate 32 0) (v ++ 0 :: seed)
  let v := hmac key v
  let key := hmac key (v ++ 1 :: seed)
  let v := hmac key v
  let rs := rfc6979 x z key v 16
  BitVec.ofNat 512 (rs.1 * 2 ^ 256 + rs.2)

/-- The public key of a private one: X then Y. -/
def publicKey (x : Nat) : BitVec 512 := match p256Mul 256 x (some p256g) with
  | some (px, py) => BitVec.ofNat 512 (px * 2 ^ 256 + py)
  | none => 0

/-- The device's private key, a number from 1 to n - 1, and its public key (R438, R440). -/
def deviceSecret : Nat := Config.deviceSeed.toNat % (p256n - 1) + 1
def deviceKey : BitVec 512 := publicKey deviceSecret

end Sys2Proof.Machine
end

