-- ==== Sys2Proof/Machine/Ops.lean ====
section
/-! DEFINITION. The operations every chapter shares: the passing of time, the causes of fault sources, fabric events,
    the queue of the Leave governor, and the Lantern's journal. -/

namespace Sys2Proof.Machine

open Sys2Proof

/-- The 64-bit time base at a tick (R111, R115, R116): a change by discipline or a step shows from the tick after. -/
def Clk.tbAt (c : Clk) (t : Tick) : Nat :=
  let before : Int := match c.adjAt with
    | some (a, k) => if t ≤ a then k else 0
    | none => 0
  (t + c.off - before).toNat

/-- The whole LOOP_CLK cycles in a change of the time base, in ticks. -/
def wholeCycles (k : Int) : Int := 2 * k.tdiv 2

/-- The LOOP_CLK cycle of a tick (R106): two ticks 2m and 2m + 1 of the time base. The numbers go on through a step of the time base,
    which leaves the next cycle a new one (R116). -/
def Clk.cycleAt (c : Clk) (t : Tick) : Nat :=
  let before : Int := match c.adjAt with
    | some (a, k) => if t ≤ a then wholeCycles k else 0
    | none => 0
  ((c.tbAt t : Int) - (c.turn - before)).toNat / 2

/-- The LOOP_CLK cycle of the present tick. -/
def Dev.cycle (d : Dev) : Nat := d.clk.cycleAt d.clk.now

/-- The first tick of the present LOOP_CLK cycle, which a withheld count makes three ticks long (R115). -/
def Dev.cycleTick (d : Dev) : Tick :=
  let n := d.clk.now
  if 2 ≤ n ∧ d.clk.cycleAt (n - 2) = d.cycle then n - 2 else if 1 ≤ n ∧ d.clk.cycleAt (n - 1) = d.cycle then n - 1 else n

/-- The first tick of the next LOOP_CLK cycle. -/
def Dev.nextCycle (d : Dev) : Tick :=
  let n := d.clk.now
  if d.clk.cycleAt (n + 1) ≠ d.cycle then n + 1 else if d.clk.cycleAt (n + 2) ≠ d.cycle then n + 2 else n + 3

/-- A new LOOP_CLK cycle: nothing has happened in it, and the start values are those that stand. -/
def Dev.openCycle (d : Dev) : Dev := { d with cyc := { no := d.cycle, cur := d.tile.cur, rails := d.rails, cards := d.cards, ctx := d.loop.ctx, lines := d.prot.lines, state := d.sys.devState } }

/-- The tick to which a command at tick `t` moves the count: on the backup oscillator a whole number of edges of 12 ticks from
    the failure on (R111). -/
def Clk.reach (c : Clk) (t : Tick) : Tick := match c.backupFrom with
  | some f => if c.onBackup then max c.now (f + (t - f) / 12 * 12) else max c.now t
  | none => max c.now t

/-- Time passes to tick `t`; the time base never runs back (R111). -/
def Dev.clockTo (d : Dev) (t : Tick) : Dev :=
  let d : Dev := { d with clk := { d.clk with now := d.clk.reach t } }
  if d.cycle = d.cyc.no then d else d.openCycle

/-- The time base. -/
def Dev.tb (d : Dev) : Nat := d.clk.tbAt d.clk.now

/-- A SLICE_CLK edge; the last LOOP_CLK cycle of an HK_CLK cycle; the number of the HK_CLK cycle of a tick (R106). -/
def Dev.sliceEdge (d : Dev) : Bool := d.tb % 6 == 0
def Dev.hkLast (d : Dev) : Bool := decide (10 ≤ d.tb % 12)
def Clk.hkCycle (c : Clk) (t : Tick) : Nat := c.tbAt t / 12

/-- The first SLICE_CLK edge at or after a tick (R106). -/
def Clk.edgeFrom (c : Clk) (t : Tick) : Tick := t + (6 - c.tbAt t % 6) % 6

/-- A bit of a register. -/
def pinBit (i : Nat) : Word := setBit 0 i true

/-- A command shows the level of balls before their filters: the bits of SYS.PINLVL (R57, R59). -/
def Dev.showPin (d : Dev) (mask : Word) : Dev := { d with cyc := { d.cyc with pins := d.cyc.pins ||| mask } }

/-- Hardware sets a W1C bit in this cycle (R12), and whether it has. -/
def Dev.setsBit (d : Dev) (b : W1cBit) : Dev := { d with cyc := { d.cyc with sets := b :: d.cyc.sets } }
def Dev.bitSetNow (d : Dev) (b : W1cBit) : Bool := d.cyc.no == d.cycle && d.cyc.sets.contains b

/-- The next free value of the run. -/
def Dev.fresh (d : Dev) : Word × Dev := (Config.freeWord d.free, { d with free := d.free + 1 })

/-- A value carried in a signed 32-bit field. Where it does not fit, the spec states no result and the value is free
    (assumption 4). -/
def Dev.fit (d : Dev) (x : Int) : Word × Dev :=
  if -(2 ^ 31) ≤ x ∧ x < 2 ^ 31 then (BitVec.ofInt 32 x, d) else d.fresh

/-! ## Fault sources: the indices of R401 -/

abbrev srcRefLoss : SrcIx := 0x00
abbrev srcUnlock : SrcIx := 0x01
abbrev srcDieHot : SrcIx := 0x02
abbrev srcDieOvertemp : SrcIx := 0x03
abbrev srcJtag : SrcIx := 0x04
abbrev srcSafeStop : SrcIx := 0x05
abbrev srcSafeDisc : SrcIx := 0x06
abbrev srcCalBad : SrcIx := 0x07
abbrev srcOverrun : SrcIx := 0x08
abbrev srcSlip : SrcIx := 0x09
abbrev srcDivergent : SrcIx := 0x0A
abbrev srcInterlock : SrcIx := 0x10
abbrev srcTripLatch : SrcIx := 0x11
abbrev srcIsnsCm : SrcIx := 0x12
abbrev srcDline : SrcIx := 0x13
/-- Sources that come one per rail, quad, slot, input or port: base plus index. -/
def srcAt (base i : Nat) : SrcIx := Fin.ofNat 256 (base + i)
abbrev srcRailOv (r : RailIx) : SrcIx := srcAt 0x20 r
abbrev srcRampTrack (r : RailIx) : SrcIx := srcAt 0x28 r
abbrev srcFlareTimeout (r : RailIx) : SrcIx := srcAt 0x30 r
abbrev srcHiccupLimit (r : RailIx) : SrcIx := srcAt 0x38 r
abbrev srcUnderphased (r : RailIx) : SrcIx := srcAt 0x40 r
abbrev srcLoopInput (r : RailIx) : SrcIx := srcAt 0x48 r
abbrev srcSumInvalid (r : RailIx) : SrcIx := srcAt 0x50 r
abbrev srcVselNomatch (r : RailIx) : SrcIx := srcAt 0x58 r
abbrev srcChordBreak (r : RailIx) : SrcIx := srcAt 0x60 r
abbrev srcSliceFail (q : QuadIx) : SrcIx := srcAt 0x68 q
abbrev srcDegraded (q : QuadIx) : SrcIx := srcAt 0x6C q
abbrev srcSeqMiss (q : QuadIx) : SrcIx := srcAt 0x70 q
abbrev srcAuxOpen (q : QuadIx) (k : Fin 4) : SrcIx := srcAt 0x74 (4 * q + k)
abbrev srcCardRemoved (s : CardIx) : SrcIx := srcAt 0x84 s
abbrev srcCardQual (s : CardIx) : SrcIx := srcAt 0x8C s
abbrev srcCardFault (s : CardIx) : SrcIx := srcAt 0x94 s
abbrev srcExtFault (i : Fin 4) : SrcIx := srcAt 0x9C i
abbrev srcChatter (x : LineIx) : SrcIx := srcAt 0xA0 x
abbrev srcStuck (x : LineIx) : SrcIx := srcAt 0xAC x
abbrev srcWickOut (p : PortIx) : SrcIx := srcAt 0xB8 p
abbrev srcStoreTemp (p : PortIx) : SrcIx := srcAt 0xBC p
abbrev srcStoreTimeout (p : PortIx) : SrcIx := srcAt 0xC0 p
abbrev srcStoreExhausted (p : PortIx) : SrcIx := srcAt 0xC4 p

/-- The defined indices of R401. -/
def srcDefined (k : SrcIx) : Bool :=
  k.val ≤ 0x0A || (0x10 ≤ k.val && k.val ≤ 0x13) || (0x20 ≤ k.val && k.val ≤ 0xC7)

/-- The sources whose causes stand per phase (R404). -/
def srcPerPhase (k : SrcIx) : Bool := 0x10 ≤ k.val && k.val ≤ 0x13

/-! ## The structure: what the running image says of phases and rails -/

/-- The rail of phase `n` in the running structure (R145). -/
def Dev.railOf (d : Dev) (n : PhaseIx) : Option RailIx := d.tile.cur.phases[n].rail

/-- The member phases of rail `r`, ascending. -/
def Dev.members (d : Dev) (r : RailIx) : List PhaseIx :=
  (List.finRange 64).filter fun n => d.railOf n == some r

/-- The slot of a phase's card (R60): eight phases a slot. -/
def cardOf (n : PhaseIx) : CardIx := Fin.ofNat 8 (n.val / 8)

/-- The quad of a phase (R32): sixteen phases a quad. -/
def quadOf (n : PhaseIx) : QuadIx := Fin.ofNat 4 (n.val / 16)

/-- The rail is defined by the running structure. -/
def Dev.railDefined (d : Dev) (r : RailIx) : Bool := d.tile.cur.rails[r].isSome

/-- The storage port of a rail, if its STORAGE section names the rail. -/
def Dev.portOf (d : Dev) (r : RailIx) : Option PortIx :=
  (List.finRange 4).find? fun p => match d.tile.cur.stores[p] with
    | some s => s.rail == r
    | none => false

/-- The rail, quad or port of a source is defined by the running image; another source has none (R401). A quad is defined by its
    SEQUENCE section (R144); in UNTILED the sources of the quads stand as R401's column has them. -/
def Dev.srcLives (d : Dev) (k : SrcIx) : Bool :=
  let v := k.val
  let quad := fun (q : Nat) => !d.tile.tiled || (d.tile.cur.seqs[(Fin.ofNat 4 q : QuadIx)]).isSome
  if 0x20 ≤ v ∧ v < 0x68 then d.railDefined (Fin.ofNat 8 (v % 8))
  else if 0x68 ≤ v ∧ v < 0x74 then quad (v % 4)
  else if 0x74 ≤ v ∧ v < 0x84 then quad ((v - 0x74) / 4)
  else if 0xB8 ≤ v ∧ v < 0xC8 then (d.tile.cur.stores[(Fin.ofNat 4 (v % 4) : PortIx)]).isSome else true

/-! ## Causes (R400 to R405) -/

/-- The instance has had a fault in the present LOOP_CLK cycle: further rises in it are that fault (R400). -/
def Dev.faultNow (d : Dev) (k : SrcIx) (inst : PhaseIx) : Bool :=
  (d.fault.due ++ d.fault.seen).any fun x => x.src == k && x.inst == inst && decide (x.tick ≤ d.clk.now) && d.clk.cycleAt x.tick == d.cycle

/-- The cause of one instance of a source becomes present or absent; a source whose rail, quad or port is not defined has none (R401).
    A rise is a fault the fault manager has still to
    take (R400), unless a force already holds the cause of that instance present (R405); a cause that ends before the cycle in which a
    start raises it anew is none (R128). -/
def Dev.setCause (d : Dev) (k : SrcIx) (inst : PhaseIx) (on : Bool) (detail : List Byte := []) : Dev :=
  let on := on && d.srcLives k
  let f := d.fault.src[k]
  let src := d.fault.src.set k { f with cause := setBit f.cause inst on }
  let forced := f.force && (!srcPerPhase k || f.forcedInst == inst)
  let seen := if on && !f.cause.getLsbD inst && !forced && !d.faultNow k inst then
      d.fault.seen ++ [{ src := k, inst := inst, tick := d.clk.now, forced := false, detail := detail, tbu := d.clk.tbUncertain }]
    else d.fault.seen.filter fun x => !(!on && x.src == k && x.inst == inst && decide (d.clk.now < x.tick))
  { d with fault := { d.fault with src := src, seen := seen } }

/-- An event source (R402): its cause is present in the cycle of the event alone. -/
def Dev.raiseEvent (d : Dev) (k : SrcIx) (inst : PhaseIx) (detail : List Byte := []) : Dev :=
  let d := (d.setCause k inst true detail).setCause k inst false
  if d.srcLives k then { d with cyc := { d.cyc with raised := (k, inst) :: d.cyc.raised } } else d

/-- An event of the source has occurred in the present LOOP_CLK cycle (R402). -/
def Dev.eventNow (d : Dev) (k : SrcIx) (inst : PhaseIx) : Bool := d.cyc.no == d.cycle && d.cyc.raised.contains (k, inst)

/-- The cause of one instance is present, real or forced. -/
def Dev.causeOf (d : Dev) (k : SrcIx) (inst : PhaseIx) : Bool :=
  let f := d.fault.src[k]
  f.cause.getLsbD inst || d.eventNow k inst || (f.force && (!srcPerPhase k || f.forcedInst == inst))

/-- Some instance of the source has its cause present (R404). -/
def Dev.anyCause (d : Dev) (k : SrcIx) : Bool := d.fault.src[k].cause != 0 || d.eventNow k 0 || d.fault.src[k].force

/-- A fabric event of the given tick occurs (R296); it is delivered at the end of the command. -/
def Dev.eventAt (d : Dev) (code : Nat) (t : Tick) : Dev :=
  { d with fault := { d.fault with events := d.fault.events ++ [(BitVec.ofNat 16 code, t)] } }

/-- Triggers, comparator crossings, codes that are ready and reference valleys have a tick of their own (R299). -/
def ownTick (code : Nat) : Bool := code < 0x100 || (0x200 ≤ code && code < 0x308)

/-- A fabric event: of this tick, or, where it is an action of the device, of the first tick of the LOOP_CLK cycle (R299). -/
def Dev.event (d : Dev) (code : Nat) : Dev := d.eventAt code (if ownTick code then d.clk.now else d.cycleTick)

/-! ## Levels, classes and the causes of a structure -/

/-- The structure has changed: a source whose rail, quad or port is no longer defined has no cause, and one whose rail or quad has come
    has the cause that stands (R246, R278, R351, R401). -/
def Dev.trimCauses (d : Dev) : Dev :=
  let d := { d with fault := { d.fault with src := mapV d.fault.src fun k f => if d.srcLives k then f else { f with cause := 0 } } }
  let d := (List.finRange 8).foldl (fun d r => if d.railDefined r && d.prot.wins[r].ov then d.setCause (srcRailOv r) 0 true else d) d
  let d := (List.finRange 4).foldl (fun d q => d.setCause (srcDegraded q) 0 ((List.finRange 4).any fun j => (d.sense.quads[q].slots[j]).isNone)) d
  (List.finRange 16).foldl (fun d i => d.setCause (srcAt 0x74 i.val) 0 (d.sense.auxOpen.getLsbD i.val)) d

/-- The rail's entry, or the default where it is not defined. -/
def Dev.railEnt (d : Dev) (r : RailIx) : RailEnt := d.tile.cur.rails[r].getD {}

/-- Level of a source (R403, R413): the image's when tiled, the UNTILED column of R401 otherwise. -/
def untiledLevel (k : SrcIx) : Nat :=
  let v := k.val
  if v = 0x00 ∨ v = 0x01 ∨ v = 0x03 ∨ v = 0x04 ∨ v = 0x10 then 3
  else if v = 0x11 then 2
  else if v = 0x08 ∨ (0x70 ≤ v ∧ v ≤ 0x73) ∨ (0x84 ≤ v ∧ v ≤ 0x8B) then 0
  else 1

def Dev.srcLevel (d : Dev) (k : SrcIx) : Nat :=
  if d.tile.tiled then d.tile.cur.classes[k].level else untiledLevel k

def Dev.srcClass (d : Dev) (k : SrcIx) : Nat := if d.tile.tiled then d.tile.cur.classes[k].cls.toNat else 0

/-- Some L3 or L4 source has its status bit set (R46, R413). -/
def Dev.hasSevere (d : Dev) : Bool :=
  (List.finRange 256).any fun k => d.fault.src[k].status && decide (3 ≤ d.srcLevel k)

/-- What a field of the image reads: the image's value, and 0 while the device is UNTILED (R14). -/
def Dev.imageWord (d : Dev) (v : Word) : Word := if d.tile.tiled then v else 0

/-! ## Updates of one component -/

def Dev.updPwm (d : Dev) (n : PhaseIx) (f : Pwm → Pwm) : Dev := { d with pwm := upd d.pwm n f }
def Dev.updRail (d : Dev) (r : RailIx) (f : Rail → Rail) : Dev := { d with rails := upd d.rails r f }
def Dev.updCard (d : Dev) (s : CardIx) (f : Card → Card) : Dev := { d with cards := upd d.cards s f }
def Dev.updQuad (d : Dev) (q : QuadIx) (f : Quad → Quad) : Dev :=
  { d with sense := { d.sense with quads := upd d.sense.quads q f } }
def Dev.updCtx (d : Dev) (c : CtxIx) (f : Ctx → Ctx) : Dev := { d with loop := { d.loop with ctx := upd d.loop.ctx c f } }
def Dev.updRailLoop (d : Dev) (r : RailIx) (f : RailLoop → RailLoop) : Dev :=
  { d with loop := { d.loop with rails := upd d.loop.rails r f } }
def Dev.updTrip (d : Dev) (n : PhaseIx) (f : Trip → Trip) : Dev :=
  { d with prot := { d.prot with trips := upd d.prot.trips n f } }
def Dev.updWin (d : Dev) (r : RailIx) (f : Win → Win) : Dev :=
  { d with prot := { d.prot with wins := upd d.prot.wins r f } }
def Dev.updLine (d : Dev) (x : LineIx) (f : FLine → FLine) : Dev :=
  { d with prot := { d.prot with lines := upd d.prot.lines x f } }
def Dev.updSp (d : Dev) (r : RailIx) (f : Sp → Sp) : Dev := { d with sp := { d.sp with sp := upd d.sp.sp r f } }
def Dev.updPort (d : Dev) (p : PortIx) (f : Port → Port) : Dev := { d with ports := upd d.ports p f }

/-! ## Leave (R519 to R524) -/

def LeaveKind.ix : LeaveKind → Fin 6
  | .fgcal => 0 | .rotation => 1 | .mram => 2 | .signature => 3 | .selftest => 4 | .phaseStart => 5

/-- Leave costs of R519, in mW. -/
def LeaveKind.cost : LeaveKind → Nat
  | .fgcal => 450 | .rotation => 40 | .mram => 500 | .signature => 300 | .selftest => 60 | .phaseStart => 25

/-- TARGET of a device-wide request (LEAVE.HEAD). -/
abbrev leaveAll : Byte := 0xFF

/-- Of two requests of one HK_CLK cycle, the first stands behind the second: ascending kind code, then target (R521). -/
def LeaveReq.behind (a b : LeaveReq) : Bool := decide (b.kind.ix < a.kind.ix) || a.kind == b.kind && decide (b.target < a.target)

/-- A request joins the queue: at its end, but before those of its own HK_CLK cycle that stand behind it (R521). -/
def Dev.joinQueue (d : Dev) (q : LeaveReq) : List LeaveReq :=
  let before := fun x : LeaveReq => !(d.clk.hkCycle x.arrival == d.clk.hkCycle q.arrival && x.behind q)
  d.leave.queue.takeWhile before ++ q :: d.leave.queue.dropWhile before

/-- Leave is asked for: the request joins the queue. A request that finds 32 entries waiting or whose cost alone
    exceeds the budget is refused in its arrival cycle (R522); the flag says that it joined. -/
def Dev.askLeave (d : Dev) (kind : LeaveKind) (target : Byte) : Dev × Bool :=
  if 32 ≤ d.leave.queue.length ∨ d.leave.budget.toNat < kind.cost then
    ({ d with leave := { d.leave with cnt := upd d.leave.cnt kind.ix fun c => { c with refused := c.refused + 1 } } }, false)
  else
    ({ d with leave := { d.leave with queue := d.joinQueue { kind := kind, target := target, arrival := d.clk.now } } }, true)

/-- A request's owner withdraws it (R522). -/
def Dev.withdrawLeave (d : Dev) (kind : LeaveKind) (target : Byte) : Dev :=
  { d with leave := { d.leave with queue := d.leave.queue.filter fun q => !(q.kind == kind && q.target == target) } }

/-- A held leave is released (R519, R523). -/
def Dev.releaseLeave (d : Dev) (kind : LeaveKind) (target : Byte) : Dev :=
  { d with leave := { d.leave with grants := d.leave.grants.erase { kind := kind, target := target } } }

def Dev.holdsLeave (d : Dev) (kind : LeaveKind) (target : Byte) : Bool :=
  d.leave.grants.contains { kind := kind, target := target }

def Dev.waitsLeave (d : Dev) (kind : LeaveKind) (target : Byte) : Bool :=
  d.leave.queue.any fun q => q.kind == kind && q.target == target

def Leave.inUse (l : Leave) : Nat := (l.grants.map fun g => g.kind.cost).sum

/-! ## The Lantern's journal (R420 to R432) -/

/-- Bytes 0x00 to 0x39 of a record with the given FLAGS and COUNT. -/
def Record.body (r : Record) (flags : Nat) (count : Nat) : List Byte :=
  leBytes 6 r.seq ++ [BitVec.ofNat 8 r.level.val, BitVec.ofNat 8 flags] ++ leBytes 8 r.ts ++ leBytes 2 r.code.toNat ++
    leBytes 2 r.source.toNat ++ leBytes 2 count ++ leBytes 2 r.suppressed.toNat ++
    leBytes 2 (r.snapRef.getD 0xFFFF).toNat ++ slice r.data 0 24 ++ leBytes 8 r.link.toNat

def Record.flagBits (r : Record) : Nat := (if r.snapRef.isSome then 2 else 0) + if r.tbu then 4 else 0

/-- A REACT code (R424). -/
def isReact (code : BitVec 16) : Bool := code.toNat / 256 == 2

/-- A FAULT code (R422). -/
def isFaultCode (code : BitVec 16) : Bool := code.toNat / 256 == 1

/-- Bytes 0x00 to 0x39 as R424 normalises them. -/
def Record.norm (r : Record) : List Byte := r.body r.flagBits (if isReact r.code then 0 else r.count.toNat)

/-- The 64 bytes of a record as a reader obtains them (R420). -/
def Record.bytes (r : Record) : List Byte :=
  let b := r.body (r.flagBits + (if r.isOpen then 1 else 0) + if r.persisted then 8 else 0) r.count.toNat ++
    leBytes 2 r.lost.toNat
  b ++ leBytes 4 (crc32c b).toNat

/-- LINK of a record whose predecessor's bytes are `p` (R424). -/
def linkOf (p : List Byte) (r : Record) : BitVec 64 :=
  BitVec.ofNat 64 (leNat ((sha256 (p ++ r.norm.take 50)).take 8))

/-- The newest record (R423). -/
def Lantern.newest (l : Lantern) : Option Record := l.ram.getLast?

/-- A record of RAM changed by its SEQ. -/
def Lantern.updSeq (l : Lantern) (seq : Nat) (f : Record → Record) : Lantern :=
  { l with ram := l.ram.map fun r => if r.seq = seq then f r else r }

/-- The newest record closes, when open, and takes its LINK. -/
def Lantern.closeNewest (l : Lantern) : Lantern :=
  match l.newest with
  | some r =>
    if r.isOpen then
      let k := linkOf l.chainP r
      { l.updSeq r.seq (fun r => { r with isOpen := false, link := k }) with newestClosed := k }
    else l
  | none => l

/-- The newest record closes when its repeat window has run out (R425). -/
def Lantern.closeDue (l : Lantern) (now : Tick) : Lantern := if l.openUntil ≤ now then l.closeNewest else l

/-- What is to be journalled. -/
structure RecIn where
  code : Nat
  level : Fin 5 := 0
  source : Nat := 0xFFFF
  data : List Byte := []
  ts : Tick
  /-- TB_UNCERTAIN at that tick, where it is not the present one (R420). -/
  tbu : Option Bool := none
  snap : Option (BitVec 16) := none
  /-- The record's action is 1 or above (R416). -/
  action : Bool := false
  /-- A SNAPSHOT of a fabric start, subject to its bucket (R426). -/
  fabric : Bool := false
  deriving DecidableEq, Repr

/-- A RAM entry may be reused (R428). -/
def Lantern.reusable (l : Lantern) (r : Record) : Bool := r.persisted || l.droppedSeqs.contains r.seq

/-- Room for a record of a level (R428). -/
def Lantern.hasRoom (l : Lantern) (level : Fin 5) : Bool :=
  let some_ := decide (l.ram.length < 4096) || l.ram.any fun r => l.reusable r
  let low := (l.ram.filter fun r => decide (r.level.val < 3) && !l.reusable r).length
  some_ && (decide (3 ≤ level.val) || decide (low < 4032))

/-- Remove the first element that satisfies `p`. -/
def dropFirst {α : Type} (p : α → Bool) : List α → List α
  | [] => []
  | x :: xs => if p x then xs else x :: dropFirst p xs

/-- RAM with one entry free: the lowest reusable SEQ is given up when all 4096 are taken. -/
def Lantern.freeEntry (l : Lantern) : Lantern :=
  if l.ram.length < 4096 then l else { l with ram := dropFirst (fun r => l.reusable r) l.ram }

def Lantern.bucket (l : Lantern) (code : BitVec 16) : Bucket :=
  (l.buckets.find? fun b => b.code == code).getD { code := code, tokens := l.fullTokens }

/-- Buckets ascend by code; one that stands as a code without an entry does needs none. -/
def Lantern.setBucket (l : Lantern) (b : Bucket) : Lantern :=
  let rest := l.buckets.filter fun x => x.code != b.code
  if b.tokens = l.fullTokens ∧ b.suppressed = 0 ∧ !b.recent then { l with buckets := rest }
  else { l with buckets := rest.filter (fun x => x.code.toNat < b.code.toNat) ++ b ::
      rest.filter (fun x => b.code.toNat < x.code.toNat) }

/-- A record is numbered (R423, R424, R435). -/
def Lantern.number (l : Lantern) (i : RecIn) (clk : Clk) : Lantern × Nat :=
  let l := l.closeNewest
  let p := match l.newest with
    | some r => r.norm
    | none => l.chainP
  let code := BitVec.ofNat 16 i.code
  let b := l.bucket code
  let open_ := isFaultCode code && decide (i.level.val < 3) && l.repeatWin != 0
  let r : Record := { seq := l.next, level := i.level, isOpen := open_, tbu := i.tbu.getD clk.tbUncertain, ts := clk.tbAt i.ts, code := code, source := BitVec.ofNat 16 i.source, suppressed := b.suppressed, snapRef := i.snap, data := slice i.data 0 24 }
  let r := if open_ then r else { r with link := linkOf p r }
  let l := l.setBucket { b with suppressed := 0 }
  let l := l.freeEntry
  let resv := if l.resv ≤ l.next + 1 + 1024 then l.resv + 4096 else l.resv
  ({ l with ram := l.ram ++ [r], next := l.next + 1, resv := resv, chainP := p, openUntil := i.ts + l.repeatWin.toNat * msTicks, newestClosed := if open_ then l.newestClosed else r.link }, r.seq)

/-- The alert latch for a record that became readable (R416). -/
def Dev.alert (d : Dev) (seq : Nat) (on : Bool) : Dev :=
  if on then ({ d with fault := { d.fault with pend := true, alertSeq := seq } } : Dev).setsBit .pend else d

/-- A record of a level that finds no entry is lost (R428). -/
def Lantern.lose (l : Lantern) (level : Fin 5) : Lantern :=
  { l with drops := upd l.drops level satInc, lostPend := satInc l.lostPend }

/-- A record is journalled: folded, suppressed, lost or numbered (R425, R426, R428). The number is that of the record
    that carries it, none when nothing does. -/
def Dev.journal (d : Dev) (i : RecIn) : Dev × Option Nat :=
  let l := d.lantern.closeDue d.clk.now
  let code := BitVec.ofNat 16 i.code
  let same := match l.newest with
    | some r => if r.isOpen && r.code == code && r.source == BitVec.ofNat 16 i.source && r.data == slice i.data 0 24 &&
        decide (i.level.val < 3) then some r else none
    | none => none
  match same with
  | some r =>
    let l := l.updSeq r.seq fun r => { r with count := satInc r.count }
    let l := if r.count = 0xFFFE then l.closeNewest else l
    ({ d with lantern := l }, some r.seq)
  | none =>
    let b := l.bucket code
    let limited := (isFaultCode code && decide (i.level.val < 2)) || i.fabric
    if limited && b.tokens = 0 then
      let l := l.setBucket { b with suppressed := satInc b.suppressed, recent := true }
      ({ d with lantern := { l with suppressed := l.suppressed + 1 } }, none)
    else if !l.hasRoom i.level then
      ({ d with lantern := l.lose i.level }, none)
    else
      let l := if limited then l.setBucket { b with tokens := b.tokens - 1 } else l
      let (l, seq) := l.number i d.clk
      (({ d with lantern := l, cyc := { d.cyc with notes := 0 } } : Dev).alert seq (decide (1 ≤ i.level.val) || i.action), some seq)

/-- A record that its chapter places next (R423). -/
def Dev.noteNext (d : Dev) (code : Nat) (level : Fin 5) (source : Nat) (data : List Byte) : Dev :=
  (d.journal { code := code, level := level, source := source, data := data, ts := d.clk.now }).1

/-- The order of the records of one LOOP_CLK cycle that no chapter orders: ascending CODE, then ascending SOURCE (R423). -/
def Record.order (r : Record) : Nat := 65536 * r.code.toNat + r.source.toNat

/-- Bytes 0x00 to 0x4F of a snapshot. -/
def Snap.head (s : Snap) : List Byte :=
  leBytes 6 s.seq ++ [BitVec.ofNat 8 s.list.val, 0] ++ leBytes 8 s.tick ++ s.values.flatMap fun v => leBytes 4 v.toNat

/-- The 128 bytes of a snapshot's slot. -/
def Snap.bytes (s : Snap) : List Byte :=
  let b := s.head ++ List.replicate 44 0
  b ++ leBytes 4 (crc32c b).toNat

/-- A snapshot is staged in its slot, over the bytes of the one before. -/
def Lantern.stage (l : Lantern) (slot : Fin 16) (s : Snap) : Lantern :=
  { l with staging := l.staging.set slot (some s), staged := upd l.staged slot fun old => s.bytes ++ old.drop s.bytes.length }

/-- A SNAPSHOT record that has taken another number: its staged snapshot names the number, and the record the snapshot's digest. -/
def Lantern.restage (l : Lantern) (r : Record) : Lantern × Record :=
  let named := fun (i : Fin 16) => match l.staging[i] with
    | some s => r.code == 0x0004 && r.snapRef == some s.serial
    | none => false
  match (List.finRange 16).find? named with
  | none => (l, r)
  | some i => match l.staging[i] with
    | none => (l, r)
    | some s =>
      let s := { s with seq := r.seq }
      (l.stage i s, { r with data := slice (r.data.take 8 ++ (sha256 s.head).take 8) 0 24 })

/-- A record takes the next number, and a closed one its link anew. -/
def Lantern.renumber (l : Lantern) (r : Record) : Lantern :=
  let p := match l.newest with
    | some x => x.norm
    | none => l.chainP
  let (l, r) := if r.seq = l.next then (l, r) else l.restage { r with seq := l.next }
  let r := if r.isOpen then r else { r with link := linkOf p r }
  { l with ram := l.ram ++ [r], next := l.next + 1, chainP := p, newestClosed := if r.isOpen then l.newestClosed else r.link }

/-- A record is numbered before another of its cycle, which was written earlier: by CODE and SOURCE, but TILE_COMMIT follows the records
    of its retile (R166, R177). -/
def Record.goesBefore (r x : Record) : Bool :=
  decide (r.order < x.order) && !(r.code == 0x0022 && (x.code == 0x0025 || x.code == 0x0026))

/-- The newest record takes its place among the `k` before it, and they the numbers after it (R423). The flag says that it moved. -/
def Lantern.placeNewest (l : Lantern) (k : Nat) : Lantern × Bool := match l.newest with
  | none => (l, false)
  | some r =>
    let older := l.ram.dropLast
    let later := ((older.reverse.take (min k (older.length - 1))).takeWhile fun x => r.goesBefore x && !x.persisted).reverse
    if later.isEmpty then (l, false)
    else
      ((r :: later).foldl Lantern.renumber { l with ram := older.take (older.length - later.length), next := l.next - (later.length + 1) }, true)

/-- The alert latch names the last of the newest `k` records that has set it. -/
def Dev.realert (d : Dev) (k : Nat) : Dev :=
  match (d.lantern.ram.reverse.take k).find? fun r => decide (1 ≤ r.level.val) with
  | some r => { d with fault := { d.fault with alertSeq := r.seq } }
  | none => d

/-- The newest record of `x`, if it has one more than `d`, takes its place among the records of its LOOP_CLK cycle (R423). -/
def Dev.placed (d x : Dev) : Dev :=
  let k := if d.cyc.no == d.cycle then d.cyc.notes else 0
  if x.lantern.next = d.lantern.next then x
  else
    let (l, moved) := x.lantern.placeNewest k
    let x := { x with lantern := l, cyc := { x.cyc with notes := k + 1 } }
    if moved then x.realert (k + 1) else x

/-- A record of no fault at the present tick, among the records of its LOOP_CLK cycle (R423). -/
def Dev.note (d : Dev) (code : Nat) (level : Fin 5) (source : Nat) (data : List Byte) : Dev :=
  d.placed (d.noteNext code level source data)

/-- A record of the present cycle that has not been persisted says something else; it and the later ones take their links anew. -/
def Lantern.rewrite (l : Lantern) (seq : Nat) (f : Record → Record) : Lantern :=
  match l.ram.dropWhile fun r => r.seq != seq with
  | r :: later => (f r :: later).foldl Lantern.renumber { l with ram := l.ram.takeWhile (fun r => r.seq != seq), next := seq }
  | [] => l

/-- The merge count of a REACT record grows (R410, R431). -/
def Lantern.merge (l : Lantern) (seq : Nat) : Lantern := l.updSeq seq fun r => { r with count := satInc r.count }

end Sys2Proof.Machine
end

