-- ==== Sys2Proof/Machine/RegMap.lean ====
section
/-! DEFINITION. The register index (R531, R532): which addresses hold a register, and which of those have a field that a WRITE
    can change. -/

namespace Sys2Proof.Machine

open Sys2Proof

/-- Registers that repeat: `count` instances `stride` apart from `base`, the offsets of their registers, and those a WRITE can
    change. -/
structure RegBlk where
  base : Nat
  stride : Nat := 0x1000
  count : Nat := 1
  offs : List Nat
  writable : List Nat := []
  deriving DecidableEq, Repr

/-- Offsets `lo`, `lo + 4`, … of `n` registers. -/
def run4 (lo n : Nat) : List Nat := (List.range n).map fun i => lo + 4 * i

/-- SYS to TILE (chapters 1 to 7, 23). -/
def regDevice : List RegBlk :=
  [{ base := 0x000000, offs := [0x00, 0x04, 0x08, 0x10, 0x14, 0x18, 0x1C, 0x20, 0x40, 0x44], writable := [0x08, 0x20] },
   { base := 0x001000, offs := [0x00, 0x08, 0x0C, 0x10, 0x14, 0x18, 0x1C, 0x20, 0x24], writable := [0x00, 0x10, 0x14] },
   { base := 0x002000, stride := 0x800, offs := run4 0x00 4 ++ run4 0x10 6 ++ run4 0x30 6, writable := 0x00 :: run4 0x10 6 },
   { base := 0x002800, stride := 0x10, count := 4, offs := [0x0, 0x4, 0x8] },
   { base := 0x002900, stride := 0x100, offs := run4 0 4, writable := [0x0, 0x4] },
   { base := 0x004000, offs := run4 0 16 ++ run4 0x40 7, writable := [0x04, 0x40, 0x44] }]

/-- PWM, SENSE and LOOP (chapters 8 to 13). -/
def regPhases : List RegBlk :=
  [{ base := 0x010000, stride := 0x100, count := 64, offs := run4 0 9 ++ run4 0x40 10,
     writable := [0x00, 0x04, 0x08, 0x40, 0x48, 0x4C, 0x50, 0x58, 0x5C] },
   { base := 0x014000, offs := run4 0 9 ++ run4 0x40 12, writable := run4 0 9 ++ run4 0x40 8 },
   { base := 0x020000, stride := 0x100, count := 4, offs := run4 0 7 ++ run4 0x20 7 },
   { base := 0x020400, stride := 0x100, offs := run4 0 6, writable := [0x00, 0x04, 0x10] },
   { base := 0x021000, stride := 0x40, count := 4, offs := run4 0 6 },
   { base := 0x021100, stride := 0x100, offs := run4 0 3 },
   { base := 0x021200, stride := 0x100, count := 4, offs := run4 0 40 },
   { base := 0x022000, stride := 0x10, count := 256, offs := run4 0 4 },
   { base := 0x023000, stride := 0x20, count := 64, offs := run4 0 7, writable := [0x04] },
   { base := 0x030000, stride := 0x100, count := 80, offs := run4 0 17, writable := [0x00, 0x40] },
   { base := 0x035000, offs := run4 0 12 ++ [0x40], writable := [0x40] },
   { base := 0x036000, offs := run4 0 19, writable := [0x00] },
   { base := 0x037000, stride := 0x200, offs := run4 0 80 },
   { base := 0x037200, stride := 0x20, count := 8, offs := run4 0 8, writable := [0x04, 0x08, 0x0C, 0x10, 0x14] },
   { base := 0x038000, offs := run4 0 11, writable := run4 0x04 9 }]

/-- RAIL to PROT (chapters 14 to 17). -/
def regRails : List RegBlk :=
  [{ base := 0x040000, stride := 0x200, count := 8, offs := run4 0 20, writable := [0x00, 0x08, 0x0C, 0x10] ++ run4 0x1C 11 },
   { base := 0x041000, stride := 0x10, count := 8, offs := run4 0 3, writable := [0x0] },
   { base := 0x042000, stride := 0x10, count := 16, offs := run4 0 3, writable := run4 0 3 },
   { base := 0x042100, stride := 0x100, offs := [0x0], writable := [0x0] },
   { base := 0x043000, stride := 0x20, count := 8, offs := run4 0 8, writable := run4 0 6 },
   { base := 0x050000, stride := 0x100, count := 4, offs := run4 0 28, writable := [0x00, 0x04] ++ run4 0x0C 21 },
   { base := 0x060000, stride := 0x10, count := 64, offs := run4 0 3, writable := [0x0, 0x4] },
   { base := 0x060800, stride := 0x20, count := 8, offs := run4 0 6, writable := [0x00, 0x04, 0x08] },
   { base := 0x060C00, stride := 0x100, offs := run4 0 3, writable := [0x00, 0x04] },
   { base := 0x060D00, stride := 0x100, offs := run4 0 6, writable := run4 0 4 }]

/-- FAULT to CAL (chapters 10, 18 to 22). -/
def regSupport : List RegBlk :=
  [{ base := 0x070000, offs := run4 0 23 ++ run4 0x80 12 ++ run4 0xC0 3 ++ [0xD0, 0xD4],
     writable := run4 0 18 ++ run4 0x80 9 ++ [0xC0] },
   { base := 0x080000, offs := run4 0 11 ++ run4 0x30 14 ++ run4 0x80 18 ++ run4 0x100 32, writable := [0x20, 0x24, 0x60, 0x64, 0xC0] },
   { base := 0x090000, offs := 0x00 :: run4 0x10 52 ++ run4 0x100 36, writable := [0x70] },
   { base := 0x0A0000, offs := run4 0 7, writable := [0x18] },
   { base := 0x0B0000, offs := run4 0 10 ++ run4 0x40 8, writable := [0x04] },
   { base := 0x0C0000, stride := 8, count := 112, offs := [0x0, 0x4], writable := [0x0] },
   { base := 0x0C1000, offs := [0x0] }]

def regIndex : List RegBlk := regDevice ++ regPhases ++ regRails ++ regSupport

/-- The offset of an address within a block's instance, when it lies in one. -/
def RegBlk.offset (b : RegBlk) (a : Nat) : Option Nat :=
  if b.base ≤ a ∧ a < b.base + b.stride * b.count then some ((a - b.base) % b.stride) else none

/-- The block of the index that holds an address. -/
def blkOf (a : Addr) : Option RegBlk := regIndex.find? fun b => (b.offset a.toNat).isSome

/-- An address holds a register (R531). -/
def isReg (a : Addr) : Bool := match blkOf a with
  | some b => b.offs.contains ((b.offset a.toNat).getD 0)
  | none => false

/-- An address holds a register with a field that a WRITE can change (R532). -/
def isWritable (a : Addr) : Bool := match blkOf a with
  | some b => b.writable.contains ((b.offset a.toNat).getD 0)
  | none => false

end Sys2Proof.Machine
end

