-- ==== Sys2Proof/Machine/Image.lean ====
section
/-! DEFINITION. The Tiling image byte for byte (R140 to R158): sections, their bodies, composition of a delta, and the checks. -/

namespace Sys2Proof.Machine

open Sys2Proof

/-! ## Header and sections (R141, R143) -/

/-- One section: its header fields, body and CRC. -/
structure Sect where
  type : Nat
  inst : Nat
  flags : Nat
  resv : Nat
  crc : Word
  body : List Byte
  deriving DecidableEq, Repr

/-- The sections of the bytes between the header and the signature block; none where they do not fit exactly. The fuel bounds
    their number: the bytes of the image are enough. -/
def walkSects : Nat → List Byte → Option (List Sect)
  | _, [] => some []
  | 0, _ => none
  | fuel + 1, bs =>
    let n := numAt bs 4 4
    if bs.length < 16 + n then none
    else
      let s : Sect := { type := numAt bs 0 2, inst := numAt bs 2 1, flags := numAt bs 3 1, resv := numAt bs 8 4, crc := wordAt bs 12, body := (bs.drop 16).take n }
      (walkSects fuel (bs.drop (16 + n))).map fun ss => s :: ss

/-- The 16-byte header of a section and its body. -/
def Sect.bytes (s : Sect) : List Byte :=
  leBytes 2 s.type ++ leBytes 1 s.inst ++ leBytes 1 s.flags ++ leBytes 4 s.body.length ++ leBytes 4 0 ++ leBytes 4 s.crc.toNat ++ s.body

def Sect.key (s : Sect) : Nat := s.type * 256 + s.inst

def findSect (ss : List Sect) (type inst : Nat) : Option Sect := ss.find? fun s => s.type == type && s.inst == inst
def bodyOf (ss : List Sect) (type inst : Nat) : List Byte := match findSect ss type inst with
  | some s => s.body
  | none => []

/-- GENERATION, LENGTH, SIGNED_LENGTH, DELTA and SIGNER of an image. -/
def imgGen (bs : List Byte) : Word := wordAt bs 0x08
def imgLen (bs : List Byte) : Nat := numAt bs 0x0C 4
def imgSigned (bs : List Byte) : Nat := numAt bs 0x18 4
def imgDelta (bs : List Byte) : Bool := (byteAt bs 6).getLsbD 0
def imgSigner (bs : List Byte) : Byte := byteAt bs (imgSigned bs + 4)

/-- The Tiling digest (R140). -/
def imgDigest (bs : List Byte) : List Byte := sha256 (bs.take (imgSigned bs))

/-- A digest as the registers and the chain compare it: byte i in bits [8i+7:8i]. -/
def digestBits (bs : List Byte) : BitVec 256 := BitVec.ofNat 256 (leNat bs)

def imgId (bs : List Byte) : ImageId :=
  { digest := digestBits (imgDigest bs), gen := imgGen bs, signer := imgSigner bs, length := imgLen bs }

/-- The SHA-256 of a key in 65-byte SEC 1 form (R141, R156). -/
def keyHash (key : BitVec 512) : List Byte := sha256 (0x04 :: beBytes 64 key.toNat)

/-- Sections of an image, once its header is sound. -/
def imgSects (bs : List Byte) : Option (List Sect) := walkSects bs.length ((bs.drop 0x40).take (imgSigned bs - 0x40))

/-! ## Checks 1 to 5: the header -/

/-- The first failing check of the header; 0 when all pass. A slot's recorded length is compared when given. -/
def headerCheck (bs : List Byte) (slot : Option Nat) : Byte :=
  let n := imgLen bs
  let bind := slice bs 0x20 8
  if crc32c (slice bs 0 0x3C) != wordAt bs 0x3C then 1
  else if slice bs 0 4 != [0x54, 0x49, 0x4C, 0x45] || numAt bs 4 2 != 1 || (slot.isSome && imgDelta bs) then 2
  else if numAt bs 0x10 2 != 0x6480 || !(byteAt bs 0x12).getLsbD 2 then 3
  else if !allZero bind && bind != (keyHash deviceKey).take 8 then 4
  else if n % 4 != 0 || decide (n < 264) || decide (65536 < n) || imgSigned bs + 136 != n || imgGen bs == 0 ||
      decide (2 ≤ numAt bs 6 2) || numAt bs 0x16 2 != 0 || numAt bs 0x1C 4 != 0 || !allZero (slice bs 0x2C 16) ||
      slot.getD n != n then 5
  else 0

/-! ## Checks 6 to 9: sections -/

/-- TYPE and INSTANCE are those of R144. -/
def Sect.known (s : Sect) : Bool :=
  if 0x8000 ≤ s.type then true
  else match s.type with
    | 0x0 | 0x1 | 0x4 | 0x5 | 0x7 | 0x8 | 0xA => s.inst == 0
    | 0x2 | 0xB => decide (s.inst < 8)
    | 0x3 | 0x9 => decide (s.inst < 4)
    | 0x6 => decide (s.inst < 80)
    | _ => false

/-- The body length R144 gives. -/
def Sect.lengthOk (s : Sect) : Bool :=
  let n := s.body.length
  let c := fun o w => numAt s.body o w
  n % 4 == 0 && match s.type with
    | 0x0 => n == 40
    | 0x1 => n == 512
    | 0x2 => n == 16
    | 0x3 => n == 8 + 4 * (c 0 1 + c 1 1)
    | 0x4 => n == 1280
    | 0x5 => n == 640
    | 0x6 => n == 4 + 80 * c 0 1
    | 0x7 => n == 4 + 8 * c 0 2
    | 0x8 => n == 1028 + 8 * c 1024 2
    | 0x9 => n == 8
    | 0xA => n == 68
    | 0xB => n == 64
    | _ => true

/-- A section header by itself; REMOVE is allowed in a delta only. -/
def Sect.headOk (s : Sect) (delta : Bool) : Bool :=
  let remove := s.flags == 1
  s.known && s.resv == 0 && (s.flags == 0 || (delta && remove && s.type != 0)) && (if remove then s.body.isEmpty else s.lengthOk)

/-- Keys ascend strictly. -/
def ascending : List Nat → Bool
  | a :: b :: rest => decide (a < b) && ascending (b :: rest)
  | _ => true

/-- A quad's SEQUENCE holds an AUX entry. -/
def seqHasAux (body : List Byte) : Bool :=
  (List.range ((body.length - 8) / 4)).any fun i => let x := numAt body (8 + 4 * i) 1
    decide (0x10 ≤ x) && decide (x < 0x14)

/-- The presence column of R144 for a full image. R144 calls a CHORD section absent in a chain of one, R154 allows CHAIN_SIZE 1: an image
    may carry one whatever the chain (DESIGN CHOICE, assumption 83). -/
def presenceOk (ss : List Sect) : Bool :=
  let has := fun t i => (findSect ss t i).isSome
  let rails := ss.filter fun s => s.type == 2
  let stores := ss.filter fun s => s.type == 9
  let map := bodyOf ss 1 0
  let topo := bodyOf ss 5 0
  let need := fun q => ((List.range 16).any fun i => numAt map (8 * (16 * q + i)) 1 != 0xFF) ||
    (rails.any fun s => numAt s.body 1 1 == q) || stores.any fun s => numAt s.body 1 1 == q
  !has 0 0 && has 1 0 && !rails.isEmpty && has 4 0 && has 5 0 && has 7 0 && has 8 0 &&
    ((List.range 4).all fun q => if need q then has 3 q else !has 3 q || seqHasAux (bodyOf ss 3 q)) &&
    ((List.range 80).all fun c => has 6 c == (numAt topo (8 * c) 1 == 1)) &&
    stores.length == (rails.filter fun s => numAt s.body 0 1 == 1).length

/-- Check 8. -/
def sectsOk (ss : List Sect) (delta : Bool) : Bool :=
  ascending (ss.map Sect.key) && (ss.all fun s => s.headOk delta) &&
    if delta then (findSect ss 0 0).isSome else presenceOk ss

/-- A section joins a sorted list, in place of one with its key. -/
def putSect (s : Sect) : List Sect → List Sect
  | [] => [s]
  | x :: xs => if s.key < x.key then s :: x :: xs else if s.key = x.key then s :: xs else x :: putSect s xs

/-- R157 steps 1 to 4. -/
def composeSects (base delta : List Sect) : Option (List Sect) :=
  delta.foldl (fun acc s => match acc with
    | none => none
    | some ss =>
      if s.type = 0 then some ss
      else if s.flags = 1 then
        if ss.any fun x => x.key == s.key then some (ss.filter fun x => x.key != s.key) else none
      else some (putSect s ss)) (some base)

/-- R157: the full image a delta makes of the running image; none where check 9 fails. A reserved word of BASE that is not 0 fails
    check 9, where the spec does not say whether 8 or 9 reports it (DESIGN CHOICE, assumption 82). -/
def compose (run delta : List Byte) : Option (List Byte) :=
  match imgSects run, imgSects delta with
  | some rs, some ds =>
    let b := bodyOf ds 0 0
    if b.take 32 != imgDigest run || wordAt b 32 != imgGen run || numAt b 36 4 != 0 then none
    else match composeSects rs ds with
      | none => none
      | some ss =>
        let body := ss.flatMap Sect.bytes
        let signed := 0x40 + body.length
        let h := slice delta 0 6 ++ leBytes 2 (numAt delta 6 2 - numAt delta 6 2 % 2) ++ slice delta 8 4 ++ leBytes 4 (signed + 136) ++
          slice delta 0x10 4 ++ leBytes 2 ss.length ++ slice delta 0x16 2 ++ leBytes 4 signed ++ slice delta 0x1C 32
        if 65536 < signed + 136 then none
        else some (h ++ leBytes 4 (crc32c h).toNat ++ body ++ slice delta (imgSigned delta) 136)
  | _, _ => none

/-! ## Check 10: phase map and rails (R145, R146) -/

def railIxOf (n : Nat) : Option RailIx := if h : n < 8 then some ⟨n, h⟩ else none

/-- One PHASE_MAP entry with its rail's number; none where it is malformed. -/
def parsePhase (e : List Byte) : Option PhaseEnt :=
  let r := numAt e 0 1
  if numAt e 6 2 != 0 || decide (1 < numAt e 1 1) then none
  else if r = 0xFF then if allZero (slice e 1 7) then some {} else none
  else match railIxOf r with
    | none => none
    | some r =>
      let host := numAt e 1 1 == 1
      let g := numAt e 3 1
      if decide (15 < g) || (!host && g != 0) then none
      else some { rail := some r, host := host, addRank := byteAt e 2, group := Fin.ofNat 16 g, arc := BitVec.ofNat 16 (numAt e 4 2) }

/-- One RAIL body. -/
def parseRail (b : List Byte) : Option RailEnt :=
  let rating := numAt b 8 4
  if decide (1 < numAt b 0 1) || decide (3 < numAt b 1 1) || decide (1 < numAt b 2 1) || numAt b 3 1 == 0 ||
      decide (100 < numAt b 4 1) || !allZero (slice b 5 3) || rating == 0 || decide (2000000 < rating) || numAt b 12 4 != 0 then none
  else some { storage := numAt b 0 1 == 1, homeQuad := Fin.ofNat 4 (numAt b 1 1), l2Hold := numAt b 2 1 == 1, minPhases := byteAt b 3, margin := byteAt b 4, rating := wordAt b 8 }

/-- Every element of a vector read by a parser; none where one fails. -/
def parseAll {α : Type} {n : Nat} (f : Fin n → Option α) (dflt : α) : Option (Vector α n) :=
  if (List.finRange n).all fun i => (f i).isSome then some (Vector.ofFn fun i => (f i).getD dflt) else none

/-- No element appears twice. -/
def distinct {α : Type} [BEq α] : List α → Bool
  | [] => true
  | x :: xs => !xs.contains x && distinct xs

/-- What R145 and R146 ask of the phases of one rail. -/
def railPhasesOk (t : Tiling) (r : RailIx) : Bool :=
  let ms := (List.finRange 64).filter fun n => t.phases[n].rail == some r
  match t.rails[r] with
  | none => ms.isEmpty
  | some e =>
    decide (e.minPhases.toNat ≤ ms.length) && (distinct (ms.map fun n => t.phases[n].addRank)) &&
      (ms.all fun n => decide (t.phases[n].addRank.toNat < ms.length)) && distinct (ms.map fun n => t.phases[n].arc)

def parsePhases (ss : List Sect) (t : Tiling) : Option Tiling :=
  let map := bodyOf ss 1 0
  match parseAll (fun n : PhaseIx => parsePhase (slice map (8 * n.val) 8)) {} with
  | none => none
  | some phases =>
    let rail := fun r : RailIx => (findSect ss 2 r.val).map fun s => parseRail s.body
    if (List.finRange 8).any fun r => rail r == some none then none
    else
      let t := { t with phases := phases, rails := Vector.ofFn fun r => (rail r).getD none }
      if ((List.finRange 8).all (railPhasesOk t)) && decide (((List.finRange 8).filter fun r => match t.rails[r] with
          | some e => e.storage
          | none => false).length ≤ 4) then some t else none

/-! ## Check 11: sensing (R147, R148, R235) -/

def parseEntry (t : Tiling) (q : QuadIx) (e : List Byte) : Option SeqEntry :=
  let i := numAt e 0 1
  let vsns := decide (0x20 ≤ i) && decide (i < 0x28)
  let aux := decide (0x10 ≤ i) && decide (i < 0x14)
  let inputOk := if i < 16 then (t.phases[Fin.ofNat 64 (16 * q.val + i)]).rail.isSome
    else if aux then true
    else if vsns then match t.rails[Fin.ofNat 8 (i - 0x20)] with
      | some x => x.homeQuad == q
      | none => false
    else false
  if !inputOk || decide (2 < numAt e 1 1) || (numAt e 1 1 != 0 && !vsns) || decide (1 < numAt e 2 1) || (numAt e 2 1 == 1 && !aux) ||
      numAt e 3 1 != 0 then none
  else some { input := byteAt e 0, slices := byteAt e 1, eflags := byteAt e 2 }

/-- Every element of a list; none where one is missing. -/
def allSome {α : Type} : List (Option α) → Option (List α)
  | [] => some []
  | x :: xs => match x, allSome xs with
    | some x, some xs => some (x :: xs)
    | _, _ => none

def parseSeq (t : Tiling) (q : QuadIx) (b : List Byte) : Option SeqEnt :=
  let nr := numAt b 0 1
  let ni := numAt b 1 1
  let timer := numAt b 4 4
  if decide (32 < nr) || decide (8 < ni) || numAt b 2 2 != 0 || (timer != 0 && (decide (timer < 48) || decide (480000000 < timer))) then none
  else
    let entry := fun i => parseEntry t q (slice b (8 + 4 * i) 4)
    match allSome ((List.range nr).map entry), allSome ((List.range ni).map fun i => entry (nr + i)) with
    | some reg, some inj => some { reg := reg, inj := inj, timer := BitVec.ofNat 32 timer }
    | _, _ => none

/-- The entry number is present in the quad's sequence. -/
def entryPresent (t : Tiling) (q : QuadIx) (e : Nat) : Bool := match t.seqs[q] with
  | some s => if e < 32 then decide (e < s.reg.length) else decide (e - 32 < s.inj.length)
  | none => false

/-- One binding: outer none where malformed, inner none where unbound. -/
def parseBind (t : Tiling) (trk : Bool) (e : List Byte) : Option (Option Bind) :=
  let q := numAt e 0 1
  let n := numAt e 2 2
  if q = 0xFF then if numAt e 1 1 == 0 && n == 0 then some none else none
  else if decide (3 < q) || !entryPresent t (Fin.ofNat 4 q) (numAt e 1 1) || decide (40 ≤ numAt e 1 1) then none
  else if (if trk then n != 0 else n == 0 || decide (4096 < n)) then none
  else some (some { quad := Fin.ofNat 4 q, entry := Fin.ofNat 40 (numAt e 1 1), n := BitVec.ofNat 13 n })

def parseSensing (ss : List Sect) (t : Tiling) : Option Tiling :=
  let steered := fun q : QuadIx => ((List.finRange 8).filter fun r => match t.rails[r] with
    | some e => e.homeQuad == q
    | none => false).length
  let seq := fun q : QuadIx => (findSect ss 3 q.val).map fun s => parseSeq t q s.body
  if ((List.finRange 4).any fun q => decide (2 < steered q)) || (List.finRange 4).any fun q => seq q == some none then none
  else
    let t := { t with seqs := Vector.ofFn fun q => (seq q).getD none }
    let b := bodyOf ss 4 0
    match parseAll (fun k : AccIx => parseBind t false (slice b (4 * k.val) 4)) none,
        parseAll (fun k : TrkIx => parseBind t true (slice b (1024 + 4 * k.val) 4)) none with
    | some accs, some trks => some { t with accs := accs, trks := trks }
    | _, _ => none

/-! ## Check 12: loop topology and Sectors (R149, R150) -/

def parseTopo (t : Tiling) (c : CtxIx) (e : List Byte) : Option TopoEnt :=
  let aux := decide (72 ≤ c.val)
  let tg := numAt e 6 1
  if numAt e 0 1 = 0 then if allZero (slice e 0 6) && tg == 0xFF && numAt e 7 1 == 0 then some {} else none
  else
    let k := numAt e 4 2
    let div := numAt e 3 1
    let bound := if h : k < 256 then (t.accs[k]).isSome else false
    if decide (1 < numAt e 0 1) || decide (1 < numAt e 1 1) || decide (1 < numAt e 2 1) || numAt e 7 1 != 0 || !bound ||
        (if c.val < 8 then div == 0 || decide (64 < div) else div != 1) || (if aux then decide (7 < tg) else tg != 0xFF) then none
    else some { enable := true, law3 := numAt e 1 1 == 1, compat := numAt e 2 1 == 1, div := byteAt e 3, input := Fin.ofNat 256 k, target := if aux then railIxOf tg else none }

/-- No context is orphaned. -/
def topoOk (t : Tiling) : Bool := (List.finRange 80).all fun c =>
  let e := t.topo[c]
  if c.val < 8 then e.enable == (t.rails[Fin.ofNat 8 c.val]).isSome
  else if c.val < 72 then let p := t.phases[Fin.ofNat 64 (c.val - 8)]
    e.enable == (p.rail.isSome && !p.host)
  else match e.target with
    | some r => (t.topo[Fin.ofNat 80 r.val]).enable
    | none => true

def parseSector (x : TopoEnt) (b : List Byte) : Option SectorEnt :=
  let coef := (List.range 7).map fun i => wordAt b (0x14 + 4 * i)
  let shift := slice b 0x30 7
  let s : SectorEnt := { iLo := wordAt b 0, iHi := wordAt b 4, vLo := wordAt b 8, vHi := wordAt b 12, modeMask := byteAt b 16, priority := byteAt b 17, coef := coef, shift := shift, intMax := wordAt b 0x38, intMin := wordAt b 0x3C, outMax := wordAt b 0x40, outMin := wordAt b 0x44 }
  let shiftOk := shift.all fun v => decide (-32 ≤ v.toInt) && decide (v.toInt ≤ 31)
  let law2 := (coef.getD 3 0) == 0 && (coef.getD 6 0) == 0 && byteAt shift 3 == 0 && byteAt shift 6 == 0
  let q15 := (coef.all fun v => v == (v.setWidth 16).signExtend 32) && allZero shift
  if numAt b 0x12 2 != 0 || numAt b 0x37 1 != 0 || !allZero (slice b 0x48 8) || decide (s.iHi.toInt < s.iLo.toInt) ||
      decide (s.vHi.toInt < s.vLo.toInt) || !shiftOk || decide (s.intMax.toInt ≤ s.intMin.toInt) || decide (s.outMax.toInt ≤ s.outMin.toInt) ||
      (!x.law3 && !law2) || (x.compat && !q15) then none
  else some s

def parseSectors (x : TopoEnt) (b : List Byte) : Option (List SectorEnt) :=
  let n := numAt b 0 1
  if n = 0 ∨ 8 < n ∨ numAt b 1 3 ≠ 0 then none
  else allSome ((List.range n).map fun i => parseSector x (slice b (4 + 80 * i) 80))

def parseLoops (ss : List Sect) (t : Tiling) : Option Tiling :=
  let b := bodyOf ss 5 0
  match parseAll (fun c : CtxIx => parseTopo t c (slice b (8 * c.val) 8)) {} with
  | none => none
  | some topo =>
    let t := { t with topo := topo }
    match parseAll (fun c : CtxIx => match findSect ss 6 c.val with
        | some s => parseSectors topo[c] s.body
        | none => some []) [] with
    | some sectors => if topoOk t then some { t with sectors := sectors } else none
    | none => none

/-! ## Check 13: fabric (R151, R296, R297) -/

def eventKnown (x : Nat) : Bool :=
  decide (x < 0xC0) || (decide (0xC0 ≤ x) && decide (x < 0xE0) && x % 4 != 3) || (decide (0x100 ≤ x) && decide (x < 0x108)) ||
    (decide (0x200 ≤ x) && decide (x < 0x300) && decide ((x - 0x200) % 0x40 < 40)) || (decide (0x300 ≤ x) && decide (x < 0x310)) ||
    (decide (0x400 ≤ x) && decide (x < 0x4B0)) || (decide (0x500 ≤ x) && decide (x < 0x550)) ||
    (decide (0x600 ≤ x) && decide (x < 0x800)) || x == 0x800 || x == 0x801

def inputKnown (t : Tiling) (x : Nat) : Bool :=
  decide (x < 8) || (decide (0x20 ≤ x) && decide (x < 0xA0)) || (decide (0x100 ≤ x) && decide (x < 0x150)) ||
    (decide (0x200 ≤ x) && decide (x < 0x208) && (t.snaps[Fin.ofNat 8 (x - 0x200)]).isSome)

def parseFabric (ss : List Sect) (t : Tiling) : Option Tiling :=
  let b := bodyOf ss 7 0
  let n := numAt b 0 2
  let lists := { t with snaps := Vector.ofFn fun i => (findSect ss 11 i.val).map fun _ => [] }
  let route := fun i =>
    let e := slice b (4 + 8 * i) 8
    if eventKnown (numAt e 0 2) && inputKnown lists (numAt e 2 2) && decide (numAt e 4 1 ≤ 1) && allZero (slice e 5 3) then
      some ({ src := BitVec.ofNat 16 (numAt e 0 2), dst := BitVec.ofNat 16 (numAt e 2 2), latch := numAt e 4 1 == 1 } : Route)
    else none
  if decide (512 < n) || numAt b 2 2 != 0 then none
  else match allSome ((List.range n).map route) with
    | none => none
    | some rs =>
      if distinct (rs.map fun r => (r.src, r.dst)) && rs.all fun a => rs.all fun b => a.dst != b.dst || a.latch == b.latch then
        some { t with routes := rs }
      else none

/-! ## Check 14: fault matrix (R152, R401, R403) -/

/-- The floor of a source; CHORD_BREAK's depends on the shared mask. -/
def srcFloor (k : Nat) (shared : Byte) : Nat :=
  if k = 0x00 ∨ k = 0x01 ∨ k = 0x03 ∨ k = 0x04 ∨ k = 0x10 then 3
  else if k = 0x11 ∨ (0x20 ≤ k ∧ k < 0x30) ∨ (0x40 ≤ k ∧ k < 0x48) then 2
  else if 0x60 ≤ k ∧ k < 0x68 then if shared.getLsbD (k - 0x60) then 2 else 1
  else if k = 0x02 ∨ k = 0x07 ∨ k = 0x08 ∨ k = 0x12 ∨ (0x58 ≤ k ∧ k < 0x60) ∨ (0x70 ≤ k ∧ k < 0x8C) ∨ !srcDefined (Fin.ofNat 256 k) then 0
  else 1

def parseReaction (ss : List Sect) (e : List Byte) : Option Reaction :=
  let k := numAt e 0 2
  let c := numAt e 2 1
  let a := numAt e 4 1
  let s := numAt e 5 1
  if (k != 0xFFFF && decide (255 < k)) || (c != 0xFF && decide (31 < c)) || decide (5 < a) ||
      (s != 0xFF && (decide (7 < s) || (findSect ss 11 s).isNone)) || numAt e 6 2 != 0 then none
  else some { source := if k = 0xFFFF then none else some (Fin.ofNat 256 k), cls := if c = 0xFF then none else some (BitVec.ofNat 5 c), railMask := byteAt e 3, action := Fin.ofNat 6 a, snap := if s = 0xFF then none else some (Fin.ofNat 8 s) }

def parseMatrix (ss : List Sect) (t : Tiling) : Option Tiling :=
  let b := bodyOf ss 8 0
  let n := numAt b 1024 2
  let shared := byteAt (bodyOf ss 10 0) 0x22
  let cls := fun k : SrcIx =>
    let e := slice b (4 * k.val) 4
    if decide (31 < numAt e 0 1) || decide (4 < numAt e 1 1) || numAt e 2 2 != 0 || decide (numAt e 1 1 < srcFloor k.val shared) then none
    else some ({ cls := BitVec.ofNat 5 (numAt e 0 1), level := Fin.ofNat 5 (numAt e 1 1) } : ClassEnt)
  if decide (256 < n) || numAt b 1026 2 != 0 then none
  else match parseAll cls {}, allSome ((List.range n).map fun i => parseReaction ss (slice b (1028 + 8 * i) 8)) with
    | some classes, some rs => some { t with classes := classes, reactions := rs }
    | _, _ => none

/-! ## Check 15: storage, Chord, snapshot lists (R153 to R155) -/

def parseStore (t : Tiling) (b : List Byte) : Option StoreEnt :=
  let r := numAt b 0 1
  let q : QuadIx := Fin.ofNat 4 (numAt b 1 1)
  let c := numAt b 3 1
  let isStore := decide (r < 8) && match t.rails[Fin.ofNat 8 r] with
    | some e => e.storage
    | none => false
  let burns := (List.range 4).all fun k => !(byteAt b 2).getLsbD k || match t.seqs[q] with
    | some s => (s.reg ++ s.inj).any fun e => e.input.toNat == 0x10 + k && e.eflags.getLsbD 0
    | none => false
  let ctxOk := c == 0xFF || (decide (72 ≤ c) && decide (c < 80) && let x := t.topo[Fin.ofNat 80 c]
    x.enable && x.target == railIxOf r)
  if !isStore || decide (3 < numAt b 1 1) || decide (15 < numAt b 2 1) || !burns || !ctxOk || numAt b 4 4 != 0 then none
  else some { rail := Fin.ofNat 8 r, tempQuad := q, tempMask := BitVec.ofNat 4 (numAt b 2 1), inreg := if c = 0xFF then none else some (Fin.ofNat 80 c) }

def parseChord (t : Tiling) (b : List Byte) : Option ChordEnt :=
  let mask := byteAt b 0x22
  let share := fun r : RailIx =>
    let e := slice b (0x24 + 4 * r.val) 4
    if mask.getLsbD r.val then
      if numAt e 0 1 < 8 then some ({ chainRail := Fin.ofNat 8 (numAt e 0 1), members := byteAt e 1, share := BitVec.ofNat 16 (numAt e 2 2) } : ShareEnt)
      else none
    else if allZero e then some {} else none
  let p := numAt b 0x20 1
  let n := numAt b 0x21 1
  if decide (7 < p) || decide (8 < n) || decide (n ≤ p) || numAt b 0x23 1 != 0 ||
      (List.finRange 8).any fun r => mask.getLsbD r.val && (t.rails[r]).isNone then none
  else match parseAll share {} with
    | some sh => some { digest := b.take 32, position := Fin.ofNat 8 p, size := byteAt b 0x21, shared := mask, share := sh }
    | none => none

/-- A snapshot list: its 16 words, each unused or the address of a readable register. -/
def parseSnap (b : List Byte) : Option (List Word) :=
  let ws := (List.range 16).map fun i => wordAt b (4 * i)
  if ws.all fun w => w == 0xFFFFFFFF || (decide (w.toNat < 0x100000) && isReg (w.setWidth 24)) then some ws else none

def parseOthers (ss : List Sect) (t : Tiling) : Option Tiling :=
  let store := fun p : PortIx => (findSect ss 9 p.val).map fun s => parseStore t s.body
  let snap := fun i : Fin 8 => (findSect ss 11 i.val).map fun s => parseSnap s.body
  let chord := (findSect ss 10 0).map fun s => parseChord t s.body
  if ((List.finRange 4).any fun p => store p == some none) || ((List.finRange 8).any fun i => snap i == some none) || chord == some none then none
  else
    let stores : Vector (Option StoreEnt) 4 := Vector.ofFn fun p => (store p).getD none
    let ports := (List.finRange 4).filterMap fun p => stores[p].map (·.rail)
    if distinct ports then some { t with stores := stores, snaps := Vector.ofFn fun i => (snap i).getD none, chord := chord.getD none }
    else none

/-! ## Check 16: the signature block (R156) -/

/-- The owner keys in slots that are INSTALLED. -/
abbrev Keys := Vector (Option (BitVec 512)) 4

/-- A signer's key is the one the device holds for it (R156, R444). -/
def signerOk (keys : Keys) (signer : Byte) (key : BitVec 512) : Bool :=
  if signer.toNat < 4 then keys[Fin.ofNat 4 signer.toNat] == some key
  else signer == 0x10 && keyHash key == beBytes 32 Config.rootHash.toNat

def sigOk (keys : Keys) (bs : List Byte) : Bool :=
  let b := slice bs (imgSigned bs) 136
  let key := BitVec.ofNat 512 (beNat (slice b 8 64))
  let sig := BitVec.ofNat 512 (beNat (slice b 0x48 64))
  slice b 0 4 == [0x53, 0x49, 0x47, 0x42] && numAt b 5 1 == 1 && numAt b 6 2 == 0 && signerOk keys (byteAt b 4) key &&
    ecdsaVerify key (bs.take (imgSigned bs)) sig

/-! ## Validation (R158) -/

/-- The first of a list of checks that fails; the structure all of them build otherwise. -/
def chain (t : Tiling) : List (Byte × (Tiling → Option Tiling)) → Except Byte Tiling
  | [] => .ok t
  | (code, f) :: rest => match f t with
    | some t => chain t rest
    | none => .error code

/-- Checks 6 to 8 on the sections of an image; a delta's presence is checked on what it composes. -/
def sectionCheck (bs : List Byte) : Except Byte (List Sect) :=
  match imgSects bs with
  | none => .error 6
  | some ss =>
    if numAt bs 0x14 2 != ss.length then .error 6
    else if ss.any fun s => crc32c s.body != s.crc then .error 7
    else if !sectsOk ss (imgDelta bs) then .error 8 else .ok ss

/-- Checks 10 to 15 on the sections of a full image. -/
def contentCheck (ss : List Sect) : Except Byte Tiling :=
  chain {} [(10, parsePhases ss), (11, parseSensing ss), (12, parseLoops ss), (13, parseFabric ss), (14, parseMatrix ss), (15, parseOthers ss)]

/-- Checks 6 to 15 on a full image. -/
def structureCheck (bs : List Byte) : Except Byte Tiling := match sectionCheck bs with
  | .error e => .error e
  | .ok ss => contentCheck ss

/-- Checks 6 to 15 of a load: the full image it makes and its structure. `run` is the running image, none when UNTILED. -/
def loadCheck (bs : List Byte) (run : Option (List Byte)) : Except Byte (List Byte) := match sectionCheck bs with
  | .error e => .error e
  | .ok _ =>
    let full := if imgDelta bs then match run with
        | some r => compose r bs
        | none => none
      else some bs
    match full with
    | none => .error 9
    | some f => match structureCheck f with
      | .ok _ => .ok f
      | .error e => .error e

/-- The structure of an image that has passed its checks. -/
def tilingOf (bs : List Byte) : Tiling := match structureCheck bs with
  | .ok t => t
  | .error _ => {}

/-- The bytes verification reads of a slot: those of its recorded length. -/
def Slot.content (s : Slot) : List Byte := s.bytes.take (s.recLen.getD 0)

/-- Verification of a slot that is not EMPTY (R158): check 18, then 1 to 16 without 9. -/
def Slot.verify (s : Slot) (keys : Keys) : Except Byte Tiling :=
  let bs := s.content
  if s.recLen = some 0 ∨ s.badWord = true then .error 18
  else
    let h := headerCheck bs s.recLen
    if h != 0 then .error h
    else match structureCheck bs with
      | .error e => .error e
      | .ok t => if sigOk keys bs then .ok t else .error 16

/-- The status of a load that fails a check (R158). -/
def rejectStatus (code : Byte) : Byte := if code = 4 ∨ code = 16 ∨ code = 17 then 0x08 else 0x05

end Sys2Proof.Machine
end

