-- ==== Sys2Proof/Machine/Flags.lean ====
section
/-! DEFINITION. The status flags that several chapters form from the state: RDY and its causes (R468), RESTART_OK (R357),
    the SAFE flags (R354), and the status codes of a response (R472). -/

namespace Sys2Proof.Machine

open Sys2Proof

/-! ## Status codes (R472) -/

abbrev stOk : Byte := 0x00
abbrev stNakCrc : Byte := 0x01
abbrev stBusy : Byte := 0x02
abbrev stBadAddr : Byte := 0x03
abbrev stLocked : Byte := 0x04
abbrev stState : Byte := 0x05
abbrev stFault : Byte := 0x06
abbrev stLeave : Byte := 0x07
abbrev stAuth : Byte := 0x08
abbrev stCause : Byte := 0x09

/-! ## SAFE (R354, R357) -/

/-- The stop demand of either SAFE channel. -/
def Prot.stop (p : Prot) : Bool := p.aStop || p.bStop
def Prot.disagree (p : Prot) : Bool := p.aStop != p.bStop

/-- Restart is allowed: both channels demand run and DISC is 0. -/
def Prot.restartOk (p : Prot) : Bool := !p.stop && !p.disc

/-- The blocks clocked by the PLL work: carriers, fast path, slices, loop engine and Chord (R108, R118). -/
def Dev.alive (d : Dev) : Bool := d.sys.devState != .boot && !d.clk.onBackup

/-! ## RDY (R468) -/

/-- Outstanding transactions: those taken whose response has not been sent (R464). -/
def Link.outstanding (l : Link) : Nat := l.window.length

/-- Bits 8 to 13 of LINK.STATUS: the causes that hold RDY low. -/
def Dev.rdyCauses (d : Dev) : BitVec 6 :=
  let s := d.sys
  (if 8 ≤ d.link.outstanding then 1 else 0) ||| (if s.rdyLowCommit then 2 else 0) ||| (if d.clk.now < s.rdyStepUntil then 4 else 0) |||
    (if s.rdyLowStart then 8 else 0) ||| (if s.rdyLowBist then 16 else 0) ||| (if s.rdyLowBackup || d.clk.onBackup then 32 else 0)

/-- RDY is high. -/
def Dev.rdy (d : Dev) : Bool := d.rdyCauses == 0

/-- A cause of bits 9 to 12 holds: no transaction executes (R468). -/
def Dev.rdyHeld (d : Dev) : Bool := d.rdyCauses &&& 0x1E != 0

/-- Past intervals that a frame still arriving may have begun in: the longest lasts 10 800 ticks (R461). -/
def recent (now : Tick) (xs : List (Tick × Tick)) : List (Tick × Tick) := xs.filter fun x => decide (now ≤ x.2 + 10800)

/-- RDY is no longer low for a cause of bits 9 to 12: the time for which it was is kept (R468). A retile's cause ends at its own tick. -/
def Dev.endRdyLow (d : Dev) : Dev := match d.link.rdyFell with
  | some f =>
    if d.rdyHeld then d
    else
      let u := if f < d.sys.rdyStepUntil then min d.sys.rdyStepUntil d.clk.now else d.clk.now
      { d with link := { d.link with rdyFell := none, rdyLows := (f, u) :: recent d.clk.now d.link.rdyLows } }
  | none => d

/-- The window becomes full, or is no longer: the time for which it was is kept (R468). -/
def Link.trackFull (l : Link) (now : Tick) : Link := match l.fullSince with
  | none => if 8 ≤ l.outstanding then { l with fullSince := some now } else l
  | some f => if 8 ≤ l.outstanding then l else { l with fullSince := none, fulls := (f, now) :: recent now l.fulls }

/-- The tick at which RDY fell for a cause of bits 9 to 12 is kept while one holds, and that at which the window became full. -/
def Dev.trackRdy (d : Dev) : Dev :=
  let d := { d with link := d.link.trackFull d.clk.now }
  if d.rdyHeld && d.link.rdyFell.isNone then { d with link := { d.link with rdyFell := some d.clk.now } } else d.endRdyLow

end Sys2Proof.Machine
end

