-- ==== Sys2Proof/Machine/Requests.lean ====
section
/-! DEFINITION. The transactions of the host link as the payload of a REQUEST spells them (R471): which commands a taken payload is. -/

namespace Sys2Proof.Machine

open Sys2Proof

/-- A transaction: OP, ARG8 and ARG16, then its body (R471). -/
def request (op : Byte) (arg8 arg16 : Nat) (body : List Byte) : List Byte := [op, BitVec.ofNat 8 arg8] ++ leBytes 2 arg16 ++ body

/-- READ of a word. -/
def reqRead (a : Nat) : List Byte := request 1 0 0 (leBytes 4 a)

/-- WRITE of a word. -/
def reqWrite (a : Nat) (v : Word) : List Byte := request 2 0 0 (leBytes 4 a ++ leBytes 4 v.toNat)

/-- A WRITE of an address whose data satisfies a test. -/
def isWrite (a : Nat) (ok : Word → Bool) (p : List Byte) : Bool := p == reqWrite a (wordAt p 8) && ok (wordAt p 8)

/-- The WRITE of RAIL[r].CMD with a code (R322). -/
def isRailCmd (r : RailIx) (code : Nat) (p : List Byte) : Bool := isWrite (0x040000 + 0x200 * r.val) (fun v => (fld v 0 3).toNat == code) p

/-- The payload of a REQUEST spells a command of the table. A WRITE of a register that has a row of its own spells that row and WRITE;
    the events of the table are no transactions. -/
def Instr.spelledBy (p : List Byte) : Instr → Bool
  | .retry _ v => p == reqWrite 0x000020 v
  | .tbLoRead _ => p == reqRead 0x001008
  | .epochHiWrite _ v => p == reqWrite 0x001014 v
  | .maintEnter _ => isWrite 0x000008 (fun v => fld v 0 3 == 1) p
  | .maintExit _ => isWrite 0x000008 (fun v => fld v 0 3 == 2) p
  | .latchRelease _ => isWrite 0x000008 (fun v => fld v 0 3 == 4) p
  | .tileBlock _ offset bs => p == request 8 0 0 (leBytes 4 offset.toNat ++ bs)
  | .tileCommit _ => isWrite 0x004004 (fun v => fld v 0 3 == 1) p
  | .tileVerify _ => isWrite 0x004004 (fun v => fld v 0 3 == 2) p
  | .tileAbort _ => isWrite 0x004004 (fun v => fld v 0 3 == 4) p
  | .rtStop _ => isWrite 0x004040 (fun v => fld v 0 4 == 1) p
  | .rtResume _ => isWrite 0x004040 (fun v => fld v 0 4 == 2) p
  | .rtRevert _ => isWrite 0x004040 (fun v => fld v 0 4 == 4) p
  | .rtContinue _ => isWrite 0x004040 (fun v => fld v 0 4 == 8) p
  | .loadAll _ mask => p == request 7 0 mask.toNat []
  | .hostOvrWrite _ n v => p == reqWrite (0x010000 + 0x100 * n.val) v
  | .rperWrite _ r v => p == reqWrite (0x014000 + 4 * r.val) v
  | .syncPerWrite _ v => p == reqWrite 0x014020 v
  | .calZero _ => isWrite 0x020400 (fun v => fld v 0 5 == 1) p
  | .calFs _ => isWrite 0x020400 (fun v => fld v 0 5 == 2) p
  | .fgcal _ => isWrite 0x020400 (fun v => fld v 0 5 == 4) p
  | .selftest _ => isWrite 0x020400 (fun v => fld v 0 5 == 8) p
  | .calAbort _ => isWrite 0x020400 (fun v => fld v 0 5 == 16) p
  | .calValueWrite _ e v => p == reqWrite (0x0C0000 + 8 * e.val) v
  | .trkReset _ k v => p == reqWrite (0x023004 + 0x20 * k.val) v
  | .ctxDelayClr _ c v => p == reqWrite (0x030040 + 0x100 * c.val) v
  | .loopHistClr _ v => p == reqWrite 0x035040 v
  | .railCmdNone _ r => isRailCmd r 0 p
  | .railCmdOff _ r => isRailCmd r 1 p
  | .railCmdOn _ r => isRailCmd r 2 p
  | .railCmdCharge _ r => isRailCmd r 3 p
  | .railCmdSupport _ r => isRailCmd r 4 p
  | .railCmdReserved _ r code => isRailCmd r (5 + code.val) p
  | .oltEnWrite _ r v => p == reqWrite (0x040008 + 0x200 * r.val) v
  | .wickRelight _ k v => p == reqWrite (0x050004 + 0x100 * k.val) v
  | .faultForce _ i v => p == reqWrite (0x070020 + 4 * i.val) v
  | .faultAck _ r v => p == reqWrite (0x070080 + 4 * r.val) v
  | .logRead _ start max => p == request 9 max.toNat 0 (leBytes 6 start ++ [0, 0])
  | .rselHiWrite _ v => p == reqWrite 0x080064 v
  | .snapSelWrite _ v => p == reqWrite 0x0800C0 v
  | .tokenClear _ bs | .tokenClaim _ bs | .tokenInstall _ bs | .tokenRevoke _ bs | .tokenUnlock _ bs => p == request 0x0B 0 0 bs
  | .attestIdentity _ bs | .attestRecords _ bs | .attestCalibration _ bs => p == request 0x0A 0 0 bs
  | .read _ a => p == reqRead a.toNat
  | .write _ a v => p == reqWrite a.toNat v
  | .readBurst _ a n => p == request 3 n.toNat 0 (leBytes 4 a.toNat)
  | .writeBurst _ a ws => p == request 4 ws.length 0 (leBytes 4 a.toNat ++ ws.flatMap fun w => leBytes 4 w.toNat)
  | .atomicAdd _ a v => p == request 5 0 0 (leBytes 4 a.toNat ++ leBytes 4 v.toNat)
  | .atomicSwap _ a v => p == request 6 0 0 (leBytes 4 a.toNat ++ leBytes 4 v.toNat)
  | .linkCtrlClr _ v => p == reqWrite 0x0A0018 v
  | .bankTest _ => isWrite 0x002900 (fun v => fld v 0 3 == 1) p
  | .phaseTest _ => isWrite 0x002900 (fun v => fld v 0 3 == 2) p
  | .fullBist _ => isWrite 0x002900 (fun v => fld v 0 3 == 4) p
  | _ => false

end Sys2Proof.Machine
end

