-- ==== Sys2Proof/Machine/Operands.lean ====
section
/-! DEFINITION. The forms a host transaction takes (R473, R478): when one executes, how its response is formed, and what boot
    hold leaves of it. -/

namespace Sys2Proof.Machine

open Sys2Proof

/-- No transaction executes: a cause of bits 9 to 13 of R468 holds, or an earlier transaction still holds the link
    (R478, R480). -/
def Dev.linkHeld (d : Dev) : Bool := d.rdyHeld || d.sys.rdyLowBackup || d.link.holding

/-- None executes, or the one before has completed in this very LOOP_CLK cycle: the next one's execution cycle comes after it (R478). -/
def Dev.linkBlocked (d : Dev) : Bool := d.linkHeld || d.link.doneCycle == some d.cycle

/-- The window with its first transaction that has not executed marked executed; that transaction. -/
def takeFirst : List Taken → List Taken × Option Taken
  | [] => ([], none)
  | t :: ts => if t.done then let (r, x) := takeFirst ts
      (t :: r, x)
    else ({ t with done := true } :: ts, some t)

/-- The response of a transaction is formed (R461, R467, R478). -/
def Dev.reply (d : Dev) (st : Byte) (data : List Byte := []) : Dev :=
  let l := { d.link with lastStatus := st, lastData := data, holding := false, doneCycle := some d.cycle }
  match takeFirst l.window with
  | (_, none) => { d with link := l }
  | (w, some t) =>
    let r : Response := { seq := t.seq, status := st, expect := l.expect, epoch := l.epoch.setWidth 8, op := byteAt t.payload 0, payload := data }
    let store := l.replay ++ [r]
    { d with link := { l with window := w, tx := l.tx ++ [.response r], replay := store.drop (store.length - 8) } }

/-- The command is the transaction that stands first in the window and has not executed: none but a taken one executes, and each once
    (R471, R478). -/
def Dev.asked (d : Dev) (i : Instr) : Bool := match (takeFirst d.link.window).2 with
  | some x => Instr.spelledBy x.payload i
  | none => false

/-- A host transaction: nothing while the link is blocked, or where the window asks for another; REFUSED_STATE in boot hold unless it
    is allowed there (R137); otherwise `f`. -/
def Dev.host (d : Dev) (i : Instr) (inHold : Bool) (f : Dev → Dev) : Dev :=
  if d.linkBlocked || !d.asked i then d
  else if d.sys.bootHold && !inHold then d.reply stState
  else f d

end Sys2Proof.Machine
end

