-- ==== Sys2Proof/Machine/Pwm.lean ====
section
/-! DEFINITION. Phase PWM below the commands (R186 to R231): the output chain, masks, update points, Arc slews, the active
    set and its re-spread, and the registers of PWM[n] and PWMG. -/

namespace Sys2Proof.Machine

open Sys2Proof

/-- The modes in which a rail switches (R304, R346). -/
def RailMode.switching : RailMode → Bool
  | .ramp | .regulate | .ember | .charge | .support => true
  | _ => false

/-- Mode codes of R308. -/
def RailMode.code : RailMode → BitVec 3
  | .off => 0 | .ramp => 1 | .regulate => 2 | .ember => 3 | .charge => 4 | .support => 5 | .hiccup => 6 | .hold => 7

/-- Device state codes of R35. -/
def DevState.code : DevState → BitVec 3
  | .boot => 0 | .untiled => 1 | .standby => 2 | .run => 3 | .maint => 4 | .latched => 5

def Dev.mode (d : Dev) (r : RailIx) : RailMode := d.rails[r].mode

/-- The mode of a phase's rail; an unused phase has none. -/
def Dev.phaseMode (d : Dev) (n : PhaseIx) : Option RailMode := (d.railOf n).map d.mode

/-- The phase's duty comes from the loop engine by the image (R194). -/
def Dev.isLoop (d : Dev) (n : PhaseIx) : Bool := (d.railOf n).isSome && !d.tile.cur.phases[n].host

/-- The phase's source in effect is HOST or HOST_OVR (PWM[n].STATUS.SRC_EFF). -/
def Dev.srcHost (d : Dev) (n : PhaseIx) : Bool := d.tile.cur.phases[n].host || d.pwm[n].hostOvr

/-! ## Stage D and the outputs -/

/-- The rail whose reference the phase's carrier follows: its own, or that from which a PARK has taken it (R176, R222). -/
def Dev.carrierRail (d : Dev) (n : PhaseIx) : Option RailIx :=
  (d.railOf n).orElse fun _ => if d.pwm[n].mask.park then d.pwm[n].parkRail else none

/-- Stage D holds both outputs of the phase off (R210); in RAMP also while M0 is awaited (R316). A phase under HOST_OVR whose start has leave is not held by its
    rail's OFF nor by STANDBY and MAINT (assumption 20). -/
def Dev.gateForce (d : Dev) (n : PhaseIx) : Bool :=
  let started := d.pwm[n].hostOvr && d.pwm[n].hostStarted
  let byMode := match (d.carrierRail n).map d.mode with
    | some .off => !started
    | some .ramp => match d.carrierRail n with
      | some r => d.rails[r].m0Wait.isSome
      | none => true
    | some m => !m.switching
    | none => true
  let byState := match d.sys.devState with
    | .run => false
    | .standby | .maint => !started
    | _ => true
  d.prot.trips[n].latch || byMode || d.prot.stop || byState || d.clk.onBackup || d.sys.jtag || d.pwm[n].ilkLatch

/-- Stage C lets the output through. -/
def StageC.passes : StageC → Bool
  | .free | .heldAfterPulse => true
  | _ => false

/-- GH and GL as stage E emits them (R210, R223). -/
def Dev.emitted (d : Dev) (n : PhaseIx) : Bool × Bool :=
  let p := d.pwm[n]
  let f := d.gateForce n
  let h := p.gh && p.cHi.passes && !f
  let l := p.gl && p.cLo.passes && !f
  if h && l then (false, false) else (h, l)

/-! ## Masks (R218 to R222) -/

/-- Whether the pattern masks the phase (R219). -/
def MaskBits.pattern (m : MaskBits) (lift : Bool) : Bool :=
  m.unused || m.park || m.fail || m.card || m.hmask || (!lift && (m.shed || m.ember))

/-- No source bit. -/
def MaskBits.none : MaskBits := { unused := false }

def MaskBits.or (a b : MaskBits) : MaskBits :=
  { unused := a.unused || b.unused, park := a.park || b.park, fail := a.fail || b.fail, card := a.card || b.card, shed := a.shed || b.shed, ember := a.ember || b.ember, hmask := a.hmask || b.hmask }

/-- The bits and the lift last called for. -/
def Pwm.wanted (p : Pwm) : MaskBits × Bool := match p.maskChanges.getLast? with
  | some c => (c.bits, c.lift)
  | .none => (p.maskEff, p.liftEff)

/-- The mask bits or the lift change; the change waits for its update point (R220, R221). -/
def Pwm.setMask (p : Pwm) (now : Tick) (f : MaskBits → MaskBits) : Pwm :=
  let m := f p.mask
  let p := { p with mask := m }
  if p.wanted = (m, p.flareLift) then p else { p with maskChanges := p.maskChanges ++ [{ at_ := now, bits := m, lift := p.flareLift }] }

/-- The bits that events have set in this LOOP_CLK cycle. -/
def Dev.setNow (d : Dev) (n : PhaseIx) : MaskBits :=
  if d.cyc.no == d.cycle then
    (d.cyc.masks.filter fun x => x.1 == n).foldl (fun m x => m.or x.2) MaskBits.none
  else MaskBits.none

/-- An event sets and clears mask bits; a bit set and cleared in one LOOP_CLK cycle ends set (R221). -/
def Dev.setMask (d : Dev) (n : PhaseIx) (f : MaskBits → MaskBits) : Dev :=
  let sets := f MaskBits.none
  let before := d.setNow n
  let d := if sets = MaskBits.none then d else { d with cyc := { d.cyc with masks := (n, sets) :: d.cyc.masks } }
  d.updPwm n fun p => p.setMask d.clk.now fun m => (f m).or before

/-- Stage A's duty code: the Flare command's, or the one taken (R332). -/
def Pwm.code (p : Pwm) : BitVec 22 := if p.flareOn then p.flareCode else p.dutyEff

/-- The effective duty code and whether it is saturated (R189). -/
def Pwm.sat (p : Pwm) : Bool := p.perEff != 0 && decide (64 * p.perEff.toNat ≤ p.code.toNat)
def Pwm.duty (p : Pwm) : Nat := min p.code.toNat (64 * p.perEff.toNat)

/-- An output is on or off for the whole period (R215). -/
def Pwm.continuous (p : Pwm) : Bool := p.duty == 0 || p.sat

/-- What an update point does to stage C of one output when the pattern becomes `masks`, or stays so (R220): a pulse that a mask has let
    go on ends at an update point from which it would be on for the whole period (R215). A release while HI is on and GH in its dead time
    finds no pulse of GH in progress, and that GH is emitted whole (DEDUCED, assumption 105). -/
def StageC.next (c : StageC) (masks on continuous : Bool) : StageC :=
  if masks then
    match c with
    | .free => if on && !continuous then .heldAfterPulse else .held
    | .heldAfterPulse => if on && continuous then .held else .heldAfterPulse
    | _ => .held
  else
    match c with
    | .held => if on then .freeAfterPulse else .free
    | .heldAfterPulse => .free
    | c => c

/-- The pulse of an output ends. -/
def StageC.pulseEnd : StageC → StageC
  | .heldAfterPulse => .held
  | .freeAfterPulse => .free
  | c => c

/-- The mask pattern that stood complete 2 ticks before the update point takes effect (R220, R221). -/
def Pwm.applyMask (p : Pwm) (now : Tick) : Pwm :=
  let due := p.maskChanges.filter fun c => c.at_ + 2 ≤ now
  let (bits, lift) := match due.getLast? with
    | some c => (c.bits, c.lift)
    | none => (p.maskEff, p.liftEff)
  let w := bits.pattern lift
  let p := { p with maskEff := bits, liftEff := lift, maskChanges := p.maskChanges.filter fun c => now < c.at_ + 2 }
  if w = p.masked ∧ w = false then p
  else { p with masked := w, cHi := p.cHi.next w p.gh p.continuous, cLo := p.cLo.next w p.gl p.continuous }

/-- Bits change that do not wait the 2 ticks of R220 (R193): in the pattern in effect from the next update point on, and in those that
    wait, whose other bits keep their time. -/
def Pwm.putMask (p : Pwm) (f : MaskBits → MaskBits) : Pwm :=
  { p with mask := f p.mask, maskEff := f p.maskEff, maskChanges := p.maskChanges.map fun c => { c with bits := f c.bits } }

/-- The Flare override begins to lift SHED and EMBER, in its tick (R219): of the bits in effect and of those that wait. -/
def Pwm.beginLift (p : Pwm) : Pwm :=
  let p := { p with flareLift := true, liftEff := true, maskChanges := p.maskChanges.map fun c => { c with lift := true } }
  if p.masked && !p.maskEff.pattern true then { p with masked := false, cHi := .free, cLo := .free } else p

/-- The lift ends, under the timing of R220 from `now`. -/
def Pwm.endLift (p : Pwm) (now : Tick) : Pwm := if p.flareLift then ({ p with flareLift := false }).setMask now id else p

/-- The lift of a participant ends at the update point at which it takes FLARE_DUTY's code (R334); the bits that wait keep their time. -/
def Pwm.dropLift (p : Pwm) : Pwm :=
  { p with flareLift := false, liftEff := false, maskChanges := p.maskChanges.map fun c => { c with lift := false } }

/-! ## Carriers and the Arc (R186 to R208) -/

/-- Ticks from the valley that began the reference's period to the next (R186, R496). -/
def RefCarrier.len (c : RefCarrier) : Nat :=
  ((2 * c.per.toNat : Int) + match c.exts.find? fun x => x.1 == c.valley with
    | some x => x.2
    | none => 0).toNat

/-- The period that begins at the valley `at_` is lengthened; the one before it keeps its own length (R496, R497). -/
def RefCarrier.extend (c : RefCarrier) (at_ : Tick) (x : Int) : RefCarrier := { c with exts := (at_, x) :: c.exts.take 1 }

/-- A reference carrier whose update points have not been sent goes on from its last valley by whole periods: the period before or
    in which `now` lies (R201, assumption 64). -/
def RefCarrier.sync (c : RefCarrier) (now : Tick) : RefCarrier :=
  if now ≤ c.valley + c.len then c
  else
    let start := c.valley + c.len
    let v := start + (now - start - 1) / (2 * c.per.toNat) * (2 * c.per.toNat)
    { c with valley := v, down := decide (v + c.per.toNat < now), first := false }

/-- An apex or a valley of a reference carrier is due. -/
def RefCarrier.due (c : RefCarrier) (now : Tick) (apex : Bool) : Bool :=
  let c := c.sync now
  if apex then !c.down && c.valley + c.per.toNat == now
  else (c.first && c.valley ≤ now && decide (now ≤ c.valley + 1)) || c.valley + c.len == now

/-- OFS of R202 in fine units; the Arc position may be unwrapped. -/
def arcOfs (arc : Int) (per : Nat) : Int := rhe (arc * (2 * per * 64 : Nat)) 65536

/-- The error E of R205, −32 767 to 32 768. -/
def arcErr (tgt now : BitVec 16) : Int :=
  let e := ((tgt.toNat : Int) - now.toNat) % 65536
  if 32768 < e then e - 65536 else e

/-- The change of OFS in fine units that a move of ARC_NOW by `s` makes. -/
def arcShift (now : BitVec 16) (per : Nat) (s : Int) : Int := arcOfs (now.toNat + s) per - arcOfs now.toNat per

/-- The move of one valley: the smaller of |E| and SLEW in the sign of E, an advance reduced so that 16 ticks of off-time are left
    (R205, R206). R206 does not say how a reduced advance falls on Arc units: the largest whole number of units that fits is taken, by the
    floor of the room, less one where rounding would exceed it (DESIGN CHOICE, assumption 65). -/
def arcMove (tgt now : BitVec 16) (slew per duty : Nat) : Int :=
  let e := arcErr tgt now
  if 0 ≤ e then min e slew
  else
    let k := min e.natAbs slew
    let off : Int := 128 * per - 2 * duty
    let room := (off - 1024).toNat
    let k' := min k (room * 65536 / (128 * per))
    let k' := if -arcShift now per (-(k' : Int)) ≤ room then k' else k' - 1
    let fits := decide ((arcShift now per (-(k : Int))).natAbs ≤ room)
    Int.negOfNat (if fits then k else k')

/-- The phase is aligned: its PER in effect is its rail's (R202). -/
def Dev.aligned (d : Dev) (n : PhaseIx) : Bool := match d.carrierRail n with
  | some r => d.pwm[n].perEff == d.pwmg.refs[r].per && d.pwmg.refs[r].running
  | none => false

/-- Whole ticks from the preceding valley of the rail reference to a valley (R203). -/
def freeTicks (valley refValley : Tick) (per : Nat) : Int := ((valley : Int) - refValley) % (2 * per : Nat)

/-- The same in Arc units, rounded half to even. -/
def freeArc (valley refValley : Tick) (per : Nat) : BitVec 16 :=
  BitVec.ofInt 16 (rhe (freeTicks valley refValley per * 65536) (2 * per))

/-- The carrier part of a valley (R202, R203, R205, R206, R496): alignment, slew, correction, the lengths of the counts and the fine
    phase offset. Of a correction that shortens the period as many whole ticks are made as leave, with the slew, 16 ticks of off-time,
    DUTY / 32 ticks being the on-time. A phase that comes to be aligned slews from its real offset, in whole ticks. While its reference holds at count 0 (R204) a
    phase goes on as it stands. -/
def Pwm.valleyCarrier (p : Pwm) (now : Tick) (ref : RefCarrier) (slew : Nat) : Pwm :=
  let per := p.perEff.toNat
  let p := { p with valley := now, down := false }
  if ref.holding then { p with upLen := per, downLen := per }
  else if p.perEff != ref.per || !ref.running then
    { p with fine := 0, free := true, joined := false, arcNow := freeArc now ref.valley ref.per.toNat, upLen := per, downLen := per, corr := 0 }
  else
    let anew := p.free || p.joined
    let p := if anew then { p with free := false, joined := false, arcNow := freeArc now ref.valley per } else p
    let s := arcMove p.arcTgt p.arcNow slew per p.duty
    let o := if anew then freeTicks now ref.valley per else arcOfs p.arcNow.toNat per / 64
    let dt := arcOfs (p.arcNow.toNat + s) per / 64 - o
    let shift : Int := arcOfs (p.arcNow.toNat + s) per - (if anew then 64 * o else arcOfs p.arcNow.toNat per)
    let fix := max p.corr (min 0 (-((128 * per + shift - 2 * p.duty - 1024) / 64)))
    let got := dt + fix
    let up := Int.tdiv got 2
    { p with fine := (arcOfs (p.arcNow.toNat + s) per % 64).toNat, arcNow := BitVec.ofInt 16 (p.arcNow.toNat + s), upLen := (per + up).toNat, downLen := (per + (got - up)).toNat, corr := p.corr - fix }

/-- T_USE moves by one towards T_MEAS (R192); a measurement outside 64 to 96 is not followed (R193). -/
def DLine.move (l : DLine) : DLine :=
  if l.meas.toNat < 64 ∨ 96 < l.meas.toNat then l
  else if l.use.toNat < l.meas.toNat then { l with use := l.use + 1 }
  else if l.meas.toNat < l.use.toNat then { l with use := l.use - 1 } else l

/-- A trigger at a valley: a due period that ended without a hit is counted, the prescale count moves on, and a staged
    setting takes effect (R226, R227). -/
def Trig.valley (g : Trig) (now : Tick) : Trig :=
  let g := if g.enEff && g.count == 0 && !g.fired then { g with skips := g.skips + 1 } else g
  let g := { g with count := if g.count = 0 then g.prescaleEff.toNat else g.count - 1, fired := false }
  match g.written with
  | some w => if w + 2 ≤ now then { g with written := none, enEff := g.en, prescaleEff := g.prescale, posEff := g.pos, count := 0 } else g
  | none => g

/-- The dead time that governs for a written value (R212). -/
def dtFloor (v : BitVec 16) : BitVec 16 := if v.toNat < 615 then 615 else v

/-- The source detail of an INTERLOCK (R422): the duty code, DTR and DTF in effect. -/
def Pwm.ilkDetail (p : Pwm) : List Byte := leBytes 4 p.duty ++ leBytes 2 (dtFloor p.dtr).toNat ++ leBytes 2 (dtFloor p.dtf).toNat

/-- A staged pair of dead times takes effect (R213). -/
def Pwm.takeDt (p : Pwm) (now : Tick) : Pwm := match p.dtWritten with
  | some w => if w + 2 ≤ now then { p with dtWritten := none, dtf := p.dtFall, dtr := p.dtRise } else p
  | none => p

/-! ### Stages A and B (R188 to R190, R211 to R217)

Positions are absolute, in 1/64 tick; the tick of a position is its floor. -/

/-- Position of the phase's fine valley, from which a period's times are counted. -/
def Pwm.origin (p : Pwm) : Int := 64 * p.valley + p.fine

/-- The tap of a line from which an edge at a position is taken (R190). -/
def DLine.tap (l : DLine) (pos : Int) : Nat := (rhe (pos % 64 * l.use.toNat) 64).toNat

/-- Positions at which HI falls after the period's valley and rises before the next one (R188). -/
def Pwm.fallPos (p : Pwm) : Int := p.origin + p.duty
def Pwm.risePos (p : Pwm) : Int := p.origin + 64 * (p.upLen + p.downLen) - p.duty

/-- HI as the carrier forms it at a position of the present half period (R188, R189). -/
def Pwm.level (p : Pwm) (pos : Int) : Bool :=
  if p.duty = 0 then false
  else p.sat || decide (pos < p.fallPos) && decide (p.origin - p.duty ≤ pos) || p.down && decide (p.risePos ≤ pos)

/-- The first tick of the next update point, as a position. -/
def Pwm.halfEnd (p : Pwm) : Int := 64 * (p.valley + p.upLen + if p.down then p.downLen else 0)

/-- The next edge of HI, which is `on` at a position, before the tick of the next update point (R188, R189, R215): one the position has
    passed is made at once. With the fine phase offset both edges about a valley may fall after the valley itself. -/
def Pwm.nextEdge (p : Pwm) (on : Bool) (pos : Int) : Option Int :=
  let e : Option Int :=
    if p.duty = 0 then if on then some pos else none
    else if p.sat then if on then none else some pos
    else match on, p.down with
      | true, false => some (max pos p.fallPos)
      | false, false => if pos < p.fallPos then some (max pos (p.origin - p.duty)) else none
      | true, true => if pos < p.risePos ∧ p.fallPos < p.risePos then some (max pos p.fallPos) else none
      | false, true => some (max pos p.risePos)
  e.filter fun x => decide (x < p.halfEnd)

/-- Position at which HI, on at a position, falls next: the end of a pulse of GH that begins there (R211); none where it stays on. -/
def Pwm.nextFall (p : Pwm) (pos : Int) : Option Int :=
  if p.flarePulse then p.edgeAt
  else if p.sat then none
  else if pos < p.fallPos && !(p.down && decide (p.risePos ≤ pos)) then some p.fallPos
  else some (p.fallPos + 64 * (p.upLen + p.downLen))

/-- Position at which HI has its next rising edge after a position: the end of a pulse of GL that begins there; none where HI stays off
    or has none. A trip or a hold that has cut HI leaves the carrier's own edges where they are (R345). -/
def Pwm.nextRise (p : Pwm) (pos : Int) : Option Int :=
  if p.duty = 0 || p.sat then none
  else if !p.down && decide (pos ≤ p.origin - p.duty) then some (p.origin - p.duty)
  else if pos ≤ p.risePos then some p.risePos
  else some (p.risePos + 128 * p.perEff.toNat)

/-- Where a pulse of GH that begins at a position ends: at the fall of HI, which may be due at that very position (R211, R214). -/
def Pwm.hiEnd (p : Pwm) (pos : Int) : Option Int :=
  if !p.flarePulse && !p.sat && p.duty != 0 && decide (pos = p.fallPos) && !(p.down && decide (p.risePos ≤ pos)) then some pos else p.nextFall pos

/-- A pulse that would begin at one position and end at another is too short to emit (R214). -/
def tooShort (start : Int) : Option Int → Bool
  | some stop => decide (stop - start < 246)
  | none => false

/-- A pulse of GH, or of GL, is swallowed: counted unless stage C masks the output (R214). -/
def Pwm.swallow (p : Pwm) (gh : Bool) : Pwm :=
  if gh then { p with swallowHi := if p.cHi.passes then p.swallowHi + 1 else p.swallowHi }
  else { p with swallowLo := if p.cLo.passes then p.swallowLo + 1 else p.swallowLo }

/-- GH ends. -/
def Pwm.endGh (p : Pwm) (pos : Int) : Pwm :=
  if p.gh then { p with gh := false, cHi := p.cHi.pulseEnd, tapHi := p.lineHi.tap pos } else p

/-- GL ends. -/
def Pwm.endGl (p : Pwm) (pos : Int) : Pwm :=
  if p.gl then { p with gl := false, cLo := p.cLo.pulseEnd, tapLo := p.lineLo.tap pos } else p

/-- HI rises at a position: GL ends, a pulse of GL that had not begun is swallowed, and GH is due DTR later (R211):
    the DTR in effect at the rise, also where a new pair takes effect before GH begins (R213; DEDUCED, assumption 109). -/
def Pwm.hiUp (p : Pwm) (pos : Int) : Pwm :=
  let p := if match p.glAt with
    | some g => tooShort g (some pos)
    | none => false then p.swallow false else p
  { p.endGl pos with hi := true, glAt := none, ghAt := some (pos + (dtFloor p.dtr).toNat) }

/-- HI falls at a position: GH ends, a pulse of GH that had not begun is swallowed unless a trip or a hold cut HI (`cut`, R217), and GL
    is due DTF later (R211). -/
def Pwm.hiDown (p : Pwm) (pos : Int) (cut : Bool) : Pwm :=
  if !p.hi then p
  else
    let p := if !cut && match p.ghAt with
      | some g => tooShort g (some pos)
      | none => false then p.swallow true else p
    { p.endGh pos with hi := false, ghAt := none, glAt := some (pos + (dtFloor p.dtf).toNat) }

/-- GH begins, unless its pulse would be too short (R214). -/
def Pwm.beginGh (p : Pwm) (pos : Int) : Pwm :=
  if tooShort pos (p.hiEnd pos) then { p.swallow true with ghAt := none } else { p with gh := true, ghAt := none, tapHi := p.lineHi.tap pos }

/-- GL begins, unless its pulse would be too short. -/
def Pwm.beginGl (p : Pwm) (pos : Int) : Pwm :=
  if tooShort pos (p.nextRise pos) then { p.swallow false with glAt := none } else { p with gl := true, glAt := none, tapLo := p.lineLo.tap pos }

/-- A carrier that takes a new place while the gates are off: HI and stage B as the carrier forms them there (R204). -/
def Pwm.reform (p : Pwm) (now : Tick) : Pwm :=
  let p := { p with down := decide (p.valley + p.upLen ≤ now) }
  let on := p.level (64 * now)
  { p with cmd := on, edgeAt := p.nextEdge on (64 * now), hi := on, gh := on, gl := !on, ghAt := none, glAt := none, flarePulse := false }

/-- A phase carrier whose update points have not been sent goes on from its last valley by whole periods: the period before or in
    which `now` lies (R186, assumption 64). -/
def Pwm.sync (p : Pwm) (now : Tick) : Pwm :=
  let per := p.perEff.toNat
  let start := p.valley + p.upLen + p.downLen
  if per = 0 || now ≤ start then p
  else
    let v := start + (now - start - 1) / (2 * per) * (2 * per)
    { p with valley := v, upLen := per, downLen := per, down := decide (v + per < now) }

/-- An apex or a valley of the phase is due (R186). -/
def Pwm.due (p : Pwm) (now : Tick) (apex : Bool) : Bool :=
  let p := p.sync now
  p.perEff != 0 && if apex then !p.down && p.valley + p.upLen == now else p.valley + p.upLen + p.downLen == now

/-- The code of the Flare command at an update point: FLARE_DUTY as it stands while the Flare is in progress (`flare`, R332). -/
def Pwm.takeFlare (p : Pwm) (flare : Option (BitVec 22)) : Pwm := match flare with
  | some c => { p with flareCode := c }
  | none => p

/-- The duty code, and at a valley the period, that an update point takes (R195, R197, R199, R200, R334). `flare` is FLARE_DUTY while
    a Flare of the rail is in progress. -/
def Pwm.takeDuty (p : Pwm) (now : Tick) (apex host : Bool) (flare : Option (BitVec 22)) (rper : BitVec 16) : Pwm :=
  if host then
    let p := if p.zeroDue || p.hostStartWait then { p with dutyEff := 0, zeroDue := false } else p
    if p.hostStartWait then p
    else match p.loadShadow with
    | some s =>
      if s.at_ + 2 ≤ now && (s.per == p.perEff || !apex) then { p with perEff := s.per, dutyEff := s.duty, loadShadow := none } else p
    | none => p
  else if p.flareOn && flare.isSome then p.takeFlare flare
  else
    let p := if !apex || p.loopShadow.isSome || p.zeroDue then { p with perEff := rper } else p
    let p := if p.zeroDue then { p with dutyEff := 0, zeroDue := false } else p
    match p.loopShadow with
    | some s =>
      if s.at_ + 2 ≤ now then
        { p with dutyEff := s.duty, loopShadow := none, flareOn := false, flarePulse := false }
      else p
    | none => p

/-- What an update point brings into effect (R195, R208, R213, R219, R220): duty and period, mask, and at a valley dead times, lines,
    triggers and the carrier's place. A parked phase keeps its period. -/
def Dev.phaseUpdate (d : Dev) (r : RailIx) (n : PhaseIx) (apex : Bool) : Dev :=
  let now := d.clk.now
  let ref := d.pwmg.refs[r]
  let parked := (d.railOf n).isNone
  let flare := if d.rails[r].flare.isSome then some d.rails[r].flareDuty else none
  d.updPwm n fun p =>
    let p := p.sync now
    let was := p.flareOn
    let p := p.takeDuty now apex (if parked then p.loadShadow.isSome else d.srcHost n) flare (if parked then p.perEff else ref.per)
    let p := if was && !p.flareOn then p.dropLift else p
    let p := p.applyMask now
    if apex then { p with down := true }
    else
      let p := p.takeDt now
      let p := { p with lineHi := p.lineHi.move, lineLo := p.lineLo.move }
      let p := { p with trigA := p.trigA.valley now, trigB := p.trigB.valley now }
      p.valleyCarrier now ref d.pwmg.rslew[r].toNat

/-! ### Edges of HI -/

/-- The overvoltage comparator of a rail acts on its gates (R351). -/
def Dev.ovActs (d : Dev) (r : RailIx) : Bool :=
  let m := d.mode r
  d.prot.wins[r].ovAct && m.switching && m != .support

/-- A hold of R351 or R352 stands: a comparator of the phase's rail has not released, and an overvoltage still acts. -/
def Dev.heldOff (d : Dev) (n : PhaseIx) : Bool :=
  d.prot.trips[n].hold && match d.railOf n with
    | some r =>
      let w := d.prot.wins[r]
      (w.ov && d.ovActs r) || w.rtLo || w.rtHi
    | none => false

/-- HI is due to rise at a position: it stays off under a hold; otherwise a trip and a hold end, and the edge is formed (R345, R351). -/
def Dev.hiRise (d : Dev) (n : PhaseIx) (pos : Int) : Dev :=
  let d := d.updPwm n fun p => { p with cmd := true, edgeAt := p.nextEdge true pos }
  if d.heldOff n then d
  else (d.updTrip n fun t => { t with active := false, hold := false }).updPwm n fun p => if p.hi then p else p.hiUp pos

/-- HI falls at a position; a Flare on-pulse ends, and HI goes on as the carrier forms it under FLARE_DUTY (R332). -/
def Dev.hiFall (d : Dev) (n : PhaseIx) (pos : Int) : Dev :=
  d.updPwm n fun p =>
    let on := p.flarePulse && p.level pos
    let p := { p with cmd := on, edgeAt := p.nextEdge on pos, flarePulse := false }
    if on then p else p.hiDown pos false

/-- The next edge of HI, when it falls in the present tick. -/
def Dev.passEdge (d : Dev) (n : PhaseIx) : Dev :=
  let p := d.pwm[n]
  match p.edgeAt with
  | some x => if x / 64 = d.clk.now then (if p.cmd then d.hiFall n x else d.hiRise n x) else d
  | none => d

/-- Stage A from an update point on (R188, R189, R215): HI as the code and the period in effect form it, each edge at its own position;
    those that fall in the tick of the update point are made with it (assumption 86). A Flare on-pulse is not touched. -/
def Dev.formAt (d : Dev) (n : PhaseIx) : Dev :=
  if d.pwm[n].flarePulse then d
  else ((d.updPwm n fun p => { p with edgeAt := p.nextEdge p.cmd (64 * d.clk.now) }).passEdge n).passEdge n

/-! ### Places of carriers -/

/-- An aligned phase is re-placed at its target without slew, its valley OFS after the rail reference's (R202, R204). -/
def Dev.place (d : Dev) (r : RailIx) (n : PhaseIx) : Dev :=
  let ref := d.pwmg.refs[r]
  let per := ref.per.toNat
  d.updPwm n fun p =>
    let ofs := arcOfs p.arcTgt.toNat per
    let o := (ofs / 64).toNat
    ({ p with perEff := ref.per, arcNow := p.arcTgt, free := false, joined := false, upLen := per, downLen := per, fine := (ofs % 64).toNat, valley := if o = 0 then ref.valley else ref.valley + o - 2 * per } : Pwm).reform d.clk.now

/-- The reference of an OFF rail, `old` before, has taken a new period or another place (R203, R204): every LOOP member not under
    HOST_OVR is re-placed, one under HOST_OVR where it becomes aligned by it. Any other phase goes on; it shows the offset of its last
    valley from the reference as that was then, and where its PER is the rail's it slews from its real offset at its next valley. -/
def Dev.placeMembers (d : Dev) (r : RailIx) (old : RefCarrier) : Dev :=
  let ref := d.pwmg.refs[r]
  (d.members r).foldl (fun d n =>
    let p := d.pwm[n]
    if d.isLoop n && (!p.hostOvr || (p.perEff == ref.per && old.wasPer != ref.per)) then d.place r n
    else d.updPwm n fun p =>
      { p with free := p.free || p.perEff != ref.per, joined := p.perEff == ref.per, arcNow := freeArc p.valley old.valley old.wasPer.toNat }) d

/-- The carrier of a member takes its place (R201 to R203): at its target where its PER is the rail's, free otherwise. A HOST
    phase whose counter did not run begins with its staged PER. -/
def Dev.seat (d : Dev) (r : RailIx) (n : PhaseIx) : Dev :=
  let ref := d.pwmg.refs[r]
  let p := d.pwm[n]
  let host := d.srcHost n
  let per := if !host then ref.per else if p.perEff = 0 then p.perStaged else p.perEff
  if per = ref.per then d.place r n
  else d.updPwm n fun p =>
    if p.perEff = 0 then
      ({ p with perEff := per, free := true, valley := d.clk.now, upLen := per.toNat, downLen := per.toNat, fine := 0, arcNow := freeArc d.clk.now ref.valley ref.per.toNat } : Pwm).reform d.clk.now
    else { p with free := true }

/-- The counter of a phase that has become unused stops (R194). -/
def Pwm.stopCarrier (p : Pwm) : Pwm := 
  { p with perEff := 0, dutyEff := 0, upLen := 0, downLen := 0, down := false, fine := 0, free := false, joined := false, loopShadow := none, loadShadow := none, zeroDue := false, cmd := false, edgeAt := none, hi := false, gh := false, gl := false, ghAt := none, glAt := none, flareOn := false, flarePulse := false }

/-- A phase joins a rail (R172): a running carrier slews from where it stands against the new reference, a stopped one starts. -/
def Dev.joinCarrier (d : Dev) (r : RailIx) (n : PhaseIx) : Dev :=
  let p := d.pwm[n]
  let ref := d.pwmg.refs[r]
  let len := p.upLen + p.downLen
  if len = 0 then d.seat r n
  else
    let next := p.valley + ((d.clk.now - p.valley) / len + 1) * len
    d.updPwm n fun p => { p with joined := true, arcNow := freeArc next ref.valley ref.per.toNat }

/-- The loop engine or the rail manager writes a duty code into the phase's shadow (R195, R289); a phase under host duty
    discards it (R198), and so does one still under the Flare command (R332). -/
def Dev.loopWrite (d : Dev) (n : PhaseIx) (code : BitVec 22) : Dev :=
  if d.srcHost n || d.pwm[n].flareOn then d
  else d.updPwm n fun p =>
    { p with overwrites := if p.loopShadow.isSome then p.overwrites + 1 else p.overwrites, loopShadow := some { duty := code, at_ := d.cycleTick } }

/-! ## Active members and their positions (R324, R327) -/

/-- A member that can be active (R324, R414). -/
def Dev.canBeActive (d : Dev) (n : PhaseIx) : Bool :=
  let p := d.pwm[n]
  let s := cardOf n
  (d.railOf n).isSome && !p.mask.park && !d.prot.trips[n].latch && !p.dlFail && d.cards[s].state == .qualified &&
    !d.causeOf (srcCardFault s) 0 && !p.mask.hmask

/-- A member's loop is held closed (R281): it can be active and no SHED or EMBER bit of its own stands. -/
def Dev.isClosed (d : Dev) (n : PhaseIx) : Bool :=
  let p := d.pwm[n]
  d.canBeActive n && d.isLoop n && !p.mask.shed && !p.mask.ember

/-- A Flare of the phase's rail is in progress and lifts SHED and EMBER (R219); after it the bits count again. -/
def Dev.lifted (d : Dev) (n : PhaseIx) : Bool := d.pwm[n].flareLift && match d.railOf n with
  | some r => d.rails[r].flare.isSome
  | none => false

/-- An active member: neither SHED nor EMBER masks it. A HOST member is active whenever it can be, but for the SHED bit that a drain
    or a JOIN of a retile sets on it (R172, R175; assumption 61). -/
def Dev.isActive (d : Dev) (n : PhaseIx) : Bool :=
  let p := d.pwm[n]
  d.canBeActive n && if d.isLoop n then d.lifted n || (!p.mask.shed && !p.mask.ember) else !p.mask.shed

def Dev.active (d : Dev) (r : RailIx) : List PhaseIx := (d.members r).filter d.isActive

/-- The first element that is least by a key. -/
def leastBy {α : Type} (key : α → Nat) : List α → Option α
  | [] => none
  | x :: xs => match leastBy key xs with
    | some y => if key y < key x then some y else some x
    | none => some x

/-- Insertion by a key, and the sort it makes. -/
def insertBy {α : Type} (key : α → Nat) (x : α) : List α → List α
  | [] => [x]
  | y :: ys => if key x ≤ key y then x :: y :: ys else y :: insertBy key x ys

def sortBy {α : Type} (key : α → Nat) (xs : List α) : List α := xs.foldr (insertBy key) []

def Dev.rank (d : Dev) (n : PhaseIx) : Nat := d.tile.cur.phases[n].addRank.toNat
def Dev.imageArc (d : Dev) (n : PhaseIx) : BitVec 16 := d.tile.cur.phases[n].arc

/-- New targets for every member after a change of the active set (R327); the image's while the rail is OFF. -/
def Dev.respread (d : Dev) (r : RailIx) : Dev :=
  let ms := d.members r
  let act := d.active r
  let d := d.updRail r fun x => { x with spread := maskOf 64 fun n : PhaseIx => act.contains n }
  let home := ms.foldl (fun d n => d.updPwm n fun p => { p with arcTgt := d.imageArc n }) d
  if act.length = ms.length ∨ d.mode r = .off then home
  else match leastBy d.rank act with
    | none => home
    | some a =>
      let a0 := d.imageArc a
      let order := sortBy (fun n => (d.imageArc n - a0).toNat) act
      (order.zipIdx).foldl (fun d (n, k) =>
        d.updPwm n fun p => { p with arcTgt := a0 + BitVec.ofInt 16 (rhe (k * 65536) act.length) }) home

/-- RESPREAD bit of a rail (R207). -/
def Dev.slewing (d : Dev) (n : PhaseIx) : Bool := d.aligned n && d.pwm[n].arcNow != d.pwm[n].arcTgt
def Dev.respreadBusy (d : Dev) (r : RailIx) : Bool := (d.active r).any d.slewing

/-- A phase start asks leave; the flag says that it waits (R519). -/
def phaseTarget (n : PhaseIx) : Byte := BitVec.ofNat 8 n.val

/-- A phase start ends: held leave is released, a waiting request withdrawn (R522, R523). -/
def Dev.endStart (d : Dev) (n : PhaseIx) : Dev :=
  ((d.withdrawLeave .phaseStart (phaseTarget n)).releaseLeave .phaseStart (phaseTarget n)).updPwm n
    fun p => { p with startEdge := none }

/-- A bit of the mask counts (R218, R219). -/
def Dev.masked (d : Dev) (n : PhaseIx) : Bool :=
  let m := d.pwm[n].mask
  m.unused || m.park || m.fail || m.card || m.hmask || ((m.shed || m.ember) && !d.lifted n)

/-- The start of a phase that is masked ends (R519). -/
def Dev.endMasked (d : Dev) (g : LeaveGrant) : Dev :=
  let n : PhaseIx := Fin.ofNat 64 g.target.toNat
  if g.kind == .phaseStart && d.masked n then d.endStart n else d

/-! ## HOST_OVR (R198 to R200) -/

/-- HOST_OVR ends: from the next update point the duty code is 0 and PER is the rail's (R199). -/
def Dev.endHostOvr (d : Dev) (n : PhaseIx) : Dev :=
  if d.pwm[n].hostOvr then
    ((d.endStart n).updPwm n fun p =>
      { p with hostOvr := false, hostStartWait := false, hostStarted := false, loadShadow := none, loopShadow := none, zeroDue := true }).setMask n fun m => { m with shed := true }
  else d

/-- HOST_OVR of every member of a rail ends. -/
def Dev.endHostOvrRail (d : Dev) (r : RailIx) : Dev := (d.members r).foldl Dev.endHostOvr d

/-- The groups a phase answers to in a LOAD_ALL (R145, R197). -/
def Dev.covered (d : Dev) (mask : BitVec 16) (n : PhaseIx) : Bool :=
  let e := d.tile.cur.phases[n]
  (d.railOf n).isSome && if e.host then mask.getLsbD e.group.val else d.pwm[n].hostOvr && mask.getLsbD 0

/-- One covered phase takes its staged values into its shadow; a first non-zero code under HOST_OVR asks leave (R200), and a code of 0
    withdraws a request that waits (R522). The transfer counts from the first tick of its LOOP_CLK cycle for the 2-tick rule, as a loop
    code does (R195, R197; DEDUCED, assumption 92). -/
def Dev.loadPhase (d : Dev) (n : PhaseIx) : Dev :=
  let p := d.pwm[n]
  let d := d.updPwm n fun p =>
    { p with loadShadow := some { per := p.perStaged, duty := p.dutyStaged, at_ := d.cycleTick } }
  if p.hostOvr && !p.hostStarted && !p.hostStartWait && p.dutyStaged != 0 then
    let (d, ok) := d.askLeave .phaseStart (phaseTarget n)
    if ok then d.updPwm n fun p => { p with hostStartWait := true } else d.updPwm n fun q => { q with loadShadow := p.loadShadow }
  else if p.hostStartWait && p.dutyStaged == 0 then
    (d.withdrawLeave .phaseStart (phaseTarget n)).updPwm n fun p => { p with hostStartWait := false }
  else d

/-! ## Registers -/

/-- COUNT and DIR of the carrier at a tick (R186). In a period that a slew stretches or shortens COUNT is the ticks since the valley or up
    to the next one, PER at most (R205; DESIGN CHOICE, assumption 109). -/
def Pwm.count (p : Pwm) (now : Tick) : Nat × Bool :=
  let p := p.sync now
  let len := p.upLen + p.downLen
  if len = 0 then (0, false)
  else
    let e := (now - p.valley) % len
    if e < p.upLen then (min e p.perEff.toNat, false) else (min (len - e) p.perEff.toNat, true)

/-- The tick at which the counters stand: they stop with a clock failure (R108). -/
def Dev.pwmTick (d : Dev) : Tick := if d.clk.onBackup then d.clk.failAt.getD d.clk.now else d.clk.now

/-- PWM[n] by offset (R186 to R231). -/
def Dev.readPwm (d : Dev) (n : PhaseIx) (off : Nat) : Option Word :=
  let p := d.pwm[n]
  let used := (d.carrierRail n).isSome
  let image := d.tile.tiled
  match off with
  | 0x00 => some (bitAt p.hostOvr 0)
  | 0x04 => some (at' p.perStaged 0)
  | 0x08 => some (at' p.dutyStaged 0)
  | 0x0C => some (if used then at' p.perEff 0 else 0)
  | 0x10 => some (if used then BitVec.ofNat 32 p.duty ||| bitAt p.sat 22 else 0)
  | 0x14 => some (at' p.arcTgt 16 ||| at' p.arcNow 0)
  | 0x18 => some (at' p.overwrites 8 ||| bitAt (d.srcHost n) 5 ||| bitAt (image && (d.railOf n).isNone && !p.mask.park) 4 ||| bitAt p.dlFail 3 ||| bitAt p.free 2 |||
      bitAt (d.slewing n) 0)
  | 0x1C => some (at' p.lineLo.use 24 ||| at' p.lineLo.meas 16 ||| at' p.lineHi.use 8 ||| at' p.lineHi.meas 0)
  | 0x20 => let c := p.count d.pwmTick
      some (if used then BitVec.ofNat 32 c.1 ||| bitAt c.2 16 else 0)
  | 0x40 => some (at' p.dtFall 16 ||| at' p.dtRise 0)
  | 0x44 => some (bitAt (decide (p.dtf.toNat < 615)) 31 ||| bitAt (decide (p.dtr.toNat < 615)) 30 ||| at' (dtFloor p.dtf) 0)
  | 0x48 => some (bitAt (!p.cLo.passes) 17 ||| bitAt (!p.cHi.passes) 16 ||| bitAt p.mask.hmask 15 ||| bitAt p.flareLift 7 |||
      bitAt p.mask.park 6 ||| bitAt p.mask.fail 5 ||| bitAt p.mask.card 4 ||| bitAt p.mask.ember 3 ||| bitAt p.mask.shed 2 |||
      bitAt (image && p.mask.unused) 0)
  | 0x4C => some (bitAt p.trigA.en 31 ||| at' p.trigA.prescale 24 ||| at' p.trigA.pos 0)
  | 0x50 => some (bitAt p.trigB.en 31 ||| at' p.trigB.prescale 24 ||| at' p.trigB.pos 0)
  | 0x54 => some (at' p.trigB.skips 16 ||| at' p.trigA.skips 0)
  | 0x58 => some (at' p.blank 0)
  | 0x5C => some (at' p.ilkCount 8 ||| bitAt p.ilkLatch 0)
  | 0x60 => some (at' p.swallowLo 16 ||| at' p.swallowHi 0)
  | 0x64 => some (at' (dtFloor p.dtr) 0)
  | _ => none

/-- PWMG by offset from 0x01_4000. -/
def Dev.readPwmg (d : Dev) (off : Nat) : Option Word :=
  if off < 0x20 then if off % 4 = 0 then some (at' d.pwmg.rper[Fin.ofNat 8 (off / 4)] 0) else none
  else if off = 0x20 then some (at' d.pwmg.syncPer 0)
  else if 0x40 ≤ off ∧ off < 0x60 then
    if off % 4 = 0 then some (at' d.pwmg.rslew[Fin.ofNat 8 ((off - 0x40) / 4)] 0) else none
  else match off with
    | 0x60 => some (at' d.pwmg.loadCount 16 ||| at' d.pwmg.loadMask 0)
    | 0x64 => some (at' (maskOf 8 fun r : RailIx => d.respreadBusy r) 0)
    | 0x68 => some (maskOf 32 fun i : Fin 32 => d.pwm[i.val].dlFail)
    | 0x6C => some (maskOf 32 fun i : Fin 32 => d.pwm[32 + i.val].dlFail)
    | _ => none

end Sys2Proof.Machine
end

