-- ==== Sys2Proof/Machine/Loop.lean ====
section
/-! DEFINITION. The loop engine below the commands (R280 to R318): one compute, Sectors, hand-overs, dispatch, keys and
    references, and the LOOP registers. -/

namespace Sys2Proof.Machine

open Sys2Proof

def outerIx (r : RailIx) : CtxIx := Fin.ofNat 80 r.val
def innerIx (n : PhaseIx) : CtxIx := Fin.ofNat 80 (8 + n.val)
def Dev.topo (d : Dev) (c : CtxIx) : TopoEnt := d.tile.cur.topo[c]

/-- The phase of an inner context. -/
def ctxPhase (c : CtxIx) : Option PhaseIx := if 8 ≤ c.val ∧ c.val < 72 then some (Fin.ofNat 64 (c.val - 8)) else none

/-- The rail whose keys a context uses (R307). -/
def Dev.ctxRail (d : Dev) (c : CtxIx) : Option RailIx :=
  if c.val < 8 then some (Fin.ofNat 8 c.val)
  else match ctxPhase c with
    | some n => d.railOf n
    | none => (d.topo c).target

/-- The enabled auxiliary contexts that limit a rail (R306). -/
def Dev.auxOf (d : Dev) (r : RailIx) : List CtxIx :=
  ((List.range 8).map fun i => Fin.ofNat 80 (72 + i)).filter fun c => (d.topo c).enable && (d.topo c).target == some r

/-- The enabled contexts of a rail, ascending (R307). -/
def Dev.ctxsOf (d : Dev) (r : RailIx) : List CtxIx :=
  (outerIx r :: (d.members r).map innerIx).filter (fun c => (d.topo c).enable) ++ d.auxOf r

def Dev.accOf (d : Dev) (c : CtxIx) : Acc := d.sense.accs[(d.topo c).input]

/-- M of a result in 1/16 code (R282). -/
def resultM (sum : Int) (valid : Nat) : Int := rhe (16 * sum) valid

/-- The latest valid result of an accumulator (R269). -/
def Acc.latest (a : Acc) : Option AccResult := a.history.head?

/-! ## One compute (R282 to R289) -/

/-- The Sector entry in effect for a context (R308). -/
def Dev.sectorEnt (d : Dev) (c : CtxIx) : SectorEnt :=
  d.tile.cur.sectors[c].getD (d.loop.ctx[c].sector.getD 0).val {}

/-- Native arithmetic: the accumulator and whether it saturated (R286). -/
def accNative (cs : List (Word × Byte)) (xs : List Int) : Int × Bool :=
  let lim : Int := 2 ^ 63
  (cs.zip xs).foldl (fun (a : Int × Bool) (t : (Word × Byte) × Int) =>
    let p := t.1.1.toInt * t.2 * 2 ^ (t.1.2.toInt + 32).toNat
    let p' := clampI (-lim) (lim - 1) p
    let s := a.1 + p'
    let s' := clampI (-lim) (lim - 1) s
    (s', a.2 || p != p' || s != s')) (0, false)

/-- Compatibility arithmetic (R288). -/
def accCompat (cs : List Word) (xs : List Int) : Int × Bool :=
  let lim : Int := 2 ^ 39
  (cs.zip xs).foldl (fun (a : Int × Bool) (t : Word × Int) =>
    let s := a.1 + (t.1.setWidth 16).toInt * t.2
    let s' := clampI (-lim) (lim - 1) s
    (s', a.2 || s != s')) (0, false)

/-- The clamp range of the state, in the arithmetic's own unit (R285, R288). -/
def SectorEnt.clampRange (e : SectorEnt) (compat : Bool) : Int × Int :=
  if compat then (max e.intMin.toInt (-32768), min e.intMax.toInt 32767) else (e.intMin.toInt, e.intMax.toInt)

/-- What a compute issued now delivers; none when it is held (R282). -/
def Dev.compute (d : Dev) (c : CtxIx) : Option ComputeRes :=
  let x := d.loop.ctx[c]
  let a := d.accOf c
  if a.valid = 0 then none
  else
    let tp := d.topo c
    let s := d.sectorEnt c
    let m := resultM a.sum.toInt a.valid.toNat
    let e := clampI (-(2 ^ 31)) (2 ^ 31 - 1) (if x.polarity then m - x.ref.toInt else x.ref.toInt - m)
    let e := if tp.compat then clampI (-32768) 32767 (e / 16) else e
    let xs := [e, x.e1.toInt, x.e2.toInt, x.e3.toInt, x.y1.toInt, x.y2.toInt, x.y3.toInt]
    let (acc, sat) := if tp.compat then accCompat s.coef xs else accNative (s.coef.zip s.shift) xs
    let v := if tp.compat then acc / 2 ^ 15 else rhe acc (2 ^ 32)
    let (lo, hi) := s.clampRange tp.compat
    let y := clampI lo hi v
    let u := if tp.compat then y * 2 ^ x.cmpOsh.toNat else y
    let out := clampI s.outMin.toInt s.outMax.toInt u
    some { meas := BitVec.ofInt 32 m, err := BitVec.ofInt 32 e, y := BitVec.ofInt 32 y, out := BitVec.ofInt 32 out, sector := x.sector.getD 0, accSat := sat, intClamp := v != y, outLim := u != out }

/-- P of R292, in cycles. -/
def TopoEnt.latency (t : TopoEnt) : Nat := match t.law3, t.compat with
  | false, false => 23 | true, false => 32 | false, true => 21 | true, true => 29

/-! ## Hand-over (R291, R311 to R314) -/

/-- PRELOAD(P), slewed over HO_STEPS computes when P lies outside the clamp and `slew` asks for it (R291, R313). -/
def Ctx.applyPreload (x : Ctx) (s : SectorEnt) (compat : Bool) (steps : Nat) (p : Int) (slew : Bool) : Ctx :=
  let (lo, hi) := s.clampRange compat
  let u := if compat then p / 2 ^ x.cmpOsh.toNat else p
  let y := BitVec.ofInt 32 (clampI lo hi u)
  let x := { x with y1 := y, y2 := y, y3 := y, e1 := 0, e2 := 0, e3 := 0, slewLeft := 0, preload := none }
  if slew ∧ clampI lo hi u ≠ u then { x with slewLeft := steps, slewSteps := steps, slewP := p } else x

/-- A compute of the context is in flight and will write its results. -/
def Ctx.live (x : Ctx) : Bool := match x.flight with
  | some f => !f.dead
  | none => false

def Dev.hoSteps (d : Dev) (c : CtxIx) : Nat := match d.ctxRail c with
  | some r => d.loop.rails[r].hoSteps.toNat
  | none => 16

/-- Places of R314: of the hand-overs of one cycle the first place sets P. Mode changes and Flare exits, Sector changes, LOOPS steps, phase
    adds, changes of the charge phase; a context's first Sector, which is no change, and the tracking of an auxiliary limit come last. -/
abbrev hoMode : Nat := 0
abbrev hoSector : Nat := 1
abbrev hoLoops : Nat := 2
abbrev hoAdd : Nat := 3
abbrev hoPhase : Nat := 4
abbrev hoFirst : Nat := 5
abbrev hoTrack : Nat := 6

/-- A compute of the context has completed, and written its results, in this cycle. -/
def Dev.completing (d : Dev) (c : CtxIx) : Bool := d.loop.ended.any fun x => x.1 == c && x.2.2

/-- PRELOAD is called now (R291). -/
def Dev.preloadNow (d : Dev) (c : CtxIx) (p : Option Int) (slew : Bool) : Dev :=
  let s := d.sectorEnt c
  let k := d.hoSteps c
  d.updCtx c fun x => x.applyPreload s (d.topo c).compat k (p.getD x.delivered.toInt) slew

/-- A hand-over of the context that comes before the place `k` has fallen in this cycle, or waits for a compute in flight. -/
def Dev.handedBefore (d : Dev) (c : CtxIx) (k : Nat) : Bool :=
  (d.cyc.handed.any fun h => h.1 == c && decide (h.2.1 < k)) || match d.loop.ctx[c].preload with
    | some (_, _, j) => k == hoTrack && decide (j < k)
    | none => false

/-- A hand-over in place `k` of R314: at once, or after the compute in flight (R311). `p` of none stands for the last delivered output, and
    that is P whenever the hand-over falls during a slew of an active context (assumption 104); a tracking preload is none of these. -/
def Dev.preload (d : Dev) (c : CtxIx) (k : Nat) (p : Option Int) (slew : Bool := true) : Dev :=
  if d.handedBefore c k then d
  else
    let p := if k != hoTrack && d.cyc.ctx[c].slewLeft != 0 && d.cyc.ctx[c].active then none else p
    let d := { d with cyc := { d.cyc with handed := (c, k, p, slew) :: d.cyc.handed } }
    if d.loop.ctx[c].live || d.completing c then d.updCtx c fun x => { x with preload := some (p, slew, k) } else d.preloadNow c p slew

/-! ## Sectors (R307 to R310) -/

/-- A Sector matches the keys and the mode (R308). -/
def SectorEnt.hit (s : SectorEnt) (keyI keyV : Int) (m : RailMode) : Bool :=
  decide (s.iLo.toInt ≤ keyI ∧ keyI ≤ s.iHi.toInt ∧ s.vLo.toInt ≤ keyV ∧ keyV ≤ s.vHi.toInt) &&
    s.modeMask.getLsbD m.code.toNat

/-- The winning Sector: highest PRIORITY, then lowest index (R308). -/
def winner (ss : List SectorEnt) (keyI keyV : Int) (m : RailMode) : Option (Fin 8) :=
  ((ss.zipIdx).foldl (fun (best : Option (Nat × Nat)) (s, i) =>
    if s.hit keyI keyV m then
      match best with
      | some (p, _) => if p < s.priority.toNat then some (s.priority.toNat, i) else best
      | none => some (s.priority.toNat, i)
    else best) none).map fun b => Fin.ofNat 8 b.2

def Dev.winnerOf (d : Dev) (c : CtxIx) : Option (Fin 8) := match d.ctxRail c with
  | some r => let l := d.loop.rails[r]
      winner d.tile.cur.sectors[c] l.keyI.toInt l.keyV.toInt (d.mode r)
  | none => none

/-- A new Sector takes effect, with the hand-over of R312. -/
def Dev.takeSector (d : Dev) (c : CtxIx) (w : Fin 8) : Dev :=
  let k := if d.loop.ctx[c].sector.isNone then hoFirst else hoSector
  let d := d.updCtx c fun x => { x with sector := some w, candidate := none, wins := 0, changes := x.changes + 1 }
  (d.event (0x0500 + c.val)).preload c k none

/-- Evaluation without dwell (R310). -/
def Dev.evalNow (d : Dev) (c : CtxIx) : Dev :=
  let w := d.winnerOf c
  let d := d.updCtx c fun x => { x with noMatch := w.isNone, candidate := none, wins := 0 }
  match w with
  | some w => if d.loop.ctx[c].sector = some w then d else d.takeSector c w
  | none => if d.loop.ctx[c].sector.isNone && (d.topo c).enable then d.takeSector c 0 else d

/-- Evaluation at a mark (R309). -/
def Dev.evalMark (d : Dev) (r : RailIx) (c : CtxIx) : Dev :=
  let x := d.loop.ctx[c]
  match d.winnerOf c with
  | none => if x.sector.isNone then d.evalNow c else d.updCtx c fun x => { x with noMatch := true, candidate := none, wins := 0 }
  | some w =>
    if x.sector = some w then d.updCtx c fun x => { x with noMatch := false, candidate := none, wins := 0 }
    else
      let k := if x.candidate = some w then x.wins + 1 else 1
      if x.sector.isNone ∨ d.loop.rails[r].sdwell.toNat ≤ k then (d.updCtx c fun x => { x with noMatch := false }).takeSector c w
      else d.updCtx c fun x => { x with noMatch := false, candidate := some w, wins := k }

/-! ## Which contexts are active (R281, R385) -/

/-- The manager that owns the context's consumer holds its loop closed. -/
def Dev.ctxWanted (d : Dev) (c : CtxIx) : Bool :=
  match d.ctxRail c with
  | none => false
  | some r =>
    let inner := match ctxPhase c with
      | some n => some (d.isClosed n)
      | none => none
    (d.topo c).enable && match d.mode r with
      | .ramp => d.rails[r].m0Wait.isNone && inner.getD true
      | .regulate => inner.getD true
      | .charge | .support =>
        match d.portOf r with
        | none => false
        | some p =>
          let s := d.ports[p]
          if s.tempHold then false
          else match s.phase with
            | .trickle | .precharge | .cc | .boost => inner.getD (decide (8 ≤ c.val))
            | .cv => inner.getD true
            | _ => false
      | _ => false

/-- A context becomes idle: its pending start leaves the queue, its compute in flight writes nothing, unless it completes in this very cycle
    (R281, R289). Its state stands, with what is left of a slewed hand-over (R313). -/
def Dev.idleCtx (d : Dev) (c : CtxIx) : Dev :=
  let d := d.updCtx c fun x => { x with active := false, pending := none, preload := none, flight := x.flight.map fun f => { f with dead := f.dead || decide (d.cycle < f.done) } }
  { d with loop := { d.loop with queue := d.loop.queue.filter (· != c), fab := { d.loop.fab with ctxHeld := d.loop.fab.ctxHeld.set c 0 } } }

/-- A context becomes active and is evaluated (R310). -/
def Dev.wakeCtx (d : Dev) (c : CtxIx) : Dev := (d.updCtx c fun x => { x with active := true }).evalNow c

/-- Every context of the rail takes the activity its rail calls for. -/
def Dev.syncCtx (d : Dev) (r : RailIx) : Dev :=
  (d.ctxsOf r).foldl (fun d c =>
    let w := d.ctxWanted c
    if w && !d.loop.ctx[c].active then d.wakeCtx c else if !w && d.loop.ctx[c].active then d.idleCtx c else d) d

/-- Every active context of the rail is evaluated at a mode change (R310). -/
def Dev.evalRail (d : Dev) (r : RailIx) : Dev :=
  (d.ctxsOf r).foldl (fun d c => if d.loop.ctx[c].active then d.evalNow c else d) d

/-! ## Dispatch (R292) -/

/-- A start is taken: the context waits in the queue, in order of cycle and then of context number. -/
def Dev.takeStart (d : Dev) (c : CtxIx) (cycle : Nat) : Dev :=
  let later := fun y : CtxIx => match d.loop.ctx[y].pending with
    | some k => decide (cycle < k) || (k == cycle && decide (c < y))
    | none => false
  let q := d.loop.queue.takeWhile (fun y => !later y) ++ c :: d.loop.queue.dropWhile (fun y => !later y)
  let d := d.updCtx c fun x => { x with pending := some cycle }
  { d with loop := { d.loop with queue := q, qmax := if d.loop.qmax.toNat < q.length then satN 8 q.length else d.loop.qmax } }

/-- A start reaches CTX_START[c]; false: it stays at the task input, in the cycle of a completion too (R292, R302). -/
def Dev.startCtx (d : Dev) (c : CtxIx) : Dev × Bool :=
  let x := d.loop.ctx[c]
  if !x.active then (d, true)
  else if x.pending.isSome || x.flight.isSome || d.loop.ended.any fun y => y.1 == c then (d, false)
  else (d.takeStart c d.cycle, true)

/-- The contexts and the structure as they stood at the start of the LOOP_CLK cycle: what governs a compute issued in it (R290). -/
def Dev.atIssue (d : Dev) : Dev := { d with tile := { d.tile with cur := d.cyc.cur }, loop := { d.loop with ctx := d.cyc.ctx } }

/-- A hand-over of the very cycle of an issue waits for the compute that is issued, which it does not govern (R290, R311). -/
def Dev.handLater (d : Dev) (c : CtxIx) : Dev := match d.cyc.handed.find? fun h => h.1 == c with
  | some (_, k, p, slew) =>
    let y := d.cyc.ctx[c]
    d.updCtx c fun x =>
      { x with y1 := y.y1, y2 := y.y2, y3 := y.y3, e1 := y.e1, e2 := y.e2, e3 := y.e3, slewLeft := y.slewLeft, slewSteps := y.slewSteps, slewP := y.slewP, preload := some (p, slew, k) }
  | none => d

/-- One lane that is free issues the first context of the queue that can issue in this cycle. -/
def Dev.issueLane (d : Dev) (lane : Fin 4) : Dev :=
  let m := d.cycle
  if m < d.loop.lanes[lane] then d
  else match d.loop.queue.find? (fun c => match d.loop.ctx[c].pending with
      | some k => decide (k + 2 ≤ m) && d.loop.ctx[c].flight.isNone
      | none => false) with
    | none => d
    | some c =>
      let res := d.atIssue.compute c
      let d := (d.handLater c).updCtx c fun x =>
        { x with flight := some { taken := x.pending.getD m, done := m + (d.atIssue.topo c).latency, res := res }, pending := none }
      { d with loop := { d.loop with queue := d.loop.queue.filter (· != c), lanes := d.loop.lanes.set lane (m + 3) } }

/-- Delivery of an output to its consumer (R289, R305). -/
def Dev.deliver (d : Dev) (c : CtxIx) (out : Int) : Dev :=
  let d := d.updCtx c fun x => { x with delivered := BitVec.ofInt 32 out }
  match ctxPhase c with
  | some n => d.loopWrite n (satU 22 out)
  | none => d

/-- A context whose invalid run has reached 8 holds LOOP_INPUT's cause of the rail it then belonged to present, until it runs a compute
    (R283). -/
def Dev.loopInputCause (d : Dev) (r : RailIx) : Dev :=
  d.setCause (srcLoopInput r) 0 ((List.finRange 80).any fun c => d.loop.ctx[c].inputRail == some r)

/-- A held compute (R282, R283). -/
def Dev.heldCompute (d : Dev) (c : CtxIx) : Dev :=
  let r := d.ctxRail c
  let d := d.updCtx c fun x =>
    let n := satInc x.invalidRun
    { x with invalidRun := n, invalid := x.invalid + 1, inputRail := if 8 ≤ n.toNat then x.inputRail.orElse fun _ => r else none }
  match d.loop.ctx[c].inputRail with
  | some r => d.loopInputCause r
  | none => d

/-- The output of a compute that runs, slewed during a hand-over (R313). -/
def Ctx.slewed (x : Ctx) (out : Int) : Int :=
  if x.slewLeft = 0 then out
  else out + rhe ((x.slewP - out) * ((x.slewLeft : Int) - 1)) x.slewSteps

/-- What a compute that runs writes (R283, R285, R287, R292). -/
def Ctx.write (x : Ctx) (r : ComputeRes) (delay : Nat) : Ctx :=
  { x with meas := r.meas, err := r.err, out := r.out, y3 := x.y2, y2 := x.y1, y1 := r.y, e3 := x.e2, e2 := x.e1, e1 := r.err, invalidRun := 0, inputRail := none, sectorUsed := r.sector, accSat := r.accSat, intClamp := r.intClamp, outLim := r.outLim, computes := x.computes + 1, clampsInt := if r.intClamp then x.clampsInt + 1 else x.clampsInt, clampsOut := if r.outLim then x.clampsOut + 1 else x.clampsOut, delayLast := satN 8 delay, delayMax := if x.delayMax.toNat < delay then satN 8 delay else x.delayMax, slewLeft := x.slewLeft - 1 }

/-- The histogram counts a compute of its delay (R295). -/
def Dev.countDelay (d : Dev) (delay : Nat) : Dev :=
  let b : Fin 12 := Fin.ofNat 12 (min 11 (delay / 8))
  { d with loop := { d.loop with hist := upd d.loop.hist b satInc }, cyc := { d.cyc with bins := b :: d.cyc.bins } }

/-- A compute that runs completes: its state is written and its output delivered (R289). -/
def Dev.runCompute (d : Dev) (c : CtxIx) (r : ComputeRes) (delay : Nat) : Dev :=
  let x := d.loop.ctx[c]
  let d := { d with cyc := { d.cyc with delays := setBit d.cyc.delays c.val true } }
  let d := (d.updCtx c fun x => x.write r delay).deliver c (x.slewed r.out.toInt)
  match x.inputRail with
  | some r => d.loopInputCause r
  | none => d

/-- The preload that has waited for the compute is applied (R311). -/
def Dev.waitedPreload (d : Dev) (c : CtxIx) : Dev := match d.loop.ctx[c].preload with
  | some (p, slew, _) => d.preloadNow c p slew
  | none => d

/-- The next start at the task input is taken, in the cycle given (R292, R302). -/
def Dev.nextStart (d : Dev) (c : CtxIx) (cycle : Nat) : Dev :=
  let held : Byte := d.loop.fab.ctxHeld[c]
  if held == 0 || !d.loop.ctx[c].active || d.loop.ctx[c].pending.isSome then d
  else ({ d with loop := { d.loop with fab := { d.loop.fab with ctxHeld := d.loop.fab.ctxHeld.set c (held - 1) } } } : Dev).takeStart c cycle

/-- A compute completes: held, or run and counted; one whose context had become idle writes nothing (R281, R283, R289, R295). -/
def Dev.completeCtx (d : Dev) (c : CtxIx) (f : Flight) : Dev :=
  let d := d.updCtx c fun x => { x with flight := none }
  let d := { d with loop := { d.loop with ended := d.loop.ended ++ [(c, d.cycle, !f.dead)] } }
  match f.res with
  | none => if f.dead then d else d.heldCompute c
  | some r => if f.dead then d.countDelay (f.done - f.taken) else (d.countDelay (f.done - f.taken)).runCompute c r (f.done - f.taken)

/-- What the completions of earlier LOOP_CLK cycles leave to the cycle after their own: the preload that has waited, and the next start
    (R292, R302, R311). -/
def Dev.afterEnded (d : Dev) : Dev :=
  (d.loop.ended.filter fun x => decide (x.2.1 < d.cycle)).foldl (fun d x => (d.waitedPreload x.1).nextStart x.1 (x.2.1 + 1))
    { d with loop := { d.loop with ended := d.loop.ended.filter fun x => !decide (x.2.1 < d.cycle) } }

/-! ## Keys, measured output and rail current (R275, R307, R323) -/

/-- The partial sum of one quad for a rail at a mark, in 1/16 code; none: invalid (R275). The duty source is DUTY_SRC of the running image,
    HOST_OVR or not (DESIGN CHOICE, assumption 98). -/
def Dev.partialSum (d : Dev) (r : RailIx) (q : QuadIx) : Option Int :=
  let ms := (d.members r).filter fun n => quadOf n == q && d.isLoop n && d.isActive n
  let limit := 4 * d.pwmg.rper[r].toNat
  (ms.foldl (fun (a : Option (Int × Nat)) n =>
    let acc := d.accOf (innerIx n)
    match a with
    | none => none
    | some (num, den) =>
      if acc.valid = 0 ∨ limit < d.clk.now - (acc.latest.map (·.at_)).getD 0 then none
      else some (num * acc.valid.toNat + acc.sum.toInt * den, den * acc.valid.toNat)) (some (0, 1))).map
    fun a => rhe (16 * a.1) a.2

/-- The rail's current sum over its quads; none: invalid (R31). -/
def Dev.railSum (d : Dev) (r : RailIx) : Option Int :=
  (List.finRange 4).foldl (fun a q => match a, d.partialSum r q with
    | some x, some y => some (x + y)
    | _, _ => none) (some 0)

/-- VOUT and VSTALE are formed afresh (R323). -/
def Dev.formVout (d : Dev) (r : RailIx) : Dev :=
  let a := d.accOf (outerIx r)
  match a.latest with
  | none => d.updRail r fun x => { x with vstale := true }
  | some l =>
    let (v, d) := d.fit (rhe (16 * l.sum.toInt * d.rails[r].vscale.toNat) (l.valid.toNat * 1000))
    d.updRail r fun x => { x with vout := v, vstale := a.valid == 0 }

/-- KEY_I, DEMAND and KEY_V are formed at a mark, and RAIL_SUM_INVALID follows the sum (R307, R323, R402). The flag says
    whether the sum is valid. -/
def Dev.formKeys (d : Dev) (r : RailIx) : Dev × Bool :=
  let now := d.clk.now
  let sum := d.railSum r
  let d := d.setCause (srcSumInvalid r) 0 (sum.isNone && d.railDefined r)
  let kept := d.mode r == .hiccup || d.mode r == .hold
  let marks := if kept then d.rails[r].demandMarks else d.rails[r].demandMarks.filter fun m => now ≤ m.1 + 10 * msTicks
  let d := match sum with
    | some s =>
      let (k, d) := d.fit (rhe (s * d.rails[r].iscale.toNat) 1000)
      (d.updRailLoop r fun l => { l with keyI := k }).updRail r fun x =>
        { x with demandMarks := if kept then marks else (now, k.toInt.natAbs) :: marks }
    | none => d.updRail r fun x => { x with demandMarks := marks }
  let d := d.updRail r fun x => { x with demand := if d.mode r = .off then 0 else satN 32 ((x.demandMarks.map (·.2)).foldl max 0) }
  let l := d.loop.rails[r]
  let d := if l.vkHost then d.updRailLoop r fun l => { l with keyV := l.keyVHost, keyStale := false }
    else
      let k : AccIx := Fin.ofNat 256 l.vkAcc.toNat
      let a := d.sense.accs[k]
      match a.latest, d.tile.cur.accs[k] with
      | some v, some _ =>
        let (w, d) := d.fit (rhe (16 * v.sum.toInt * l.vkScale.toNat) (v.valid.toNat * 1000))
        d.updRailLoop r fun l => { l with keyV := w, keyStale := a.valid == 0 }
      | _, _ => d.updRailLoop r fun l => { l with keyStale := true }
  (d, sum.isSome)

/-- D0 of R317. -/
def Dev.d0 (d : Dev) (r : RailIx) : Int :=
  let l := d.loop.rails[r]
  let full : Int := 64 * d.pwmg.refs[r].per.toNat
  let one := clampI 0 full (rhe (full * d.rails[r].vout.toInt) l.keyV.toNat)
  if l.ssMode = 0 ∨ l.keyV.toInt ≤ 0 ∨ l.keyStale then l.duty0.toNat
  else if l.ssMode = 1 then one else full - one

/-- Mean of some outputs, rounded half-even. -/
def meanI (xs : List Int) : Int := rhe xs.sum xs.length

/-- P of a phase add (R312). -/
def Dev.addPreload (d : Dev) (r : RailIx) (n : PhaseIx) : Int :=
  let others := (d.members r).filter fun m => m != n && d.loop.ctx[innerIx m].active
  if others.isEmpty then d.d0 r else meanI (others.map fun m => d.loop.ctx[innerIx m].delivered.toInt)

/-! ## References (R305, R306) -/

/-- The reference is transferred to the inner contexts of a rail. -/
def Dev.setIref (d : Dev) (r : RailIx) (v : Int) (auxLim : Bool) : Dev :=
  let (w, d) := d.fit v
  let d := d.updRailLoop r fun l => { l with iref := w, auxLim := auxLim }
  (d.members r).foldl (fun d n => if d.loop.ctx[innerIx n].active then d.updCtx (innerIx n) fun x => { x with ref := w } else d) d

/-- The least of a base and the outputs of active auxiliary contexts; whether one of them lies strictly below (R306). -/
def Dev.auxMin (d : Dev) (r : RailIx) (base : Int) : Int × Bool :=
  ((d.auxOf r).filter fun c => d.loop.ctx[c].active).foldl
    (fun (a : Int × Bool) c => let o := d.loop.ctx[c].delivered.toInt
      if o < a.1 then (o, true) else a) (base, false)

/-- IREF of an ordinary rail at an update point (R305, R306). -/
def Dev.transferRef (d : Dev) (r : RailIx) : Dev :=
  let c := outerIx r
  if !d.loop.ctx[c].active then d
  else
    let (v, lim) := d.auxMin r d.loop.ctx[c].delivered.toInt
    let d := d.setIref r v lim
    if lim then d.preload c hoTrack (some v) false else d

/-! ## The reset state of a context (R535) -/

/-- Every context returns to its reset state; CFG is kept. -/
def Dev.resetCtxs (d : Dev) : Dev :=
  { d with loop := { d.loop with ctx := mapV d.loop.ctx fun _ x => { cmpOsh := x.cmpOsh, polarity := x.polarity }, queue := [], lanes := Vector.replicate 4 0, ended := [] } }

/-! ## Registers -/

/-- CTX[c] by offset (R280 to R294). A context that is not enabled reads 0 but for CFG. -/
def Dev.readCtx (d : Dev) (c : CtxIx) (off : Nat) : Option Word :=
  let x := d.loop.ctx[c]
  let t := d.topo c
  let v : Option Word := match off with
    | 0x04 => some (d.imageWord (at' (match t.target with
        | some r => BitVec.ofNat 8 r.val
        | none => 0xFF#8) 16 ||| at' t.div 8 ||| bitAt t.compat 3 ||| bitAt t.law3 2 ||| bitAt t.enable 0))
    | 0x08 => some (BitVec.ofNat 32 t.input.val)
    | 0x0C => some x.ref
    | 0x10 => some x.meas
    | 0x14 => some x.err
    | 0x18 => some x.out
    | 0x1C => some x.y1
    | 0x20 => some x.y2
    | 0x24 => some x.y3
    | 0x28 => some x.e1
    | 0x2C => some x.e2
    | 0x30 => some x.e3
    | 0x34 => some (at' x.invalidRun 24 ||| (BitVec.ofNat 32 x.sectorUsed.val <<< 16) ||| bitAt x.flight.isSome 5 ||| bitAt x.pending.isSome 4 |||
        bitAt x.accSat 3 ||| bitAt x.outLim 2 ||| bitAt x.intClamp 1 ||| bitAt x.active 0)
    | 0x38 => some (at' x.computes 16 ||| at' x.invalid 0)
    | 0x3C => some (at' x.clampsInt 16 ||| at' x.clampsOut 0)
    | 0x40 => some (at' x.delayMax 8 ||| at' x.delayLast 0)
    | _ => none
  if off = 0 then some (at' x.cmpOsh 8 ||| bitAt x.polarity 0) else v.map fun w => if t.enable then w else 0

/-- The bytes of a Sector entry as R150 lays them out. -/
def SectorEnt.bytes (s : SectorEnt) : List Byte :=
  let w := fun (x : Word) => leBytes 4 x.toNat
  w s.iLo ++ w s.iHi ++ w s.vLo ++ w s.vHi ++ [s.modeMask, s.priority, 0, 0] ++
    (List.range 7).flatMap (fun i => w (s.coef.getD i 0)) ++ (List.range 7).map (fun i => s.shift.getD i 0) ++ [0] ++
    w s.intMax ++ w s.intMin ++ w s.outMax ++ w s.outMin ++ List.replicate 8 0

end Sys2Proof.Machine
end

