-- ==== Sys2Proof/Machine/Setpoint.lean ====
section
/-! DEFINITION. Set-points (R364 to R375) and the rail window thresholds they move (R348, R349). -/

namespace Sys2Proof.Machine

open Sys2Proof

/-! ## Window thresholds (R344, R348, R349) -/

/-- VALUE of an entry of the calibration set as offset and gain; an invalid entry acts as 0 (R254). -/
def Dev.calOf (d : Dev) (e : CalIx) : Int × Int :=
  let x := d.sense.cal[e]
  if x.valid then ((x.value.setWidth 16).toInt, (x.value.extractLsb' 16 16).toInt) else (0, 0)

/-- The DAC code of a threshold of `t` µV of rail (R348). -/
def Dev.dacCode (d : Dev) (r : RailIx) (t : Int) : BitVec 10 :=
  let (os, gs) := d.calOf (Fin.ofNat 112 (64 + r.val))
  let c := max 0 (rhe t d.rails[r].vscale.toNat)
  let g := 2 ^ 18 + gs
  BitVec.ofInt 10 (clampI 0 1023 (rhe (c * 2 ^ 18 + os * g) (256 * g).toNat))

/-- The settling interval that a change of a code starts: more than 8 codes withhold the action for 96 ticks (R344). -/
def settle (now : Tick) (old new : BitVec 10) (cur : Option Tick) : Option Tick :=
  if 8 < (Int.natAbs ((old.toNat : Int) - new.toNat)) then some (now + 96) else cur

/-- The target in effect in mV (R371). -/
def Dev.targetMv (d : Dev) (r : RailIx) : Int := rhe d.sp.sp[r].p 65536

/-- The undershoot threshold is recomputed; a disabled comparator does not cross. -/
def Dev.setUv (d : Dev) (r : RailIx) : Dev :=
  let w := d.prot.wins[r]
  let off := w.uvBelow == 0 || d.rails[r].vscale == 0
  let k := if off then 0 else d.dacCode r ((d.targetMv r - w.uvBelow.toNat) * 1000)
  d.updWin r fun w => { w with uvCode := k, uvSettle := settle d.clk.now w.uvCode k w.uvSettle, uv := w.uv && !off }

/-- The overvoltage threshold is recomputed. -/
def Dev.setOv (d : Dev) (r : RailIx) : Dev :=
  let w := d.prot.wins[r]
  let off := w.ovTh == 0 || d.rails[r].vscale == 0
  let k := if off then 1023 else d.dacCode r ((w.ovTh.toNat : Int) * 1000)
  let d := d.updWin r fun w => { w with ovCode := k, ovSettle := settle d.clk.now w.ovCode k w.ovSettle, ov := w.ov && !off }
  if off then d.setCause (srcRailOv r) 0 false else d

/-- Both ramp-tracking edges are recomputed from CTX[r].REF, in µV of rail. -/
def Dev.setRt (d : Dev) (r : RailIx) : Dev :=
  let w := d.prot.wins[r]
  let v := d.rails[r].vscale
  let ref := d.loop.ctx[outerIx r].ref.toInt * v.toNat
  let on := d.mode r == .ramp && v != 0
  let lo := ref - w.rtBelow.toNat * 1000
  let onLo := on && w.rtBelow != 0 && decide (0 < lo)
  let onHi := on && w.rtAbove != 0
  let kl := if onLo then d.dacCode r lo else 0
  let kh := if onHi then d.dacCode r (ref + w.rtAbove.toNat * 1000) else 1023
  d.updWin r fun w =>
    { w with rtLoCode := kl, rtHiCode := kh, rtLoOn := onLo, rtHiOn := onHi, rtLoSettle := settle d.clk.now w.rtLoCode kl w.rtLoSettle, rtHiSettle := settle d.clk.now w.rtHiCode kh w.rtHiSettle, rtLo := w.rtLo && onLo, rtHi := w.rtHi && onHi }

/-! ## The commanded target (R364 to R369) -/

/-- Entry `e` serves rail `r` for a taken code (R368). -/
def VtabEnt.hit (e : VtabEnt) (r : RailIx) (code : BitVec 4) : Bool :=
  e.rails.getLsbD r && (code &&& e.cmask) == (e.code &&& e.cmask)

def SetPt.pick (s : SetPt) (r : RailIx) : Option (Fin 16) :=
  if s.taken then (List.finRange 16).find? fun i => s.vtab[i].hit r s.vsel else none

/-- The rail is shared by the running structure (R154). -/
def Dev.sharedAs (d : Dev) (r : RailIx) : Option RailIx := match d.tile.cur.chord with
  | some c => if c.shared.getLsbD r then some c.share[r].chainRail else none
  | none => none

/-- A member's shared rail follows what the chain has agreed (R501); the head's holds it while BROKEN or DIVERGENT (R506,
    R509). -/
def Dev.followed (d : Dev) (r : RailIx) : Option ChainRail := match d.sharedAs r with
  | some c => if d.chord.head then (if d.chord.st = 2 ∨ d.chord.st = 3 then some d.chord.agreed[c] else none)
      else if d.chord.headId.isNone then none else some d.chord.agreed[c]
  | none => none

/-- V_TOP of R366. -/
def Dev.vTop (d : Dev) (r : RailIx) : Int := 262128 * d.rails[r].vscale.toNat / 1000

/-- The commanded target is formed, limited and reported (R365, R366, R369). -/
def Dev.command (d : Dev) (r : RailIx) : Dev :=
  let s := d.sp.sp[r]
  let hit := d.sp.pick r
  let pin := s.src == 1 || s.src == 2
  let own : Int × Nat := match pin, hit with
    | true, some i =>
      let e := d.sp.vtab[i]
      let t : Int := e.target.toNat
      (if s.src == 2 then rhe (t * (100000 + s.trim.toInt)) 100000 else t, e.slew.toNat)
    | true, none => if s.matched then (s.lastTarget, s.lastSlew) else (s.target.toNat, s.slew.toNat)
    | false, _ => (s.target.toNat, s.slew.toNat)
  let (t, slew) := match d.followed r with
    | some c => ((c.target.toNat : Int), c.slew.toNat)
    | none => own
  let lo : Int := s.vmin.toNat
  let hi : Int := min s.vmax.toNat (d.vTop r)
  let v := min (max t lo) hi
  let miss := pin && d.sp.taken && hit.isNone && (d.followed r).isNone
  let d := d.updSp r fun s =>
    { s with cmdMv := BitVec.ofInt 24 v, clamped := decide (t < lo) || decide (hi < max t lo), noMatch := miss, entry := match pin, hit with
        | true, some i => BitVec.ofNat 4 i.val
        | _, _ => s.entry, matched := s.matched || (pin && hit.isSome), lastTarget := t, lastSlew := slew }
  d.setCause (srcVselNomatch r) 0 miss

/-! ## The target in effect (R370 to R374) -/

/-- The move of one mark in 2^-16 mV. -/
def slewStep (slew per : Nat) : Int := rhe ((slew * 2 * per * 65536 : Nat) : Int) 480000

/-- P one mark on from `p` towards `c`. -/
def moveTo (p c delta : Int) : Int := if p < c then min (p + delta) c else if c < p then max (p - delta) c else p

/-- REF of a context is written. -/
def Dev.setRef (d : Dev) (c : CtxIx) (v : Int) : Dev :=
  let (w, d) := d.fit v
  d.updCtx c fun x => { x with ref := w }

/-- CTX[r].REF for a target P (R371). -/
def Dev.writeRef (d : Dev) (r : RailIx) (p : Int) : Dev :=
  d.setRef (outerIx r) (rhe (p * 1000) (d.rails[r].vscale.toNat * 65536))

/-- The set-point part of a mark, steps 1 to 3 of R374; while RAMP waits for M0, step 2 is skipped (R372). -/
def Dev.setpointMark (d : Dev) (r : RailIx) : Dev :=
  let d := d.command r
  let s := d.sp.sp[r]
  let m := d.mode r
  let c : Int := (s.cmdMv.toNat : Int) * 65536
  let d := if m == .ramp || m == .regulate || m == .ember then
      let slew := if m == .ramp && s.ssSlew != 0 then s.ssSlew.toNat else s.lastSlew
      let p := if m == .ramp && d.rails[r].m0Wait.isSome then s.p else moveTo s.p c (slewStep slew d.pwmg.rper[r].toNat)
      (d.updSp r fun s => { s with p := p }).writeRef r p
    else d
  let d := d.updSp r fun s => { s with slewing := s.p != c }
  (d.setUv r).setRt r

/-! ## Registers -/

/-- SP[r] by offset from 0x04_3000 + 0x20·r. -/
def Dev.readSp (d : Dev) (r : RailIx) (off : Nat) : Option Word :=
  let s := d.sp.sp[r]
  match off with
  | 0x00 => some (at' s.ssSlew 16 ||| at' s.src 0)
  | 0x04 => some (at' s.target 0)
  | 0x08 => some (at' s.slew 0)
  | 0x0C => some (at' s.trim 0)
  | 0x10 => some (at' s.vmin 0)
  | 0x14 => some (at' s.vmax 0)
  | 0x18 => some (bitAt s.slewing 30 ||| bitAt s.clamped 29 ||| bitAt s.noMatch 28 ||| at' s.entry 24 ||| at' s.cmdMv 0)
  | 0x1C => some (BitVec.ofInt 32 (d.targetMv r))
  | _ => none

/-- VTAB[i] and SP.VSEL by offset from 0x04_2000. -/
def Dev.readVtab (d : Dev) (off : Nat) : Option Word :=
  if off < 0x100 then
    let e := d.sp.vtab[Fin.ofNat 16 (off / 16)]
    match off % 16 with
    | 0x0 => some (at' e.target 0)
    | 0x4 => some (at' e.slew 0)
    | 0x8 => some (at' e.rails 16 ||| at' e.cmask 4 ||| at' e.code 0)
    | _ => none
  else if off = 0x100 then some (at' d.sp.vsel 16 ||| at' d.sp.filt 8) else none

end Sys2Proof.Machine
end

