-- ==== Sys2Proof/Machine/Members.lean ====
section
/-! DEFINITION. Shedding and adding of the members of a rail (R324 to R327, R383), and the records of a device state change
    (R36, R46). -/

namespace Sys2Proof.Machine

open Sys2Proof

/-! ## Device state -/

/-- The order of the targets of R40: BOOT, LATCHED, MAINT, then STANDBY or RUN. -/
def DevState.place : DevState → Nat
  | .boot => 0 | .latched => 1 | .maint => 2 | _ => 3

/-- A transition that this LOOP_CLK cycle has seen is dropped for one to `st`, which comes before it and goes from the state of the
    cycle's start as well (R36, R40). -/
def Dev.overrides (d : Dev) (st : DevState) : Bool :=
  d.cyc.no == d.cycle && d.cyc.moved.isSome && decide (st.place < d.sys.devState.place) && match st with
    | .boot => true
    | .latched => d.cyc.state == .standby || d.cyc.state == .run
    | .maint => d.cyc.state == .standby
    | _ => false

/-- The state from which a transition to `st` goes. -/
def Dev.stateFrom (d : Dev) (st : DevState) : DevState := if d.overrides st then d.cyc.state else d.sys.devState

/-- The record of the transition that one to `st` drops, where it can still be changed. -/
def Dev.dropped (d : Dev) (st : DevState) : Option Record :=
  if d.overrides st && d.cyc.moved == some true then d.lantern.ram.reverse.find? fun r => r.code == 0x0015 && !r.persisted else none

/-- The device changes state, and its record is written as given, or takes the place of the one that is dropped (R36, R40, R46). -/
def Dev.changeTo (d : Dev) (st : DevState) (ts : Tick) (tbu : Bool) (write : Dev → List Byte → Dev) : Dev :=
  let data := [(d.stateFrom st).code.setWidth 8, st.code.setWidth 8]
  let gone := d.dropped st
  let d := { d with sys := { d.sys with devState := st } }
  match gone with
  | some r => { d with lantern := d.lantern.rewrite r.seq fun r => { r with ts := d.clk.tbAt ts, tbu := tbu, data := slice data 0 24 } }
  | none =>
    let x := write d data
    { x with cyc := { x.cyc with moved := some (x.lantern.next != d.lantern.next) } }

/-- The device changes state, and journals it as the next record, with the time stamp given (R36, R46, R415). -/
def Dev.setStateAt (d : Dev) (st : DevState) (ts : Tick) (tbu : Bool) : Dev :=
  d.changeTo st ts tbu fun d data => (d.journal { code := 0x0015, data := data, ts := ts, tbu := some tbu }).1

/-- The device changes state and journals it (R36, R46). -/
def Dev.setState (d : Dev) (st : DevState) : Dev :=
  d.changeTo st d.clk.now d.clk.tbUncertain fun d data => d.note 0x0015 0 0xFFFF data

def Dev.allOff (d : Dev) : Bool := (List.finRange 8).all fun r => d.mode r == .off

/-- A rail has left OFF: STANDBY becomes RUN (R36). -/
def Dev.railLeftOff (d : Dev) : Dev := if d.sys.devState = .standby then d.setState .run else d

/-- A rail has entered OFF: RUN becomes STANDBY with the last one (R36). -/
def Dev.railWentOff (d : Dev) : Dev := if d.sys.devState = .run ∧ d.allOff = true then d.setState .standby else d

/-! ## Counts -/

/-- A of R324. -/
def Dev.activeCount (d : Dev) (r : RailIx) : Nat := (d.active r).length

def Dev.minPhases (d : Dev) (r : RailIx) : Nat := (d.railEnt r).minPhases.toNat

/-- RAIL_UNDERPHASED (R324). -/
def Dev.checkUnderphased (d : Dev) (r : RailIx) : Dev :=
  let low := (d.mode r).switching && decide (((d.members r).filter d.canBeActive).length < d.minPhases r)
  if low == d.fault.src[srcUnderphased r].cause.getLsbD 0 then d else d.setCause (srcUnderphased r) 0 low

/-! ## Shedding -/

/-- The SHED bit of a phase is set; its phase start, if one is under way, ends (R519). -/
def Dev.markShed (d : Dev) (n : PhaseIx) : Dev := (d.setMask n fun m => { m with shed := true }).endStart n

/-- A member is shed: its bit set, SHED[n] fired (R325); the caller re-spreads. -/
def Dev.shedOne (d : Dev) (n : PhaseIx) : Dev := (d.markShed n).event (0x0400 + n.val)

/-- The active LOOP member with the highest ADD_RANK. -/
def Dev.topMember (d : Dev) (r : RailIx) : Option PhaseIx :=
  leastBy (fun n => 255 - d.rank n) ((d.active r).filter d.isLoop)

/-- Active members of highest ADD_RANK are shed until A equals `count` (R383). -/
def Dev.dropTo (d : Dev) (r : RailIx) (count : Nat) : Nat → Dev
  | 0 => d
  | k + 1 =>
    if d.activeCount r ≤ count then d
    else match d.topMember r with
      | some n => (d.shedOne n).dropTo r count k
      | none => d

/-- The members above a count are shed and the rail re-spreads, when any were. -/
def Dev.shedDown (d : Dev) (r : RailIx) (count : Nat) : Dev :=
  if d.activeCount r ≤ count then d else ((d.dropTo r count 64).respread r).syncCtx r

/-! ## Adding -/

/-- The shed LOOP member that is added next: it can be active, is not drained, and has the lowest ADD_RANK (R326). -/
def Dev.addCandidate (d : Dev) (r : RailIx) : Option PhaseIx :=
  leastBy d.rank ((d.members r).filter fun n =>
    d.isLoop n && d.canBeActive n && d.pwm[n].mask.shed && !d.rails[r].drained.getLsbD n)

/-- An add asks leave for a phase start and waits (R326). -/
def Dev.askAdd (d : Dev) (r : RailIx) : Dev :=
  if d.rails[r].addWait.isSome || d.rails[r].flare.isSome then d
  else match d.addCandidate r with
    | none => d
    | some n =>
      let (d, ok) := d.askLeave .phaseStart (phaseTarget n)
      if ok then d.updRail r fun x => { x with addWait := some n } else d

/-- The waiting add is withdrawn (R522). -/
def Dev.withdrawAdd (d : Dev) (r : RailIx) : Dev := match d.rails[r].addWait with
  | some n => (d.withdrawLeave .phaseStart (phaseTarget n)).updRail r fun x => { x with addWait := none }
  | none => d

/-- The phase can be added no longer: an add of its rail that waits for it is withdrawn (R522). -/
def Dev.dropAdd (d : Dev) (n : PhaseIx) : Dev := match d.railOf n with
  | some r => if d.rails[r].addWait == some n then d.withdrawAdd r else d
  | none => d

/-- A waiting add whose phase is no longer to be added is withdrawn (R522): the phase cannot be active or drains, or its rail has gone
    to EMBER, where none is added (R326). -/
def Dev.keepAdd (d : Dev) (r : RailIx) : Dev := match d.rails[r].addWait with
  | some n => if d.canBeActive n && !d.rails[r].drained.getLsbD n.val && d.mode r != .ember then d else d.withdrawAdd r
  | none => d

/-- The hand-over of an added phase (R305, R312). -/
def Dev.addHandOver (d : Dev) (r : RailIx) (n : PhaseIx) : Dev :=
  let p := d.addPreload r n
  let d := d.syncCtx r
  if d.loop.ctx[innerIx n].active then
    (d.updCtx (innerIx n) fun x => { x with ref := d.loop.rails[r].iref }).preload (innerIx n) hoAdd (some p)
  else d

/-- Leave for an add is granted (R326). -/
def Dev.addGranted (d : Dev) (r : RailIx) (n : PhaseIx) : Dev :=
  let d := d.updRail r fun x => { x with addWait := none, addSince := none }
  let d := (d.setMask n fun m => { m with shed := false }).event (0x0440 + n.val)
  (d.addHandOver r n).respread r

end Sys2Proof.Machine
end

