-- ==== Sys2Proof/Machine/Store.lean ====
section
/-! DEFINITION. Storage ports below the commands (R376 to R399): phases, the current reference, temperatures, the Wick
    timer, decision points, and the registers of STORE[p]. -/

namespace Sys2Proof.Machine

open Sys2Proof

def StPhase.code : StPhase → BitVec 3
  | .none => 0 | .trickle => 1 | .precharge => 2 | .cc => 3 | .cv => 4 | .done => 5 | .boost => 6 | .stopped => 7

/-- The port's current flows toward the string by its own reference (R386). -/
def StPhase.current : StPhase → Bool
  | .trickle | .precharge | .cc => true
  | _ => false

def Dev.portRail (d : Dev) (p : PortIx) : Option RailIx := (d.tile.cur.stores[p]).map (·.rail)
def Dev.inregOf (d : Dev) (p : PortIx) : Option CtxIx := match d.tile.cur.stores[p] with
  | some s => s.inreg
  | none => none

/-! ## Units (R377) -/

/-- Largest magnitude of a one-phase reference. -/
def Dev.phaseCap (d : Dev) (r : RailIx) : Int := rhe ((d.railEnt r).rating.toNat * 1000) d.rails[r].iscale.toNat

/-- A current in mA as a per-phase reference; `none` while no member is active. -/
def Dev.perPhase (d : Dev) (r : RailIx) (i : Int) : Option Int :=
  let a := d.activeCount r
  if a = 0 then none
  else let c := d.phaseCap r
    some (clampI (-c) c (rhe (i * 1000) (d.rails[r].iscale.toNat * a)))

/-- A per-phase reference as a current in mA. -/
def Dev.refMa (d : Dev) (r : RailIx) (ref : Int) : Int := rhe (ref * d.activeCount r * d.rails[r].iscale.toNat) 1000

/-- I_NOW takes a value. -/
def Dev.setINow (d : Dev) (p : PortIx) (i : Int) : Dev :=
  let (w, d) := d.fit i
  d.updPort p fun x => { x with iNow := w }

/-! ## Phases (R382 to R385, R398) -/

/-- The members a phase calls for (R383). -/
def Dev.portMembers (d : Dev) (p : PortIx) (r : RailIx) : Nat :=
  let x := d.ports[p]
  if x.tempHold then 0
  else match x.phase with
    | .trickle | .precharge => d.minPhases r
    | .cc | .cv | .boost => 64
    | _ => 0

/-- The causes that stand while a phase does (R384, R390). -/
def Dev.portCauses (d : Dev) (p : PortIx) : Dev :=
  let x := d.ports[p]
  let stop := x.phase == .stopped
  (d.setCause (srcStoreTimeout p) 0 (stop && x.stopCause == 1)).setCause (srcStoreExhausted p) 0 (stop && x.stopCause == 2)

/-- The members are as many as the phase calls for: those above the count are shed, and an add that it does not call for is withdrawn
    (R383, R522). -/
def Dev.fitMembers (d : Dev) (p : PortIx) (r : RailIx) : Dev :=
  let d := d.shedDown r (d.portMembers p r)
  if d.portMembers p r ≤ d.activeCount r then d.withdrawAdd r else d

/-- STAT.PHASE changes: journalled, members shed where the phase calls for fewer and an add withdrawn that it does not call for (R383,
    R522), contexts as R385 says. -/
def Dev.setPhase (d : Dev) (p : PortIx) (r : RailIx) (ph : StPhase) (cause : BitVec 2 := 0) : Dev :=
  let x := d.ports[p]
  let d := d.updPort p fun y =>
    { y with phase := ph, stopCause := cause, phaseSince := if ph = x.phase then y.phaseSince else d.clk.now, dwellRun := 0, termSince := none, dones := if ph = .done && x.phase != .done then y.dones + 1 else y.dones, iNow := if ph.current || ph == .cv || ph == .boost then y.iNow else 0 }
  let d := if ph = x.phase then d
    else d.note 0x0040 (if x.phaseLvl then 1 else 0) p.val
      ([x.phase.code.setWidth 8, ph.code.setWidth 8] ++ leBytes 4 d.rails[r].vout.toNat ++ leBytes 4 d.loop.rails[r].keyI.toNat ++
        [if x.safe then 1 else 0])
  ((d.portCauses p).fitMembers p r).syncCtx r

/-- The phase that VOUT calls for (R382). -/
def Dev.phaseByVout (d : Dev) (p : PortIx) (r : RailIx) : StPhase :=
  let x := d.ports[p]
  let v := d.rails[r].vout.toInt
  if v < x.vTrickle.toNat then .trickle
  else if v < x.vPre.toNat then .precharge
  else if v < x.vCv.toNat then (if x.safe then .cv else .cc)
  else .cv

/-- The port takes its phase (R382): NONE while VSTALE. -/
def Dev.takePhase (d : Dev) (p : PortIx) (r : RailIx) : Dev :=
  if d.rails[r].vstale then
    (d.updPort p fun x => { x with takePhase := true, resumes := x.phase == .stopped || x.phase == .done, staleMarks := 0, preSpent := 0 }).setPhase p r .none
  else
    (d.updPort p fun x => { x with takePhase := false, preSpent := 0, lastPoint := d.clk.now }).setPhase p r (d.phaseByVout p r)

/-! ## References (R385 to R389) -/

/-- REF of the input-voltage context for a bus voltage in mV: 0 of 0 mV (R388); of another with VKSCALE 0 the spec states none and it is
    free. -/
def Dev.writeBusRef (d : Dev) (r : RailIx) (c : CtxIx) (mv : Nat) : Dev :=
  let k := d.loop.rails[r].vkScale.toNat
  if mv = 0 then d.setRef c 0
  else if k = 0 then
    let (w, d) := d.fresh
    d.updCtx c fun x => { x with ref := w }
  else d.setRef c (rhe ((mv * 1000 : Nat) : Int) k)

/-- REF of CTX[r] in CV (R385). -/
def Dev.writeCvRef (d : Dev) (p : PortIx) (r : RailIx) : Dev :=
  let x := d.ports[p]
  d.setRef (outerIx r) (rhe ((if x.safeGov then x.safeVcv else x.vCv).toNat * 1000) d.rails[r].vscale.toNat)

/-- The target of I_NOW (R386). -/
def Port.target (x : Port) : Int :=
  let i := match x.phase with
    | .trickle => x.iTrickle.toNat
    | .precharge => x.iPre.toNat
    | _ => x.iCc.toNat
  if x.safeGov then min i x.safeIcc.toNat else i

/-- The part of a mark that belongs to a port in CHARGE or SUPPORT (R385, R386, R388, R389): REF of the input-voltage context is written
    whether or not the context is active. -/
def Dev.portMark (d : Dev) (p : PortIx) (r : RailIx) : Dev :=
  let x := d.ports[p]
  let d := match d.inregOf p with
    | some c => match d.mode r with
      | .charge => d.writeBusRef r c x.vInreg.toNat
      | .support => d.writeBusRef r c x.vSup.toNat
      | _ => d
    | none => d
  if d.mode r = .charge && !x.tempHold then
    if x.phase.current || x.phase == .cv then
      let delta := rhe ((x.iSlew.toNat * 2 * d.pwmg.rper[r].toNat : Nat) : Int) 480000
      let d := d.setINow p (moveTo x.iNow.toInt x.target delta)
      if x.phase = .cv then d.writeCvRef p r else d
    else d
  else d

/-- IREF in CHARGE (R386, R387). -/
def Dev.chargeRef (d : Dev) (p : PortIx) (r : RailIx) : Dev :=
  let x := d.ports[p]
  let c := outerIx r
  match d.perPhase r x.iNow.toInt with
  | none => d
  | some ipp =>
    let slewing := x.phase == .cv && d.loop.ctx[c].slewLeft != 0
    let out := d.loop.ctx[c].delivered.toInt
    let base := if x.phase = .cv then (if slewing then out else clampI (min 0 ipp) (max 0 ipp) out) else ipp
    let (v, lim) := if slewing then (base, false) else d.auxMin r base
    let d := (d.setIref r v lim).updPort p fun y => { y with inreg := lim }
    if !lim then d
    else if x.phase = .cv then d.preload c hoTrack (some v) false
    else d.setINow p (d.refMa r v)

/-- IREF in SUPPORT (R389). -/
def Dev.supportRef (d : Dev) (p : PortIx) (r : RailIx) : Dev :=
  match d.inregOf p, d.perPhase r d.ports[p].iSup.toNat with
  | some c, some f =>
    let x := d.loop.ctx[c]
    let out := x.delivered.toInt
    let (v, lim) : Int × Bool := if x.slewLeft ≠ 0 then (out, false)
      else ((d.auxOf r).filter fun k => k != c && d.loop.ctx[k].active).foldl
        (fun (a : Int × Bool) k => let o := -d.loop.ctx[k].delivered.toInt
          if a.1 < o then (o, true) else a) (clampI (-f) 0 out, false)
    let d := (d.setIref r v lim).updPort p fun y => { y with inreg := lim }
    d.setINow p (d.refMa r v)
  | _, _ => d

/-- IREF of a storage rail at an update point (R305, R386, R389). -/
def Dev.portRef (d : Dev) (p : PortIx) (r : RailIx) : Dev :=
  let x := d.ports[p]
  if x.tempHold then d
  else match d.mode r, x.phase with
    | .charge, .trickle | .charge, .precharge | .charge, .cc | .charge, .cv => d.chargeRef p r
    | .support, .boost => d.supportRef p r
    | _, _ => d

/-! ## The Wick timer (R395, R396) -/

/-- The timer runs: the port's rail is in a mode other than OFF. -/
def Dev.wickRuns (d : Dev) (p : PortIx) : Bool := match d.portRail p with
  | some r => d.mode r != .off
  | none => false

/-- The timer reaches 0, at `by_` or before (R396). -/
def Dev.wickExpire (d : Dev) (p : PortIx) (by_ : Tick) : Dev :=
  let x := d.ports[p]
  match x.wickAt with
  | some e =>
    if e ≤ by_ ∧ x.wickOut = false then
      ((d.updPort p fun x => { x with safe := true, safeGov := true, wickOut := true, fallback := true, wickOuts := x.wickOuts + 1 }).setsBit (.safe p)).setCause (srcWickOut p) 0 true
    else d
  | none => d

/-- The timer is set to WD_TIME seconds; an expiry that falls in the same LOOP_CLK cycle acts before (R397). -/
def Dev.relight (d : Dev) (p : PortIx) : Dev :=
  let d := d.wickExpire p (d.cycleTick + 1)
  let runs := d.wickRuns p
  let d := d.updPort p fun x =>
    let n := x.wdTime.toNat * 1000 * msTicks
    { x with wickAt := if runs then some (d.clk.now + n) else none, wickStop := if runs then 0 else n, wickOut := false }
  d.setCause (srcWickOut p) 0 false

/-- The timer stops where it stands (R395). -/
def Port.stopWick (x : Port) (now : Tick) : Port := match x.wickAt with
  | some t => { x with wickAt := none, wickStop := t - now }
  | none => x

/-- The contexts that resume begin from 0 (R391). -/
def Dev.resumeZero (d : Dev) (p : PortIx) (r : RailIx) : Dev :=
  let d := if d.loop.ctx[outerIx r].active then d.preload (outerIx r) hoMode (some 0) else d
  match d.inregOf p with
  | some c => if d.loop.ctx[c].active then d.preload c hoMode (some 0) else d
  | none => d

/-! ## Temperatures (R392 to R394) -/

/-- One named input's temperature; `none` while it is open, as it is without an accumulator (assumption 21). -/
def Dev.portTemp (d : Dev) (p : PortIx) (s : StoreEnt) (k : Fin 4) : Option Int × Dev :=
  let x := d.ports[p]
  let acc : Byte := x.tempAcc.extractLsb' (8 * k.val) 8
  let a := d.sense.accs[acc.toFin]
  let bit := 4 * s.tempQuad.val + k.val
  if acc == 0xFF || d.sense.auxOpen.getLsbD bit || a.valid == 0 then (none, d)
  else
    let t := rhe (a.sum.toInt * x.tSlope.toInt) (a.valid.toNat * 65536) + x.tOfs.toInt
    if -2048 ≤ t ∧ t ≤ 2047 then (some t, d)
    else let (w, d) := d.fresh
      (some (w.setWidth 12).toInt, d)

/-- Every named input is read: the readings, and whether one is open. -/
def Dev.portTemps (d : Dev) (p : PortIx) (s : StoreEnt) : (List Int × Bool) × Dev :=
  ((List.finRange 4).filter fun k => s.tempMask.getLsbD k.val).foldl
    (fun (acc : (List Int × Bool) × Dev) k =>
      let (t, d) := acc.2.portTemp p s k
      match t with
      | some v => ((acc.1.1 ++ [v], acc.1.2), d)
      | none => ((acc.1.1, true), d)) (([], false), d)

/-- One flag's dwell: the flag and its run after a point at which `set` and `clear` hold or not (R393). -/
def flagStep (flag : Bool) (run dwell : Nat) (set clear : Bool) : Bool × Nat :=
  let go := if flag then clear else set
  if go then (if dwell ≤ run + 1 then (!flag, 0) else (flag, run + 1)) else (flag, 0)

/-- The temperature windows at a decision point, and the hold they call for (R392 to R394). -/
def Dev.portWindows (d : Dev) (p : PortIx) (r : RailIx) (s : StoreEnt) : Dev :=
  let ((ts, opn), d) := d.portTemps p s
  let x := d.ports[p]
  let w := if d.mode r = .support then x.tSup else x.tChg
  let hot := ts.foldl max (-2048)
  let cold := ts.foldl min 2047
  let any := !ts.isEmpty
  let h : Int := x.hyst.toNat
  let (fh, rh) := if opn then (true, 0)
    else flagStep x.hot x.hotRun x.tDwell.toNat (any && decide (w.hi.toInt < hot)) (!any || decide (hot ≤ w.hi.toInt - h))
  let (fc, rc) := if opn then (true, 0)
    else flagStep x.cold x.coldRun x.tDwell.toNat (any && decide (cold < w.lo.toInt)) (!any || decide (w.lo.toInt + h ≤ cold))
  let hold := fh || fc || opn
  let began := hold && !x.tempHold
  let ended := !hold && x.tempHold
  let d := d.updPort p fun y =>
    { y with openIn := opn, hot := fh, hotRun := rh, cold := fc, coldRun := rc, tempHold := hold, tempHolds := if began then y.tempHolds + 1 else y.tempHolds, hottest := if any then BitVec.ofInt 12 hot else 0x800, coldest := if any then BitVec.ofInt 12 cold else 0x800, iNow := if hold then 0 else y.iNow }
  let d := d.setCause (srcStoreTemp p) 0 hold
  if began then ((d.shedDown r 0).withdrawAdd r).syncCtx r
  else if ended then (d.syncCtx r).resumeZero p r
  else d

/-! ## Entry into the modes (R378, R379, R382, R391) -/

/-- CC, or SUPPORT, gives way to CV: CTX[r] takes IREF (R391). -/
def Dev.handToCv (d : Dev) (r : RailIx) (k : Nat) : Dev :=
  if d.loop.ctx[outerIx r].active then d.preload (outerIx r) k (some d.loop.rails[r].iref.toInt) else d

/-- The decision points of a mode are counted from its entry (R380). -/
def Dev.startPoints (d : Dev) (p : PortIx) : Dev :=
  d.updPort p fun x => { x with entered := d.cycleTick, nextPoint := some (d.cycleTick + msTicks), dwellRun := 0, hotRun := 0, coldRun := 0, lastPoint := d.clk.now, takePhase := false, safeGov := x.safe }

/-- The port takes up CHARGE, after STOPPED as a resumption (DEDUCED, assumption 94), from SUPPORT when `fromSupport` (R382, R391). The
    rail's mode is CHARGE already. -/
def Dev.portCharge (d : Dev) (p : PortIx) (r : RailIx) (fromSupport : Bool) : Dev :=
  let iref := d.loop.rails[r].iref.toInt
  let ma := d.refMa r iref
  let stopped := d.ports[p].phase == .stopped
  let d := (d.startPoints p).takePhase p r
  if stopped then d.resumeZero p r
  else if fromSupport then
    let ph := d.ports[p].phase
    let d := if ph = .cv then d.handToCv r hoMode else d
    if ph.current || ph == .cv then d.setINow p ma else d
  else d

/-- The port takes up SUPPORT, after DONE or STOPPED as a resumption (R389, R391; DEDUCED, assumption 94). The rail's mode is SUPPORT already. -/
def Dev.portSupport (d : Dev) (p : PortIx) (r : RailIx) (fromCharge : Bool) : Dev :=
  let iref := d.loop.rails[r].iref.toInt
  let resumes := d.ports[p].phase == .stopped || d.ports[p].phase == .done
  let d := (d.startPoints p).setPhase p r .boost
  match d.inregOf p with
  | some c =>
    let d := d.writeBusRef r c d.ports[p].vSup.toNat
    if resumes then d.resumeZero p r else if fromCharge && d.loop.ctx[c].active then d.preload c hoMode (some iref) else d
  | none => d

/-- A port whose section the structure no longer holds stands at its Cold values (R376). -/
def Dev.dropPorts (d : Dev) (old : Tiling) : Dev :=
  (List.finRange 4).foldl (fun d p =>
    if (old.stores[p]).isSome && (d.tile.cur.stores[p]).isNone then
      let d := (d.updPort p fun _ => {}).portCauses p
      (d.setCause (srcWickOut p) 0 false).setCause (srcStoreTemp p) 0 false
    else d) d

/-- The rail has left CHARGE and SUPPORT: the port has no phase and its hold ends. -/
def Dev.portStop (d : Dev) (p : PortIx) (r : RailIx) : Dev :=
  let d := d.updPort p fun x =>
    { x with tempHold := false, hot := false, cold := false, openIn := false, hotRun := 0, coldRun := 0, nextPoint := none, takePhase := false, inreg := false }
  ((d.setCause (srcStoreTemp p) 0 false).setPhase p r .none)

/-! ## Decision points (R380, R381, R384, R390, R396) -/

/-- The Wick fallback on the phase at the point, for a rail in CHARGE (R396). BOOST is left to the caller. -/
def Dev.wickFallback (d : Dev) (p : PortIx) (r : RailIx) : Dev :=
  match d.ports[p].phase with
  | .cc => (d.setPhase p r .cv).handToCv r hoPhase
  | .done => (d.setPhase p r .cv).resumeZero p r
  | _ => d

/-- A DWELL condition at one point: the run afterwards, and whether it is met. -/
def Port.dwellStep (x : Port) (ok : Bool) : Nat × Bool :=
  if ok then (x.dwellRun + 1, decide (x.dwell.toNat ≤ x.dwellRun + 1)) else (0, false)

/-- Time in TRICKLE and PRECHARGE runs on while no temperature hold lasts; the termination count leaves out the interval that a hold or
    an invalid rail sum ends (R384, assumption 75). -/
def Dev.spendPre (d : Dev) (p : PortIx) (sumOk : Bool) : Dev :=
  d.updPort p fun x =>
    let dt := d.clk.now - x.lastPoint
    let run := (x.phase == .trickle || x.phase == .precharge) && !x.tempHold
    { x with preSpent := if run then x.preSpent + dt else x.preSpent, termSince := if x.tempHold || !sumOk then x.termSince.map (· + dt) else x.termSince, lastPoint := d.clk.now }

/-- The charge phase transitions at a point (R384); `vst` is VSTALE, `sumOk` that the rail sum is valid. -/
def Dev.chargePoint (d : Dev) (p : PortIx) (r : RailIx) (sumOk : Bool) : Dev :=
  let x := d.ports[p]
  let v := d.rails[r].vout.toInt
  let vst := d.rails[r].vstale
  let late := x.preTime != 0 && decide (x.preTime.toNat * 1000 * msTicks ≤ x.preSpent)
  if x.takePhase then
    if vst then d
    else
      let d := d.takePhase p r
      if x.resumes then d.resumeZero p r else d
  else
    let count := fun (ok : Bool) (next : Dev → Dev) =>
      if vst then d
      else let (k, go) := x.dwellStep ok
        let d := d.updPort p fun y => { y with dwellRun := k }
        if go then next d else d
    match x.phase with
    | .trickle =>
      if late then d.setPhase p r .stopped 1
      else count (decide ((x.vTrickle.toNat : Int) ≤ v)) fun d => d.setPhase p r .precharge
    | .precharge =>
      if late then d.setPhase p r .stopped 1
      else count (decide ((x.vPre.toNat : Int) ≤ v)) fun d =>
        if x.safe then (d.setPhase p r .cv).handToCv r hoPhase else d.setPhase p r .cc
    | .cc => if decide ((x.vCv.toNat : Int) ≤ v) then (d.setPhase p r .cv).handToCv r hoPhase else d
    | .cv =>
      let term := rhe ((x.iCc.toNat * x.termPct.toNat : Nat) : Int) 100
      if !sumOk then d
      else if x.safe || !decide (d.loop.rails[r].keyI.toInt < term) then d.updPort p fun y => { y with termSince := none }
      else match x.termSince with
        | none => d.updPort p fun y => { y with termSince := some d.clk.now }
        | some t => if t + x.tTerm.toNat * 100 * msTicks ≤ d.clk.now then d.setPhase p r .done else d
    | .done => count (decide (v ≤ x.vRechg.toNat)) fun d =>
        let d := d.updPort p fun y => { y with recharges := y.recharges + 1 }
        (d.takePhase p r).resumeZero p r
    | _ => d

/-- The support phase transition at a point (R390). -/
def Dev.supportPoint (d : Dev) (p : PortIx) (r : RailIx) : Dev :=
  let x := d.ports[p]
  if x.phase = .boost && !d.rails[r].vstale then
    let (k, go) := x.dwellStep (decide (d.rails[r].vout.toInt ≤ x.vCutoff.toNat))
    let d := d.updPort p fun y => { y with dwellRun := k }
    if go then d.setPhase p r .stopped 2 else d
  else d

/-- A point in a temperature hold: the phase stays, and the DWELL count goes on with the condition of the phase (R380, R394). -/
def Dev.holdPoint (d : Dev) (p : PortIx) (r : RailIx) : Dev :=
  let v := d.rails[r].vout.toInt
  d.updPort p fun x =>
    let ok := match x.phase with
      | .trickle => decide ((x.vTrickle.toNat : Int) ≤ v)
      | .precharge => decide ((x.vPre.toNat : Int) ≤ v)
      | .done => decide (v ≤ x.vRechg.toNat)
      | .boost => decide (v ≤ x.vCutoff.toNat)
      | _ => false
    if d.rails[r].vstale then x else { x with dwellRun := (x.dwellStep ok).1 }

/-! ## Registers -/

/-- Ticks left of the Wick timer, in ms rounded up. -/
def Port.wickLeft (x : Port) (now : Tick) : Nat := match x.wickAt with
  | some t => (t - now + (msTicks - 1)) / msTicks
  | none => (x.wickStop + (msTicks - 1)) / msTicks

/-- I_NOW: in BOOST the mA form of IREF[r] as it stands (R389), else the value of R386. Where that form fits no field the spec states
    none, and the last transfer's stands (assumption 4). -/
def Dev.iNowOf (d : Dev) (p : PortIx) : Word :=
  let x := d.ports[p]
  match d.portRail p with
  | some r =>
    let i := d.refMa r d.loop.rails[r].iref.toInt
    if d.mode r == .support && x.phase == .boost && !x.tempHold && decide (-(2 ^ 31) ≤ i ∧ i < 2 ^ 31) then BitVec.ofInt 32 i else x.iNow
  | none => x.iNow

/-- STORE[p] by offset; a port that does not exist reads its Cold values (R376). -/
def Dev.readStore (d : Dev) (p : PortIx) (off : Nat) : Option Word :=
  let exists_ := (d.tile.cur.stores[p]).isSome
  let x := if exists_ then d.ports[p] else {}
  match off with
  | 0x00 => some (at' (match d.portRail p with
      | some r => BitVec.ofNat 4 r.val
      | none => (d.imageWord 0xF).setWidth 4) 24 ||| bitAt x.openIn 20 ||| bitAt x.cold 19 ||| bitAt x.hot 18 ||| bitAt x.tempHold 17 |||
      bitAt x.termSince.isSome 16 ||| at' x.stopCause 10 ||| bitAt x.inreg 9 ||| bitAt x.safe 8 ||| at' x.phase.code 0)
  | 0x04 => some (at' x.wdTime 0)
  | 0x08 => some (bitAt (x.wickAt.isSome && !x.wickOut) 31 ||| BitVec.ofNat 32 (x.wickLeft d.clk.now))
  | 0x0C => some (at' x.preTime 16 ||| at' x.dwell 8 ||| bitAt x.phaseLvl 0)
  | 0x10 => some (at' x.vTrickle 0)
  | 0x14 => some (at' x.vPre 0)
  | 0x18 => some (at' x.vCv 0)
  | 0x1C => some (at' x.vRechg 0)
  | 0x20 => some (at' x.iTrickle 0)
  | 0x24 => some (at' x.iPre 0)
  | 0x28 => some (at' x.iCc 0)
  | 0x2C => some (at' x.termPct 24 ||| at' x.tTerm 0)
  | 0x30 => some (at' x.iSlew 0)
  | 0x34 => some (at' x.vInreg 0)
  | 0x38 => some (at' x.vSup 0)
  | 0x3C => some (at' x.iSup 0)
  | 0x40 => some (at' x.vCutoff 0)
  | 0x44 => some (at' x.safeIcc 0)
  | 0x48 => some (at' x.safeVcv 0)
  | 0x4C => some x.tempAcc
  | 0x50 => some (at' x.tSlope 16 ||| at' x.tOfs 0)
  | 0x54 => some (at' x.tChg.hi 16 ||| at' x.tChg.lo 0)
  | 0x58 => some (at' x.tSup.hi 16 ||| at' x.tSup.lo 0)
  | 0x5C => some (at' x.tDwell 8 ||| at' x.hyst 0)
  | 0x60 => some (at' x.hottest 16 ||| at' x.coldest 0)
  | 0x64 => some (if exists_ then d.iNowOf p else 0)
  | 0x68 => some (at' x.dones 24 ||| at' x.wickOuts 16 ||| at' x.tempHolds 8 ||| at' x.recharges 0)
  | 0x6C => some (if exists_ && x.nextPoint.isSome then satN 32 ((d.clk.now - x.phaseSince) / (1000 * msTicks)) else 0)
  | _ => none

end Sys2Proof.Machine
end

