-- ==== Sys2Proof/Machine/RailOps.lean ====
section
/-! DEFINITION. The rail manager below the commands (R308 to R340): mode changes, soft start, Flare, Ember, shedding decisions,
    retries, card checks, and the registers of RAIL[r] and CARD[s]. -/

namespace Sys2Proof.Machine

open Sys2Proof

/-! ## Mode changes (R319, R320) -/

/-- The trip thresholds switch with SUPPORT (R343, R344). -/
def Dev.switchTrips (d : Dev) (r : RailIx) : Dev :=
  (d.members r).foldl (fun d n => d.updTrip n fun t => { t with settleUntil := settle d.clk.now t.thr t.thrSup t.settleUntil }) d

/-- SHED of a HOST member, which a drain or a JOIN of a retile has set, ends when its rail leaves OFF (DESIGN CHOICE, assumption 61). -/
def Dev.unshedHost (d : Dev) (r : RailIx) : Dev :=
  (d.members r).foldl (fun d n => if !d.isLoop n && d.pwm[n].mask.shed then d.setMask n fun m => { m with shed := false } else d) d

/-- RAIL_DIV[r] at an update point (R304). -/
def Dev.railDiv (d : Dev) (r : RailIx) : Dev :=
  if !(d.mode r).switching then d
  else
    let div := max 1 (d.topo (outerIx r)).div.toNat
    match (d.loop.rails[r].divLeft).getD 0 with
    | 0 => (d.event (0x0308 + r.val)).updRailLoop r fun l => { l with divLeft := some (div - 1) }
    | k + 1 => d.updRailLoop r fun l => { l with divLeft := some k }

/-- RAIL_DIV's count starts with the first update point at or after the present LOOP_CLK cycle, one of this cycle included (R304). -/
def Dev.startDiv (d : Dev) (r : RailIx) : Dev :=
  let d := d.updRailLoop r fun l => { l with divLeft := none }
  if d.cyc.no == d.cycle && d.cyc.points.getLsbD r.val then d.railDiv r else d

/-- The mode field changes, with what follows from it at once: trip thresholds, RAIL_DIV's count, contexts, Sectors and the
    ramp-tracking window (R304, R310, R343, R349). -/
def Dev.changeMode (d : Dev) (r : RailIx) (m : RailMode) : Dev :=
  let old := d.mode r
  let d := if old == .off && m != .off then d.unshedHost r else d
  let keeps := (old == .regulate || old == .ember) && (m == .regulate || m == .ember)
  let stays := m == .regulate || m == .ember
  let d := d.updRail r fun x => { x with mode := m, regSince := if keeps then x.regSince else if stays then some d.clk.now else none, oltEn := if old = .off then false else x.oltEn }
  let d := if (old == .support) != (m == .support) then d.switchTrips r else d
  let d := if !old.switching && m.switching then d.startDiv r else d
  let d := if old = .off then d.endHostOvrRail r else d
  ((d.syncCtx r).evalRail r).setRt r

/-- What leaving OFF starts: the Wick timer of a storage rail and the device's RUN state (R36, R395). -/
def Dev.leftOff (d : Dev) (r : RailIx) : Dev :=
  let d := match d.portOf r with
    | some p => d.relight p
    | none => d
  d.railLeftOff

/-- A Flare that a mode change ends (R335). -/
def Dev.cutFlare (d : Dev) (r : RailIx) : Dev :=
  if d.rails[r].flare.isNone then d
  else
    let d := (d.event (0x0498 + r.val)).updRail r fun x => { x with flare := none, flareLastExit := some d.clk.now }
    (d.members r).foldl (fun d n => d.updPwm n fun p =>
      (if p.flareOn then ({ p with flareOn := false, flarePulse := false } : Pwm).reform d.clk.now else p).endLift d.clk.now) d

/-- SHED set and EMBER cleared on every LOOP member, without events; phase starts end (R320, R519). -/
def Dev.shedAll (d : Dev) (r : RailIx) : Dev :=
  (d.members r).foldl (fun d n =>
    if d.isLoop n then (d.setMask n fun m => { m with shed := true, ember := false }).endStart n else d.endStart n) d

/-- The EVENT a member reports when its shared rail enters HICCUP or HOLD by itself (R502). -/
def Dev.noteEvent (d : Dev) (r : RailIx) (m : RailMode) : Dev :=
  if (d.sharedAs r).isNone || d.chord.head || d.mode r == .off || d.mode r == m || m == .off then d
  else { d with chord := { d.chord with events := upd d.chord.events r fun e => { e with pend := if m = .hiccup then 1 else 2 } } }

/-- A HICCUP of the present LOOP_CLK cycle is dropped for a HOLD of the same cycle: neither its count nor the mode it came from stays (R321). -/
def Dev.dropHiccup (d : Dev) (r : RailIx) (m : RailMode) : Dev :=
  let x : Rail := d.cyc.rails[r]
  if m == .hold && d.mode r == .hiccup && d.cyc.no == d.cycle && x.mode.switching then
    d.updRail r fun y => { y with hiccups := x.hiccups, hiccupFrom := x.hiccupFrom }
  else d

/-- The rail enters OFF, HICCUP or HOLD (R320). -/
def Dev.stopRail (d : Dev) (r : RailIx) (m : RailMode) : Dev :=
  let old := d.mode r
  let d := (d.noteEvent r m).dropHiccup r m
  let d := (d.cutFlare r).withdrawAdd r
  let now := d.clk.now
  let d := d.updRail r fun x =>
    { x with notice := none, burst := none, burstMembers := 0, shedSince := none, addSince := none, emberSince := none, m0Wait := none, shortSleeps := 0, staleRun := 0, toffAt := if m = .hiccup then some (now + x.tOff.toNat * msTicks) else none, hiccupFrom := if m = .hiccup then old else x.hiccupFrom, hiccups := if m = .hiccup then x.hiccups + 1 else x.hiccups }
  let d := (d.shedAll r).changeMode r m
  let d := match d.portOf r with
    | some p => if old.switching then d.portStop p r else d
    | none => d
  let d := if m = .hold then d else d.setCause (srcHiccupLimit r) 0 false
  let d := if m = .off then d else { d with cyc := { d.cyc with stopped := setBit d.cyc.stopped r.val true } }
  (d.respread r).checkUnderphased r

/-- Trip latches and counts of every member are cleared (R336, R347). -/
def Dev.clearTrips (d : Dev) (r : RailIx) : Dev :=
  (d.members r).foldl (fun d n =>
    (d.updTrip n fun t => { t with latch := false, periods := [], count := 0, limited := false }).setCause srcTripLatch n false) d

/-! ## Soft start (R315, R316, R372) -/

/-- M0: the M of the latest valid result of CTX[r]'s input, if it completed recently enough. -/
def Dev.m0 (d : Dev) (r : RailIx) : Option Int := match (d.accOf (outerIx r)).latest with
  | some l => if d.clk.now ≤ l.at_ + 4 * d.pwmg.rper[r].toNat then some (resultM l.sum.toInt l.valid.toNat) else none
  | none => none

/-- M0 is taken: REF, P, the preloads and the windows (R315, R372). -/
def Dev.takeM0 (d : Dev) (r : RailIx) (m0 : Int) : Dev :=
  let d := d.updRail r fun x => { x with m0Wait := none }
  let d := d.setRef (outerIx r) m0
  let d := d.updSp r fun s => let p := rhe (m0 * d.rails[r].vscale.toNat * 65536) 1000
    { s with p := p, slewing := p != (s.cmdMv.toNat : Int) * 65536 }
  let d := (d.syncCtx r).evalRail r
  let d := if d.loop.ctx[outerIx r].active then d.preload (outerIx r) hoMode (some 0) false else d
  let d0 := d.d0 r
  let d := (d.members r).foldl (fun d n =>
    if d.loop.ctx[innerIx n].active then d.preload (innerIx n) hoMode (some d0) false else d) d
  (d.setUv r).setRt r

/-- The rail enters RAMP (R315, R316, R319). -/
def Dev.enterRamp (d : Dev) (r : RailIx) : Dev :=
  let fromOff := d.mode r == .off
  let d := (d.updRail r fun x => { x with m0Wait := some 0, toffAt := none }).changeMode r .ramp
  let d := if fromOff then d.leftOff r else d
  let d := match d.m0 r with
    | some m => d.takeM0 r m
    | none => d
  d.checkUnderphased r

/-- The rail enters CHARGE or SUPPORT (R379). -/
def Dev.enterStorage (d : Dev) (p : PortIx) (r : RailIx) (m : RailMode) : Dev :=
  let old := d.mode r
  let d := (d.updRail r fun x => { x with toffAt := none }).changeMode r m
  let d := if old = .off then d.leftOff r else d
  let d := if m = .charge then d.portCharge p r (old == .support) else d.portSupport p r (old == .charge)
  d.checkUnderphased r

/-- M0 has been missing at eight marks: LOOP_INPUT of CTX[r] is raised as by eight held computes (R316). -/
def Dev.m0Missed (d : Dev) (r : RailIx) (k : Nat) : Dev :=
  let d := d.updRail r fun x => { x with m0Wait := some (k + 1) }
  if k + 1 = 8 then (d.updCtx (outerIx r) fun x => { x with invalidRun := 8, inputRail := some r }).loopInputCause r else d

/-! ## Flare (R331 to R335) -/

/-- Flare is armed, as the fast path holds it: as it stood at the start of the LOOP_CLK cycle (R331). -/
def Dev.flareArmed (d : Dev) (r : RailIx) : Bool :=
  let x := d.cyc.rails[r]
  (x.mode == .regulate || x.mode == .ember) && x.flareEn && x.flare.isNone && match x.flareLastExit with
    | some t => decide (t + x.flareGap.toNat * 10 * usTicks ≤ d.cycleTick)
    | none => true

/-- A member takes part in a Flare that begins now (R332). -/
def Dev.joinsFlare (d : Dev) (n : PhaseIx) : Bool :=
  let m := d.pwm[n].mask
  d.isLoop n && !d.gateForce n && !(m.unused || m.park || m.fail || m.card || m.hmask)

/-- The Flare command begins on a member that takes part (R332): HI is on until the earlier of the entry + FLARE_DUTY / 32 ticks and its
    next falling edge under FLARE_DUTY. A trip or a hold that stands keeps HI off (R345, R351). -/
def Dev.joinFlare (d : Dev) (n : PhaseIx) (code : BitVec 22) : Dev :=
  let pos : Int := 64 * d.clk.now
  let d := d.updPwm n fun p => { (p.sync d.clk.now) with flareOn := true, flareCode := code }
  let p := d.pwm[n]
  let stop := match p.nextFall pos with
    | some f => min f (pos + 2 * p.duty)
    | none => pos + 2 * p.duty
  if p.duty = 0 then d.formAt n
  else
    let d := if p.cmd then d else d.hiRise n pos
    d.updPwm n fun p => { p with cmd := true, flarePulse := true, edgeAt := some stop }

/-- Flare entry (R219, R331, R332). -/
def Dev.flareEnter (d : Dev) (r : RailIx) : Dev :=
  let d := d.withdrawAdd r
  let part := (d.members r).filter d.joinsFlare
  let code := d.rails[r].flareDuty
  let d := (d.event (0x0490 + r.val)).updRail r fun x =>
    { x with flare := some d.clk.now, flares := x.flares + 1, notice := none, shedSince := none, addSince := none, emberSince := none }
  let d := (d.members r).foldl (fun d n => if d.isLoop n then d.updPwm n Pwm.beginLift else d) d
  (part.foldl (fun d n => d.joinFlare n code) d).respread r

/-- Mean of M over the latest valid results of the active LOOP members' inputs (R312). -/
def Dev.meanM (d : Dev) (r : RailIx) : Option Int :=
  let ms := ((d.active r).filter d.isLoop).filterMap fun n => (d.accOf (innerIx n)).latest.map fun l => resultM l.sum.toInt l.valid.toNat
  if ms.isEmpty then none else some (meanI ms)

/-- Preload every active inner context of a rail with a duty code. -/
def Dev.preloadInner (d : Dev) (r : RailIx) (duty : BitVec 22) : Dev :=
  (d.members r).foldl (fun d n =>
    if d.loop.ctx[innerIx n].active then d.preload (innerIx n) hoMode (some duty.toNat) else d) d

/-- EMBER bits of the burst members. -/
def Dev.emberMask (d : Dev) (r : RailIx) (on : Bool) : Dev :=
  (d.members r).foldl (fun d n =>
    if d.rails[r].burstMembers.getLsbD n.val then d.setMask n fun m => { m with ember := on } else d) d

/-- A member at a Flare exit (R334): one that took part has FLARE_DUTY written into its shadow and, unless drained, is kept; of another
    the lift ends. -/
def Dev.leaveFlare (d : Dev) (r : RailIx) (n : PhaseIx) : Dev :=
  if d.pwm[n].flareOn then
    let d := d.updPwm n fun p =>
      { p with overwrites := if p.loopShadow.isSome then p.overwrites + 1 else p.overwrites, loopShadow := some { duty := d.rails[r].flareDuty, at_ := d.cycleTick + 1 } }
    if d.rails[r].drained.getLsbD n.val then d else (d.setMask n fun m => { m with shed := false, ember := false }).event (0x0440 + n.val)
  else d.updPwm n fun p => p.endLift d.clk.now

/-- The EMBER bits of the burst members are cleared, and the bursts end (R330). -/
def Dev.endBursts (d : Dev) (r : RailIx) : Dev :=
  (d.emberMask r false).updRail r fun x => { x with burst := none, burstMembers := 0, shortSleeps := 0, staleRun := 0 }

/-- Every kept participant's inner context takes IREF as its REF: its ADD has fired in this cycle (R305). -/
def Dev.giveIref (d : Dev) (r : RailIx) (ns : List PhaseIx) : Dev :=
  ns.foldl (fun d n => if d.loop.ctx[innerIx n].active then d.updCtx (innerIx n) fun x => { x with ref := d.loop.rails[r].iref } else d) d

/-- Flare exit (R330, R333, R334). -/
def Dev.flareExit (d : Dev) (r : RailIx) (timeout : Bool) : Dev :=
  let x := d.rails[r]
  let part := (d.members r).filter fun n => d.pwm[n].flareOn && !x.drained.getLsbD n.val
  let d := (d.event (0x0498 + r.val)).updRail r fun x =>
    { x with flare := none, flareLastExit := some d.clk.now, burst := none, timeouts := if timeout then x.timeouts + 1 else x.timeouts }
  let d := if timeout then d.raiseEvent (srcFlareTimeout r) 0 else d
  let d := (d.members r).foldl (fun d n => d.leaveFlare r n) d
  let d := if x.mode = .ember then (d.endBursts r).changeMode r .regulate else d.syncCtx r
  let d := d.giveIref r part
  let d := match d.meanM r with
    | some m => if d.loop.ctx[outerIx r].active then d.preload (outerIx r) hoMode (some m) else d
    | none => d
  (d.preloadInner r x.flareDuty).respread r

/-- The decision of a rail in Flare at an update point (R333). -/
def Dev.flarePoint (d : Dev) (r : RailIx) : Dev :=
  let x := d.rails[r]
  match x.flare with
  | none => d
  | some t =>
    let fresh := match (d.accOf (outerIx r)).latest with
      | some l => decide (t < l.at_)
      | none => false
    let back := fresh && decide (d.targetMv r - x.flareRec.toNat ≤ x.vout.toInt) && !d.prot.wins[r].uv
    if back then d.flareExit r false
    else if t + x.flareTime.toNat * usTicks ≤ d.clk.now then d.flareExit r true else d

/-! ## Ember (R328 to R330) -/

/-- The rail enters EMBER asleep (R328). -/
def Dev.enterEmber (d : Dev) (r : RailIx) : Dev :=
  let ms := (d.active r).filter d.isLoop
  let set := maskOf 64 fun n : PhaseIx => ms.contains n
  let d := d.updRail r fun x =>
    { x with burstMembers := set, burst := none, sleepSince := d.clk.now, shortSleeps := 0, staleRun := 0, emberSince := none }
  ((d.changeMode r .ember).emberMask r true).event (0x0488 + r.val)

/-- The rail leaves EMBER for REGULATE (R330), with the hand-over of R312. With ISCALE 0 the spec states no P, and it is
    free. -/
def Dev.leaveEmber (d : Dev) (r : RailIx) : Dev :=
  let x := d.rails[r]
  let d := (d.endBursts r).changeMode r .regulate
  let a := d.activeCount r
  let c := outerIx r
  let d := if a = 0 || !d.loop.ctx[c].active then d
    else if x.iscale = 0 then
      let (w, d) := d.fresh
      d.preload c hoMode (some w.toInt)
    else d.preload c hoMode (some (rhe (d.loop.rails[r].keyI.toInt * 1000) (x.iscale.toNat * a)))
  d.preloadInner r x.packetDuty

/-- A burst begins (R329). -/
def Dev.beginBurst (d : Dev) (r : RailIx) : Dev :=
  let now := d.clk.now
  let x := d.rails[r]
  let d := (d.emberMask r false).updRail r fun x => { x with burst := some now, packetDuty := x.emberDuty }
  let d := (d.members r).foldl (fun d n =>
    if x.burstMembers.getLsbD n.val then d.loopWrite n x.emberDuty else d) d
  d.event (0x0480 + r.val)

/-- A burst ends (R329). -/
def Dev.endBurst (d : Dev) (r : RailIx) : Dev :=
  ((d.emberMask r true).updRail r fun x => { x with burst := none, sleepSince := d.clk.now }).event (0x0488 + r.val)

/-- The decisions of a rail in EMBER at an update point (R329, R330). -/
def Dev.emberPoint (d : Dev) (r : RailIx) : Dev :=
  let x := d.rails[r]
  let now := d.clk.now
  let v := x.vout.toInt
  let t := d.targetMv r
  let wakes := x.burst.isNone && decide (v ≤ t - x.embLo.toNat)
  let short := if wakes then (if now - x.sleepSince < x.minSleep.toNat * 10 * usTicks then x.shortSleeps + 1 else 0) else x.shortSleeps
  let stale := if x.vstale then x.staleRun + 1 else 0
  let d := d.updRail r fun x => { x with shortSleeps := short, staleRun := stale }
  if decide (v ≤ t - x.embExit.toNat) || decide (4 ≤ short) || !x.emberEn || decide (4 ≤ stale) then d.leaveEmber r
  else if wakes then d.beginBurst r
  else match x.burst with
    | some b =>
      if b + x.pktLen.toNat * 2 * d.pwmg.refs[r].per.toNat ≤ now || decide (t + x.embHi.toNat ≤ v) then d.endBurst r else d
    | none => d

/-! ## Decisions of a mark (R325, R326, R328, R383) -/

/-- A dwell: its start is kept while the condition holds; the flag says that it has run its length. -/
def dwell (since : Option Tick) (ok : Bool) (now len : Nat) : Option Tick × Bool :=
  if ok then let s := since.getD now
    (some s, decide (s + len ≤ now))
  else (none, false)

/-- An invalid mark neither counts towards a dwell nor restarts it: the interval that it ends is left out (R325, R326). -/
def skipMark (since : Option Tick) (now last : Tick) : Option Tick := since.map fun s => s + (now - max s last)

/-- A notice, or a drain without dwell, begins (R325, R175). -/
def Dev.beginNotice (d : Dev) (r : RailIx) (n : PhaseIx) (drain : Bool) : Dev :=
  d.updRail r fun x =>
    { x with notice := some { phase := n, began := d.clk.now, until_ := d.clk.now + x.shedDelay.toNat * 100 * usTicks, drain := drain }, shedSince := none, drained := if drain then setBit x.drained n true else x.drained }

/-- A mark forms the end of a notice from SHED_DELAY as it stands; the count already made stands (R341). -/
def Rail.noticeMark (x : Rail) : Rail :=
  { x with notice := x.notice.map fun nt => { nt with until_ := nt.began + x.shedDelay.toNat * 100 * usTicks } }

/-- Shedding at a mark (R325). -/
def Dev.shedMark (d : Dev) (r : RailIx) (valid : Bool) : Dev :=
  let x := d.rails[r]
  let a := d.activeCount r
  let i := d.loop.rails[r].keyI.toInt.natAbs
  match x.notice with
  | some nt =>
    if valid && !nt.drain && decide (x.addTh.toNat * a < i) then
      d.updRail r fun x => { x with notice := none, shedSince := none }
    else d
  | none =>
    let may := d.mode r == .regulate && x.shedEn && !d.respreadBusy r && decide (d.minPhases r < a)
    if !may then d.updRail r fun x => { x with shedSince := none }
    else if !valid then d.updRail r fun x => { x with shedSince := skipMark x.shedSince d.clk.now x.markAt }
    else
      let (s, go) := dwell x.shedSince (decide (i < x.shedTh.toNat * (a - 1))) d.clk.now (x.shedDwell.toNat * 100 * usTicks)
      let d := d.updRail r fun x => { x with shedSince := s }
      match go, d.topMember r with
      | true, some n => d.beginNotice r n false
      | _, _ => d

/-- Adding at a mark (R326). -/
def Dev.addMark (d : Dev) (r : RailIx) (valid : Bool) : Dev :=
  let x := d.rails[r]
  let a := d.activeCount r
  let i := d.loop.rails[r].keyI.toInt.natAbs
  if x.addWait.isSome then d
  else
    let (s, go) := if valid then dwell x.addSince (decide (x.addTh.toNat * a < i)) d.clk.now (x.addDwell.toNat * 100 * usTicks)
      else (skipMark x.addSince d.clk.now x.markAt, false)
    let d := d.updRail r fun x => { x with addSince := s }
    if go || !x.shedEn || d.mode r == .ramp || decide (a < d.minPhases r) then d.askAdd r else d

/-- Entry into EMBER at a mark; where the rail sum is invalid, KEY_I keeps its value and is compared (R323, R328). -/
def Dev.emberMark (d : Dev) (r : RailIx) : Dev :=
  let x := d.rails[r]
  let i := d.loop.rails[r].keyI.toInt.natAbs
  let may := d.mode r == .regulate && x.emberEn && decide (d.activeCount r = d.minPhases r) && x.notice.isNone
  if !may then d.updRail r fun x => { x with emberSince := none }
  else
    let (s, go) := dwell x.emberSince (decide (i < x.emberEnter.toNat)) d.clk.now (x.emberDwell.toNat * 100 * usTicks)
    let d := d.updRail r fun x => { x with emberSince := s }
    if go then d.enterEmber r else d

/-- A mark at which a port in CHARGE waits for a valid VOUT to take its phase by: the eighth raises LOOP_INPUT of CTX[r] (R316, R382). -/
def Dev.phaseMissed (d : Dev) (p : PortIx) (r : RailIx) : Dev :=
  if !(d.ports[p].takePhase && d.rails[r].vstale) then d
  else
    let k := d.ports[p].staleMarks + 1
    let d := d.updPort p fun x => { x with staleMarks := k }
    if k = 8 then (d.updCtx (outerIx r) fun x => { x with invalidRun := 8, inputRail := some r }).loopInputCause r else d

/-- The mode decisions of a mark (R316, R319, R325 to R328, R374, R383). Every mark of RAMP evaluates adding, those that wait for M0 too. -/
def Dev.markDecisions (d : Dev) (r : RailIx) (valid : Bool) : Dev :=
  let x := d.rails[r]
  if x.flare.isSome then d
  else match x.mode with
    | .ramp =>
      let d := match x.m0Wait with
        | some k => match d.m0 r with
          | some m => d.takeM0 r m
          | none => d.m0Missed r k
        | none => if d.sp.sp[r].p = (d.sp.sp[r].cmdMv.toNat : Int) * 65536 then d.changeMode r .regulate else d
      d.addMark r valid
    | .regulate => ((d.shedMark r valid).addMark r valid).emberMark r
    | .charge | .support => match d.portOf r with
      | some p =>
        let d := d.phaseMissed p r
        let k := d.portMembers p r
        if d.activeCount r < k then d.askAdd r else d
      | none => d
    | _ => d

/-- A shed in notice takes effect (R325); a drain in EMBER leaves the phase out of later packets (R175). -/
def Dev.shedNow (d : Dev) (r : RailIx) (n : PhaseIx) : Dev :=
  let d := (d.shedOne n).updRail r fun x =>
    { x with notice := none, shedSince := none }
  (d.respread r).syncCtx r

/-! ## Hiccup (R336) -/

/-- The off-timer expires: a retry, or HOLD with HICCUP_LIMIT. -/
def Dev.toffExpired (d : Dev) (r : RailIx) : Dev :=
  let x := d.rails[r]
  if x.retries.toNat < x.retryMax.toNat then
    let d := (d.updRail r fun x => { x with retries := x.retries + 1 }).clearTrips r
    match d.portOf r with
    | some p => d.enterStorage p r (if x.hiccupFrom = .support then .support else .charge)
    | none => d.enterRamp r
  else (d.stopRail r .hold).setCause (srcHiccupLimit r) 0 true

/-- CMD OFF on a rail that is not OFF (R319, R322, R347). -/
def Dev.commandOff (d : Dev) (r : RailIx) : Dev :=
  let d := (d.clearTrips r).stopRail r .off
  let d := match d.portOf r with
    | some p => d.updPort p fun x => x.stopWick d.clk.now
    | none => d
  ((d.updRail r fun x => { x with retries := 0, oltEn := false, demandMarks := [], demand := 0 }).endHostOvrRail r).railWentOff

/-! ## Commands: what refuses a rail's leaving OFF (R322, R378) -/

/-- A retile in progress refuses a rail that its plan creates or removes (R182); while it plans, one that its goal lacks. -/
def Dev.retileBars (d : Dev) (r : RailIx) : Bool :=
  let rt := d.tile.rt
  if rt.state == .planning then rt.goal.rails[r].isNone
  else (rt.state == .running || rt.state == .waiting || rt.state == .paused) && (rt.defines ||| rt.undefines).getLsbD r

/-- A fault whose status bit is set has reached the rail with an action of 2 or above. -/
def Dev.faultBars (d : Dev) (r : RailIx) : Bool :=
  (List.finRange 256).any fun k => d.fault.src[k].status && d.fault.src[k].reach.getLsbD r

/-- A reaction has taken the device to LATCHED in this LOOP_CLK cycle: every other trigger of the cycle is dropped (R40). -/
def Dev.latchedNow (d : Dev) : Bool := d.cyc.no == d.cycle && d.cyc.latched

/-- The device state and the SAFE inputs allow an ON (R322, R500). -/
def Dev.takesOn (d : Dev) : Bool := (d.sys.devState == .standby || d.sys.devState == .run) && d.prot.restartOk

/-- The refusals of ON that concern the device (R322). -/
def Dev.deviceBars (d : Dev) (r : RailIx) : Bool :=
  !d.takesOn || d.retileBars r || (d.sense.op == .fgcal && d.sense.stage.isSome)

/-! ## Cards (R338, R339) -/

/-- The members of a slot, and the rails they belong to. -/
def slotPhases (s : CardIx) : List PhaseIx := (List.finRange 64).filter fun n => cardOf n == s
def Dev.slotRails (d : Dev) (s : CardIx) : List RailIx :=
  (List.finRange 8).filter fun r => (slotPhases s).any fun n => d.railOf n == some r

/-- A card change restarts the off-time of every rail in HICCUP that has a member on it (R337). -/
def Dev.restartToff (d : Dev) (s : CardIx) : Dev :=
  (d.slotRails s).foldl (fun d r =>
    if d.mode r = .hiccup then d.updRail r fun x => { x with toffAt := some (d.clk.now + x.tOff.toNat * msTicks) } else d) d

/-- Members of a slot stop taking part: shed, and their rails re-spread. SHED[n] fires where the rail manager sheds
    (R414), not at a removal (R338). -/
def Dev.shedSlot (d : Dev) (s : CardIx) (fires : Bool) : Dev :=
  let d := (slotPhases s).foldl (fun d n =>
    if !d.isLoop n then d.endStart n else if fires then d.shedOne n else d.markShed n) d
  (d.slotRails s).foldl (fun d r =>
    let onCard := fun (n : PhaseIx) => cardOf n == s
    let d := match d.rails[r].notice with
      | some nt => if onCard nt.phase then d.updRail r fun x => { x with notice := none } else d
      | none => d
    let d := match d.rails[r].addWait with
      | some n => if onCard n then d.withdrawAdd r else d
      | none => d
    (d.respread r).syncCtx r) d

/-- The members of a slot whose offset is checked (R339 check 3). -/
def Dev.offsetPhases (d : Dev) (s : CardIx) : List PhaseIx :=
  (slotPhases s).filter fun n => (d.railOf n).isSome && (d.topo (innerIx n)).enable && (d.tile.cur.accs[(d.topo (innerIx n)).input]).isSome

/-- Every checked member has 16 valid results. -/
def Dev.offsetReady (d : Dev) (s : CardIx) : Bool := (d.offsetPhases s).all fun n => decide ((d.accOf (innerIx n)).history.length = 16)

/-- The offset check (R339 check 3): every checked member's mean of its latest 16 valid results lies within the tolerance. -/
def Dev.offsetOk (d : Dev) (s : CardIx) : Bool :=
  (d.offsetPhases s).all fun n =>
    let h := (d.accOf (innerIx n)).history
    let (num, den) := h.foldl (fun (x : Int × Nat) a => (x.1 * a.valid.toNat + a.sum.toInt * x.2, x.2 * a.valid.toNat)) (0, 1)
    decide (num.natAbs ≤ d.cards[s].ofsTol.toNat * 16 * den)

def Dev.failCard (d : Dev) (s : CardIx) (check : Byte) : Dev :=
  (d.updCard s fun c => { c with state := .failed, fail := check, since := d.clk.now }).setCause (srcCardQual s) 0 true

/-- All checks have passed (R339). -/
def Dev.qualifyCard (d : Dev) (s : CardIx) : Dev :=
  let d := d.updCard s fun c => { c with state := .qualified, fail := 0, since := d.clk.now }
  let d := (slotPhases s).foldl (fun d n => d.setMask n fun m => { m with card := false }) d
  let d := (d.event (0x04A8 + s.val)).setCause (srcCardRemoved s) 0 false
  (d.slotRails s).foldl (fun d r => d.respread r) (d.restartToff s)

/-- Check 3 runs as soon as its results are there. -/
def Dev.offsetCheck (d : Dev) (s : CardIx) : Dev :=
  if d.cards[s].state == .qualifying && d.cards[s].qual == .offset && d.offsetReady s then
    (if d.offsetOk s then d.qualifyCard s else d.failCard s 3)
  else d

/-! ## Registers -/

def CardState.code : CardState → BitVec 3
  | .absent => 0 | .debounce => 1 | .qualifying => 2 | .qualified => 3 | .failed => 4

/-- RAIL[r] by offset. -/
def Dev.readRail (d : Dev) (r : RailIx) (off : Nat) : Option Word :=
  let x := d.rails[r]
  match off with
  | 0x00 => some 0
  | 0x04 => some (at' x.retries 28 ||| (BitVec.ofNat 32 (d.members r).length <<< 16) ||| (BitVec.ofNat 32 (d.activeCount r) <<< 8) |||
      bitAt x.flare.isSome 7 ||| bitAt x.notice.isSome 6 ||| bitAt x.addWait.isSome 5 ||| bitAt x.burst.isSome 4 ||| bitAt x.vstale 3 |||
      at' x.mode.code 0)
  | 0x08 => some (bitAt x.oltEn 3 ||| bitAt x.flareEn 2 ||| bitAt x.emberEn 1 ||| bitAt x.shedEn 0)
  | 0x0C => some x.vscale
  | 0x10 => some x.iscale
  | 0x14 => some x.vout
  | 0x18 => some x.demand
  | 0x1C => some (at' x.shedTh 0)
  | 0x20 => some (at' x.addTh 0)
  | 0x24 => some (at' x.shedDelay 24 ||| at' x.addDwell 8 ||| at' x.shedDwell 0)
  | 0x28 => some (at' x.emberDwell 24 ||| at' x.emberEnter 0)
  | 0x2C => some (at' x.embLo 16 ||| at' x.embHi 0)
  | 0x30 => some (at' x.embExit 16 ||| at' x.minSleep 8 ||| at' x.pktLen 0)
  | 0x34 => some (at' x.emberDuty 0)
  | 0x38 => some (at' x.flareDuty 0)
  | 0x3C => some (at' x.flareGap 16 ||| at' x.flareTime 0)
  | 0x40 => some (at' x.flareRec 0)
  | 0x44 => some (at' x.tOff 16 ||| at' x.retryMax 12 ||| at' x.retryClr 0)
  | 0x48 => some (match x.toffAt with
      | some t => BitVec.ofNat 32 ((t - d.clk.now + (msTicks - 1)) / msTicks)
      | none => 0)
  | 0x4C => some (at' x.flares 24 ||| at' x.blocked 16 ||| at' x.hiccups 8 ||| at' x.timeouts 0)
  | _ => none

/-- CARD[s] by offset. -/
def Dev.readCard (d : Dev) (s : CardIx) (off : Nat) : Option Word :=
  let c := d.cards[s]
  match off with
  | 0x0 => some (at' c.ofsTol 16 ||| at' c.idExp 0)
  | 0x4 => some (at' c.fail 24 ||| at' c.idRead 16 ||| at' c.state.code 0)
  | 0x8 => some (at' c.removals 0)
  | _ => none

end Sys2Proof.Machine
end

