-- ==== Sys2Proof/Machine/ProtOps.lean ====
section
/-! DEFINITION. Fast-path protection below the commands (R342 to R363): trips and their counter, window comparators, fault
    lines, and the PROT registers. -/

namespace Sys2Proof.Machine

open Sys2Proof

/-- A comparator's action is withheld (R344). -/
def settling (deadline : Option Tick) (now : Tick) : Bool := match deadline with
  | some u => decide (now < u)
  | none => false

/-- Stage A holds HI off on a phase: a pulse in progress ends, and GL follows after DTF (R345, R351). -/
def Pwm.holdHi (p : Pwm) (now : Tick) : Pwm := p.hiDown (64 * now) true

/-! ## Trips (R343 to R347, R363) -/

/-- COUNT of R346: limited periods among the last WIN, the present one included. -/
def Trip.recount (t : Trip) : Trip :=
  let past := ((t.periods.take (t.winNow.toNat - 1)).filter id).length
  { t with count := satN 8 (past + if t.limited then 1 else 0) }

/-- The phase latches off when its count has reached N (R346). -/
def Dev.latchCheck (d : Dev) (n : PhaseIx) : Dev :=
  let t := d.prot.trips[n]
  if t.latch || decide (t.count.toNat < t.nNow.toNat) then d
  else
    let d := (d.updTrip n fun t => { t with latch := true }).setCause srcTripLatch n true
    match d.railOf n with
    | some r => if (d.mode r).switching then d.stopRail r .hiccup else d
    | none => d

/-- The present period of the phase is marked limited, where it counts (R346). -/
def Dev.markLimited (d : Dev) (n : PhaseIx) : Dev :=
  let counts := (match d.phaseMode n with
    | some m => m.switching
    | none => false) && d.pwm[n].cHi.passes && !d.gateForce n
  if !counts || d.prot.trips[n].limited then d
  else (d.updTrip n fun t => ({ t with limited := true, total := t.total + 1 }).recount).latchCheck n

/-- A trip becomes active (R345). -/
def Dev.tripAct (d : Dev) (n : PhaseIx) : Dev :=
  let d := d.markLimited n
  (d.updTrip n fun t => { t with active := true }).updPwm n fun p => p.holdHi d.clk.now

/-- The blanking window of a phase is open (R228). -/
def Dev.blanked (d : Dev) (n : PhaseIx) : Bool := settling d.pwm[n].blankUntil d.clk.now

/-- A comparator that is crossed, outside blanking and settling, makes a trip. -/
def Dev.tripIfDue (d : Dev) (n : PhaseIx) : Dev :=
  let t := d.prot.trips[n]
  if t.cmp && !d.blanked n && !settling t.settleUntil d.clk.now then d.tripAct n else d

/-- A valley moves the window of periods, takes WIN and N as last written, and compares the count (R346, R363). -/
def Dev.tripValley (d : Dev) (n : PhaseIx) : Dev :=
  (d.updTrip n fun t => ({ t with periods := (t.limited :: t.periods).take 1024, limited := false, winNow := t.win, nNow := t.n }).recount).latchCheck n

/-- The threshold code of the phase's trip comparator and its polarity in effect (R343). -/
def Dev.tripCode (d : Dev) (n : PhaseIx) : BitVec 10 × Bool :=
  let t := d.prot.trips[n]
  if d.phaseMode n = some .support then (t.thrSup, t.polSup) else (t.thr, t.pol)

/-- A phase that has joined or left a rail in SUPPORT has its threshold changed, as a write changes it (R343, R344). -/
def Dev.resettle (d old : Dev) (n : PhaseIx) : Dev :=
  d.updTrip n fun t => { t with settleUntil := settle d.clk.now (old.tripCode n).1 (d.tripCode n).1 t.settleUntil }

/-- A write of PROT.TRIP[n].THR: a code in effect that changes by more than 8 settles (R344). -/
def Dev.writeThr (d : Dev) (n : PhaseIx) (v : Word) : Dev :=
  let old := (d.tripCode n).1
  let d := d.updTrip n fun t => { t with polSup := v.getLsbD 31, thrSup := fld v 16 10, pol := v.getLsbD 15, thr := fld v 0 10 }
  let new := (d.tripCode n).1
  d.updTrip n fun t => { t with settleUntil := settle d.clk.now old new t.settleUntil }

/-! ## Window comparators (R350 to R352) -/

/-- HI is held off on every member of a rail. -/
def Dev.holdRail (d : Dev) (r : RailIx) : Dev :=
  (d.members r).foldl (fun d n => (d.updTrip n fun t => { t with hold := true }).updPwm n fun p => p.holdHi d.clk.now) d

/-- The overvoltage hold (R351). -/
def Dev.ovHold (d : Dev) (r : RailIx) : Dev := if d.ovActs r then d.holdRail r else d

/-- While the overvoltage comparator is crossed, HI is held off on every member, one that has joined or a rail that has left OFF
    meanwhile included (R342, R351). -/
def Dev.keepOv (d : Dev) (r : RailIx) : Dev :=
  let w := d.prot.wins[r]
  if w.ov && d.ovActs r && !settling w.ovSettle d.clk.now && (d.members r).any fun n => !d.prot.trips[n].hold then d.holdRail r else d

/-- The ramp-tracking action (R352). -/
def Dev.rtAct (d : Dev) (r : RailIx) : Dev :=
  ((d.holdRail r).raiseEvent (srcRampTrack r) 0).stopRail r .hiccup

/-- What an undershoot crossing does (R331, R350). -/
def Dev.uvAction (d : Dev) (r : RailIx) : Dev :=
  if d.flareArmed r && d.rails[r].flare.isNone && (d.mode r == .regulate || d.mode r == .ember) then d.flareEnter r
  else if d.mode r = .regulate ∨ d.mode r = .ember then d.updRail r fun x => { x with blocked := x.blocked + 1 }
  else d

/-! ## Fault lines (R359 to R362) -/

/-- The fault source and the instance a line stands for. -/
def lineSrc (x : LineIx) : SrcIx := if x.val < 4 then srcExtFault (Fin.ofNat 4 x.val) else srcCardFault (Fin.ofNat 8 (x.val - 4))

def FLine.asserted (l : FLine) : Bool := l.low || l.chatter

/-- The line is evaluated (R362). -/
def Dev.lineLive (d : Dev) (x : LineIx) : Bool := decide (x.val < 4) || d.cards[Fin.ofNat 8 (x.val - 4)].state == .qualified

/-- The causes of a line; none is examined in BOOT (R418). -/
def Dev.lineCauses (d : Dev) (x : LineIx) : Dev :=
  if d.sys.devState = .boot then d
  else
    let l := d.prot.lines[x]
    ((d.setCause (srcChatter x) 0 l.chatter).setCause (lineSrc x) 0 l.asserted).setCause (srcStuck x) 0 l.stuck

/-- What follows from a line's level and chatter: its assertion, its causes, and the end of STUCK (R359 to R361). -/
def Dev.lineUpdate (d : Dev) (x : LineIx) : Dev :=
  let on := d.prot.lines[x].asserted
  (d.updLine x fun l =>
    { l with assertSince := if on then some (l.assertSince.getD d.clk.now) else none, stuck := l.stuck && on }).lineCauses x

/-! ## Registers -/

/-- PROT by offset from 0x06_0000. -/
def Dev.readProt (d : Dev) (off : Nat) : Option Word :=
  let p := d.prot
  if off < 0x400 then
    let t := p.trips[Fin.ofNat 64 (off / 0x10)]
    match off % 0x10 with
    | 0x0 => some (bitAt t.polSup 31 ||| at' t.thrSup 16 ||| bitAt t.pol 15 ||| at' t.thr 0)
    | 0x4 => some (at' t.win 16 ||| at' t.n 0)
    | 0x8 => some (at' t.total 16 ||| at' t.count 8 ||| bitAt t.active 2 ||| bitAt t.cmp 1 ||| bitAt t.latch 0)
    | _ => none
  else if 0x800 ≤ off ∧ off < 0x900 then
    let w := p.wins[Fin.ofNat 8 ((off - 0x800) / 0x20)]
    match off % 0x20 with
    | 0x00 => some (at' w.uvBelow 0)
    | 0x04 => some (bitAt w.ovAct 24 ||| at' w.ovTh 0)
    | 0x08 => some (at' w.rtAbove 16 ||| at' w.rtBelow 0)
    | 0x0C => some (at' w.ovCode 16 ||| at' w.uvCode 0)
    | 0x10 => some (at' w.rtHiCode 16 ||| at' w.rtLoCode 0)
    | 0x14 => some (at' w.ovCount 24 ||| at' w.rtCount 16 ||| bitAt w.rtHi 3 ||| bitAt w.rtLo 2 ||| bitAt w.ov 1 ||| bitAt w.uv 0)
    | _ => none
  else
    let filt := fun (base : Nat) => (List.range 4).foldl (fun (v : Word) i => v ||| at' p.lines[Fin.ofNat 12 (base + i)].filt (8 * i)) 0
    let bits := fun (base n : Nat) (f : FLine → Bool) => (List.range n).foldl (fun (v : Word) i => v ||| bitAt (f p.lines[Fin.ofNat 12 (base + i)]) i) 0
    match off with
    | 0xC00 => some (at' p.discTime 0)
    | 0xC04 => some (at' p.stops 16 ||| bitAt p.restartOk 7 ||| bitAt p.cycled 6 ||| bitAt p.disc 5 ||| bitAt p.disagree 4 ||| bitAt p.stop 3 |||
        bitAt p.bStop 1 ||| bitAt p.aStop 0)
    | 0xC08 => some p.dtime
    | 0xD00 => some (filt 0)
    | 0xD04 => some (filt 4)
    | 0xD08 => some (filt 8)
    | 0xD0C => some (at' p.stuckTime 0)
    | 0xD10 => some ((bits 0 4 (·.chatter)) <<< 16 ||| (bits 0 4 (·.stuck)) <<< 8 ||| bits 0 4 FLine.asserted)
    | 0xD14 => some ((bits 4 8 (·.chatter)) <<< 16 ||| (bits 4 8 (·.stuck)) <<< 8 ||| bits 4 8 FLine.asserted)
    | _ => none

end Sys2Proof.Machine
end

