-- ==== Sys2Proof/Machine/FabOps.lean ====
section
/-! DEFINITION. The event fabric's task inputs (R300 to R303) and the LOOP and FAB registers of chapter 13. -/

namespace Sys2Proof.Machine

open Sys2Proof

def Dev.updFab (d : Dev) (f : Fabric → Fabric) : Dev := { d with loop := { d.loop with fab := f d.loop.fab } }

/-- Some OVERRUN bit is set. -/
def Fabric.anyOverrun (f : Fabric) : Bool :=
  f.ovrReg != 0 || f.ovrInj != 0 || f.ovrEnt.toList.any (· != 0) || f.ovrCtx != 0 || f.ovrSnap != 0

/-- TASK_OVERRUN follows the OVERRUN bits (R303). -/
def Dev.overrunCause (d : Dev) : Dev := d.setCause srcOverrun 0 d.loop.fab.anyOverrun

/-- The OVERRUN bit of a task input code is set. -/
def Fabric.setOverrun (f : Fabric) (dst : Nat) : Fabric :=
  let f := { f with ovrCount := f.ovrCount + 1 }
  if dst < 4 then { f with ovrReg := setBit f.ovrReg dst true }
  else if dst < 8 then { f with ovrInj := setBit f.ovrInj (dst - 4) true }
  else if 0x20 ≤ dst ∧ dst < 0xA0 then
    { f with ovrEnt := upd f.ovrEnt (Fin.ofNat 4 ((dst - 0x20) / 32)) fun w => setBit w ((dst - 0x20) % 32) true }
  else if 0x100 ≤ dst ∧ dst < 0x150 then { f with ovrCtx := setBit f.ovrCtx (dst - 0x100) true }
  else if 0x200 ≤ dst ∧ dst < 0x208 then { f with ovrSnap := setBit f.ovrSnap (dst - 0x200) true } else f

/-- An event is lost or merged (R300, R301). -/
def Dev.overrun (d : Dev) (dst : Nat) : Dev := ((d.updFab fun f => f.setOverrun dst).setsBit (.overrun dst)).overrunCause

/-- The task inputs reached in this LOOP_CLK cycle, and whether this one is among them; it joins them. -/
def Dev.reachInput (d : Dev) (dst : BitVec 16) : Bool × Dev :=
  let m := d.cycle
  let old := if d.loop.fab.cycle = m then d.loop.fab.reached else []
  let again := old.contains dst
  (again, d.updFab fun f => { f with cycle := m, reached := if again then old else old ++ [dst] })

/-- Counts, latches and OVERRUN bits return to 0 (R303). -/
def Dev.clearFabric (d : Dev) : Dev :=
  (d.updFab fun f => { ovrCount := f.ovrCount }).overrunCause

/-- A start of the context has been taken from its task input in this LOOP_CLK cycle (R302): such a start waits two cycles (R292). -/
def Dev.tookStart (d : Dev) (c : CtxIx) : Bool := d.loop.ctx[c].pending == some d.cycle

/-- One more start waits at CTX_START[c] (R300). The events of a cycle are counted before its start is taken, so one that has been taken
    in it still fills a place. -/
def Dev.holdCtx (d : Dev) (c : CtxIx) : Dev :=
  let h : Byte := d.loop.fab.ctxHeld[c]
  if 255 ≤ h.toNat + (if d.tookStart c then 1 else 0) then d.overrun (0x100 + c.val) else d.updFab fun f => { f with ctxHeld := f.ctxHeld.set c (h + 1) }

/-- A start reaches CTX_START[c] in Count mode (R302). -/
def Dev.countCtx (d : Dev) (c : CtxIx) : Dev :=
  let (d, ok) := d.startCtx c
  if ok then d else d.holdCtx c

/-! ## Registers -/

/-- LOOP and FAB by offset from 0x03_5000. -/
def Dev.readFab (d : Dev) (off : Nat) : Option Word :=
  let l := d.loop
  let f := l.fab
  if off < 0x30 then if off % 4 = 0 then some l.hist[Fin.ofNat 12 (off / 4)] else none
  else if off = 0x40 then some (at' l.qmax 8 ||| BitVec.ofNat 32 l.queue.length)
  else if off = 0x1000 then some (at' l.stabCtx 8 ||| at' l.stabSector 0)
  else if 0x1004 ≤ off ∧ off < 0x104C then
    if off % 4 != 0 then none
    else
      let c : CtxIx := Fin.ofNat 80 l.stabCtx.toNat
      match d.tile.cur.sectors[c][l.stabSector.toNat]? with
      | some s => some (if (d.topo c).enable then wordAt s.bytes (off - 0x1004) else 0)
      | none => some 0
  else if 0x2000 ≤ off ∧ off < 0x2140 then
    if off % 4 != 0 then none
    else
      let c : CtxIx := Fin.ofNat 80 ((off - 0x2000) / 4)
      let x := l.ctx[c]
      let eff := (x.sector.getD 0).val
      some (at' x.changes 24 ||| (BitVec.ofNat 32 x.slewLeft <<< 16) ||| bitAt (x.slewLeft != 0) 13 ||| bitAt x.noMatch 12 |||
        (BitVec.ofNat 32 d.tile.cur.sectors[c].length <<< 8) ||| (BitVec.ofNat 32 (match x.candidate with
          | some k => k.val
          | none => eff) <<< 4) ||| BitVec.ofNat 32 eff)
  else if 0x2200 ≤ off ∧ off < 0x2300 then
    let x := l.rails[Fin.ofNat 8 ((off - 0x2200) / 0x20)]
    match off % 0x20 with
    | 0x00 => some x.keyI
    | 0x04 => some (if x.vkHost then x.keyVHost else x.keyV)
    | 0x08 => some (bitAt x.vkHost 31 ||| at' x.vkAcc 0)
    | 0x0C => some x.vkScale
    | 0x10 => some (at' x.hoSteps 8 ||| at' x.sdwell 0)
    | 0x14 => some (at' x.ssMode 30 ||| at' x.duty0 0)
    | 0x18 => some x.iref
    | 0x1C => some (bitAt x.keyStale 1 ||| bitAt x.auxLim 0)
    | _ => none
  else match off with
    | 0x3000 => some (BitVec.ofNat 32 d.tile.cur.routes.length)
    | 0x3004 => some (at' f.ovrInj 4 ||| at' f.ovrReg 0)
    | 0x3008 => some f.ovrEnt[0]
    | 0x300C => some f.ovrEnt[1]
    | 0x3010 => some f.ovrEnt[2]
    | 0x3014 => some f.ovrEnt[3]
    | 0x3018 => some (f.ovrCtx.extractLsb' 0 32)
    | 0x301C => some (f.ovrCtx.extractLsb' 32 32)
    | 0x3020 => some ((f.ovrCtx.extractLsb' 64 16).setWidth 32)
    | 0x3024 => some (at' f.ovrSnap 0)
    | 0x3028 => some f.ovrCount
    | _ => none

end Sys2Proof.Machine
end

