-- ==== Sys2Proof/Machine/LeaveOps.lean ====
section
/-! DEFINITION. The Leave governor's scan (R519 to R524), leases (R516, R517), and the LEAVE, BANK and TEST registers. -/

namespace Sys2Proof.Machine

open Sys2Proof

/-- The resource of R519 that a request needs is busy. -/
def Leave.busy (l : Leave) (kind : LeaveKind) (target : Byte) : Bool := match kind with
  | .fgcal | .mram | .signature => l.grants.any fun g => g.kind == kind
  | .rotation | .selftest => l.grants.any fun g => g.kind == kind && g.target == target
  | .phaseStart =>
    decide (l.cardMax.toNat ≤ (l.grants.filter fun g => g.kind == kind && g.target.toNat / 8 == target.toNat / 8).length)

/-- The scan of R521 over the waiting requests: grants in queue order, passing over busy resources, stopping at the first that
    does not fit the budget. -/
def Leave.scan (l : Leave) : List LeaveReq → Leave × List LeaveReq
  | [] => (l, [])
  | q :: rest =>
    if l.busy q.kind q.target then l.scan rest
    else if l.budget.toNat < l.inUse + q.kind.cost then (l, [])
    else
      let l' : Leave := { l with queue := l.queue.erase q, grants := l.grants ++ [{ kind := q.kind, target := q.target }], cnt := upd l.cnt q.kind.ix fun c => { c with granted := c.granted + 1 } }
      let (l'', gs) := l'.scan rest
      (l'', q :: gs)

/-- The governor grants nothing: in BOOT, on the backup oscillator, during a full BIST (R524). -/
def Dev.noGrants (d : Dev) : Bool := d.sys.devState == .boot || d.clk.onBackup || d.test.bist.isSome

/-- A request has waited the MAXWAIT of its kind (R522). -/
def Leave.overdue (l : Leave) (now : Tick) (q : LeaveReq) : Bool :=
  decide (q.arrival + (l.cnt[q.kind.ix]).maxwait.toNat * msTicks ≤ now)

/-! ## Leases (R516, R517) -/

/-- A lease on bank 3 ends by expiry or revocation. -/
def Dev.endLease (d : Dev) (revoked : Bool) : Dev :=
  if d.banks.leaseSince.isNone then d
  else
    let b := d.banks
    { d with banks := { b with leaseSince := none, pauseUntil := d.clk.now + 480, redo := true, expiries := if revoked then b.expiries else upd b.expiries 3 (· + 1), revokes := if revoked then upd b.revokes 3 (· + 1) else b.revokes } }

/-! ## The shed-phase test (R526) -/

def Dev.updTest (d : Dev) (f : Test → Test) : Dev := { d with test := f d.test }

/-- The shed-phase test of a phase may run: it is a LOOP member of a rail in REGULATE, CHARGE or SUPPORT, and SHED is the only mask
    bit set (R526). -/
def Dev.phaseTestable (d : Dev) (n : PhaseIx) : Bool :=
  let m := d.pwm[n].mask
  d.isLoop n && (match d.phaseMode n with
    | some .regulate | some .charge | some .support => true
    | _ => false) && m.shed && !(m.unused || m.park || m.fail || m.card || m.ember || m.hmask)

/-- The shed-phase test ends with a result. -/
def Dev.endPhaseTest (d : Dev) (n : PhaseIx) (res : BitVec 4) : Dev :=
  ((d.withdrawLeave .selftest (phaseTarget n)).releaseLeave .selftest (phaseTarget n)).updTest fun t => { t with phase := none, phaseRes := res }

/-- The test is abandoned as soon as the phase may no longer be tested, its rail has left the mode in which it was accepted, or a
    Flare lifts its mask. -/
def Dev.checkPhaseTest (d : Dev) : Dev := match d.test.phase with
  | some (n, _) => if !d.phaseTestable n || d.phaseMode n != d.test.phaseIn || d.pwm[n].flareLift then d.endPhaseTest n 3 else d
  | none => d

/-! ## Registers -/

def LeaveKind.code (k : LeaveKind) : Nat := k.ix.val + 1

/-- The phase, quad or bank a target names. -/
def shownTarget (q : LeaveReq) : Byte := if q.kind = .selftest ∧ 0x40 ≤ q.target.toNat then q.target &&& 0x0F else q.target

def kindOfIx : Fin 6 → LeaveKind
  | 0 => .fgcal | 1 => .rotation | 2 => .mram | 3 => .signature | 4 => .selftest | 5 => .phaseStart

/-- LEAVE by offset from 0x00_2000. -/
def Dev.readLeave (d : Dev) (off : Nat) : Option Word :=
  let l := d.leave
  if 0x10 ≤ off ∧ off < 0x28 ∧ off % 4 = 0 then
    let k : Fin 6 := Fin.ofNat 6 ((off - 0x10) / 4)
    some (at' (l.cnt[k]).maxwait 16 ||| BitVec.ofNat 32 (kindOfIx k).cost)
  else if 0x30 ≤ off ∧ off < 0x48 ∧ off % 4 = 0 then
    let c := l.cnt[Fin.ofNat 6 ((off - 0x30) / 4)]
    some (at' c.granted 16 ||| at' c.refused 0)
  else match off with
    | 0x00 => some (at' l.cardMax 16 ||| at' l.budget 0)
    | 0x04 => some (at' (BitVec.ofNat 16 l.inUse) 16 ||| BitVec.ofNat 32 l.queue.length)
    | 0x08 => some (match l.queue with
        | q :: _ => at' (satN 16 ((d.clk.now - q.arrival) / msTicks)) 16 ||| at' (shownTarget q) 8 ||| BitVec.ofNat 32 q.kind.code
        | [] => 0)
    | 0x0C => some ((List.range 8).foldl (fun (v : Word) s =>
        v ||| at' (BitVec.ofNat 4 (l.grants.filter fun g => g.kind == .phaseStart && g.target.toNat / 8 == s).length) (4 * s)) 0)
    | _ => none

/-- A repair word: COL reads 0 where V is 0. -/
def repairWord (w : Word) : Word :=
  (if w.getLsbD 31 then w &&& 0x87FF0000 else 0) ||| (if w.getLsbD 15 then w &&& 0x87FF else 0)

/-- BANK by offset from 0x00_2800, TEST from 0x00_2900. -/
def Dev.readBank (d : Dev) (off : Nat) : Option Word :=
  if off < 0x40 then
    let b : Fin 4 := Fin.ofNat 4 (off / 0x10)
    let ra := Config.repairA b
    let rb := Config.repairB b
    let used := ([ra.getLsbD 31, ra.getLsbD 15, rb.getLsbD 31, rb.getLsbD 15].filter id).length
    let testing := match d.test.bank with
      | some (x, .running _) => x.toNat == b.val
      | _ => false
    match off % 0x10 with
    | 0x0 => some (at' d.banks.expiries[b] 24 ||| at' d.banks.revokes[b] 16 ||| (BitVec.ofNat 32 used <<< 2) ||| bitAt testing 1 |||
        bitAt (b == 3 && d.banks.leaseSince.isSome) 0)
    | 0x4 => some (repairWord ra)
    | 0x8 => some (repairWord rb)
    | _ => none
  else
    let t := d.test
    match off with
    | 0x100 => some 0
    | 0x104 => some (at' (BitVec.ofNat 6 t.selPhase.val) 8 ||| at' t.selBank 0)
    | 0x108 => some (at' t.failWord 18 ||| at' t.phaseRes 8 ||| at' t.bankRes 4 ||| bitAt t.bist.isSome 3 ||| bitAt t.phase.isSome 2 |||
        bitAt t.bank.isSome 1)
    | 0x10C => some (bitAt t.bistDone 4 ||| at' t.bistFailed 0)
    | _ => none

end Sys2Proof.Machine
end

