-- ==== Sys2Proof/Machine/LanternOps.lean ====
section
/-! DEFINITION. The Lantern beyond numbering (R428 to R437): what is readable, persistence, refills, the clear, snapshots as
    bytes, and the LOG registers. -/

namespace Sys2Proof.Machine

open Sys2Proof

/-! ## What is readable (R433) -/

/-- The readable record of a number: its RAM copy, or the persisted one. -/
def Lantern.find (l : Lantern) (seq : Nat) : Option Record :=
  match l.ram.find? fun r => r.seq == seq with
  | some r => some r
  | none => (l.store.find? fun x => x.2.seq == seq).map (·.2)

/-- The numbers of every readable record. -/
def Lantern.seqs (l : Lantern) : List Nat := l.ram.map (·.seq) ++ l.store.map fun x => x.2.seq

def minOf : List Nat → Nat
  | [] => 0
  | x :: xs => xs.foldl min x

/-- LOG.TAIL and LOG.HEAD. -/
def Lantern.tail (l : Lantern) : Nat := minOf l.seqs
def Lantern.head (l : Lantern) : Nat := l.seqs.foldl max 0

/-- LOG.PERS: the highest number below which every readable record is persisted. -/
def Lantern.pers (l : Lantern) : Nat := minOf (((l.ram.filter fun r => !r.persisted).map (·.seq)) ++ [l.next])

/-- The newest closed record's number; 0: none. -/
def Lantern.lastClosed (l : Lantern) : Nat := match l.newest with
  | some r => if r.isOpen then ((l.seqs.filter (· < r.seq)).foldl max 0) else r.seq
  | none => l.head

/-- The least element above or at a number. -/
def Lantern.nextSeq (l : Lantern) (start : Nat) : Option Nat :=
  match l.seqs.filter (start ≤ ·) with
  | [] => none
  | x :: xs => some (xs.foldl min x)

/-- The first `n` readable records from a number upward (R433). -/
def Lantern.readFrom (l : Lantern) : Nat → Nat → List Record
  | 0, _ => []
  | n + 1, start => match l.nextSeq start with
    | none => []
    | some s => match l.find s with
      | some r => r :: l.readFrom n (s + 1)
      | none => []

/-- The payload of a LOG_READ response (R471). -/
def Lantern.logRead (l : Lantern) (start max : Nat) : List Byte :=
  let rs := l.readFrom max start
  leBytes 6 l.tail ++ leBytes 6 l.head ++ [BitVec.ofNat 8 rs.length, 0, 0, 0] ++ rs.flatMap Record.bytes

/-! ## Persistence (R429, R430, R432) -/

/-- Closed records that wait for persistence. -/
def Lantern.waiting (l : Lantern) : List Record :=
  l.ram.filter fun r => !r.isOpen && !r.persisted && !l.droppedSeqs.contains r.seq

/-- The record persisted next: level L3 and above and CLEAR first. -/
def Lantern.nextOut (l : Lantern) : Option Record :=
  let w := l.waiting
  match w.find? fun r => decide (3 ≤ r.level.val) || r.code == 0x0002 with
  | some r => some r
  | none => w.head?

/-- The first slot from the write pointer onward that a level may take (R430). -/
def Lantern.findSlot (l : Lantern) (level : Fin 5) : Nat → Nat → Option Nat
  | 0, _ => none
  | fuel + 1, p => match l.store.find? fun x => x.1 == p with
    | none => some p
    | some x => if x.2.level ≤ level then some p else l.findSlot level fuel ((p + 1) % 32768)

/-- A staged snapshot moves to its MRAM slot. -/
def Lantern.moveSnap (l : Lantern) (serial : BitVec 16) : Lantern :=
  match (List.finRange 16).find? fun i => match l.staging[i] with
    | some s => s.serial == serial
    | none => false with
  | none => l
  | some i => match l.staging[i] with
    | none => l
    | some s => { l with staging := l.staging.set i none, snaps := (l.snaps.filter fun x => x.serial.toNat % 1024 != serial.toNat % 1024) ++ [s] }

/-- One row write completes, or its record is dropped from the store; the record's snapshot is written either way (assumption 90). -/
def Lantern.persist (l : Lantern) : Lantern :=
  match l.nextOut with
  | none => l
  | some r => match l.findSlot r.level 32768 l.writePtr with
    | none =>
      let l := { l with drops := upd l.drops r.level satInc, lostPend := satInc l.lostPend, droppedSeqs := l.droppedSeqs ++ [r.seq] }
      (r.snapRef.map l.moveSnap).getD l
    | some p =>
      let r' := { r with persisted := true, lost := l.lostPend }
      let l := { l with ram := l.ram.map fun x => if x.seq = r.seq then r' else x, store := (l.store.filter fun x => x.1 != p) ++ [(p, r')], torn := l.torn.filter (· != p), writePtr := (p + 1) % 32768, lostPend := 0 }
      (r.snapRef.map l.moveSnap).getD l

/-- A reset cuts the row write that is under way: the slot holds a damaged record, the pointer stands after it, and the record
    still waits (R118, R429). -/
def Lantern.tear (l : Lantern) : Lantern := match l.nextOut with
  | none => l
  | some r => match l.findSlot r.level 32768 l.writePtr with
    | none => l
    | some p => { l with store := l.store.filter fun x => x.1 != p, torn := l.torn.filter (· != p) ++ [p], writePtr := (p + 1) % 32768 }

/-! ## Refill (R426, R427) -/

/-- The refill interval in ticks. -/
def Lantern.refillEvery (l : Lantern) : Nat := 480000000 / max 1 l.rlRate.toNat

/-- One bucket at a refill tick: the token, and the SUPPRESS record it may pay for; a full bucket gains none and the record is due all the
    same, as no count waits for longer than two intervals (assumption 90). -/
def Dev.refillOne (d : Dev) (b : Bucket) : Dev :=
  let full := decide (d.lantern.rlDepth.toNat ≤ b.tokens)
  if b.suppressed != 0 && !b.recent then
    let d := { d with lantern := d.lantern.setBucket { b with suppressed := 0 } }
    d.note 0x0003 0 b.code.toNat (leBytes 4 b.suppressed.toNat)
  else { d with lantern := d.lantern.setBucket { b with tokens := if full then b.tokens else b.tokens + 1, recent := false } }

/-- A refill tick: every bucket that is not full gains a token. -/
def Dev.refill (d : Dev) : Dev :=
  let l := d.lantern
  l.buckets.foldl Dev.refillOne { d with lantern := { l with fullTokens := min l.rlDepth.toNat (l.fullTokens + 1) } }

/-- A lower depth cuts fuller buckets at once; a higher one leaves every bucket what it holds (R426). -/
def Lantern.setDepth (l : Lantern) (depth : Byte) : Lantern :=
  l.buckets.foldl (fun l b => l.setBucket { b with tokens := min b.tokens depth.toNat })
    { l with rlDepth := depth, fullTokens := min l.fullTokens depth.toNat }

/-! ## The clear (R436) -/

/-- The Lantern is cleared by an owner slot's token: the CLEAR record is numbered, becomes the first one and is persisted. -/
def Dev.clearLantern (d : Dev) (slot : Nat) : Dev :=
  let l := d.lantern.closeNewest
  let first := l.tail
  let last := l.head
  let n := l.seqs.eraseDups.length
  let (l, seq) := l.number { code := 0x0002, level := 1, source := slot, data := leBytes 6 first ++ leBytes 6 last ++ leBytes 4 n, ts := d.clk.now } d.clk
  let l := { l with ram := l.ram.filter fun r => r.seq == seq, store := [], torn := [], droppedSeqs := [], snaps := [], staging := Vector.replicate 16 none, floor := seq, clears := l.clears + 1 }
  ({ d with lantern := l.persist, cyc := { d.cyc with notes := 0 } } : Dev).alert seq true

/-! ## Snapshots as bytes (R432) -/

def Lantern.snapOf (l : Lantern) (serial : BitVec 16) : Option Snap := l.snaps.find? fun s => s.serial == serial

/-- Byte `o` of the staging range, of 128 bytes a slot. -/
def Lantern.stageByte (l : Lantern) (o : Nat) : Byte := byteAt (l.staged[Fin.ofNat 16 (o / 128)]) (o % 128)

/-! ## Registers -/

def lo32 (n : Nat) : Word := BitVec.ofNat 32 n
def hi16 (n : Nat) : Word := BitVec.ofNat 32 ((n >>> 32) % 65536)

/-- LOG by offset from 0x08_0000. -/
def Dev.readLog (d : Dev) (off : Nat) : Option Word :=
  let l := d.lantern.closeDue d.clk.now
  let sel := if l.selSeq = 0 then none else l.find l.selSeq
  let snap := l.snapSel.bind l.snapOf
  if 0x30 ≤ off ∧ off < 0x44 ∧ off % 4 = 0 then some l.drops[Fin.ofNat 5 ((off - 0x30) / 4)]
  else if 0x80 ≤ off ∧ off < 0xC0 ∧ off % 4 = 0 then some (match sel with
    | some r => wordAt r.bytes (off - 0x80)
    | none => 0)
  else if 0x100 ≤ off ∧ off < 0x180 ∧ off % 4 = 0 then some (match snap with
    | some s => wordAt s.bytes (off - 0x100)
    | none => 0)
  else match off with
    | 0x00 => some (lo32 l.head)
    | 0x04 => some (bitAt (match l.newest with
        | some r => r.isOpen
        | none => false) 31 ||| hi16 l.head)
    | 0x08 => some (lo32 l.tail)
    | 0x0C => some (hi16 l.tail)
    | 0x10 => some (lo32 l.pers)
    | 0x14 => some (hi16 l.pers)
    | 0x18 => some (l.newestClosed.extractLsb' 0 32)
    | 0x1C => some (l.newestClosed.extractLsb' 32 32)
    | 0x20 => some (at' l.repeatWin 0)
    | 0x24 => some (at' l.rlDepth 24 ||| at' l.rlRate 0)
    | 0x28 => some ((BitVec.ofNat 32 l.waiting.length <<< 16) ||| BitVec.ofNat 32 (l.staging.toList.filter Option.isSome).length)
    | 0x44 => some l.suppressed
    | 0x48 => some l.gaps
    | 0x4C => some l.clears
    | 0x50 => some (lo32 l.floor)
    | 0x54 => some (hi16 l.floor)
    | 0x58 => some (lo32 l.resv)
    | 0x5C => some (hi16 l.resv)
    | 0x60 => some l.rselLo
    | 0x64 => some (bitAt sel.isSome 31 ||| at' l.rselHi 0)
    | 0xC0 => some (bitAt snap.isSome 31 ||| at' (l.snapSel.getD 0) 0)
    | 0xC4 => some l.snapLost
    | _ => none

end Sys2Proof.Machine
end

