-- ==== Sys2Proof/Machine/SenseOps.lean ====
section
/-! DEFINITION. Sensing below the commands (R232 to R279): requests and passes, the service of a quad's queue, corrected codes,
    accumulators and trackers, slices and rotation, and the SENSE, SEQ, ACC, TRK and CAL registers. -/

namespace Sys2Proof.Machine

open Sys2Proof

/-! ## The running sequence (R147, R148) -/

def Dev.seqOf (d : Dev) (q : QuadIx) : SeqEnt := (d.tile.cur.seqs[q]).getD {}

def SeqEnt.entry (x : SeqEnt) (e : Nat) : Option SeqEntry := if e < 32 then x.reg[e]? else x.inj[e - 32]?

/-- Entries of a class; the first entry number of a class. -/
def SeqEnt.count (x : SeqEnt) (inj : Bool) : Nat := if inj then x.inj.length else x.reg.length
def seqBase (inj : Bool) : Nat := if inj then 32 else 0

/-- Accumulators and trackers bound to an entry. -/
def boundTo {n : Nat} (v : Vector (Option Bind) n) (q : QuadIx) (e : Nat) : List (Fin n) :=
  (List.finRange n).filter fun k => match v[k] with
    | some b => b.quad == q && b.entry.val == e
    | none => false

/-- R of an interleaved entry (R237). -/
def Dev.runLen (d : Dev) (q : QuadIx) (e : Nat) (group : Nat) : Nat :=
  let n := ((boundTo d.tile.cur.accs q e).map fun k => match d.tile.cur.accs[k] with
    | some b => b.n.toNat
    | none => 0).foldl max 0
  if n = 0 then group else (n + group - 1) / group * group

/-- The input an entry converts. -/
inductive Source where
  | isns (n : PhaseIx) | aux (k : Fin 4) | vsns (r : RailIx) | none
  deriving DecidableEq, Repr

def sourceOf (q : QuadIx) (input : Byte) : Source :=
  let i := input.toNat
  if i < 16 then .isns (Fin.ofNat 64 (16 * q.val + i))
  else if i < 20 then .aux (Fin.ofNat 4 (i - 16))
  else if 32 ≤ i ∧ i < 40 then .vsns (Fin.ofNat 8 (i - 32)) else .none

/-- The calibration entry of a source (R252). -/
def calEntry (q : QuadIx) : Source → CalIx
  | .isns n => Fin.ofNat 112 n.val
  | .vsns r => Fin.ofNat 112 (64 + r.val)
  | .aux k => Fin.ofNat 112 (72 + 4 * q.val + k.val)
  | .none => 111

/-! ## Corrected codes (R239, R241, R247) -/

/-- A slice's coefficients: offset and gain, of the low-power or of the full-rate set. -/
def Slice.coef (s : Slice) (low : Bool) : Int × Int :=
  if low then (s.osLow.toInt, s.gsLow.toInt) else (s.osFull.toInt, s.gsFull.toInt)

/-- The low-power set is in use at an instant: in low-power mode, and for 20 µs after it (R241, R247). -/
def Quad.lowAt (x : Quad) (at_ : Tick) : Bool :=
  decide (x.lpFrom ≤ at_) && (x.lowPower || decide (at_ < x.lpUntil)) || x.lows.any fun y => decide (y.1 ≤ at_) && decide (at_ < y.2)

/-- The mode is entered: an interval of the low-power set that goes on, or a new one; the past ones that a conversion under way has
    sampled in stay known (R241). -/
def Quad.beginLow (x : Quad) (now : Tick) : Quad :=
  let past := if now < x.lpUntil then x.lows else (x.lpFrom, x.lpUntil) :: x.lows
  { x with lowPower := true, lpFrom := if now < x.lpUntil then x.lpFrom else now, lows := past.filter fun y => x.convs.any fun c => decide (c.sampleAt < y.2) }

/-- The coefficients in use for a sample at its instant. -/
def Quad.coef (x : Quad) (i : Fin 5) (at_ : Tick) : Int × Int := x.slices[i].coef (x.lowAt at_)

/-- u of R239 in units of 2^-24 code. -/
def uOf (raw os gs : Int) (isns : Bool) : Int := (16 * raw - os) * (2 ^ 20 + gs) + (if isns then 0 else 8192 * 2 ^ 24)

/-- The corrected code, and whether it was forced to an end of its range. -/
def codeOf (raw os gs osI gsI : Int) (isns : Bool) : Int × Bool :=
  let num := (uOf raw os gs isns - osI * 2 ^ 20) * (2 ^ 18 + gsI)
  let c := rhe num (2 ^ 42)
  let (lo, hi) : Int × Int := if isns then (-8192, 8191) else (0, 16383)
  (clampI lo hi c, decide (c < lo ∨ hi < c))

/-! ## Accumulators and trackers (R267 to R274) -/

/-- A result completes (R268, R269). -/
def Acc.complete (a : Acc) (sum : Int) (valid : Nat) (t : Tick) (tb : Nat) : Acc :=
  let w := BitVec.ofInt 32 sum
  let v := BitVec.ofNat 13 valid
  { a with sum := w, valid := v, results := a.results + 1, ts := tb, pSum := 0, pValid := 0, pCount := 0, history := if valid = 0 then a.history else ({ sum := w, valid := v, at_ := t } :: a.history).take 16 }

/-- One conversion of a single-conversion entry is offered. -/
def Acc.offerOne (a : Acc) (n : Nat) (code : Option Int) (t : Tick) (tb : Nat) : Acc :=
  let sum := a.pSum + code.getD 0
  let valid := a.pValid + (if code.isSome then 1 else 0)
  if n ≤ a.pCount + 1 then a.complete sum valid t tb else { a with pSum := sum, pValid := valid, pCount := a.pCount + 1 }

/-- A run is offered: its first N samples complete one result. -/
def Acc.offerRun (a : Acc) (n : Nat) (codes : List (Option Int)) (t : Tick) (tb : Nat) : Acc :=
  let xs := (codes.take n).filterMap id
  a.complete xs.sum xs.length t tb

/-- A tracker takes one valid code. -/
def TrkWin.take (w : TrkWin) (code : Int) (t : Tick) : TrkWin :=
  let c := BitVec.ofInt 16 code
  let w := if w.count = 0 ∨ code < w.min.toInt then { w with min := c, tMin := BitVec.ofNat 32 t } else w
  let w := if w.count = 0 ∨ w.max.toInt < code then { w with max := c, tMax := BitVec.ofNat 32 t } else w
  { w with count := satInc w.count }

def TrkWin.takeAll (w : TrkWin) (xs : List (Option Int × Tick)) : TrkWin :=
  xs.foldl (fun w x => match x.1 with
    | some c => w.take c x.2
    | none => w) w

def Dev.updAcc (d : Dev) (k : AccIx) (f : Acc → Acc) : Dev := { d with sense := { d.sense with accs := upd d.sense.accs k f } }
def Dev.updTrk (d : Dev) (k : TrkIx) (f : Trk → Trk) : Dev := { d with sense := { d.sense with trks := upd d.sense.trks k f } }

/-- Codes of an entry reach its bound results; `none` is an invalid sample. Each sample carries the tick of its instant. -/
def Dev.offer (d : Dev) (q : QuadIx) (e : Nat) (run : Bool) (xs : List (Option Int × Tick)) : Dev :=
  let now := d.clk.now
  let d := (boundTo d.tile.cur.accs q e).foldl (fun d k =>
    let n := match d.tile.cur.accs[k] with
      | some b => b.n.toNat
      | none => 1
    d.updAcc k fun a =>
      if run then a.offerRun n (xs.map (·.1)) now d.tb
      else a.offerOne n (match xs with
        | x :: _ => x.1
        | [] => none) now d.tb) d
  (boundTo d.tile.cur.trks q e).foldl (fun d k =>
    let ys := xs.map fun x => (x.1, d.clk.tbAt x.2)
    let was := d.cyc.trkWas
    let d := { d with cyc := { d.cyc with trkWas := if was.any fun p => p.1 == k then was else was ++ [(k, d.sense.trks[k].cur)], trkOffers := d.cyc.trkOffers ++ [(k, ys)] } }
    d.updTrk k fun t => { t with cur := t.cur.takeAll ys }) d

/-- A window closes, once in a cycle: the codes offered earlier in the cycle belong to the new one (R273). -/
def Dev.closeTrk (d : Dev) (k : TrkIx) : Dev :=
  if d.cyc.trkClosed.getLsbD k.val then d
  else
    let ys := (d.cyc.trkOffers.filter fun p => p.1 == k).flatMap (·.2)
    let was := d.cyc.trkWas.find? fun p => p.1 == k
    let d := { d with cyc := { d.cyc with trkClosed := setBit d.cyc.trkClosed k.val true } }
    d.updTrk k fun t =>
      { t with last := (was.map (·.2)).getD t.cur, cur := ({} : TrkWin).takeAll ys, opened := d.clk.now }

/-- An entry's conversion is offered as invalid (R238, R260). -/
def Dev.offerInvalid (d : Dev) (q : QuadIx) (e : Nat) : Dev :=
  let run := match (d.seqOf q).entry e with
    | some x => x.slices != 0
    | none => false
  d.offer q e run [(none, d.clk.now)]

/-! ## Sensor integrity (R276 to R278) -/

/-- One ISNS conversion whose validity the common-mode check decided (R277). -/
def Dev.countCm (d : Dev) (n : PhaseIx) (ok : Bool) : Dev :=
  let bad := d.sense.cmBad.getLsbD n.val
  let run := if ok == bad then d.sense.cmRun[n] + 1 else 0
  if 4 ≤ run then
    { d with sense := { d.sense with cmRun := d.sense.cmRun.set n 0, cmBad := setBit d.sense.cmBad n.val (!bad) } }.setCause
      srcIsnsCm n (!bad)
  else { d with sense := { d.sense with cmRun := d.sense.cmRun.set n run } }

/-- One conversion of an AUX input with BURNOUT: whether its code is valid, and the open flag's count (R278). -/
def Dev.countOpen (d : Dev) (q : QuadIx) (k : Fin 4) (code : Int) : Bool × Dev :=
  let i : Fin 16 := Fin.ofNat 16 (4 * q.val + k.val)
  let opn := d.sense.auxOpen.getLsbD i.val
  let beyond := if opn then decide (code ≤ 16000) else decide (16300 ≤ code)
  let run := if beyond then d.sense.auxRun[i] + 1 else 0
  if 2 ≤ run then
    let d := { d with sense := { d.sense with auxRun := d.sense.auxRun.set i 0, auxOpen := setBit d.sense.auxOpen i.val (!opn) } }
    (opn, d.setCause (srcAuxOpen q k) 0 (!opn))
  else (!opn && !beyond, { d with sense := { d.sense with auxRun := d.sense.auxRun.set i run } })

/-! ## Passes (R261 to R265) -/

/-- An injected pass holds priority: its request still waits in the queue (R263). -/
def Quad.injPrio (x : Quad) : Bool := x.injPass.isSome && x.queue.any fun r => r.inj && r.kind == .pass

def Quad.pass (x : Quad) (inj : Bool) : Option (Fin 40) := if inj then x.injPass else x.regPass
def Quad.setPass (x : Quad) (inj : Bool) (e : Option (Fin 40)) : Quad := if inj then { x with injPass := e } else { x with regPass := e }

/-- A request is dropped at a full queue (R258). -/
def Dev.dropFull (d : Dev) (q : QuadIx) : Dev :=
  (d.updQuad q fun x => { x with dropFull := x.dropFull + 1 }).raiseEvent (srcSeqMiss q) 0

/-- A pass stands at its entry of index `i`: the entry is requested with start tick `now`, or the pass ends and a pending start begins
    the next (R261, R262, R265). `fuel` bounds the entries one call can pass over. -/
def Dev.runPass (d : Dev) (q : QuadIx) (inj : Bool) (i : Nat) (now : Tick) : Nat → Dev
  | 0 => d
  | fuel + 1 =>
    let x := d.sense.quads[q]
    if i < (d.seqOf q).count inj then
      let e : Fin 40 := Fin.ofNat 40 (seqBase inj + i)
      if !inj && x.injPrio then d.updQuad q fun x => { x with regPass := some e, regHeld := true }
      else
        let d := d.updQuad q fun x => x.setPass inj (some e)
        if 16 ≤ x.queue.length then (d.dropFull q).runPass q inj (i + 1) now fuel
        else d.updQuad q fun x => { x with queue := x.queue ++ [{ entry := e, inj := inj, kind := .pass, tick := now, waitFrom := now }] }
    else
      let pend := if inj then x.injPend else x.regPend
      let d := d.updQuad q fun x => if inj then { x with injPass := none, injPend := false, passesInj := x.passesInj + 1 }
        else { x with regPass := none, regPend := false, passesReg := x.passesReg + 1 }
      let d := d.event ((if inj then 0x0104 else 0x0100) + q.val)
      if pend then d.runPass q inj 0 d.clk.now fuel else d

/-- The injected pass may have released its priority: the held request of the regular pass is put, and aborted runs begin to
    wait (R263, R264). -/
def Dev.releaseInj (d : Dev) (q : QuadIx) : Dev :=
  let x := d.sense.quads[q]
  if x.injPrio then d
  else
    let d := d.updQuad q fun x => { x with queue := x.queue.map fun r =>
      if r.waitHeld then { r with waitHeld := false, waitFrom := d.clk.now } else r }
    match x.regHeld, x.regPass with
    | true, some e => (d.updQuad q fun x => { x with regHeld := false }).runPass q false e.val d.clk.now 80
    | _, _ => d

/-- A pass request of entry `e` is settled: the pass goes on to the next entry; after its last entry it ends at once unless
    that entry samples (R261, R265). -/
def Dev.settleReq (d : Dev) (q : QuadIx) (r : Req) (samples : Bool) : Dev :=
  if r.kind != .pass then d
  else
    let i := r.entry.val - seqBase r.inj + 1
    let d := if samples && decide ((d.seqOf q).count r.inj ≤ i) then d else d.runPass q r.inj i d.clk.now 80
    if r.inj then d.releaseInj q else d

/-- A start of a pass, of the given tick (R261, R262, R299). -/
def Dev.startPass (d : Dev) (q : QuadIx) (inj : Bool) (at_ : Tick) : Dev :=
  let x := d.sense.quads[q]
  if (x.pass inj).isNone then
    let d := d.runPass q inj 0 at_ 80
    if inj then d.releaseInj q else d
  else if (if inj then x.injPend else x.regPend) then d.updQuad q fun x => { x with passOvr := x.passOvr + 1 }
  else d.updQuad q fun x => if inj then { x with injPend := true } else { x with regPend := true }

/-- A start at SEQ_ENT[q][e] (R256, R258). -/
def Dev.startEntry (d : Dev) (q : QuadIx) (e : Fin 32) (now : Tick) : Dev :=
  let x := d.sense.quads[q]
  if ((d.seqOf q).entry e.val).isNone then d.updQuad q fun x => { x with dropFull := x.dropFull + 1 }
  else if 16 ≤ x.queue.length then d.dropFull q
  else d.updQuad q fun x => { x with queue := x.queue ++ [{ entry := Fin.ofNat 40 e.val, inj := false, kind := .ent, tick := now, waitFrom := now }] }

/-! ## Service of the queue (R236 to R238, R247, R259, R263, R264) -/

/-- Every quad converts nothing: a foreground calibration waits or runs (R248). -/
def Dev.converting (d : Dev) : Bool := !(d.sense.op == .fgcal && d.sense.stage.isSome)

/-- Slots that hold a slice. -/
def Quad.served (x : Quad) : List (Fin 4) := (List.finRange 4).filter fun j => (x.slots[j]).isSome

/-- Slots a conversion in progress still holds. -/
def Quad.busy (x : Quad) (now : Tick) (j : Fin 4) : Bool := x.convs.any fun c => c.slots.contains j && decide (now < c.slotsFree)

/-- The slots an entry's run is converted on (R237, R238, R247). -/
def Quad.group (x : Quad) (slices : Byte) : List (Fin 4) :=
  let s := x.served
  let full := if slices = 2 && decide (s.length = 4) then s else if 2 ≤ s.length then s.take 2 else s
  if x.lowPower then full.take 1 else full

/-- The order of service (R259): class, start tick, entry; the sort keeps the order of arrival. -/
def Req.before (a b : Req) : Bool :=
  if a.inj != b.inj then a.inj
  else if a.tick ≠ b.tick then decide (a.tick < b.tick) else decide (a.entry.val ≤ b.entry.val)

def insertReq (r : Req) : List Req → List Req
  | [] => [r]
  | y :: ys => if r.before y then r :: y :: ys else y :: insertReq r ys

def sortReqs (xs : List Req) : List Req := xs.foldr insertReq []

/-- The conversion of an entry that request `r` begins on `slots`. A run in low-power mode, whose samples one slot takes, is not degraded by
    fewer slots (R238, R247; DESIGN CHOICE, assumption 110). -/
def Dev.convOf (d : Dev) (q : QuadIx) (r : Req) (slots : List (Fin 4)) (e : SeqEntry) : Conv :=
  let x := d.sense.quads[q]
  let now := d.clk.now
  let slices := e.slices
  let run := slices != 0
  let count := if run then d.runLen q r.entry.val (if slices = 1 then 2 else 4) else 1
  let g := slots.length
  let step2 := if x.lowPower then 96 else if g = 4 then 3 else if g = 2 then 6 else 12
  let last := if run then step2 * (count - 1) / 2 else 0
  let cyc := if x.lowPower then 48 else 6
  let tail := if x.lowPower then 66 else 18
  { req := r, slots := slots, slices := slots.filterMap fun j => x.slots[j], sampleAt := now, slotsFree := now + cyc * ((count + g - 1) / (max 1 g)), ready := now + (last + tail + 5) / 6 * 6, count := count, interleaved := run, step2 := step2, ent := e, low := x.lowPower, degraded := run && !x.lowPower && decide (g < if slices = 1 then 2 else 4) }

/-- The instant of sample `i` of a conversion (R237, R238, R247). -/
def Conv.instant (c : Conv) (i : Nat) : Tick := match c.slow with
  | some k => if i < k then c.sampleAt + 48 * i else c.sampleAt + 48 * k + 6 * (i - k)
  | none => c.sampleAt + c.step2 * i / 2

/-- Low-power mode is left while a run of its pace goes on: the samples still to come follow at full rate on its slot, from the end of
    the one in progress (R247; DEDUCED, assumption 96). -/
def Conv.quicken (c : Conv) (now : Tick) : Conv :=
  if !c.interleaved || !c.low || c.slow.isSome then c
  else
    let k := min c.count ((now - c.sampleAt) / 48 + 1)
    let free := c.sampleAt + 48 * k + 6 * (c.count - k)
    { c with slow := some k, slotsFree := free, ready := if k = c.count then c.ready else free + 12 }

/-- A regular interleaved run is aborted and goes back to the front of the queue, before equal requests that arrived after it
    (R259, R263, R264). A regular pass stands at the run's entry again, whatever it or a later pass had reached (DESIGN CHOICE,
    assumption 97). A full queue takes it back too and then holds 17 requests (R258; DESIGN CHOICE, assumption 110). -/
def Dev.abortRun (d : Dev) (q : QuadIx) (c : Conv) : Dev :=
  let pass := c.req.kind == .pass
  d.updQuad q fun x =>
    { x with convs := x.convs.erase c, aborts := x.aborts + 1, regPass := if pass then some c.req.entry else x.regPass, regHeld := if pass then false else x.regHeld, rotFrom := max x.rotFrom d.clk.now, queue := { c.req with waitHeld := true } :: if pass then x.queue.filter (fun r => r.inj || r.kind != .pass) else x.queue }

/-- A crossbar port to which no rail is assigned converts nothing: a VSNS entry of a quad that is not its rail's HOME_QUAD (R234). -/
def Dev.noPort (d : Dev) (q : QuadIx) (input : Byte) : Bool := match sourceOf q input with
  | .vsns r => !d.railDefined r || (d.railEnt r).homeQuad != q
  | _ => false

/-- A request of the queue begins, or reserves the slots it waits for. `taken` are slots reserved by requests of higher
    priority; the answer adds to them. -/
def Dev.serveReq (d : Dev) (q : QuadIx) (taken : BitVec 4) (r : Req) : Dev × BitVec 4 :=
  let x := d.sense.quads[q]
  let now := d.clk.now
  match (d.seqOf q).entry r.entry.val with
  | none => (d, taken)
  | some e =>
    if !x.queue.contains r || decide (now < r.tick + 2) then (d, taken)
    else if x.served.isEmpty || !d.converting || d.noPort q e.input then
      let d := d.updQuad q fun x => { x with queue := x.queue.erase r }
      let d := (d.offerInvalid q r.entry.val).event (0x0200 + 0x40 * q.val + r.entry.val)
      (d.settleReq q r false, taken)
    else
      let need := if e.slices = 0 then [] else x.group e.slices
      let free := fun (x : Quad) (j : Fin 4) => (x.slots[j]).isSome && !x.busy now j && !taken.getLsbD j.val
      let hard := fun (j : Fin 4) => (x.slots[j]).isSome && !taken.getLsbD j.val
      let holder := fun (j : Fin 4) => x.convs.find? fun c => c.interleaved && !c.req.inj && c.slots.contains j && decide (now < c.slotsFree)
      let wanted := if e.slices = 0 then (if (x.served.any fun j => free x j) then [] else ((x.served.filter fun j => hard j && (holder j).isSome).take 1)) else need
      let d := if r.inj then wanted.foldl (fun d j => match holder j with
          | some c => if d.sense.quads[q].convs.contains c then d.abortRun q c else d
          | none => d) d else d
      let x := d.sense.quads[q]
      let slots := if e.slices = 0 then (x.served.filter (free x)).take 1 else need
      if !slots.isEmpty && slots.all (free x) then
        let c := d.convOf q r slots e
        let d := d.updQuad q fun x => { x with queue := x.queue.erase r, convs := x.convs ++ [c] }
        (d.settleReq q r true, taken)
      else (d, need.foldl (fun t j => setBit t j.val true) taken)

/-- QSTAT.DEGRADED is 1 while a degraded run goes on (R238). -/
def Dev.markDegraded (d : Dev) (q : QuadIx) : Dev := d.updQuad q fun x => { x with degraded := x.convs.any (·.degraded) }

/-- Requests of one class are served in their order. -/
def Dev.serveClass (d : Dev) (q : QuadIx) (inj : Bool) (taken : BitVec 4) : Dev × BitVec 4 :=
  (sortReqs (d.sense.quads[q].queue.filter fun r => r.inj == inj)).foldl (fun (a : Dev × BitVec 4) r => a.1.serveReq q a.2 r) (d, taken)

/-- A regular interleaved run reserves slots, or begins at this edge: it is eligible, and neither overdue nor settled as invalid (R259,
    R260, R266). -/
def Dev.regReserves (d : Dev) (q : QuadIx) : Bool :=
  let x := d.sense.quads[q]
  d.converting && !x.served.isEmpty && x.queue.any fun r =>
    !r.inj && decide (r.tick + 2 ≤ d.clk.now) && (r.waitHeld || decide (d.clk.now < r.waitFrom + 480)) && match (d.seqOf q).entry r.entry.val with
      | some e => e.slices != 0 && !d.noPort q e.input
      | none => false

/-- The queue at one SLICE_CLK edge of a quad: injected requests, then the regular ones, a run aborted at this edge among them (R259,
    R264). -/
def Dev.serveEdge (d : Dev) (q : QuadIx) : Dev :=
  let (d, inj) := d.serveClass q true 0
  (d.serveClass q false inj).1.markDegraded q

/-- Requests that have waited 480 ticks are discarded (R260). -/
def Dev.discardLate (d : Dev) (q : QuadIx) : Dev :=
  let late := (sortReqs d.sense.quads[q].queue).filter fun r => !r.waitHeld && decide (r.waitFrom + 480 ≤ d.clk.now)
  late.foldl (fun d r =>
    if !d.sense.quads[q].queue.contains r then d
    else
      let d := d.updQuad q fun x => { x with queue := x.queue.erase r, dropLate := x.dropLate + 1 }
      let d := (d.raiseEvent (srcSeqMiss q) 0).offerInvalid q r.entry.val
      (d.eventAt (0x0200 + 0x40 * q.val + r.entry.val) d.cycleTick).settleReq q r false) d

/-- Offset and gain of the input for a sample of a conversion: those that stood at its instant (R252). -/
def Dev.calAt (d : Dev) (q : QuadIx) (c : Conv) (at_ : Tick) : Int × Int := match c.cals.find? fun x => decide (at_ ≤ x.1) with
  | some x => x.2
  | none => d.calOf (calEntry q (sourceOf q c.ent.input))

/-- One sample of a conversion, taken at `at_`, as a code; `none` is invalid. -/
def Dev.sampleCode (d : Dev) (q : QuadIx) (c : Conv) (i : Nat) (at_ : Tick) (s : Sample) : Option Int × Dev :=
  let x := d.sense.quads[q]
  let e := c.ent
  let src := sourceOf q e.input
  let isns := match src with
    | .isns _ => true
    | _ => false
  let sl := c.slices.getD (i % max 1 c.slices.length) 0
  let (os, gs) := x.coef sl at_
  let (oi, gi) := d.calAt q c at_
  let (code, clip) := codeOf s.raw os gs oi gi isns
  let d := if clip && !c.lost then d.updQuad q fun x => { x with clips := x.clips + 1 } else d
  match src with
  | .isns n => if c.lost then (none, d) else (if s.cmOk then some code else none, d.countCm n s.cmOk)
  | .aux k => if c.lost then (none, d) else if e.eflags.getLsbD 0 then
      let (ok, d) := d.countOpen q k code
      (if ok then some code else none, d)
    else (some code, d)
  | _ => (if c.lost then none else some code, d)

/-- The codes of a conversion, each with the tick of its instant. -/
def Dev.codesOf (d : Dev) (q : QuadIx) (c : Conv) (xs : List Sample) : List (Option Int × Tick) × Dev :=
  (List.range c.count).foldl (fun (a : List (Option Int × Tick) × Dev) i =>
    let at_ := c.instant i
    match xs[i]? with
    | some s =>
      let (v, d) := a.2.sampleCode q c i at_ s
      (a.1 ++ [(v, at_)], d)
    | none => (a.1 ++ [(none, at_)], a.2)) ([], d)

/-! ## Timing skew (R244) -/

/-- A trim moves by one step of 0.5 ps towards zero error, and stays while the error is under 0.5 ps. -/
def stepTrim (trim : Byte) (err : Int) : Byte :=
  if err.natAbs < 2 ^ 15 then trim
  else BitVec.ofInt 8 (clampI (-128) 127 (trim.toInt + if 0 < err then -1 else 1))

/-- One slot of a run's group: its estimate, and after 65 536 run samples a step of its slice's trim. The error a run shows is a free
    value; a run whose input does not change leaves the estimate where it was. -/
def Dev.skewSlot (d : Dev) (q : QuadIx) (samples : Nat) (changes : Bool) (j : Fin 4) (i : Fin 5) : Dev :=
  let (w, d) := if changes then d.fresh else (0, d)
  d.updQuad q fun x =>
    let err : Int := if changes then w.toInt else x.skewErr[j]
    let n := x.skewRuns[j] + samples
    let full := decide (65536 ≤ n)
    { x with skewErr := x.skewErr.set j err, skewRuns := x.skewRuns.set j (if full then n - 65536 else n), slices := if full then upd x.slices i fun s => { s with skew := stepTrim s.skew err } else x.slices }

/-- A run is correlated for every slot of its group but the lowest-numbered one, the timing reference. Its input has not changed where all
    its raw codes are equal (DESIGN CHOICE, assumption 96). -/
def Dev.skewRun (d : Dev) (q : QuadIx) (c : Conv) (xs : List Sample) : Dev :=
  if !c.interleaved || c.lost then d
  else
    let changes := xs.any fun s => xs.any fun t => s.raw != t.raw
    ((c.slots.zip c.slices).drop 1).foldl (fun d p => d.skewSlot q (c.count / c.slots.length) changes p.1 p.2) d

/-- The codes of a conversion are ready (R236, R237, R265): those of the entry it began with, offered to what is bound to its number now
    (DESIGN CHOICE, assumption 97). A pass that stands at it ends, or goes on where a step has added entries. -/
def Dev.codesReady (d : Dev) (q : QuadIx) (c : Conv) (xs : List Sample) : Dev :=
  let d := (d.updQuad q fun x => { x with convs := x.convs.erase c }).markDegraded q
  let (codes, d) := d.codesOf q c xs
  let d := (d.skewRun q c xs).offer q c.req.entry.val c.interleaved codes
  let d := d.event (0x0200 + 0x40 * q.val + c.req.entry.val)
  let x := d.sense.quads[q]
  if c.req.kind == .pass && x.pass c.req.inj == some c.req.entry && (c.req.inj || !x.regHeld) &&
      !(x.queue.any fun r => r.inj == c.req.inj && r.kind == .pass) then
    d.runPass q c.req.inj (c.req.entry.val - seqBase c.req.inj + 1) d.clk.now 80
  else d

/-! ## Slices (R240 to R249) -/

def rotTarget (q : QuadIx) : Byte := BitVec.ofNat 8 q.val
/-- Targets of kind 5: phases 0 to 63, quads from 0x40, banks from 0x50. -/
def quadTestTarget (q : QuadIx) : Byte := BitVec.ofNat 8 (0x40 + q.val)
def bankTestTarget (b : BitVec 2) : Byte := BitVec.ofNat 8 (0x50 + b.toNat)

def Slice.setCoef (s : Slice) (low : Bool) (os gs : BitVec 16) (now : Tick) : Slice :=
  if low then { s with osLow := os, gsLow := gs, measLow := now } else { s with osFull := os, gsFull := gs, measFull := now }

def Slice.measAt (s : Slice) (low : Bool) : Tick := if low then s.measLow else s.measFull

/-- What a measurement finds: offset and gain, or the failed check (R240, R245): 1 range, 2 spread, which is named where both fail (DESIGN
    CHOICE, assumption 96). -/
def SliceMeas.result (m : SliceMeas) : Except Byte (BitVec 16 × BitVec 16) :=
  let os := rhe m.sum0 256
  let span := m.sum1 - m.sum0
  if 32 < m.span0 ∨ 32 < m.span1 then .error 2
  else if span ≤ 0 then .error 1
  else
    let gs := rhe (2 ^ 20 * (31457280 - span)) span.toNat
    if 1024 < os.natAbs ∨ 983 < gs.natAbs then .error 1 else .ok (BitVec.ofInt 16 os, BitVec.ofInt 16 gs)

/-- A slice enters FAILED (R245): the fault's detail names the slice and the check. -/
def Dev.failSlice (d : Dev) (q : QuadIx) (i : Fin 5) (check : Byte) : Dev :=
  (d.updQuad q fun x => { x with slices := upd x.slices i fun s => { s with st := .failed } }).raiseEvent (srcSliceFail q) 0
    [BitVec.ofNat 8 i.val, check]

/-- QUAD_DEGRADED (R246, R402). -/
def Dev.degradedCause (d : Dev) (q : QuadIx) : Dev :=
  d.setCause (srcDegraded q) 0 ((List.finRange 4).any fun j => (d.sense.quads[q].slots[j]).isNone)

/-- Some slice in service has coefficients older than 100 ms (R243). -/
def Dev.staleNow (d : Dev) (q : QuadIx) : Bool :=
  let x := d.sense.quads[q]
  x.served.any fun j => match x.slots[j] with
    | some i => decide (x.slices[i].measAt x.lowPower + 100 * msTicks < d.clk.now)
    | none => false

/-- STALE ends with the last stale slice in service (R243). -/
def Dev.clearStale (d : Dev) (q : QuadIx) : Dev :=
  if d.sense.quads[q].stale && !d.staleNow q then d.updQuad q fun x => { x with stale := false } else d

/-- The timing reference: the lowest-numbered slot that holds a slice, with its slice (R244). -/
def Quad.skewRef (x : Quad) : Option (Fin 4 × Option (Fin 5)) := x.served.head?.map fun j => (j, x.slots[j])

/-- The slots of a quad change. Where another slice or slot comes to be the timing reference, the estimates begin again (R244). -/
def Quad.setSlots (x : Quad) (v : Vector (Option (Fin 5)) 4) : Quad :=
  let y := { x with slots := v }
  if y.skewRef == x.skewRef then y else { y with skewErr := Vector.replicate 4 0 }

/-- The spare takes the slot of a failed slice at its SLICE_CLK edge (R246). -/
def Quad.refillNow (x : Quad) (now : Tick) : Quad := match x.refill with
  | some (j, i, e) =>
    if now < e then x
    else { (x.setSlots (x.slots.set j (some i))) with refill := none, slices := upd x.slices i fun s => { s with st := .service } }
  | none => x

/-- The self-test of a quad's spare runs. -/
def Dev.testing (d : Dev) (q : QuadIx) : Bool :=
  d.sense.op == .selftest && d.sense.stQuad.toNat == q.val && match d.sense.stage with
    | some (.running _) => true
    | _ => false

/-- The first SLICE_CLK edge at which a granted rotation can enter: no interleaved run holds its slot (R242). -/
def Dev.rotationEdge (d : Dev) (q : QuadIx) : Tick :=
  let x := d.sense.quads[q]
  d.clk.edgeFrom ((x.convs.filter fun c => c.interleaved && c.slots.contains x.nextSlot).foldl (fun t c => max t c.slotsFree) x.rotFrom)

/-- The spare enters the slot of a granted rotation at its edge; a test of the spare is awaited (R242, R249). -/
def Dev.enterRotation (d : Dev) (q : QuadIx) : Dev :=
  let x := d.sense.quads[q]
  let e := d.rotationEdge q
  if !x.rotGranted || decide (d.clk.now < e) || d.testing q then d
  else match x.outOfLine with
    | some i =>
      let out := x.slots[x.nextSlot]
      let d := d.updQuad q fun x =>
        let sl := upd x.slices i fun s => { s with st := .service }
        { (x.setSlots (x.slots.set x.nextSlot (some i))) with rotGranted := false, rotEdge := some e, nextSlot := x.nextSlot + 1, outOfLine := out, measEnd := out.map fun _ => e + 300 * usTicks, slices := match out with
            | some o => upd sl o fun s => { s with st := .measure }
            | none => sl }
      if out.isNone then (d.releaseLeave .rotation (rotTarget q)).degradedCause q else d
    | none => (d.updQuad q fun x => { x with rotGranted := false }).releaseLeave .rotation (rotTarget q)

/-- What has fallen due in a quad at the edges up to now: a failed slice's slot is filled, a rotation enters. -/
def Dev.quadEdges (d : Dev) (q : QuadIx) : Dev := (d.updQuad q fun x => x.refillNow d.clk.now).enterRotation q

/-- One SLICE_CLK edge of a quad: at any other tick nothing is served (R106, R259). -/
def Dev.serve (d : Dev) (q : QuadIx) : Dev := if d.sliceEdge then (d.quadEdges q).serveEdge q else d

/-- A rotation asks leave (R242, R243); while the spare is under test it waits (R249). One that falls due while the one before it still
    waits, is granted or measures is dropped without a count (DESIGN CHOICE, assumption 96). A slice that a warm reset has left in TEST rotates
    as a spare does (DESIGN CHOICE, assumption 69). -/
def Dev.askRotation (d : Dev) (q : QuadIx) : Dev :=
  let x := d.sense.quads[q]
  match x.outOfLine with
  | none => d
  | some i =>
    if !d.sense.rotEn || x.rotGranted || d.waitsLeave .rotation (rotTarget q) then d
    else if d.testing q then d.updQuad q fun x => { x with rotDue := true }
    else match x.slices[i].st with
      | .spare | .test =>
        let (d, ok) := d.askLeave .rotation (rotTarget q)
        if ok then d else d.updQuad q fun x => { x with rotSkipped := x.rotSkipped + 1 }
      | _ => d

/-- The quad of the input that SENSE.CALSEL.ENTRY names (R250, R252). -/
def Dev.calQuad (d : Dev) : QuadIx :=
  let e := d.sense.entry.toNat
  if e < 64 then Fin.ofNat 4 (e / 16)
  else if e < 72 then (d.railEnt (Fin.ofNat 8 (e - 64))).homeQuad
  else Fin.ofNat 4 ((e - 72) / 4)

/-- The quad belongs in low-power reference mode (R247); the quad of a running CAL_ZERO or CAL_FS does not (R250). -/
def Dev.wantsLow (d : Dev) (q : QuadIx) : Bool :=
  let quiet := (List.finRange 8).all fun r => !d.railDefined r || d.mode r == .off || d.mode r == .ember
  let calQ : Option QuadIx :=
    if (d.sense.op == .zero || d.sense.op == .fs) && (match d.sense.stage with
        | some (.running _) => true
        | _ => false) then some d.calQuad
    else none
  calQ != some q && (d.sense.lpForce || (d.sense.lpAuto && quiet))

/-- A quad leaves low-power mode when it no longer belongs in it (R247). -/
def Dev.leaveLow (d : Dev) (q : QuadIx) : Dev :=
  if d.sense.quads[q].lowPower && !d.wantsLow q then
    d.updQuad q fun x => { x with lowPower := false, lpUntil := d.clk.now + 20 * usTicks, convs := x.convs.map (·.quicken d.clk.now) }
  else d

/-! ## Calibration operations (R248 to R251) -/

/-- The operation of SENSE.CTRL ends with a result. -/
def Dev.endCal (d : Dev) (result : BitVec 4) : Dev :=
  let kind : LeaveKind := if d.sense.op == .selftest then .selftest else .fgcal
  let tgt : Byte := if d.sense.op == .selftest then quadTestTarget (Fin.ofNat 4 d.sense.stQuad.toNat) else leaveAll
  let d := (d.withdrawLeave kind tgt).releaseLeave kind tgt
  { d with sense := { d.sense with stage := none, result := result } }

/-- A rail that leaves OFF ends a CAL_ZERO or CAL_FS (R251). -/
def Dev.railEndsCal (d : Dev) : Dev :=
  if d.sense.stage.isSome && (d.sense.op == .zero || d.sense.op == .fs) && !d.allOff then d.endCal 6 else d

/-- CAL_ENTRY_BAD (R254). -/
def Dev.calBadCause (d : Dev) : Dev := d.setCause srcCalBad 0 ((List.finRange 112).any fun e => !(d.sense.cal[e]).valid)

/-- The conversions of an entry keep, for what they have sampled up to now, the value that a write replaces (R252). -/
def Dev.keepCal (d : Dev) (e : CalIx) : Dev :=
  let old := (d.clk.now, d.calOf e)
  let keep := fun (q : QuadIx) (c : Conv) => if calEntry q (sourceOf q c.ent.input) = e then { c with cals := c.cals ++ [old] } else c
  { d with sense := { d.sense with quads := mapV d.sense.quads fun q x => { x with convs := x.convs.map (keep q) } } }

/-- A calibration entry is written: provenance U, valid, journalled; a VSNS entry moves its rail's overvoltage threshold
    (R253, R349). -/
def Dev.writeCal (d : Dev) (e : CalIx) (v : Word) : Dev :=
  let old := d.sense.cal[e]
  let d := d.keepCal e
  let d := { d with sense := { d.sense with cal := d.sense.cal.set e { value := v, valid := true, user := true } } }
  let d := d.note 0x0031 0 e.val (leBytes 4 old.value.toNat ++ leBytes 4 v.toNat ++ [if old.user then 1 else 0])
  let d := d.calBadCause
  if 64 ≤ e.val ∧ e.val < 72 then d.setOv (Fin.ofNat 8 (e.val - 64)) else d

/-! ## Registers -/

def SliceState.code : SliceState → BitVec 3
  | .service => 0 | .spare => 1 | .measure => 2 | .test => 3 | .failed => 4

/-- Rails steered to a quad's crossbar ports (R234). -/
def Dev.xbarPorts (d : Dev) (q : QuadIx) : Nat :=
  ((List.finRange 8).filter fun r => d.railDefined r && (d.railEnt r).homeQuad == q).length

def nib (x : Option (Fin 5)) : BitVec 4 := match x with
  | some i => BitVec.ofNat 4 i.val
  | none => 0xF

/-- SENSE registers by offset from 0x02_0000 up to 0x02_0FFF. -/
def Dev.readSense (d : Dev) (off : Nat) : Option Word :=
  if off < 0x400 then
    let q : QuadIx := Fin.ofNat 4 (off / 0x100)
    let x := d.sense.quads[q]
    let o := off % 0x100
    if o = 0x00 then
      let n := d.xbarPorts q
      some ((if 2 ≤ n then 0x300#32 else if n = 1 then 0x100 else 0) ||| (BitVec.ofNat 32 x.served.length <<< 4) ||| bitAt x.lowPower 3 |||
        bitAt x.stale 2 ||| bitAt x.degraded 1 ||| bitAt x.outOfLine.isNone 0)
    else if o = 0x04 then
      some (at' (nib x.outOfLine) 16 ||| at' (nib x.slots[3]) 12 ||| at' (nib x.slots[2]) 8 ||| at' (nib x.slots[1]) 4 ||| at' (nib x.slots[0]) 0)
    else if 0x08 ≤ o ∧ o < 0x1C ∧ o % 4 = 0 then
      let s := x.slices[Fin.ofNat 5 ((o - 8) / 4)]
      some (at' (satN 16 ((d.clk.now - s.measAt x.lowPower) / msTicks)) 16 ||| at' s.skew 8 ||| at' s.st.code 0)
    else if 0x20 ≤ o ∧ o < 0x34 ∧ o % 4 = 0 then
      let s := x.slices[Fin.ofNat 5 ((o - 0x20) / 4)]
      some (if x.lowPower then at' s.gsLow 16 ||| at' s.osLow 0 else at' s.gsFull 16 ||| at' s.osFull 0)
    else if o = 0x34 then some (at' x.rotDone 16 ||| at' x.rotSkipped 0)
    else if o = 0x38 then some x.clips else none
  else
    let s := d.sense
    let op : BitVec 4 := match s.op with
      | .none => 0 | .zero => 1 | .fs => 2 | .fgcal => 3 | .selftest => 4
    match off with
    | 0x400 => some 0
    | 0x404 => some (at' s.target 16 ||| at' s.stQuad 8 ||| at' s.entry 0)
    | 0x408 => some (bitAt s.stage.isSome 8 ||| at' op 4 ||| at' s.result 0)
    | 0x40C => some s.mean
    | 0x410 => some (at' s.rotInt 8 ||| bitAt s.rotEn 2 ||| bitAt s.lpForce 1 ||| bitAt s.lpAuto 0)
    | 0x414 => some (at' s.stSlice 4 ||| at' s.stResult 0)
    | _ => none

/-- SEQ, ENT and integrity registers by offset from 0x02_1000. -/
def Dev.readSeq (d : Dev) (off : Nat) : Option Word :=
  if off < 0x100 then
    let q : QuadIx := Fin.ofNat 4 (off / 0x40)
    let x := d.sense.quads[q]
    match off % 0x40 with
    | 0x00 => some ((BitVec.ofNat 32 x.queue.length <<< 16) ||| bitAt x.injPend 9 ||| bitAt x.regPend 8 ||| bitAt x.injPass.isSome 7 |||
        bitAt x.regPass.isSome 6 ||| BitVec.ofNat 32 (match x.regPass with
          | some e => e.val
          | none => 0))
    | 0x04 => some (at' x.dropFull 16 ||| at' x.dropLate 0)
    | 0x08 => some (at' x.passesReg 16 ||| at' x.passesInj 0)
    | 0x0C => some (at' x.aborts 16 ||| at' x.passOvr 0)
    | 0x10 => some (d.seqOf q).timer
    | 0x14 => some ((BitVec.ofNat 32 (d.seqOf q).inj.length <<< 8) ||| BitVec.ofNat 32 (d.seqOf q).reg.length)
    | _ => none
  else if 0x200 ≤ off ∧ off < 0x600 then
    let q : QuadIx := Fin.ofNat 4 ((off - 0x200) / 0x100)
    let e := (off % 0x100) / 4
    if off % 4 = 0 ∧ e < 40 then some (match (d.seqOf q).entry e with
      | some x => at' x.eflags 16 ||| at' x.slices 8 ||| at' x.input 0
      | none => d.imageWord 0xFFFFFFFF)
    else none
  else match off with
    | 0x100 => some (at' d.sense.auxOpen 0)
    | 0x104 => some (d.sense.cmBad.setWidth 32)
    | 0x108 => some (d.sense.cmBad.extractLsb' 32 32)
    | _ => none

/-- ACC[k] by offset from 0x02_2000. -/
def Dev.readAcc (d : Dev) (off : Nat) : Option Word :=
  let k : AccIx := Fin.ofNat 256 (off / 0x10)
  let a := d.sense.accs[k]
  match off % 0x10 with
  | 0x0 => some a.sum
  | 0x4 => some (at' a.results 16 ||| at' a.valid 0)
  | 0x8 => some (BitVec.ofNat 32 a.ts)
  | 0xC => some (match d.tile.cur.accs[k] with
      | some b => at' b.n 16 ||| (BitVec.ofNat 32 b.entry.val <<< 8) ||| BitVec.ofNat 32 b.quad.val
      | none => d.imageWord 0xFF)
  | _ => none

/-- TRK[k] by offset from 0x02_3000. -/
def Dev.readTrk (d : Dev) (off : Nat) : Option Word :=
  let k : TrkIx := Fin.ofNat 64 (off / 0x20)
  let x := d.sense.trks[k]
  match off % 0x20 with
  | 0x00 => some (match d.tile.cur.trks[k] with
      | some b => (BitVec.ofNat 32 b.entry.val <<< 8) ||| BitVec.ofNat 32 b.quad.val
      | none => d.imageWord 0xFF)
  | 0x04 => some (at' x.win 0)
  | 0x08 => some (at' x.cur.max 16 ||| at' x.cur.min 0)
  | 0x0C => some (at' x.last.max 16 ||| at' x.last.min 0)
  | 0x10 => some (at' x.last.count 16 ||| at' x.cur.count 0)
  | 0x14 => some x.last.tMin
  | 0x18 => some x.last.tMax
  | _ => none

/-- CAL registers by offset from 0x0C_0000. -/
def Dev.readCal (d : Dev) (off : Nat) : Option Word :=
  if off < 0x380 then
    let e : CalIx := Fin.ofNat 112 (off / 8)
    let x := d.sense.cal[e]
    match off % 8 with
    | 0 => some x.value
    | 4 => some (bitAt (decide (88 ≤ e.val)) 9 ||| bitAt x.valid 8 ||| bitAt x.user 0)
    | _ => none
  else if off = 0x1000 then some (bitAt d.sense.unlockUntil.isSome 0) else none

end Sys2Proof.Machine
end

