-- ==== Sys2Proof/Machine/TrustOps.lean ====
section
/-! DEFINITION. Trust below the commands (R438 to R457): tokens, attestation, the unlock, and the TRUST registers. -/

namespace Sys2Proof.Machine

open Sys2Proof

/-! ## Identity (R439, R440, R451) -/

/-- DEVICE_ID. -/
def deviceId : List Byte := (keyHash deviceKey).take 8

/-- The bytes of a key, X then Y. -/
def keyBytes (k : BitVec 512) : List Byte := beBytes 64 k.toNat
def keyAt (bs : List Byte) (o : Nat) : BitVec 512 := BitVec.ofNat 512 (beNat (slice bs o 64))

/-- The device certificate. -/
def certBytes : List Byte :=
  [0x44, 0x43, 0x52, 0x54] ++ leBytes 2 1 ++ leBytes 2 0x6480 ++ leBytes 8 Config.serial.toNat ++ keyBytes deviceKey ++
    keyBytes Config.certSig

/-- TRUST.CHAL as bytes. -/
def Trust.chal (t : Trust) : List Byte := leBytes 16 (Config.challenge t.chalCount).toNat

/-- The key of each slot that is INSTALLED. -/
def Trust.keys (t : Trust) : Keys := Vector.ofFn fun i : Fin 4 => if t.slots[i].st = .installed then some t.slots[i].key else none

def KeyState.code : KeyState → BitVec 2
  | .empty => 0 | .installed => 1 | .revoked => 2 | .damaged => 3

def Trust.slotCodes (t : Trust) : Byte :=
  (List.range 4).foldl (fun (v : Byte) i => v ||| (t.slots[Fin.ofNat 4 i].st.code.setWidth 8 <<< (2 * i))) 0

def Dev.updTrust (d : Dev) (f : Trust → Trust) : Dev := { d with trust := f d.trust }
def Trust.updSlot (t : Trust) (i : Nat) (f : OwnerSlot → OwnerSlot) : Trust := { t with slots := upd t.slots (Fin.ofNat 4 i) f }

/-! ## Tokens (R445 to R448) -/

/-- A token's fields. -/
structure Token where
  kind : Nat
  signer : Byte
  slot : Nat
  arg : Nat
  key : BitVec 512
  pub : BitVec 512
  sig : BitVec 512
  deriving DecidableEq, Repr

def tokenOf (bs : List Byte) : Token :=
  { kind := numAt bs 4 1, signer := byteAt bs 5, slot := numAt bs 6 1, arg := numAt bs 0x20 4, key := keyAt bs 0x30, pub := keyAt bs 0x70, sig := keyAt bs 0xB0 }

/-- Check 1: length, MAGIC, KIND and the reserved fields. -/
def tokenFormOk (bs : List Byte) : Bool :=
  bs.length == 240 && bs.take 4 == [0x54, 0x4F, 0x4B, 0x4E] && decide (1 ≤ numAt bs 4 1) && decide (numAt bs 4 1 ≤ 5) &&
    byteAt bs 7 == 0 && allZero (slice bs 0x24 12)

/-- Check 4: the signer is allowed and its key valid (R446). -/
def Token.signerOk (k : Token) (keys : Keys) : Bool :=
  let owner := decide (k.signer.toNat < 4) && Machine.signerOk keys k.signer k.pub
  let root := k.signer == 0x10 && Machine.signerOk keys k.signer k.pub
  match k.kind with
  | 1 => owner
  | 2 => k.signer == 0x20 && k.pub == k.key
  | 3 | 5 => root
  | 4 => owner || root
  | _ => false

/-- Check 5: the precondition of the kind, and the new key (R447, R448). -/
def Token.preOk (k : Token) (t : Trust) : Bool :=
  let inSlots := decide (k.slot < 4)
  let st := t.slots[Fin.ofNat 4 k.slot].st
  let fresh := keyValid k.key && !t.keys.toList.contains (some k.key)
  match k.kind with
  | 1 => true
  | 2 => t.claimOpen && inSlots && st == .empty && fresh
  | 3 => inSlots && st != .installed && fresh
  | 4 => inSlots && st == .installed
  | 5 => decide (1 ≤ k.arg) && decide (k.arg ≤ 3600)
  | _ => false

/-- Checks 1 to 5: the reason of the first that fails and its status; none when all pass. -/
def Trust.tokenCheck (t : Trust) (bs : List Byte) : Option (Nat × Byte) :=
  let k := tokenOf bs
  if !tokenFormOk bs then some (1, stState)
  else if slice bs 8 8 != deviceId then some (2, stAuth)
  else if slice bs 0x10 16 != t.chal then some (3, stAuth)
  else if !k.signerOk t.keys then some (4, stAuth)
  else if !k.preOk t then some (5, stState) else none

/-- A TOKEN completes: TRUST.LAST_TOKEN, the challenge, the counts, the record of a refusal, the response. -/
def Dev.tokenEnd (d : Dev) (bs : List Byte) (status : Byte) (reason : Nat) : Dev :=
  let k := tokenOf bs
  let d := d.updTrust fun t =>
    { t with lastStatus := status, lastReason := BitVec.ofNat 8 reason, lastSigner := k.signer, lastKind := BitVec.ofNat 8 k.kind, chalCount := if status = stLeave then t.chalCount else t.chalCount + 1, accepted := if status = stOk then t.accepted + 1 else t.accepted, refused := if 2 ≤ reason then t.refused + 1 else t.refused }
  let d := if 2 ≤ reason then d.note 0x0306 1 k.kind [BitVec.ofNat 8 reason, k.signer] else d
  d.reply status

/-- CLEAR (R436, R448). -/
def Dev.tokenClear (d : Dev) (k : Token) : Dev := d.clearLantern k.signer.toNat

/-- CLAIM. -/
def Dev.tokenClaim (d : Dev) (k : Token) : Dev :=
  (d.updTrust fun t => { (t.updSlot k.slot fun _ => { st := .installed, key := k.key }) with claimOpen := false }).note 0x0301 1 k.slot
    ((keyHash k.key).take 8)

/-- INSTALL. -/
def Dev.tokenInstall (d : Dev) (k : Token) : Dev :=
  let old := d.trust.slots[Fin.ofNat 4 k.slot]
  (d.updTrust fun t => { (t.updSlot k.slot fun _ => { st := .installed, key := k.key }) with claimOpen := false }).note 0x0302 1 k.slot
    ((keyHash k.key).take 8 ++ if old.st = .empty then List.replicate 8 0 else (keyHash old.key).take 8)

/-- REVOKE. -/
def Dev.tokenRevoke (d : Dev) (k : Token) : Dev :=
  let old := d.trust.slots[Fin.ofNat 4 k.slot]
  (d.updTrust fun t => t.updSlot k.slot fun x => { x with st := .revoked }).note 0x0303 1 k.slot ((keyHash old.key).take 8 ++ [k.signer])

/-- UNLOCK, for its lifetime from the cycle in which it is accepted (R448, R478). -/
def Dev.tokenUnlock (d : Dev) (k : Token) : Dev :=
  ({ d with sense := { d.sense with unlockUntil := some (d.cycleTick + k.arg * 1000 * msTicks) } }).note 0x0304 1 0x10 (leBytes 4 k.arg)

/-- The effect of an accepted token (R448). -/
def Dev.tokenEffect (d : Dev) (k : Token) : Dev := match k.kind with
  | 1 => d.tokenClear k
  | 2 => d.tokenClaim k
  | 3 => d.tokenInstall k
  | 4 => d.tokenRevoke k
  | _ => d.tokenUnlock k

/-- Check 6: the verification has completed. -/
def Dev.tokenVerified (d : Dev) (bs : List Byte) : Dev :=
  let k := tokenOf bs
  if ecdsaVerify k.pub (bs.take 0xB0) k.sig then (d.tokenEffect k).tokenEnd bs stOk 0 else d.tokenEnd bs stAuth 6

/-- A job of the trust engine asks leave and waits for it; refused at once, false (R443). -/
def Dev.askTrust (d : Dev) (j : TrustJob) : Dev × Bool :=
  let (d, ok) := d.askLeave .signature leaveAll
  if ok then (d.updTrust fun t => { t with waiting := t.waiting ++ [j] }, true) else (d, false)

def Dev.hold (d : Dev) : Dev := { d with link := { d.link with holding := true } }

/-- A TOKEN executes: checks 1 to 5, then leave (R447). -/
def Dev.token (d : Dev) (bs : List Byte) : Dev :=
  if d.sys.devState = .boot then d.tokenEnd bs stState 0
  else match d.trust.tokenCheck bs with
    | some (reason, status) => d.tokenEnd bs status reason
    | none =>
      let (d, ok) := d.askTrust (.token bs)
      if ok then d.hold else d.tokenEnd bs stLeave 0

/-! ## Attestation (R452 to R456) -/

/-- 14 bytes of one bit per calibration entry. -/
def Dev.calBits (d : Dev) (f : CalEnt → Bool) : List Byte :=
  leBytes 14 (maskOf 112 fun e : CalIx => f d.sense.cal[e]).toNat

/-- No image has been verified since the start; so it is in boot hold (R453). The check of the retained digest stands in for the
    verification of a running image (R130). -/
def Dev.noImage (d : Dev) : Bool := !(d.tile.tiled || d.tile.verified) || d.sys.bootHold

/-- FLAGS of a reply. -/
def Dev.attFlags (d : Dev) : BitVec 16 :=
  (bitAt d.tile.tiled 0 ||| bitAt d.tile.rt.isPartial 1 ||| bitAt d.tile.dirty 2 ||| bitAt d.sys.fallback 3 ||| bitAt d.noImage 4 |||
    bitAt d.trust.claimOpen 5 ||| bitAt d.sense.unlockUntil.isSome 6 ||| bitAt d.clk.tbUncertain 7).setWidth 16

/-- Bytes 0x00 to 0x3F of a reply. -/
def Dev.attHead (d : Dev) (bs : List Byte) : List Byte :=
  [0x41, 0x54, 0x53, 0x54, byteAt bs 0, 1] ++ leBytes 2 d.attFlags.toNat ++ deviceId ++ leBytes 2 0x6480 ++
    [0x02, d.sys.devState.code.setWidth 8] ++ leBytes 4 Config.fwver.toNat ++ leBytes 8 d.tb ++ slice bs 4 32

/-- The body of kind 0. While a verified image does not run, the spec states no value of the running image's fields, nor of SIGNER while
    none is verified: they are free (assumption 99). -/
def Dev.attIdentity (d : Dev) : List Byte :=
  let none_ := d.noImage
  let i := d.tile.image
  let free := fun (k : Nat) => leBytes 4 (Config.freeWord (d.free + k)).toNat
  let of := fun (zero run : List Byte) (open_ : List Byte) => if none_ then zero else if d.tile.tiled then run else open_
  of (List.replicate 32 0) (leBytes 32 i.digest.toNat) ((List.range 8).flatMap free) ++ of [0, 0, 0, 0] (leBytes 4 i.gen.toNat) (free 8) ++
    leBytes 4 d.tile.highGen.toNat ++ of [0xFF] [if d.tile.runB then 1 else 0] ((free 9).take 1) ++
    (if d.tile.tiled && !none_ then [i.signer] else (free 10).take 1) ++ [d.trust.slotCodes, 0] ++
    leBytes 6 d.lantern.head ++ [0, 0] ++ leBytes 8 d.lantern.newestClosed.toNat ++ d.calBits (·.user) ++ d.calBits (·.valid) ++ List.replicate 8 0

/-- The readable records of a range, ascending. -/
def Lantern.range (l : Lantern) (first last : Nat) : List Record := (l.readFrom 4096 first).filter fun r => decide (r.seq ≤ last)

/-- FIRST and LAST as adjusted; none where the range is empty or too long (R455). -/
def Lantern.clip (l : Lantern) (first last : Nat) : Option (Nat × Nat) :=
  let a := max first l.tail
  let b := min last l.lastClosed
  if a ≤ b ∧ b - a ≤ 4095 ∧ !(l.range a b).isEmpty then some (a, b) else none

/-- What an ATTEST of kind 1 covers as it executes: FIRST and LAST as adjusted, and the number of records. -/
def Dev.attCover (d : Dev) (bs : List Byte) : Option (Nat × Nat × Nat) :=
  let l := d.lantern.closeDue d.clk.now
  if numAt bs 0 1 = 1 then (l.clip (numAt bs 0x24 6) (numAt bs 0x2A 6)).map fun (a, b) => (a, b, (l.range a b).length) else none

/-- The body of kind 1 over a range. -/
def Dev.attRecords (d : Dev) (a b : Nat) : List Byte :=
  let rs := d.lantern.range a b
  let link := fun (r : Option Record) => leBytes 8 ((r.map fun x => x.link.toNat).getD 0)
  leBytes 6 a ++ leBytes 6 b ++ leBytes 4 rs.length ++ sha256 (rs.flatMap Record.norm) ++ link rs.head? ++ link rs.getLast? ++
    leBytes 6 d.lantern.tail ++ List.replicate 26 0

/-- META of a calibration entry. -/
def calMeta (e : Nat) (x : CalEnt) : Word := bitAt (decide (88 ≤ e)) 9 ||| bitAt x.valid 8 ||| bitAt x.user 0

/-- The body of kind 2. -/
def Dev.attCal (d : Dev) : List Byte :=
  sha256 ((List.range 112).flatMap fun e =>
    let x := d.sense.cal[Fin.ofNat 112 e]
    leBytes 4 x.value.toNat ++ leBytes 4 (calMeta e x).toNat) ++ d.calBits (·.user) ++ d.calBits (·.valid) ++
    [BitVec.ofNat 8 ((List.finRange 112).filter fun e => (d.sense.cal[e]).user).length] ++ List.replicate 35 0

/-- An ATTEST completes without a reply. -/
def Dev.attestFail (d : Dev) (bs : List Byte) (status : Byte) : Dev :=
  (d.updTrust fun t => { t with attStatus := status, attKind := byteAt bs 0 }).reply status

/-- An accepted ATTEST: the signed reply and its record (R453, R456). -/
def Dev.attestReply (d : Dev) (bs body : List Byte) (range : List Byte) : Dev :=
  let m := d.attHead bs ++ body
  let d := d.note 0x0308 0 (numAt bs 0 1) (slice bs 4 8 ++ range)
  (d.updTrust fun t => { t with attStatus := stOk, attKind := byteAt bs 0 }).reply stOk (m ++ keyBytes (ecdsaSign deviceSecret m))

/-- The signature has completed; a covered record that is readable no more makes the ATTEST fail (R455). -/
def Dev.attestDone (d : Dev) (bs : List Byte) (cover : Option (Nat × Nat × Nat)) : Dev :=
  let d := { d with lantern := d.lantern.closeDue d.clk.now }
  match numAt bs 0 1 with
  | 0 => ({ d with free := d.free + 11 } : Dev).attestReply bs d.attIdentity []
  | 1 =>
    match cover with
    | some (a, b, n) =>
      if (d.lantern.range a b).length = n then d.attestReply bs (d.attRecords a b) (leBytes 6 a ++ leBytes 6 b) else d.attestFail bs stState
    | none => d.attestFail bs stState
  | _ => d.attestReply bs d.attCal []

/-- An ATTEST is refused before it asks leave (R455, R456). -/
def Dev.attestBars (d : Dev) (bs : List Byte) : Bool :=
  let k := numAt bs 0 1
  decide (2 < k) || bs.length != 52 || !allZero (slice bs 1 3) || !allZero (slice bs 0x30 4) ||
    d.trust.devkeyBad || (d.sys.devState == .boot && !d.sys.bootHold) || (d.sys.bootHold && k == 1 && d.lantern.storeBad) ||
    (k == 1 && (d.attCover bs).isNone)

/-- An ATTEST executes (R444, R456). -/
def Dev.attest (d : Dev) (bs : List Byte) : Dev :=
  if d.attestBars bs then d.attestFail bs stState
  else if d.sys.bootHold then (d.updTrust fun t => { t with running := t.running ++ [.attest bs (d.attCover bs)] }).hold
  else
    let (d, ok) := d.askTrust (.attest bs (d.attCover bs))
    if ok then d.hold else d.attestFail bs stLeave

/-! ## What a clock failure and a reset cut (R110, R118, R448, R480) -/

/-- A host transaction waits for the job. -/
def TrustJob.hosted : TrustJob → Bool
  | .verify => false
  | _ => true

/-- The `k`-th element that satisfies `p`, from 0, is left out. -/
def dropNth {α : Type} (p : α → Bool) : Nat → List α → List α
  | _, [] => []
  | 0, x :: xs => if p x then xs else x :: dropNth p 0 xs
  | k + 1, x :: xs => if p x then x :: dropNth p k xs else x :: dropNth p (k + 1) xs

/-- The job of the transaction that holds the link leaves the trust engine, with its leave. -/
def Dev.dropJob (d : Dev) : Dev :=
  if d.trust.running.any TrustJob.hosted then
    (d.releaseLeave .signature leaveAll).updTrust fun t => { t with running := t.running.filter fun j => !j.hosted }
  else match d.trust.waiting.findIdx? TrustJob.hosted with
    | some i => ({ d with leave := { d.leave with queue := dropNth (fun q => q.kind == LeaveKind.signature) i d.leave.queue } }).updTrust fun t =>
        { t with waiting := t.waiting.filter fun j => !j.hosted }
    | none => d

/-- A refused leave leaves the completing unit not taken. -/
def Load.undo (l : Load) : Load := { l with bytes := l.bytes.take ((l.total - 1) / 128 * 128), stage := none, full := [] }

/-- The completing unit of a load is not taken, unless its write to MRAM has begun, which goes on (R86). -/
def Dev.dropUnit (d : Dev) : Dev := match d.tile.load with
  | some l =>
    if l.stage.isNone then d
    else if l.stage = some .mram then { d with tile := { d.tile with load := some { l with silent := true } } }
    else let d := d.withdrawLeave .mram leaveAll
      { d with tile := { d.tile with load := some l.undo } }
  | none => d

/-- The transaction that holds the link is not executed: LINK_CLK stops (R110, R480). -/
def Dev.dropTransaction (d : Dev) : Dev := if d.link.holding then d.dropJob.dropUnit else d

/-- The words of a key, the first `bits` tells new and the others old. -/
def mixKey (old new : BitVec 512) (bits : Word) : BitVec 512 :=
  keyAt ((List.range 8).flatMap fun i => slice (keyBytes (if bits.getLsbD i then new else old)) (8 * i) 8) 0

/-- A reset cuts the word writes of a token that is being accepted: each word of the key is old or new, and the state word is new only
    where every other is; CLAIM_OPEN is a word of its own (R118, R448). How far the writes had come is a free value. -/
def Dev.cutToken (d : Dev) : Dev := match d.trust.running with
  | .token bs :: _ =>
    let k := tokenOf bs
    let key := k.kind == 2 || k.kind == 3
    if (key || k.kind == 4) && ecdsaVerify k.pub (bs.take 0xB0) k.sig then
      let (w, d) := d.fresh
      let whole := w.getLsbD 8
      let bits := if whole then 0xFF#32 else w
      d.updTrust fun t =>
        { (t.updSlot k.slot fun x => { key := if key then mixKey x.key k.key bits else x.key, st := if whole then (if key then .installed else .revoked) else x.st }) with claimOpen := t.claimOpen && !(key && whole && w.getLsbD 9) }
    else d
  | _ => d

/-! ## The unlock (R450) -/

/-- CAL.UNLOCK.OPEN returns to 0. -/
def Dev.lockCal (d : Dev) (cause : Byte) : Dev :=
  if d.sense.unlockUntil.isNone then d
  else ({ d with sense := { d.sense with unlockUntil := none } }).note 0x0305 0 0xFFFF [cause]

/-! ## Registers -/

/-- TRUST by offset from 0x09_0000. -/
def Dev.readTrust (d : Dev) (off : Nat) : Option Word :=
  let t := d.trust
  if off % 4 != 0 then none
  else if 0x10 ≤ off ∧ off < 0x20 then some (wordAt t.chal (off - 0x10))
  else if 0x20 ≤ off ∧ off < 0x60 then some (wordAt (keyBytes deviceKey) (off - 0x20))
  else if 0x80 ≤ off ∧ off < 0xC0 then
    let x := t.slots[Fin.ofNat 4 t.ownerSel.toNat]
    some (if x.st = .empty then 0 else wordAt (keyBytes x.key) (off - 0x80))
  else if 0xC0 ≤ off ∧ off < 0xE0 then some (wordAt (beBytes 32 Config.rootHash.toNat) (off - 0xC0))
  else if 0x100 ≤ off ∧ off < 0x190 then some (wordAt certBytes (off - 0x100))
  else match off with
    | 0x00 => some (at' t.slotCodes 8 ||| bitAt (!t.running.isEmpty || !t.waiting.isEmpty) 3 ||| bitAt d.sense.unlockUntil.isSome 2 |||
        bitAt t.claimOpen 1 ||| bitAt t.devkeyBad 0)
    | 0x60 => some (wordAt deviceId 0)
    | 0x64 => some (wordAt deviceId 4)
    | 0x68 => some (at' t.lastStatus 24 ||| at' t.lastReason 16 ||| at' t.lastSigner 8 ||| at' t.lastKind 0)
    | 0x6C => some (at' t.attStatus 8 ||| at' t.attKind 0)
    | 0x70 => some (at' t.ownerSel 0)
    | 0x74 => some Config.fwver
    | 0x78 => some (at' t.accepted 16 ||| at' t.refused 0)
    | 0x7C => some (match d.sense.unlockUntil with
        | some u => BitVec.ofNat 32 ((u - d.clk.now + 1000 * msTicks - 1) / (1000 * msTicks))
        | none => 0)
    | _ => none

end Sys2Proof.Machine
end

