-- ==== Sys2Proof/Machine/LinkOps.lean ====
section
/-! DEFINITION. The host link below the transactions (R458 to R483): frames taken, refused and replayed, and the LINK registers. -/

namespace Sys2Proof.Machine

open Sys2Proof

def Dev.updLink (d : Dev) (f : Link → Link) : Dev := { d with link := f d.link }

/-- The counters of LINK by which two states of the link differ (R483). -/
def Link.counted (a b : Link) : List LinkCount :=
  (if a.frames = b.frames then [] else [.frames]) ++ (if a.failed = b.failed then [] else [.failed]) ++
    (if a.discard = b.discard then [] else [.discard]) ++ (if a.busy = b.busy then [] else [.busy]) ++
    (if a.naks = b.naks then [] else [.naks]) ++ (if a.replays = b.replays then [] else [.replays]) ++
    (if a.syncLoss = b.syncLoss then [] else [.syncLoss])

/-- What arrives on the line changes the link, and its counts are those of the present LOOP_CLK cycle (R483). -/
def Dev.lineEvent (d : Dev) (f : Link → Link) : Dev :=
  { d with link := f d.link, cyc := { d.cyc with counts := d.cyc.counts ++ d.link.counted (f d.link) } }

/-! ## What the transmitter puts out (R56, R127, R458, R459, R461, R462) -/

/-- The PLL holds lock, or has locked in the start that runs (R127). -/
def Dev.locked (d : Dev) : Bool := d.clk.pllLock || match d.sys.start with
  | some p => p.locked
  | none => false

/-- Header and payload of a frame of the device (R461). -/
def TxFrame.body (epoch : Byte) : TxFrame → List Byte
  | .response r => [0x81, r.seq] ++ leBytes 2 r.payload.length ++ [r.status, r.expect, r.epoch, r.op] ++ r.payload
  | .syncAck seq status expect => [0x82, seq, 0, 0, status, expect, epoch, 0]
  | .nak status expect => [0x83, expect, 0, 0, status, expect, epoch, 0]

/-- The symbols of a frame, contiguous from SOF to EOF, with its CRC XORed with `flip` (R461, R462, R486). -/
def frameSymbols (b : List Byte) (flip : Word) : List Symbol := .sof :: (b ++ leBytes 4 (crc32 b ^^^ flip).toNat).map .data ++ [.eof]

def TxFrame.symbols (epoch : Byte) (f : TxFrame) : List Symbol := frameSymbols (f.body epoch) 0

/-! ### The line code (R458; PRESUMED, assumption 100: IEEE 802.3 clause 36) -/

/-- 6-bit code abcdei of EDCBA at negative running disparity, D.00 to D.31. -/
def code6 : List (BitVec 6) :=
  [0b100111, 0b011101, 0b101101, 0b110001, 0b110101, 0b101001, 0b011001, 0b111000, 0b111001, 0b100101, 0b010101, 0b110100, 0b001101, 0b101100,
   0b011100, 0b010111, 0b011011, 0b100011, 0b010011, 0b110010, 0b001011, 0b101010, 0b011010, 0b111010, 0b110011, 0b100110, 0b010110, 0b110110,
   0b001110, 0b101110, 0b011110, 0b101011]

/-- 4-bit code fghj of HGF at negative running disparity, D.x.0 to D.x.P7. -/
def code4 : List (BitVec 4) := [0b1011, 0b1001, 0b0101, 0b1100, 0b1101, 0b1010, 0b0110, 0b1110]

/-- Ones of a sub-block or of a symbol. -/
def ones {n : Nat} (b : BitVec n) : Nat := ((List.range n).filter b.getLsbD).length

/-- A sub-block of even length at the running disparity, where it is positive: complemented, if its disparity is not 0 or it is the
    balanced one that goes by the disparity too. -/
def atDisparity {n : Nat} (b : BitVec n) (turns rd : Bool) : BitVec n := if rd && (2 * ones b != n || turns) then ~~~b else b

/-- The running disparity after a sub-block or a symbol. -/
def disparityAfter {n : Nat} (rd : Bool) (b : BitVec n) : Bool := if 2 * ones b = n then rd else decide (n < 2 * ones b)

/-- The ten bits of a symbol, a first, at a running disparity. -/
def Symbol.code (rd : Bool) : Symbol → BitVec 10
  | .idle => if rd then 0b1100000101 else 0b0011111010
  | .sof => if rd then 0b0010010111 else 0b1101101000
  | .eof => if rd then 0b0100010111 else 0b1011101000
  | .data b =>
    let x := b.toNat % 32
    let y := b.toNat / 32
    let c6 := code6.getD x 0
    let six := atDisparity c6 (x == 7) rd
    let rd := disparityAfter rd six
    let alt := y == 7 && if rd then x == 11 || x == 13 || x == 14 else x == 17 || x == 18 || x == 20
    let c4 : BitVec 4 := if alt then 0b0111 else code4.getD y 0
    six ++ atDisparity c4 (y == 3) rd

/-- Symbols as they go out from a running disparity on: their bits, and the disparity after them. -/
def lineCode (rd : Bool) (xs : List Symbol) : List (BitVec 10) × Bool :=
  xs.foldl (fun (a : List (BitVec 10) × Bool) s =>
    let c := s.code a.2
    (a.1 ++ [c], disparityAfter a.2 c)) ([], rd)

/-- What HL_TX_P/N carry. -/
inductive LineState where
  | off | idle | frame
  deriving DecidableEq, Repr

/-- TDO is high-impedance until the start takes control of the pins; the model takes that to be the lock (R56, assumption 79). -/
def Dev.tdoHighZ (d : Dev) : Bool := !d.locked && !d.clk.onBackup

/-- Whole symbols of the line since the transmitter began to send idle; a symbol takes 40 ticks (R458). -/
def Link.symbolsSince (l : Link) (now : Tick) : Nat := (now - l.lineFrom) / 40

/-- Off, with P below N, until the lock and while the link is stopped; idle symbols from the lock on whenever no frame is being sent, in
    the four between two frames too (R56, R127, R459, R480). -/
def Dev.hlTx (d : Dev) : LineState :=
  if !d.locked || d.sys.rdyLowBackup then .off
  else if d.link.tx.isEmpty || d.link.framed && decide (d.link.symbolsSince d.clk.now < 4) then .idle else .frame

/-- The last symbol of a frame has left: at least four idle symbols stand between it and the frame before it (R459). -/
def Link.putOut (l : Link) (f : TxFrame) (now : Tick) : Link :=
  let s := f.symbols (l.epoch.setWidth 8)
  let k := l.symbolsSince now - s.length
  { l with idles := k, line := s, framed := true, lineFrom := now, rd := (lineCode l.rd (List.replicate k .idle ++ s)).2 }

/-- A frame may have left by now: its symbols and the four idle symbols after the frame before it have had their time. -/
def Link.mayLeave (l : Link) (f : TxFrame) (now : Tick) : Bool :=
  !l.framed || decide ((f.symbols (l.epoch.setWidth 8)).length + 4 ≤ l.symbolsSince now)

/-- Ticks of a frame of `n` payload bytes: `n + 14` symbols of 40 ticks (R458, R461). -/
def frameTicks (n : Nat) : Nat := 40 * (n + 14)

def TxFrame.isResponse : TxFrame → Bool
  | .response _ => true
  | _ => false

/-- A NAK leaves before the responses that wait, but not before the frame in transmission, which is always completed (R466, R470);
    a first frame that waits out its four idle symbols has not begun. -/
def Link.pushNak (l : Link) (f : TxFrame) (now : Tick) : List TxFrame :=
  let begun := if l.framed && decide (l.symbolsSince now < 4) then 0 else 1
  let rest := l.tx.drop begun
  l.tx.take begun ++ rest.takeWhile (!·.isResponse) ++ f :: rest.dropWhile (!·.isResponse)

/-- A frame is a NAK naming an EXPECT. -/
def TxFrame.names (x : Byte) : TxFrame → Bool
  | .nak _ e => e == x
  | _ => false

/-- A NAK naming EXPECT is to be sent, unless one that names it waits or has been sent in the last 50 µs (R466). -/
def Link.nak (l : Link) (status : Byte) (now : Tick) : Link :=
  let quiet := (l.tx.any fun f => f.names l.expect) || match l.nakHold with
    | some (x, u) => x == l.expect && decide (now < u)
    | none => false
  if quiet then l else { l with tx := l.pushNak (.nak status l.expect) now }

/-- A frame that has been sent, if it is a NAK, is counted and keeps further ones that name its EXPECT back for 50 µs (R466). -/
def Link.nakSent (l : Link) (now : Tick) : TxFrame → Link
  | .nak _ x => { l with naks := l.naks + 1, nakHold := some (x, now + 50 * usTicks) }
  | _ => l

/-- A frame began at tick `s` while a cause of bits 9 to 12 of R468 held, and later than the grace of 1 µs. -/
def Link.pastGrace (l : Link) (s : Tick) : Bool :=
  (l.rdyLows.any fun x => decide (x.1 + usTicks < s) && decide (s < x.2)) || match l.rdyFell with
    | some f => decide (f + usTicks < s)
    | none => false

/-- A frame began at tick `s` while the window was full, which has no grace (R468). -/
def Link.whileFull (l : Link) (s : Tick) : Bool :=
  (l.fulls.any fun x => decide (x.1 ≤ s) && decide (s < x.2)) || match l.fullSince with
    | some f => decide (f ≤ s)
    | none => false

/-- A frame that began `dur` ticks ago may be taken: no cause of R468 held then, or it began within the grace; a start cuts off every
    frame (R481). -/
def Dev.mayTake (d : Dev) (dur : Nat) : Bool :=
  decide (d.link.outstanding < 8) && !d.sys.rdyLowBackup && !(d.rdyHeld && d.sys.rdyLowStart) && !d.link.pastGrace (d.clk.now - dur) && !d.link.whileFull (d.clk.now - dur)

/-- The link receives: in symbol sync, with the PLL locked, and the core not on the backup oscillator (R127, R460, R480). -/
def Dev.linkUp (d : Dev) : Bool := d.link.rxSync && d.locked && !d.sys.rdyLowBackup

/-- A frame of `dur` ticks that ends now is received: the link receives, and ran when it began; the lock cuts off one that began before it
    (R480, R481). -/
def Dev.hears (d : Dev) (dur : Nat) : Bool := d.linkUp && decide (d.link.upFrom + dur ≤ d.clk.now)

/-- A symbol as it is received: one of the line's, or an invalid one: a code violation, a disparity error or another special symbol. -/
abbrev RxSymbol := Option Symbol

/-- The data bytes at the front of some symbols, and the symbols after them. -/
def takeData : List RxSymbol → List Byte × List RxSymbol
  | some (.data b) :: xs =>
    let (bs, rest) := takeData xs
    (b :: bs, rest)
  | xs => ([], xs)

/-- Header, payload of at most `max` bytes and CRC hold together (R461, R462, R463, R485). -/
def bytesHold (max : Nat) (bs : List Byte) : Bool :=
  let n := bs.length
  let len := numAt bs 2 2
  decide (12 ≤ n) && n == 12 + len && decide (len ≤ max) && slice bs (n - 4) 4 == leBytes 4 (crc32 (bs.take (n - 4))).toNat

/-- A host frame as R461 and R463 have it. -/
def frameBytesOk (bs : List Byte) : Bool :=
  let type := numAt bs 0 1
  bytesHold 256 bs && (type == 1 || type == 2) && allZero (slice bs 4 4) && (type == 1 || numAt bs 2 2 == 0)

/-- The data bytes of what was received from a SOF on, and that it is a SOF, data and an EOF. -/
def receivedData : List RxSymbol → List Byte × Bool
  | some .sof :: xs => ((takeData xs).1, (takeData xs).2 == [some .eof])
  | _ => ([], false)

/-- What was received from a SOF on fails reception (R463). -/
def receptionFails (xs : List RxSymbol) : Bool := !(receivedData xs).2 || !frameBytesOk (receivedData xs).1

/-- A frame that fails reception (R463). -/
def Dev.frameFail (d : Dev) : Dev :=
  if d.linkUp then d.lineEvent fun l => ({ l with failed := l.failed + 1 }).nak stNakCrc d.clk.now else d

/-- A REQUEST frame that passed reception (R465); one with more than 256 bytes of payload does not (R463). -/
def Dev.requestFrame (d : Dev) (seq : Byte) (payload : List Byte) : Dev :=
  let now := d.clk.now
  let l := d.link
  if !d.hears (frameTicks payload.length) then d
  else if 256 < payload.length then d.frameFail
  else if seq = l.expect then
    if d.mayTake (frameTicks payload.length) then
      d.lineEvent fun l => { l with expect := l.expect + 1, window := l.window ++ [{ seq := seq, payload := payload }], frames := l.frames + 1 }
    else d.lineEvent fun l => ({ l with busy := l.busy + 1 }).nak stBusy now
  else if (l.expect - seq).toNat ≤ 8 then
    match l.replay.find? fun r => r.seq == seq with
    | some r => d.lineEvent fun l => { l with tx := l.tx ++ [.response r], replays := l.replays + 1 }
    | none => if l.window.any fun x => x.seq == seq && !x.done then d
        else d.lineEvent fun l => ({ l with discard := l.discard + 1 }).nak stNakCrc now
  else d.lineEvent fun l => ({ l with discard := l.discard + 1 }).nak stNakCrc now

/-- A SYNC frame (R469). -/
def Dev.syncFrame (d : Dev) (seq : Byte) : Dev :=
  if !d.hears (frameTicks 0) then d
  else if !d.mayTake (frameTicks 0) then d.lineEvent fun l => ({ l with busy := l.busy + 1 }).nak stBusy d.clk.now
  else if d.link.window.any fun x => !x.done then d.updLink fun l => { l with tx := l.tx ++ [.syncAck seq stState l.expect] }
  else d.updLink fun l => { l with expect := seq, replay := [], nakHold := none, tx := l.tx ++ [.syncAck seq stOk seq] }

/-- Symbol sync is lost: a frame in progress fails with it (R460, R463). -/
def Dev.syncLost (d : Dev) (inFrame : Bool) : Dev :=
  let d := if inFrame then d.frameFail else d
  if d.link.rxSync then d.lineEvent fun l => { l with rxSync := false, syncLoss := l.syncLoss + 1 } else d

/-- A frame that has left is no longer the transmitter's; a first-sent response ends its transaction (R464). -/
def Link.drop (l : Link) : Link := match l.tx with
  | [] => l
  | .response r :: rest => { l with tx := rest, window := match l.window with
      | x :: xs => if x.done && x.seq == r.seq then xs else x :: xs
      | [] => [] }
  | _ :: rest => { l with tx := rest }

/-- The last symbol of the transmitter's first frame leaves now (R459, R464, R466). -/
def Link.sent (l : Link) (now : Tick) : Link := match l.tx with
  | [] => l
  | f :: _ => if l.mayLeave f now then ((l.putOut f now).nakSent now f).drop else l

/-- The transmitter holds a response that has not left. -/
def Link.responding (l : Link) : Bool := l.tx.any TxFrame.isResponse

/-- The counters return to 0, and a count of the same LOOP_CLK cycle stays counted (R483). -/
def Link.clear (l : Link) (cs : List LinkCount) : Link :=
  let n := fun c : LinkCount => BitVec.ofNat 16 (cs.count c)
  { l with frames := n .frames, failed := n .failed, discard := n .discard, busy := n .busy, naks := n .naks, replays := n .replays, syncLoss := n .syncLoss }

/-- The link stops with the move to the backup oscillator (R480): what has not executed is discarded, and of the frames to be sent the
    responses are kept; one that is cut off is sent again (assumption 106). -/
def Link.stop (l : Link) : Link :=
  let (kept, lost) := (l.window.filter (·.done), l.window.filter fun x => !x.done)
  { l with window := kept, tx := l.tx.filter TxFrame.isResponse, holding := false, expect := match lost with
      | x :: _ => x.seq
      | [] => l.expect }

/-! ## The form of a transaction (R471, R473) -/

/-- A transaction is well formed: its OP is listed, its length matches, its arguments, reserved bytes and address bits [31:24]
    lie within their ranges. -/
def formOk (p : List Byte) : Bool :=
  let n := p.length
  let a8 := (byteAt p 1).toNat
  let plain := numAt p 1 3 == 0
  let addr := byteAt p 7 == 0
  decide (4 ≤ n) && match (byteAt p 0).toNat with
    | 0x01 => plain && n == 8 && addr
    | 0x02 | 0x05 | 0x06 => plain && n == 12 && addr
    | 0x03 => numAt p 2 2 == 0 && decide (1 ≤ a8) && decide (a8 ≤ 64) && n == 8 && addr
    | 0x04 => numAt p 2 2 == 0 && decide (1 ≤ a8) && decide (a8 ≤ 62) && n == 8 + 4 * a8 && addr
    | 0x07 => a8 == 0 && n == 4
    | 0x08 => plain && decide (12 ≤ n) && decide (n ≤ 136) && n % 4 == 0
    | 0x09 => numAt p 2 2 == 0 && decide (1 ≤ a8) && decide (a8 ≤ 3) && n == 12 && numAt p 10 2 == 0
    | 0x0A => plain && n == 56
    | 0x0B => plain && n == 244
    | _ => false

/-- The payload of a refused WRITE_BURST: the INDEX of the word it names (R471). -/
def indexBytes (i : Nat) : List Byte := leBytes 4 i

/-- A transaction refused before its words are looked at. -/
def Dev.replyTo (d : Dev) (payload : List Byte) (st : Byte) : Dev :=
  d.reply st (if byteAt payload 0 = 4 then indexBytes 0 else [])

/-! ## Registers -/

/-- LINK by offset from 0x0A_0000. -/
def Dev.readLink (d : Dev) (off : Nat) : Option Word :=
  let l := d.link
  match off with
  | 0x00 => some (at' l.expect 24 ||| at' (BitVec.ofNat 4 l.outstanding) 20 ||| at' d.rdyCauses 8 ||| bitAt d.rdy 1 ||| bitAt l.rxSync 0)
  | 0x04 => some (at' l.epoch 0)
  | 0x08 => some (at' l.frames 16 ||| at' l.failed 0)
  | 0x0C => some (at' l.discard 16 ||| at' l.busy 0)
  | 0x10 => some (at' l.naks 16 ||| at' l.replays 0)
  | 0x14 => some (at' l.syncLoss 0)
  | 0x18 => some 0
  | _ => none

end Sys2Proof.Machine
end

