-- ==== Sys2Proof/Machine/FaultOps.lean ====
section
/-! DEFINITION. The fault manager below the reactions (R400 to R418): domains, the rail and device actions, acknowledgement, and
    the FAULT registers. -/

namespace Sys2Proof.Machine

open Sys2Proof

def allRails : List RailIx := List.finRange 8

/-! ## Domains (R32, R34, R401) -/

/-- The rails that take data from a quad (R32). -/
def Dev.fanOut (d : Dev) (q : QuadIx) : List RailIx :=
  allRails.filter fun r => d.railDefined r &&
    ((d.members r).any (fun n => quadOf n == q) || (d.railEnt r).homeQuad == q || match d.portOf r with
      | some p => match d.tile.cur.stores[p] with
        | some s => s.tempQuad == q && s.tempMask != 0
        | none => false
      | none => false)

/-- The storage rail whose port reads an AUX input for temperature. -/
def Dev.tempRail (d : Dev) (q : QuadIx) (k : Nat) : Option RailIx :=
  ((List.finRange 4).filterMap fun p => match d.tile.cur.stores[p] with
    | some s => if s.tempQuad = q ∧ s.tempMask.getLsbD k = true then some s.rail else none
    | none => none).head?

/-- The own domain of a source. -/
inductive Domain where
  | device | rails (rs : List RailIx)
  deriving DecidableEq, Repr

def Dev.slotDomain (d : Dev) (s : CardIx) : Domain := .rails (allRails.filter fun r => d.railDefined r && (d.slotRails s).contains r)

/-- The rail itself, where the running image defines it. -/
def Dev.railDomain (d : Dev) (r : RailIx) : Domain := .rails (if d.railDefined r then [r] else [])

def Dev.domain (d : Dev) (k : SrcIx) (inst : PhaseIx) : Domain :=
  let v := k.val
  if srcPerPhase k then match d.railOf inst with
    | some r => d.railDomain r
    | none => .rails []
  else if 0x20 ≤ v ∧ v < 0x68 then d.railDomain (Fin.ofNat 8 (v % 8))
  else if 0x68 ≤ v ∧ v < 0x74 then .rails (d.fanOut (Fin.ofNat 4 (v % 4)))
  else if 0x74 ≤ v ∧ v < 0x84 then match d.tempRail (Fin.ofNat 4 ((v - 0x74) / 4)) ((v - 0x74) % 4) with
    | some r => d.railDomain r
    | none => .device
  else if 0x84 ≤ v ∧ v < 0x9C then d.slotDomain (Fin.ofNat 8 ((v - 0x84) % 8))
  else if 0xA0 ≤ v ∧ v < 0xB8 then
    let x := (v - 0xA0) % 12
    if x < 4 then .device else d.slotDomain (Fin.ofNat 8 (x - 4))
  else if 0xB8 ≤ v ∧ v < 0xC8 then match d.portRail (Fin.ofNat 4 (v % 4)) with
    | some r => d.railDomain r
    | none => .rails []
  else .device

/-- Origin quad or slot of a source whose own domain is a fan-out; 0xFF otherwise (R415). -/
def originOf (k : SrcIx) : Byte :=
  let v := k.val
  if 0x68 ≤ v ∧ v < 0x74 then BitVec.ofNat 8 (v % 4)
  else if 0x84 ≤ v ∧ v < 0x9C then BitVec.ofNat 8 ((v - 0x84) % 8)
  else if 0xA0 ≤ v ∧ v < 0xB8 ∧ 4 ≤ (v - 0xA0) % 12 then BitVec.ofNat 8 ((v - 0xA0) % 12 - 4) else 0xFF

/-- The rail's fault domain in the committed image: phases, and whether it spans chained devices (R34). -/
def Dev.domainSize (d : Dev) (r : RailIx) : Nat :=
  ((List.finRange 64).filter fun n => d.tile.committed.phases[n].rail == some r).length

def Dev.domainSpans (d : Dev) (r : RailIx) : Bool := match d.tile.committed.chord with
  | some c => c.shared.getLsbD r && decide (1 < popCount c.share[r].members)
  | none => false

/-! ## Actions (R408) -/

/-- What an action does to one rail. -/
def Dev.railAction (d : Dev) (r : RailIx) (action : Nat) : Dev :=
  let m := d.mode r
  let strike := fun (d : Dev) => { d with cyc := { d.cyc with struck := setBit d.cyc.struck r.val true } }
  if action = 2 then (if m.switching then strike (d.stopRail r .hiccup) else d)
  else if 3 ≤ action then (if m.switching || m == .hiccup then strike (d.stopRail r .hold) else d)
  else d

/-- Action 4 (`chain` false) or 5 on the device: every rail to HOLD, STANDBY or RUN to LATCHED; MAINT stays (R38). Its record carries
    the time stamp of the cause (R415). -/
def Dev.deviceAction (d : Dev) (chain : Bool) (ts : Tick) (tbu : Bool) : Dev :=
  let d := allRails.foldl (fun d r => d.railAction r 4) d
  match d.sys.devState with
  | .standby | .run => ({ d with sys := { d.sys with latchCause := if chain then 2 else 1 }, cyc := { d.cyc with latched := true } }).setStateAt .latched ts tbu
  | .latched => if chain then { d with sys := { d.sys with latchCause := 2 } } else d
  | _ => d

/-- An action 5 that starts here is passed on along the chain (R504). -/
def Dev.markHold (d : Dev) : Dev :=
  if d.chord.head then { d with chord := { d.chord with holdMarks := 16 } }
  else if d.chord.enum then { d with chord := { d.chord with holdReports := 16 } } else d

/-! ## Acknowledgement (R412) -/

def Dev.entryOf (d : Dev) (r : RailIx) (c : BitVec 5) : Option OpenEnt := (d.fault.entries[r].find? fun e => e.1 == c).map (·.2)

/-- The entry of a class on a rail is put, its list ascending by class. -/
def Dev.putEntry (d : Dev) (r : RailIx) (c : BitVec 5) (e : OpenEnt) : Dev :=
  { d with fault := { d.fault with entries := upd d.fault.entries r fun es => es.filter (fun x => x.1.toNat < c.toNat) ++ (c, e) :: es.filter fun x => c.toNat < x.1.toNat } }

/-- One entry is acknowledged. -/
def Dev.ackEntry (d : Dev) (r : RailIx) (c : BitVec 5) : Dev := match d.entryOf r c with
  | none => d
  | some e =>
    let d := { d with fault := { d.fault with entries := upd d.fault.entries r fun es => es.filter fun x => x.1 != c } }
    d.note 0x0050 0 r.val ([c.setWidth 8] ++ leBytes 6 e.seq ++ leBytes 2 e.merges.toNat ++ [e.escalations])

/-- A W1C of FAULT.OPEN[r]. -/
def Dev.ackMask (d : Dev) (r : RailIx) (v : Word) : Dev :=
  (List.range 32).foldl (fun d c => if v.getLsbD c then d.ackEntry r (BitVec.ofNat 5 c) else d) d

/-! ## Registers -/

def Dev.statWord (d : Dev) (i : Nat) (f : FSrc → Bool) : Word :=
  maskOf 32 fun j : Fin 32 => f d.fault.src[Fin.ofNat 256 (32 * i + j.val)]

/-- Highest level among the sources with status set; 7: none. -/
def Dev.maxLevel (d : Dev) : Nat :=
  (List.finRange 256).foldl (fun m k => if d.fault.src[k].status then (if m = 7 then d.srcLevel k else max m (d.srcLevel k)) else m) 7

/-- FAULT by offset from 0x07_0000. -/
def Dev.readFault (d : Dev) (off : Nat) : Option Word :=
  let f := d.fault
  if off % 4 != 0 then none
  else if off < 0x20 then some (d.statWord (off / 4) (·.status))
  else if off < 0x40 then some (d.statWord ((off - 0x20) / 4) (·.force))
  else if 0x80 ≤ off ∧ off < 0xA0 then
    some ((f.entries[Fin.ofNat 8 ((off - 0x80) / 4)]).foldl (fun (v : Word) e => setBit v e.1.toNat true) 0)
  else
    let k : SrcIx := Fin.ofNat 256 f.sel.toNat
    let x := f.src[k]
    let cause : BitVec 64 := if x.force then setBit x.cause (if srcPerPhase k then x.forcedInst.val else 0) true else if d.eventNow k 0 then setBit x.cause 0 true else x.cause
    let e := d.entryOf (Fin.ofNat 8 f.selRail.toNat) f.selCls
    match off with
    | 0x40 => some (at' (BitVec.ofNat 6 f.finstDl.val) 24 ||| at' (BitVec.ofNat 6 f.finstCm.val) 16 ||| at' (BitVec.ofNat 6 f.finstTrip.val) 8 |||
        at' (BitVec.ofNat 6 f.finstIlk.val) 0)
    | 0x44 => some (at' f.sel 0)
    | 0x48 => some (at' x.faults 16 ||| (BitVec.ofNat 32 (d.srcLevel k) <<< 8) ||| bitAt x.force 7 ||| bitAt (d.anyCause k) 6 |||
        BitVec.ofNat 32 (d.srcClass k))
    | 0x4C => some (cause.setWidth 32)
    | 0x50 => some (cause.extractLsb' 32 32)
    | 0x54 => some (lo32 x.last)
    | 0x58 => some (hi16 x.last)
    | 0xA0 => some (at' f.selRail 8 ||| at' f.selCls 0)
    | 0xA4 => some (match e with
        | some e => at' e.merges 16 ||| at' e.escalations 8 ||| 8 ||| BitVec.ofNat 32 e.level.val
        | none => 0)
    | 0xA8 => some (match e with
        | some e => lo32 e.seq
        | none => 0)
    | 0xAC => some (match e with
        | some e => hi16 e.seq
        | none => 0)
    | 0xC0 => some (bitAt f.pend 0)
    | 0xC4 => some (lo32 f.alertSeq)
    | 0xC8 => some (hi16 f.alertSeq)
    | 0xD0 => some ((maskOf 8 fun r : RailIx => !f.entries[r].isEmpty).setWidth 32 <<< 8 ||| BitVec.ofNat 32 d.maxLevel)
    | 0xD4 => some (at' f.reactions 16 ||| at' f.merges 0)
    | _ => none

end Sys2Proof.Machine
end

