-- ==== Sys2Proof/Machine/ChordOps.lean ====
section
/-! DEFINITION. Chord below the commands (R484 to R511): frames forwarded and applied, alignment and time, shared rails, breaks
    and divergence, and the CHORD registers. -/

namespace Sys2Proof.Machine

open Sys2Proof

def Dev.updChord (d : Dev) (f : Chord → Chord) : Dev := { d with chord := f d.chord }

/-- The ports run (R484). -/
def Dev.chordRuns (d : Dev) : Bool := d.sys.devState != .boot && !d.clk.onBackup

/-- The Chord transmitters are off, with P below N (R56, R484). -/
def Dev.chTxOff (d : Dev) : Bool := !d.chordRuns

def deviceIdBits : BitVec 64 := BitVec.ofNat 64 (leNat deviceId)

/-- A chain of one: a head that has found no partner (R26, R488). -/
def Dev.alone (d : Dev) : Bool := d.chord.head && d.chord.size == 0 && !d.chord.dnSync

/-- The rail this device shares as chain rail `c`. -/
def Dev.railShared (d : Dev) (c : RailIx) : Option RailIx := allRails.find? fun r => d.sharedAs r == some c

def Dev.shareOf (d : Dev) (r : RailIx) : ShareEnt := match d.tile.cur.chord with
  | some c => c.share[r]
  | none => {}

def Dev.sharedMask (d : Dev) : Byte := match d.tile.cur.chord with
  | some c => c.shared
  | none => 0

/-- The first 8 bytes of CHAIN_DIGEST; 0 without a CHORD section. -/
def Dev.chainDigest (d : Dev) : BitVec 64 := match d.tile.cur.chord with
  | some c => BitVec.ofNat 64 (leNat (slice c.digest 0 8))
  | none => 0

/-- The classes of R501: 0 OFF, 1 switching, 2 HICCUP, 3 HOLD. -/
def modeClass (m : BitVec 3) : Nat := if m = 0 then 0 else if m = 6 then 2 else if m = 7 then 3 else 1

/-! ## Frames (R485, R487, R491, R493) -/

/-- Header and payload of a frame (R485). -/
def chordFrame (type hop : Byte) (sweep : Word) (payload : List Byte) : List Byte :=
  [type, hop] ++ leBytes 2 payload.length ++ leBytes 4 sweep.toNat ++ payload

def ChainRail.bytes (x : ChainRail) : List Byte :=
  [x.mode.setWidth 8, (bitAt x.defined 0 ||| bitAt x.held 1).setWidth 8] ++ leBytes 2 x.slew.toNat ++ leBytes 4 x.target.toNat ++ leBytes 4 x.total.toNat

def ChainRail.read (bs : List Byte) : ChainRail :=
  { mode := (byteAt bs 0).setWidth 3, defined := (byteAt bs 1).getLsbD 0, held := (byteAt bs 1).getLsbD 1, slew := BitVec.ofNat 16 (numAt bs 2 2), target := wordAt bs 4, total := wordAt bs 8 }

def DownFrame.bytes (f : DownFrame) : List Byte :=
  chordFrame 0x12 f.hop f.sweep (leBytes 8 f.headId.toNat ++ leBytes 8 f.tb ++ leBytes 4 f.syncIndex.toNat ++ leBytes 2 f.syncPer.toNat ++ leBytes 2 f.delay.toNat ++
    [f.state.setWidth 8, f.size, (bitAt f.hold 0).setWidth 8, f.step] ++ leBytes 4 f.fwver.toNat ++ leBytes 8 f.digest.toNat ++ f.rails.toList.flatMap ChainRail.bytes)

/-- A DOWN as its bytes say; a byte that a shorter payload does not hold reads as 0 (assumption 102). -/
def DownFrame.read (bs : List Byte) : DownFrame :=
  let p := bs.drop 8
  { hop := byteAt bs 1, sweep := wordAt bs 4, headId := BitVec.ofNat 64 (numAt p 0 8), tb := numAt p 8 8, syncIndex := wordAt p 16, syncPer := BitVec.ofNat 16 (numAt p 20 2), delay := BitVec.ofNat 16 (numAt p 22 2), state := (byteAt p 24).setWidth 2, size := byteAt p 25, hold := (byteAt p 26).getLsbD 0, step := byteAt p 27, fwver := wordAt p 28, digest := BitVec.ofNat 64 (numAt p 32 8), rails := Vector.ofFn fun c => ChainRail.read (slice p (40 + 12 * c.val) 12) }

def ReportRail.bytes (x : ReportRail) : List Byte :=
  leBytes 2 x.current.toNat ++ [(at' x.mode 0 ||| at' x.event 3 ||| bitAt x.shared 5 : Word).setWidth 8]

def ReportRail.read (bs : List Byte) : ReportRail :=
  let b := byteAt bs 2
  { current := BitVec.ofNat 16 (numAt bs 0 2), mode := b.setWidth 3, event := (b >>> 3).setWidth 2, shared := b.getLsbD 5 }

def Report.bytes (x : Report) : List Byte :=
  [x.pos, (bitAt x.downOk 0 ||| bitAt x.holdReq 1 ||| bitAt x.free 2).setWidth 8, x.mismatch.setWidth 8, 0] ++ x.rails.toList.flatMap ReportRail.bytes

def Report.read (bs : List Byte) : Report :=
  let b := byteAt bs 1
  { pos := byteAt bs 0, downOk := b.getLsbD 0, holdReq := b.getLsbD 1, free := b.getLsbD 2, mismatch := (byteAt bs 2).setWidth 6, rails := Vector.ofFn fun c => ReportRail.read (slice bs (4 + 3 * c.val) 3) }

def UpFrame.bytes (f : UpFrame) : List Byte := chordFrame 0x13 f.hop f.sweep (f.reports.flatMap Report.bytes)

/-- An UP as its bytes say: as many reports as its payload holds. -/
def UpFrame.read (bs : List Byte) : UpFrame :=
  { hop := byteAt bs 1, sweep := wordAt bs 4, reports := (List.range ((bs.length - 8) / 28)).map fun i => Report.read (slice bs (8 + 28 * i) 28) }

/-- The symbols of a frame that the device sends; a forwarded frame that failed reception carries a spoilt CRC (R486). -/
def ChordTx.symbols : ChordTx → List Symbol
  | .probe p => frameSymbols (chordFrame 0x10 0 0 p) 0
  | .echo p => frameSymbols (chordFrame 0x11 0 0 p) 0
  | .down f spoilt => frameSymbols (DownFrame.bytes f) (if spoilt then 0xFFFFFFFF else 0)
  | .up f spoilt => frameSymbols (UpFrame.bytes f) (if spoilt then 0xFFFFFFFF else 0)

/-- Header and payload of what was received from a SOF on. -/
def chordBytes (xs : List RxSymbol) : List Byte := (receivedData xs).1.take (8 + numAt (receivedData xs).1 2 2)

/-- What was received passes reception as a frame of a type (R463, R485). -/
def chordIntact (type : Byte) (xs : List RxSymbol) : Bool :=
  (receivedData xs).2 && bytesHold 512 (receivedData xs).1 && byteAt (receivedData xs).1 0 == type

/-! ## Causes (R497, R506, R509) -/

/-- Every cause that Chord holds present. -/
def Dev.chordCauses (d : Dev) : Dev :=
  let d := (d.setCause srcSlip 0 d.chord.free).setCause srcDivergent 0 (d.chord.st == 3)
  allRails.foldl (fun d r =>
    let on := d.railDefined r && match d.chord.brokenSince with
      | some b => (d.sharedAs r).isNone || decide (b + d.chord.ride.toNat * msTicks ≤ d.clk.now)
      | none => false
    d.setCause (srcChordBreak r) 0 on) d

/-- The device enters BROKEN and journals it (R489, R505); its shared rails hold their agreed values (R506). -/
def Dev.enterBroken (d : Dev) (source : Nat) (oos : Byte) : Dev :=
  if d.chord.brokenSince.isSome then d
  else
    let d := d.updChord fun c => { c with st := 2, brokenSince := some d.clk.now, held := d.sharedMask }
    (d.note 0x0341 1 source (leBytes 4 d.chord.sweep.toNat ++ [oos])).chordCauses

/-! ## Alignment and time (R495 to R498) -/

/-- The carrier error of a member at the cycle's first tick; `since` ticks after the SOF. -/
def Dev.syncError (d : Dev) (f : DownFrame) (since : Nat) : Int :=
  let per := d.pwmg.syncPer.toNat
  let own : Int := d.cycleTick - (d.pwmg.dev.valley : Int)
  let expected := f.syncIndex.toNat + f.delay.toNat + since
  let e := (own - expected) % (2 * per : Nat)
  if (per : Int) ≤ e then e - 2 * per else e

def Dev.setFree (d : Dev) (slip : Int) : Dev :=
  d.updChord fun c => { c with free := true, slips := if c.free then c.slips else c.slips + 1, slipLeft := slip, corr := 0 }

/-- Alignment at an applied DOWN. -/
def Dev.align (d : Dev) (f : DownFrame) (since : Nat) : Dev :=
  if d.pwmg.syncPer != f.syncPer then d.setFree 0
  else
    let e := d.syncError f since
    let d := d.updChord fun c => { c with err := BitVec.ofInt 16 e }
    let d := if d.chord.free && decide (d.chord.slipLeft.natAbs ≤ 2) then d.updChord fun c => { c with free := false, slipLeft := 0 } else d
    if d.chord.free then d
    else if e.natAbs ≤ 2 then d.updChord fun c => { c with corr := e }
    else d.setFree e

/-- The correction of one valley of the device reference is carried to every aligned phase of the rails that run at the chain's
    period (R496, R497). -/
def Dev.carrySync (d : Dev) : Dev :=
  let c := d.chord
  let lim : Int := 2 * d.pwmg.syncPer.toNat / 100
  let x : Int := if c.free then clampI (-lim) lim c.slipLeft else c.corr
  if x = 0 then d
  else
    let left := c.slipLeft - x
    let d := if c.free then d.updChord fun c => { c with slipLeft := if left.natAbs ≤ 2 then 0 else left, free := decide (2 < left.natAbs) }
      else d.updChord fun c => { c with corr := 0 }
    let d := allRails.foldl (fun d r =>
      if d.pwmg.refs[r].running && d.pwmg.rper[r] == d.pwmg.syncPer then
        let d := { d with pwmg := { d.pwmg with refs := upd d.pwmg.refs r fun c => c.extend d.pwmg.dev.valley x } }
        (d.members r).foldl (fun d n => if d.aligned n then d.updPwm n fun p => { p with corr := p.corr + x } else d) d
      else d) { d with pwmg := { d.pwmg with dev := d.pwmg.dev.extend d.pwmg.dev.valley x } }
    d.chordCauses

/-- One count of discipline, inserted or withheld (R115); ADJ saturates. It shows from the next tick. -/
def Clk.discipline (c : Clk) (diff : Int) : Clk :=
  let ready := match c.lastAdj with
    | some t => decide (t + 4800 ≤ c.now)
    | none => true
  if diff = 0 || !ready then c
  else
    let k : Int := if 0 < diff then -1 else 1
    { c with off := c.off + k, adj := satS 32 (c.adj.toInt + k), lastAdj := some c.now, adjAt := some (c.now, k) }

/-- The time step of R116, which shows from the next tick, at the first DOWN applied after joining, when every rail is OFF (also by a difference of 0, assumption 88);
    discipline otherwise (R115). -/
def Dev.disciplineTb (d : Dev) (diff : Int) : Dev :=
  let due := d.chord.stepDue
  let d := d.updChord fun c => { c with stepDue := false }
  if due && d.allOff then
    let old := d.tb
    let d := { d with clk := { d.clk with off := d.clk.off - diff, adjAt := some (d.clk.now, -diff), turn := d.clk.turn + wholeCycles (-diff) } }
    d.note 0x0017 1 0xFFFF (leBytes 8 old ++ leBytes 8 (old - diff).toNat)
  else { d with clk := d.clk.discipline diff }

/-- The time comparison at an applied DOWN (R498). -/
def Dev.compareTime (d : Dev) (f : DownFrame) (since : Nat) : Dev :=
  let diff : Int := (d.clk.tbAt d.cycleTick : Int) - (f.tb + f.delay.toNat + since : Nat)
  (d.updChord fun c => { c with terr := satS 32 diff, timeOk := decide (diff.natAbs ≤ 480) }).disciplineTb diff

/-! ## Shared rails (R499 to R503) -/

/-- What the image itself gets wrong about the chain (R154, R499): for the device at a position, in a chain of a size. -/
def Dev.configBad (d : Dev) (size : Nat) (defined : RailIx → Bool) : Bool := match d.tile.cur.chord with
  | none => d.tile.tiled
  | some c => c.position.val != d.chord.position.toNat || (size != 0 && size != c.size.toNat) ||
      allRails.any fun r => c.shared.getLsbD r.val && ((d.railEnt r).storage || !c.share[r].members.getLsbD 0 || !defined c.share[r].chainRail)

/-- A rail can go to RAMP: ordinary, its VSCALE set, the device and the SAFE inputs allowing it (R319, R322). -/
def Dev.canRamp (d : Dev) (r : RailIx) : Bool := d.railDefined r && !(d.railEnt r).storage && d.rails[r].vscale != 0 && d.takesOn

/-- The member's rail may leave OFF for RAMP by the rules of ON (R322, R501), and HICCUP as a retry does, which asks no fault (R336;
    DEDUCED, assumption 103). -/
def Dev.mayRamp (d : Dev) (r : RailIx) : Bool := d.canRamp r && match d.mode r with
  | .off => d.chord.armed.getLsbD r && !d.deviceBars r && !d.faultBars r
  | .hiccup => true
  | _ => false

/-- A reaction, or a stop of the member's own, has the rail in this LOOP_CLK cycle, before the rail manager (R27, R40). -/
def Dev.heldInCycle (d : Dev) (r : RailIx) : Bool := d.latchedNow || d.cyc.struck.getLsbD r.val || d.cyc.stopped.getLsbD r.val

/-- A member's rail takes the transition that the applied MODE calls for (R501). -/
def Dev.followMode (d : Dev) (r : RailIx) (m : BitVec 3) : Dev :=
  let kept := d.chord.events
  let d := if modeClass m = 0 then d.updChord fun c => { c with armed := setBit c.armed r true } else d
  let own := d.mode r
  let d := if modeClass own.code = modeClass m || d.heldInCycle r then d
    else match modeClass m with
      | 0 => if d.sys.devState = .run then d.commandOff r else d
      | 1 => if d.mayRamp r then (d.clearTrips r).enterRamp r else d
      | 2 => if own.switching then d.stopRail r .hiccup else d
      | _ => d.railAction r 3
  d.updChord fun c => { c with events := kept }

/-- REF of every sharing context of a rail (R503). With ISCALE 0 the spec states none, and it is free. -/
def Dev.writeShare (d : Dev) (r : RailIx) (total : Int) : Dev :=
  let a := d.activeCount r
  let k := d.rails[r].iscale.toNat * a
  let share := rhe (total * (d.shareOf r).share.toNat * (100 + d.chord.shMargin.toNat)) 6553600
  (d.auxOf r).foldl (fun d c =>
    if a = 0 then d
    else if k = 0 then
      let (w, d) := d.fresh
      d.updCtx c fun x => { x with ref := w }
    else d.setRef c (rhe (share * 1000) k)) d

/-- One shared rail at an applied DOWN (R492 step 3). -/
def Dev.applyRail (d : Dev) (r : RailIx) (x : ChainRail) : Dev := match d.sharedAs r with
  | none => d
  | some c =>
    let d := d.updChord fun y => { y with agreed := y.agreed.set c x, total := y.total.set c x.total, held := setBit y.held r x.held }
    let d := if x.held then d else d.writeShare r x.total.toInt
    d.followMode r x.mode

/-! ## Chain HOLD (R504) -/

/-- A chain HOLD received: recorded, then taken as action 5, and not passed on; it is no event of the device's own (R502). -/
def Dev.takeChainHold (d : Dev) (sweep : Word) (origin : Byte) : Dev :=
  if d.sys.devState = .latched ∧ d.sys.latchCause = 2 then d
  else
    let kept := d.chord.events
    let d := d.noteNext 0x0342 4 d.chord.position.toNat (leBytes 4 sweep.toNat ++ [origin])
    let d := ({ d with fault := { d.fault with reactions := d.fault.reactions + 1 } }).deviceAction true d.clk.now d.clk.tbUncertain
    d.updChord fun c => { c with events := kept }

/-! ## Members (R486, R488, R492, R493, R505 to R508) -/

/-- What a member finds different from a DOWN it applies (R508). -/
def Dev.mismatch (d : Dev) (f : DownFrame) : BitVec 6 :=
  let rail := allRails.any fun r => match d.sharedAs r with
    | some c =>
      let e := d.chord.events[r]
      modeClass (d.mode r).code != modeClass f.rails[c].mode && e.pend == 0 && e.recent == 0
    | none => false
  let config := d.configBad f.size.toNat (fun c => f.rails[c].defined) || d.pwmg.syncPer != f.syncPer || d.chord.headId != some f.headId
  (bitAt (d.chainDigest != f.digest) 0 ||| bitAt (f.step != 0x2) 1 ||| bitAt (Config.fwver != f.fwver) 2 ||| bitAt (!d.chord.timeOk) 3 |||
    bitAt rail 4 ||| bitAt config 5).setWidth 6

/-- The member's report on the DOWN it last applied (R493). -/
def Dev.report (d : Dev) : Report :=
  let rail := fun c : RailIx => match d.railShared c with
    | some r => { current := BitVec.ofInt 16 (clampI (-32767) 32767 (rhe d.loop.rails[r].keyI.toInt 250)), mode := (d.mode r).code, event := d.chord.events[r].pend, shared := true }
    | none => ({} : ReportRail)
  { pos := d.chord.position.setWidth 8, downOk := true, holdReq := d.chord.holdReports != 0, free := d.chord.free, mismatch := d.chord.cause, rails := Vector.ofFn rail }

/-- The report has been put into an UP: its events and its hold request are spent. -/
def Dev.reported (d : Dev) : Dev :=
  d.updChord fun c => { c with holdReports := c.holdReports - 1, events := mapV c.events fun _ e => if e.pend = 0 then e else { pend := 0, recent := 2 } }

/-- A member applies a DOWN (R492). One that carries STATE BROKEN takes the member into BROKEN, or keeps it there (R505, R506). -/
def Dev.applyDown (d : Dev) (f : DownFrame) (since : Nat) : Dev :=
  let same := d.chord.headId.isNone || d.chord.headId == some f.headId
  let d := (d.event 0x0800).updChord fun c =>
    { c with sweep := f.sweep, applied := c.applied + 1, fromHead := f.delay, lastDown := some d.clk.now, rxSize := f.size, headId := some (c.headId.getD f.headId), brokenSince := if same && f.state != 2 then none else c.brokenSince, unjoined := false }
  let d := d.updChord fun c => { c with st := if c.brokenSince.isSome then 2 else f.state, size := f.size.setWidth 4 }
  let d := if f.state = 2 then d.enterBroken d.chord.position.toNat 0 else d
  let d := (d.align f since).compareTime f since
  let bad := d.mismatch f
  let d := d.updChord fun c => { c with cause := bad, events := mapV c.events fun _ e => { e with recent := e.recent - 1 } }
  let d := allRails.foldl (fun d r => match d.sharedAs r with
    | some c => d.applyRail r f.rails[c]
    | none => d) d
  let d := if f.hold then d.takeChainHold f.sweep 0xFF else d
  let d := d.chordCauses
  if d.chord.dnSync then d
  else
    let up : UpFrame := { hop := 1, sweep := f.sweep, reports := [d.report] }
    (d.updChord fun c => { c with txUp := some (.up up false) }).reported

/-- A DOWN that failed reception fires SWEEP_BAD (R492). -/
def Dev.sweepBad (d : Dev) : Dev := (d.event 0x0801).updChord fun c => { c with bad := c.bad + 1 }

/-- A DOWN arrives on the upstream port (R486, R488, R492). -/
def Dev.downRx (d : Dev) (f : DownFrame) (intact : Bool) (since : Nat) : Dev :=
  let c := d.chord
  if !d.chordRuns || c.head || c.loop || c.posOvf || !c.upSync then d
  else if intact && !c.enum && decide (8 ≤ f.hop.toNat) then d.updChord fun c => { c with posOvf := true }
  else
    let d := d.updChord fun c => { c with txDn := some (.down { f with hop := f.hop + 1, delay := f.delay + 48 + c.linkDn } (!intact)) }
    if !intact then d.sweepBad
    else
      let d := if c.enum then d else d.updChord fun c => { c with enum := true, position := f.hop.setWidth 3, stepDue := true }
      if d.chord.headId.isSome && decide (f.sweep.toNat ≤ d.chord.sweep.toNat) then d else d.applyDown f since

/-- No DOWN has been applied for two sweep periods (R505). -/
def Dev.memberBreak (d : Dev) : Dev :=
  let late := match d.chord.lastDown with
    | some t => decide (t + 9600 ≤ d.clk.now)
    | none => false
  if d.chordRuns && d.chord.enum && !d.chord.head && late then (d.updChord fun c => { c with stepDue := true }).enterBroken d.chord.position.toNat 0 else d

/-- No intact DOWN within 2 ms (R489). -/
def Dev.unjoin (d : Dev) : Dev :=
  let c := d.chord
  let since := match c.leftBoot, c.upSyncAt with
    | some a, some b => some (max a b)
    | _, _ => none
  let late := match since with
    | some t => decide (t + 2 * msTicks ≤ d.clk.now)
    | none => false
  if d.chordRuns && c.upSync && !c.enum && !c.posOvf && !c.unjoined && late then
    (d.updChord fun c => { c with unjoined := true, stepDue := true }).enterBroken 0x00FF 0
  else d

/-! ## The head (R490, R491, R494, R502, R505 to R508) -/

/-- One chain rail as the head sends it (R500). -/
def Dev.sentRail (d : Dev) (c : RailIx) : ChainRail := match d.railShared c with
  | none => {}
  | some r =>
    let held := d.chord.st == 2 || d.chord.st == 3
    let a := d.chord.agreed[c]
    if held then { a with mode := (d.mode r).code, defined := d.railDefined r, held := true }
    else { mode := (d.mode r).code, defined := d.railDefined r, held := false, slew := BitVec.ofNat 16 d.sp.sp[r].lastSlew, target := d.sp.sp[r].cmdMv.setWidth 32, total := d.chord.total[c] }

/-- A sweep is incomplete; `present` are the positions whose reports arrived (R494, R505). -/
def Dev.incomplete (d : Dev) (present : Byte) : Dev :=
  let d := d.sweepBad
  if d.chord.size = 0 then d.updChord fun c => { c with runCount := 0 }
  else
    let inChain := fun i : Fin 8 => decide (1 ≤ i.val) && decide (i.val < d.chord.size.toNat) && !d.chord.oos.getLsbD i
    let d := d.updChord fun c =>
      { c with pos := mapV c.pos fun i x => { x with missing := if inChain i && !present.getLsbD i then x.missing + 1 else 0 } }
    let lost : Byte := maskOf 8 fun i : Fin 8 => decide (2 ≤ d.chord.pos[i].missing)
    if lost = 0 then d
    else
      let d := d.updChord fun c =>
        { c with oos := c.oos ||| lost, lost := c.lost ||| lost, pos := mapV c.pos fun i x => if lost.getLsbD i then {} else x }
      d.enterBroken 0 d.chord.oos

/-- The mark of the head's sweep (R491). The head of a chain of one counts its sweeps and the marks of a chain HOLD, and sends
    nothing (R26, R488). -/
def Dev.sweepMark (d : Dev) : Dev :=
  if !d.chordRuns || !d.chord.head || d.tb % 4800 != 0 then d
  else if d.alone then d.updChord fun c => { c with sent := c.sent + 1, awaiting := [], holdMarks := c.holdMarks - 1 }
  else
    let k := d.chord.sent + 1
    let late := d.chord.awaiting.contains (k - 2)
    let d := d.updChord fun c => { c with sent := k, lost := 0, awaiting := c.awaiting.filter fun x => x != k - 2 }
    let d := if late then d.incomplete 0 else d
    let rails := Vector.ofFn fun c : RailIx => d.sentRail c
    let f : DownFrame :=
      { hop := 1, sweep := k, headId := deviceIdBits, tb := d.tb, syncIndex := BitVec.ofNat 32 ((d.clk.now - d.pwmg.dev.valley) % (2 * d.pwmg.syncPer.toNat)), syncPer := d.pwmg.syncPer, delay := d.chord.linkDn, state := d.chord.st, size := d.chord.size.setWidth 8, hold := d.chord.holdMarks != 0, step := 0x2, fwver := Config.fwver, digest := d.chainDigest, rails := rails }
    d.updChord fun c =>
      { c with awaiting := k :: c.awaiting, txDn := some (.down f false), holdMarks := c.holdMarks - 1, agreed := mapV c.agreed fun i a => if rails[i].held then a else rails[i] }

/-- The head's own check of a position's report against its image (R499). -/
def Dev.sharedDisagrees (d : Dev) (x : Report) : Bool := allRails.any fun c =>
  let named := match d.railShared c with
    | some r => (d.shareOf r).members.getLsbD x.pos.toNat
    | none => false
  x.rails[c].shared != named

/-- TOTAL of every chain rail, and the sharing references where HELD is clear (R503). -/
def Dev.formTotals (d : Dev) (f : UpFrame) (held : Bool) : Dev :=
  allRails.foldl (fun d c => match d.railShared c with
    | none => d
    | some r =>
      let m := (d.shareOf r).members
      let others := (f.reports.filter fun x => m.getLsbD x.pos.toNat).map fun x => x.rails[c].current.toInt
      let sum := d.loop.rails[r].keyI.toInt + 250 * others.sum
      let (w, d) := d.fit sum
      let d := d.updChord fun y => { y with total := y.total.set c w }
      if held then d else d.writeShare r sum) d

/-- The EVENTs of a report (R502). -/
def Dev.takeEvents (d : Dev) (x : Report) : Dev :=
  allRails.foldl (fun d c =>
    let e := x.rails[c].event
    match d.railShared c with
    | none => d
    | some r =>
      if e = 0 then d
      else
        let d := if (d.mode r).switching then d.stopRail r (if e = 1 then .hiccup else .hold) else d
        d.note 0x0345 0 c.val [x.pos, e.setWidth 8, (d.mode r).code.setWidth 8]) d

/-- SIZE is fixed by 16 sweeps with the same number of reports (R490). -/
def Dev.countForming (d : Dev) (n : Nat) : Dev :=
  if d.chord.size != 0 then d
  else
    let k := if d.chord.runReports = n then d.chord.runCount + 1 else 1
    let d := d.updChord fun c => { c with runReports := n, runCount := k }
    if k < 16 then d
    else
      let d := d.updChord fun c => { c with size := BitVec.ofNat 4 (n + 1), goodRun := 16 }
      d.note 0x0340 0 0 (BitVec.ofNat 8 (n + 1) :: deviceId)

/-- The chain state after an applied sweep (R507, R508). -/
def Dev.settleChain (d : Dev) : Dev :=
  let c := d.chord
  let st : BitVec 2 := if c.size = 0 then 0 else if c.oos != 0 then 2 else if c.goodRun < 16 then 3 else 1
  let d := d.updChord fun c =>
    { c with st := st, brokenSince := if st = 2 then c.brokenSince else none, held := if st = 2 ∨ st = 3 then d.sharedMask else 0 }
  if st = 1 ∧ (c.st = 2 ∨ c.st = 3) then d.note 0x0343 0 0 (leBytes 4 c.sweep.toNat) else d

/-- The head applies a sweep (R494). -/
def Dev.applySweep (d : Dev) (f : UpFrame) : Dev :=
  let reach : Byte := f.reports.foldl (fun (m : Byte) x => setBit m x.pos.toNat true) 1
  let d := (d.event 0x0800).updChord fun c =>
    { c with sweep := f.sweep, applied := c.applied + 1, reach := reach, oos := maskOf 8 fun i : Fin 8 => c.oos.getLsbD i && !(reach.getLsbD i && decide (16 ≤ c.pos[i].back + 1)), pos := mapV c.pos fun i x => { missing := 0, back := if c.oos.getLsbD i && reach.getLsbD i then x.back + 1 else 0 } }
  let d := d.countForming f.reports.length
  let own := d.configBad d.chord.size.toNat (fun c => (d.railShared c).isSome) && decide (1 < d.chord.size.toNat)
  let shown := fun x : Report => x.mismatch ||| if d.sharedDisagrees x then 0x20 else 0
  let bad : Byte := f.reports.foldl (fun (m : Byte) x => if shown x = 0 then m else setBit m x.pos.toNat true) (if own then 1 else 0)
  let cause := f.reports.foldl (fun (m : BitVec 6) x => m ||| shown x) (if own then 0x20 else 0)
  let d := d.updChord fun c => { c with mismatchPos := bad, cause := cause, goodRun := if bad = 0 then min 16 (c.goodRun + 1) else 0 }
  let d := d.settleChain
  let d := d.formTotals f (d.chord.st == 2 || d.chord.st == 3)
  let d := f.reports.foldl Dev.takeEvents d
  let asking : Byte := f.reports.foldl (fun m x => setBit m x.pos.toNat x.holdReq) d.chord.holdFrom
  let d := d.updChord fun c => { c with holdFrom := asking, holdMarks := if asking &&& ~~~c.holdFrom = 0 then c.holdMarks else 16 }
  let d := match f.reports.find? fun x => x.holdReq with
    | some x => d.takeChainHold f.sweep x.pos
    | none => d
  d.chordCauses

/-- An UP arrives on the downstream port (R486, R493, R494). -/
def Dev.upRx (d : Dev) (f : UpFrame) (intact : Bool) : Dev :=
  let c := d.chord
  if !d.chordRuns || c.loop || c.posOvf || !c.dnSync then d
  else if c.head then
    if !c.awaiting.contains f.sweep then d
    else
      let d := d.updChord fun c => { c with awaiting := c.awaiting.filter fun x => x != f.sweep }
      let present : Byte := f.reports.foldl (fun (m : Byte) x => setBit m x.pos.toNat true) 0
      let whole := (List.range c.size.toNat).all fun i => i == 0 || (c.oos.getLsbD i && !c.lost.getLsbD i) || present.getLsbD i
      if !intact then d.incomplete 0 else if whole then d.applySweep f else d.incomplete present
  else if c.enum && c.headId.isSome && f.sweep == c.sweep then
    (d.updChord fun x => { x with txUp := some (.up { f with hop := f.hop + 1, reports := f.reports ++ [d.report] } (!intact)) }).reported
  else d.updChord fun x => { x with txUp := some (.up f (!intact)) }

/-! ## Enumeration (R484, R487, R488) -/

/-- A receiver gains or loses symbol sync. -/
def Dev.portSync (d : Dev) (up sync : Bool) : Dev :=
  if !d.chordRuns then d
  else if up then d.updChord fun c => { c with upSync := sync, upSyncAt := if sync && !c.upSync then some d.clk.now else c.upSyncAt }
  else d.updChord fun c => { c with dnSync := sync }

/-- The device becomes the head (R488). -/
def Dev.becomeHead (d : Dev) : Dev :=
  let c := d.chord
  let late := match c.leftBoot with
    | some t => decide (t + 200 * usTicks ≤ d.clk.now)
    | none => false
  if d.chordRuns && late && c.upSyncAt.isNone && !c.enum then
    d.updChord fun c => { c with head := true, enum := true, position := 0 }
  else d

/-- The payload of a PROBE. -/
def probePayload : List Byte := deviceId ++ [0, 0, 0, 0]

/-- The DEVICE_ID in the payload of a PROBE or an ECHO that was received. -/
def chordId (xs : List RxSymbol) : BitVec 64 := BitVec.ofNat 64 (numAt (chordBytes xs) 8 8)

/-- A PROBE is due: a millisecond has passed since the last (R487). -/
def Dev.probeDue (d : Dev) : Bool := match d.chord.probeSent with
  | some t => decide (t + msTicks ≤ d.clk.now)
  | none => true

def Dev.probeSend (d : Dev) : Dev :=
  if d.chordRuns && !d.chord.loop && !d.chord.posOvf && d.probeDue then
    d.updChord fun c => { c with txDn := some (.probe probePayload), probeSent := some d.clk.now }
  else d

/-- A PROBE that fails reception is discarded, and not answered (assumption 102). -/
def Dev.probeRx (d : Dev) (xs : List RxSymbol) : Dev :=
  if !d.chordRuns || d.chord.head || !d.chord.upSync || !chordIntact 0x10 xs then d
  else d.updChord fun c => { c with txUp := some (.echo ((chordBytes xs).drop 8)), loop := c.loop || chordId xs == deviceIdBits }

def Dev.echoRx (d : Dev) (xs : List RxSymbol) (rt : Nat) : Dev :=
  if d.chordRuns && d.chord.dnSync && chordIntact 0x11 xs && chordId xs == deviceIdBits then d.updChord fun c => { c with linkDn := satN 16 (rhe ((rt - 48 : Nat) : Int) 2).toNat }
  else d

/-! ## Registers -/

/-- CHORD by offset from 0x0B_0000. -/
def Dev.readChord (d : Dev) (off : Nat) : Option Word :=
  let c := d.chord
  if 0x40 ≤ off ∧ off < 0x60 then if off % 4 = 0 then some c.total[Fin.ofNat 8 ((off - 0x40) / 4)] else none
  else match off with
    | 0x00 => some (at' c.size 20 ||| at' c.st 16 ||| bitAt c.free 11 ||| bitAt c.timeOk 10 ||| bitAt c.dnSync 9 ||| bitAt c.upSync 8 |||
        bitAt c.posOvf 6 ||| bitAt c.loop 5 ||| bitAt c.enum 4 ||| bitAt c.head 3 ||| at' c.position 0)
    | 0x04 => some (at' c.shMargin 24 ||| at' c.ride 0)
    | 0x08 => some (at' c.mismatchPos 16 ||| at' c.oos 8 ||| at' (if c.head then c.reach ||| 1 else c.reach) 0)
    | 0x0C => some (at' c.cause 0)
    | 0x10 => some c.sweep
    | 0x14 => some (at' c.applied 16 ||| at' c.bad 0)
    | 0x18 => some (at' c.slips 16 ||| at' c.err 0)
    | 0x1C => some c.terr
    | 0x20 => some (at' c.linkDn 16 ||| at' c.fromHead 0)
    | 0x24 => some (at' c.held 8 ||| at' d.sharedMask 0)
    | _ => none

end Sys2Proof.Machine
end

