-- ==== Sys2Proof/Machine/SysOps.lean ====
section
/-! DEFINITION. Device state, pins, temperature and clocks below the commands (R35 to R59, R101 to R116), and the SYS and CLK
    registers. -/

namespace Sys2Proof.Machine

open Sys2Proof

def Dev.updSys (d : Dev) (f : Sys → Sys) : Dev := { d with sys := f d.sys }
def Dev.updClk (d : Dev) (f : Clk → Clk) : Dev := { d with clk := f d.clk }

/-- JTAG_DRIVE (R59, R402). -/
def Dev.jtagCause (d : Dev) : Dev := d.setCause srcJtag 0 (d.sys.jtag && !d.allOff)

/-- The clock sources (R109, R402). -/
def Dev.clockCauses (d : Dev) : Dev := (d.setCause srcRefLoss 0 (!d.clk.refOk)).setCause srcUnlock 0 (!d.clk.pllLock)

/-- TEMP in 0.125 °C codes meets the condition that would change a flag: beyond its set threshold, or back at its clear
    threshold (R102). -/
def tempTurns (flag : Bool) (temp set clear : Int) : Bool := if flag then decide (temp ≤ clear) else decide (set < temp)

/-- A reading of the die temperature starts, keeps or ends each dwell. -/
def Sys.reading (s : Sys) (code : BitVec 12) (now : Tick) : Sys :=
  let t := code.toInt
  { s with temp := code, hotSince := if tempTurns s.hot t 800 776 then some (s.hotSince.getD now) else none, overSince := if tempTurns s.overtemp t 880 856 then some (s.overSince.getD now) else none }

/-- A dwell of 10 ms has run. -/
def tempDue (since : Option Tick) (now : Tick) : Bool := match since with
  | some t => decide (t + 10 * msTicks ≤ now)
  | none => false

/-- The flags whose dwell has run change, with their causes. -/
def Dev.tempDwell (d : Dev) : Dev :=
  let now := d.clk.now
  let d := if tempDue d.sys.hotSince now then (d.updSys fun s => { s with hot := !s.hot, hotSince := none }) else d
  let d := if tempDue d.sys.overSince now then (d.updSys fun s => { s with overtemp := !s.overtemp, overSince := none }) else d
  (d.setCause srcDieHot 0 d.sys.hot).setCause srcDieOvertemp 0 d.sys.overtemp

/-! ## SYS.CTRL (R45, R46) -/

/-- The causes that refuse leaving MAINT or LATCHED. -/
def Dev.releaseStatus (d : Dev) (st : DevState) : Byte :=
  if d.sys.devState != st then stState else if d.hasSevere then stCause else stOk

/-- Every rail in a mode other than OFF is forced to OFF (R37). -/
def Dev.forceOff (d : Dev) : Dev := allRails.foldl (fun d r => if d.mode r = .off then d else d.commandOff r) d

/-- MAINT_ENTER; a STANDBY to RUN of the same cycle is dropped for it (R40). -/
def Dev.maintEnter (d : Dev) : Dev × Byte :=
  let s := d.sys.devState
  let drops := s == .run && d.cyc.no == d.cycle && d.cyc.state == .standby
  if d.latchedNow then (d, stFault)
  else if s == .standby || s == .latched || drops then
    let d := if drops then d.updSys fun s => { s with devState := .standby } else d
    (((d.forceOff).updSys fun s => { s with latchCause := 0 }).setState .maint, stOk)
  else (d, stState)

/-- MAINT_EXIT ends every HOST_OVR (R199). -/
def Dev.maintExit (d : Dev) : Dev × Byte :=
  let st := d.releaseStatus .maint
  if st = stOk then (((List.finRange 64).foldl Dev.endHostOvr d).setState .standby, stOk) else (d, st)

def Dev.latchRelease (d : Dev) : Dev × Byte :=
  let st := if d.latchedNow then stFault else d.releaseStatus .latched
  if st = stOk then ((d.updSys fun s => { s with latchCause := 0 }).setState (if d.allOff then .standby else .run), stOk) else (d, st)

/-- A WRITE of SYS.CTRL. -/
def Dev.writeSysCtrl (d : Dev) (v : Word) : Dev × Byte :=
  match fld v 0 3 with
  | 0 => (d, stOk)
  | 1 => d.maintEnter
  | 2 => d.maintExit
  | 4 => d.latchRelease
  | _ => (d, stState)

/-! ## The epoch and the time base (R113, R114) -/

/-- A WRITE of CLK.EPOCH_HI. -/
def Dev.writeEpochHi (d : Dev) (v : Word) : Dev :=
  let t := d.tb
  let d := d.updClk fun c => { c with epochHi := v, epochTbLo := lo32 t, epochTbHi := lo32 (t >>> 32) }
  d.note 0x0016 0 0xFFFF (leBytes 4 d.clk.epochLo.toNat ++ leBytes 4 v.toNat ++ leBytes 8 t)

/-- A read of CLK.TB_LO copies the upper half of the time base. -/
def Dev.readTbLo (d : Dev) : Dev := d.updClk fun c => { c with tbHi := lo32 (d.tb >>> 32) }

/-! ## Registers -/

/-- The bits of SYS.PINLVL whose ball stands at the level last taken: those that a command of this LOOP_CLK cycle has shown, those of
    a filter of length 0, and CARD_FLT_N of a card under qualification, every change of which the table's commands bring (R57, R339). -/
def Dev.pinsKnown (d : Dev) : Word :=
  let shown : Word := if d.cyc.no == d.cycle then d.cyc.pins else 0
  let line := fun (x : LineIx) => d.lineLive x && d.prot.lines[x].filt == 0
  let ext : BitVec 4 := maskOf 4 fun i : Fin 4 => line (Fin.ofNat 12 i.val)
  let card : Byte := maskOf 8 fun c : CardIx => line (Fin.ofNat 12 (4 + c.val)) || d.cards[c].state == .qualifying
  shown ||| at' card 24 ||| at' ext 12 ||| if d.sp.filt == 0 then 0xF00 else 0

/-- The levels of the balls of PINLVL that stand before a filter (R57, R59): as taken where the device's commands show it, and
    otherwise as the environment has them in the present LOOP_CLK cycle: the table has no row for such a level (assumption 59). -/
def Dev.pinLevels (d : Dev) : Word :=
  let s := d.sys
  let taken : Word := at' s.cardFltLvl 24 ||| at' s.extFltLvl 12 ||| at' s.vselLvl 8 ||| bitAt s.safeBLvl 7 ||| bitAt s.safeALvl 6
  ((taken &&& d.pinsKnown) ||| (Config.ballLevels d.cycle &&& ~~~d.pinsKnown)) &&& 0xFF00FFC0

/-- SYS by offset from 0x00_0000. -/
def Dev.readSys (d : Dev) (off : Nat) : Option Word :=
  let s := d.sys
  match off with
  | 0x00 => some 0x64800020
  | 0x04 => some (bitAt s.bootHold 16 ||| at' (maskOf 8 fun r : RailIx => d.mode r != .off) 8 ||| at' s.latchCause 4 ||| at' s.devState.code 0)
  | 0x08 => some 0
  | 0x10 => some (at' s.tripSupply 22 ||| at' s.prevState 16 ||| at' s.failStep 8 ||| at' s.cause 0)
  | 0x14 => some (at' s.duration 16 ||| bitAt s.fallback 3 ||| bitAt s.sigSkipped 2 ||| bitAt s.escalated 1 ||| bitAt s.kindWarm 0)
  | 0x18 => some (at' s.boot.coldCount 16 ||| at' s.warmCount 0)
  | 0x1C => some (at' s.boot.window 16 ||| bitAt s.boot.hold 8 ||| at' s.boot.failCount 0)
  | 0x20 => some 0
  | 0x40 => some (d.pinLevels ||| at' s.cardPresLvl 16)
  | 0x44 => some (bitAt s.overtemp 17 ||| bitAt s.hot 16 ||| at' s.temp 0)
  | _ => none

/-- CLK by offset from 0x00_1000. -/
def Dev.readClk (d : Dev) (off : Nat) : Option Word :=
  let c := d.clk
  match off with
  | 0x00 => some (at' c.unlockCount 16 ||| bitAt c.tbUncertain 3 ||| bitAt c.onBackup 2 ||| bitAt c.refOk 1 ||| bitAt c.pllLock 0)
  | 0x08 => some (lo32 d.tb)
  | 0x0C => some c.tbHi
  | 0x10 => some c.epochLo
  | 0x14 => some c.epochHi
  | 0x18 => some c.epochTbLo
  | 0x1C => some c.epochTbHi
  | 0x20 => some c.adj
  | 0x24 => some (at' c.lastLock 0)
  | _ => none

end Sys2Proof.Machine
end

