-- ==== Sys2Proof/Machine/TileOps.lean ====
section
/-! DEFINITION. Image loads, verification, direct commits and reloads (R158 to R168, R534), and the registers of TILE. -/

namespace Sys2Proof.Machine

open Sys2Proof

def Dev.updTile (d : Dev) (f : Tile → Tile) : Dev := { d with tile := f d.tile }

/-! ## Slots (R159, R534) -/

def Tile.slot (t : Tile) (b : Bool) : Slot := if b then t.slotB else t.slotA
def Tile.updSlot (t : Tile) (b : Bool) (f : Slot → Slot) : Tile :=
  if b then { t with slotB := f t.slotB } else { t with slotA := f t.slotA }

/-- The copy of the mark with the higher commit count. -/
def Tile.mark (t : Tile) : Mark := if t.mark1.count < t.mark2.count then t.mark2 else t.mark1

/-- The load slot: B when true. From the mark of a direct commit on, the slot that the mark names (R164, R165). -/
def Tile.loadB (t : Tile) : Bool := if t.loading = some .commit then t.mark.slotB else if t.tiled then !t.runB else !t.mark.slotB
def Tile.loadSlot (t : Tile) : Slot := t.slot t.loadB
def slotNum (b : Bool) : Nat := if b then 1 else 0

/-- GENERATION in a slot's header. -/
def Slot.gen (s : Slot) : Word := match s.recLen with
  | none | some 0 => 0
  | some _ => imgGen s.bytes

def SlotState.code : SlotState → BitVec 3
  | .empty => 0 | .unchecked => 1 | .busy => 2 | .valid => 3 | .invalid => 4

/-- The bytes of the running image; none when UNTILED. -/
def Tile.runBytes (t : Tile) : Option (List Byte) := if t.tiled then some (t.slot t.runB).content else none

/-- A retile is in progress (R160, R182). -/
def Retile.active (r : Retile) : Bool :=
  r.state == .planning || r.state == .running || r.state == .waiting || r.state == .paused

/-- The signer of an image is trusted still (R167). -/
def Dev.signerHeld (d : Dev) (signer : Byte) : Bool :=
  if signer.toNat < 4 then d.trust.slots[Fin.ofNat 4 signer.toNat].st == .installed else true

/-! ## Loads (R160 to R162) -/

/-- A check fails: LAST_REJECT and TILE_REJECT. -/
def Dev.reject (d : Dev) (code : Byte) (source : Nat) : Dev :=
  (d.updTile fun t => { t with lastReject := code }).note 0x0021 1 source [code]

/-- The completing unit of a load is answered, while it is a transaction still (R162, R480). -/
def Load.answer (l : Load) (d : Dev) (st : Byte) : Dev := if l.silent then d else d.reply st

/-- A completing load fails a check: the load is discarded. -/
def Dev.rejectLoad (d : Dev) (l : Load) (code : Byte) : Dev :=
  l.answer ((d.updTile fun t => { t with load := none }).reject code 0xFFFF) (rejectStatus code)

/-- A load is completing. -/
def Tile.completing (t : Tile) : Bool := match t.load with
  | some l => l.stage.isSome
  | none => false

def Dev.loadRefused (d : Dev) : Dev := (d.updTile fun t => { t with load := t.load.map Load.undo }).reply stLeave

/-- Steps 1 to 3 of the completion: composition, checks 6 to 15, leave for the verification. -/
def Dev.completeLoad (d : Dev) (l : Load) : Dev :=
  let d := d.updTile fun t => { t with load := some l }
  match loadCheck l.bytes d.tile.runBytes with
  | .error c => d.rejectLoad l c
  | .ok full =>
    let (d, ok) := d.askTrust .load
    if ok then (d.updTile fun t => { t with load := some { l with stage := some .leaveSig, full := full } }).hold
    else d.loadRefused

/-- A unit at OFFSET 0. -/
def Dev.openLoad (d : Dev) (data : List Byte) : Dev :=
  if data.length < 64 then d.reply stState
  else
    let c := headerCheck data none
    if c != 0 then (d.reject c 0xFFFF).reply (rejectStatus c)
    else if data.length ≠ 128 then d.reply stState
    else (d.updTile fun t => { t with load := some { bytes := data, total := imgLen data } }).reply stOk

/-- A unit behind the first. -/
def Dev.addUnit (d : Dev) (l : Load) (off : Nat) (data : List Byte) : Dev :=
  let n := l.bytes.length + data.length
  if off ≠ l.bytes.length ∨ l.total < n ∨ (data.length ≠ 128 ∧ n ≠ l.total) then d.reply stState
  else
    let l := { l with bytes := l.bytes ++ data }
    if n = l.total then d.completeLoad l else (d.updTile fun t => { t with load := some l }).reply stOk

/-- TILE_BLOCK. A completing unit whose MRAM write outlives a clock failure keeps the load open, and a further one refused, until the write
    has ended (R160; DEDUCED, assumption 108). -/
def Dev.tileBlock (d : Dev) (off : Nat) (data : List Byte) : Dev :=
  if d.sys.devState == .boot || d.tile.loading.isSome || d.tile.verify.isSome || d.tile.rt.active || d.tile.completing ||
      data.isEmpty || data.length % 4 != 0 || decide (128 < data.length) then d.reply stState
  else if off = 0 then d.openLoad data
  else match d.tile.load with
    | none => d.reply stState
    | some l => d.addUnit l off data

/-- Checks 16 and 17 of a load, then leave for the write. -/
def Dev.loadVerified (d : Dev) : Dev := match d.tile.load with
  | none => d
  | some l =>
    if !sigOk d.trust.keys l.full then d.rejectLoad l 16
    else if (imgGen l.full).toNat ≤ d.tile.highGen.toNat then d.rejectLoad l 17
    else
      let d := d.updTile fun t => { t with verified := true }
      let (d, ok) := d.askLeave .mram leaveAll
      if ok then d.updTile fun t => { t with load := some { l with stage := some .leaveMram } } else d.loadRefused

/-- The write begins: the load slot's recorded length is 0. -/
def Dev.mramGranted (d : Dev) : Dev :=
  d.updTile fun t =>
    { (t.updSlot t.loadB fun s => { s with recLen := some 0, badWord := false, state := .busy, reject := 0 }) with load := t.load.map fun l => { l with stage := some .mram } }

/-- Bytes over the beginning of older ones (R534). -/
def overlay (new old : List Byte) : List Byte := new ++ old.drop new.length

/-- A reset cuts a write: the slot holds the new image up to the word in progress, and the old contents after it (R118, R534).
    How far the write had come is a free value. -/
def Dev.cutWrite (d : Dev) : Dev := match d.tile.load with
  | some l =>
    if l.stage = some .mram then
      let (w, d) := d.fresh
      d.updTile fun t => t.updSlot t.loadB fun s => { s with bytes := overlay (l.full.take (8 * (w.toNat % (l.full.length / 8 + 1)))) s.bytes }
    else d
  | none => d

/-- Write and read-back have ended (R161). The read-back that fails finds the image written. -/
def Dev.mramDone (d : Dev) (ok : Bool) : Dev := match d.tile.load with
  | none => d
  | some l =>
    if l.stage ≠ some .mram then d
    else
      let b := d.tile.loadB
      let d := d.releaseLeave .mram leaveAll
      if ok then
        let d := d.updTile fun t =>
          { (t.updSlot b fun s => { s with bytes := l.full, recLen := some l.full.length, state := .valid }) with load := none }
        l.answer (d.note 0x0020 0 (slotNum b) (leBytes 4 (imgGen l.full).toNat ++ [imgSigner l.full] ++ (imgDigest l.full).take 8)) stOk
      else (d.updTile fun t => t.updSlot b fun s => { s with bytes := overlay l.full s.bytes, state := .invalid, reject := 18 }).rejectLoad l 18

/-- TILE.CTRL.ABORT (R162). A write to MRAM that goes on after its transaction has been cut off is no open load (R86, R480). -/
def Dev.tileAbort (d : Dev) : Dev × Byte := (if d.tile.completing then d else d.updTile fun t => { t with load := none }, stOk)

/-! ## VERIFY (R163) -/

/-- A refused leave: the slot is in its earlier state again. -/
def Dev.verifyRefused (d : Dev) : Dev :=
  d.updTile fun t =>
    { (t.updSlot t.verifyB fun s => { s with state := t.verifyPrev, reject := t.verifyReject }) with verify := none, lastReject := 0xFF }

def Dev.tileVerify (d : Dev) : Dev × Byte :=
  let t := d.tile
  let s := t.loadSlot
  if d.sys.devState == .boot || t.loading.isSome || t.verify.isSome || t.completing || s.recLen.isNone then (d, stState)
  else
    let d := d.updTile fun t =>
      { (t.updSlot t.loadB fun s => { s with state := .busy, reject := 0 }) with verify := some .leaveSig, verifyB := t.loadB, verifyPrev := s.state, verifyReject := s.reject }
    let (d, ok) := d.askTrust .verify
    (if ok then d else d.verifyRefused, stOk)

/-- The verification has ended. -/
def Dev.verifyDone (d : Dev) : Dev :=
  let b := d.tile.verifyB
  let d := d.updTile fun t => { t with verify := none }
  match (d.tile.slot b).verify d.trust.keys with
  | .ok _ => d.updTile fun t => { (t.updSlot b fun s => { s with state := .valid, reject := 0 }) with verified := true }
  | .error c =>
    let d := d.updTile fun t => t.updSlot b fun s => { s with state := .invalid, reject := c }
    let d := if d.tile.rt.active && d.tile.rt.stopAsked.isNone then
        d.updTile fun t => { t with rt := { t.rt with stopAsked := some 5 } } else d
    d.reject c (slotNum b)

/-! ## Loading the structure (R165, R167, R185) -/

/-- A quad's sequence begins afresh: nothing waits or converts, its timer starts. `now` is the first tick of the LOOP_CLK cycle (R257). -/
def Quad.install (x : Quad) (timer : Word) (now : Tick) : Quad :=
  { x with rotFrom := max x.rotFrom now, queue := [], convs := [], regPass := none, injPass := none, regPend := false, injPend := false, regHeld := false, degraded := false, timerNext := if timer = 0 then none else some (now + timer.toNat) }

/-- Every binding begins afresh (R271, R274). -/
def Sense.restart (x : Sense) (t : Tiling) (now : Tick) : Sense :=
  { x with quads := mapV x.quads fun q y => y.install ((t.seqs[q]).getD {}).timer now, accs := Vector.replicate 256 {}, trks := mapV x.trks fun _ k => { win := k.win, opened := now } }

/-- Every reference starts at a valley, at the first tick of the LOOP_CLK cycle (R201). -/
def Pwmg.restart (g : Pwmg) (t : Tiling) (first : Tick) : Pwmg :=
  { g with dev := { running := true, per := g.syncPer, valley := first, first := true }, refs := mapV g.refs fun r _ => { running := (t.rails[r]).isSome, per := g.rper[r], valley := first, first := true } }

/-- The reference of a rail that has come to be defined (R201): at the next valley of the device reference where it has its period, at
    once and free otherwise. -/
def Dev.newRef (d : Dev) (r : RailIx) : RefCarrier :=
  let per := d.pwmg.rper[r]
  if per == d.pwmg.dev.per then { running := false, per := per, startDue := true }
  else { running := true, per := per, valley := d.cycleTick, first := true }

/-- The references after a reload of the structure that starts none anew: those of rails that stay go on, those of rails that come or go
    start or stop as a DEFINE or an UNDEFINE has it (R201; assumption 68). -/
def Dev.keepRefs (d : Dev) (t : Tiling) : Dev :=
  { d with pwmg := { d.pwmg with refs := mapV d.pwmg.refs fun r x => if (t.rails[r]).isNone then {} else if x.running || x.startDue then x else d.newRef r } }

/-- The masks that the structure sets (R218). -/
def Dev.structMasks (d : Dev) : Dev :=
  (List.finRange 64).foldl (fun d n =>
    let d := if d.isLoop n then d else d.endHostOvr n
    d.setMask n fun m => { m with unused := (d.railOf n).isNone, park := false, shed := d.isLoop n, ember := false }) d

/-- Every member's carrier takes its place, anew or from where it stands, and the counter of an unused phase stops (R194, R201, R202). -/
def Dev.placeAll (d : Dev) (anew : Bool) : Dev :=
  let d := allRails.foldl (fun d r => if d.railDefined r then d.respread r else d) d
  (List.finRange 64).foldl (fun d n => match d.railOf n with
    | some r => if anew then d.seat r n else d.joinCarrier r n
    | none => d.updPwm n Pwm.stopCarrier) d

/-- The running structure becomes `t`, in every structural field, with every context reset (R165, R535). The carriers start anew, and
    counts, latches and OVERRUN bits are cleared, on a start and a direct commit alone (R201, R303). Accumulators, trackers, queues and
    passes are cleared and the sequence timers restart at a reload and a REVERT in STANDBY too (DEDUCED, assumption 68). -/
def Dev.loadStructure (d : Dev) (t : Tiling) (anew : Bool := true) : Dev :=
  let now := d.cycleTick
  let old := d.tile.cur
  let d := (d.updTile fun x => { x with cur := t, rt := { x.rt with isPartial := false, step := none, plan := [] } }).dropPorts old
  let d : Dev := { d with sense := d.sense.restart t now }
  let d : Dev := if anew then { d with pwmg := d.pwmg.restart t now } else d.keepRefs t
  let d := { d with rails := mapV d.rails fun _ x => { x with drained := 0, notice := none, addWait := none } }
  let d := (d.structMasks.placeAll anew).resetCtxs
  let d := if anew then d.clearFabric else d
  (allRails.foldl (fun d r => d.setCause (srcLoopInput r) 0 false) d).trimCauses

/-- The copies of the mark name a slot (R159). -/
def Tile.setMark (t : Tile) (b : Bool) : Tile :=
  let m : Mark := { slotB := b, count := t.mark.count + 1 }
  { t with mark1 := m, mark2 := m }

/-- Mark and HIGH_GEN of a commit (R164). -/
def Dev.markCommit (d : Dev) : Dev :=
  d.updTile fun t =>
    let g := imgGen t.loadSlot.bytes
    { t.setMark t.loadB with highGen := if t.highGen.toNat < g.toNat then g else t.highGen }

/-- The load slot's image becomes the running image; the slots exchange (R165). Of a commit from UNTILED the record's old generation and
    digest are 0 (DESIGN CHOICE, assumption 84). -/
def Dev.exchange (d : Dev) (t : Tiling) : Dev :=
  let b := d.tile.loadB
  let old := d.tile.image
  let id := imgId (d.tile.slot b).content
  let dirty := !d.signerHeld id.signer
  let d := d.updTile fun x =>
    { x with runB := b, tiled := true, image := id, committed := t, cur := t, keptDigest := id.digest, keptGen := id.gen, dirty := dirty, rt := { x.rt with isPartial := false, step := none, plan := [] } }
  let dig := fun (i : ImageId) => leBytes 8 i.digest.toNat
  d.note 0x0022 0 (slotNum b) (leBytes 4 old.gen.toNat ++ leBytes 4 id.gen.toNat ++ dig old ++ dig id)

/-- The structure has been loaded: a direct commit, a reload or a REVERT ends (R165, R167, R185). RETILE_END of a REVERT without steps gives
    the steps applied of the retile that stopped (DESIGN CHOICE, assumption 95). -/
def Dev.loadingDone (d : Dev) : Dev :=
  let free := fun (d : Dev) => (d.updTile fun t => { t with loading := none }).updSys fun s => { s with rdyLowCommit := false }
  match d.tile.loading with
  | none => d
  | some .commit =>
    let t := tilingOf d.tile.loadSlot.content
    let d := (d.loadStructure t).exchange t
    let d := d.updTile fun x => { x with rt := { x.rt with state := if x.rt.active then x.rt.state else .idle } }
    free (if d.sys.devState = .untiled then d.setState .standby else d)
  | some .restore =>
    let d := d.loadStructure d.tile.committed false
    let d := d.updTile fun x => { x with rt := { x.rt with state := if x.rt.active then .idle else x.rt.state } }
    free (d.note 0x0024 0 (slotNum d.tile.runB) (leBytes 4 d.tile.image.gen.toNat))
  | some .revert =>
    let k := d.tile.rt.done
    let d := d.loadStructure d.tile.committed false
    let d := d.updTile fun x => { x with rt := { x.rt with state := .idle } }
    free (d.note 0x0029 0 0xFFFF (leBytes 2 k.toNat))

def Dev.startLoading (d : Dev) (k : Loading) : Dev :=
  (d.updTile fun t => { t with loading := some k }).updSys fun s => { s with rdyLowCommit := true }

/-- TILE.CTRL.COMMIT (R164, R165, R169, R182). -/
def Dev.tileCommit (d : Dev) : Dev × Byte :=
  let t := d.tile
  if t.loadSlot.state != .valid || t.loading.isSome || t.verify.isSome || t.rt.active then (d, stState)
  else match d.sys.devState with
    | .untiled | .standby | .maint => (d.markCommit.startLoading .commit, stOk)
    | .run =>
      if t.rt.state == .stopped || t.rt.isPartial then (d, stState)
      else (d.updTile fun t => { t with rt := { t.rt with state := .planning, toward := false, stopAsked := none, goal := tilingOf t.loadSlot.content, goalId := imgId t.loadSlot.content } }, stOk)
    | _ => (d, stState)

/-- SYS.CTRL.MAINT_EXIT accepted: the running image is loaded again (R167). -/
def Dev.leaveMaint (d : Dev) : Dev × Byte :=
  let (d, st) := d.maintExit
  (if st = stOk then d.startLoading .restore else d, st)

/-! ## Registers -/

def RtState.code : RtState → BitVec 3
  | .idle => 0 | .planning => 1 | .running => 2 | .waiting => 3 | .paused => 4 | .stopped => 5 | .refused => 6

def StepKind.code : StepKind → Byte
  | .define => 1 | .set => 2 | .widen => 3 | .park => 4 | .join => 5 | .arc => 6 | .loops => 7 | .fabric => 8 | .narrow => 9
  | .undefine => 10 | .storage => 11 | .chord => 12

def railNib (r : Option RailIx) : BitVec 4 := match r with
  | some r => BitVec.ofNat 4 r.val
  | none => 0xF

/-- TILE by offset from 0x00_4000. RUN_SLOT is undefined while UNTILED. -/
def Dev.readTile (d : Dev) (off : Nat) : Option Word :=
  let t := d.tile
  let rt := t.rt
  let busy := match t.loading with
    | some .commit | some .restore => true
    | _ => false
  let runSlot := if t.tiled then t.runB else (Config.freeWord d.free).getLsbD 0
  if 0x20 ≤ off ∧ off < 0x40 then
    if off % 4 = 0 then some (if t.tiled then t.image.digest.extractLsb' (8 * (off - 0x20)) 32 else 0) else none
  else match off with
    | 0x00 => some (at' t.lastReject 8 ||| bitAt t.dirty 7 ||| bitAt busy 6 ||| bitAt t.verify.isSome 5 ||| bitAt t.load.isSome 4 |||
        bitAt runSlot 2 ||| bitAt t.mark.slotB 1 ||| bitAt t.tiled 0)
    | 0x04 => some 0
    | 0x08 => some (BitVec.ofNat 32 (match t.load with
        | some l => l.bytes.length
        | none => 0))
    | 0x0C => some (at' t.slotB.reject 24 ||| at' t.slotA.reject 16 ||| at' t.slotB.state.code 8 ||| at' t.slotA.state.code 0)
    | 0x10 => some t.slotA.gen
    | 0x14 => some t.slotB.gen
    | 0x18 => some t.highGen
    | 0x1C => some (BitVec.ofNat 32 (match t.load with
        | some l => l.total
        | none => 0))
    | 0x40 => some 0
    | 0x44 => some (bitAt rt.pauseAtPark 8 ||| at' rt.waitLimit 0)
    | 0x48 => some (at' rt.stopCause 24 ||| at' rt.reason 16 ||| bitAt rt.isPartial 8 ||| bitAt rt.toward 4 ||| at' rt.state.code 0)
    | 0x4C => some (at' rt.total 16 ||| at' rt.done 0)
    | 0x50 => some (match rt.step with
        | some s => at' (railNib s.toRail) 20 ||| at' (railNib s.fromRail) 16 ||| at' s.target 8 ||| at' s.kind.code 0
        | none => 0x00FF0000)
    | 0x54 => some rt.need
    | 0x58 => some rt.have_
    | _ => none

end Sys2Proof.Machine
end

