-- ==== Sys2Proof/Machine/RetileOps.lean ====
section
/-! DEFINITION. Retiling below the commands (R169 to R185): the plan, the invariants, the steps, and how a retile ends. -/

namespace Sys2Proof.Machine

open Sys2Proof

def Dev.updRt (d : Dev) (f : Retile → Retile) : Dev := d.updTile fun t => { t with rt := f t.rt }
def Dev.updCur (d : Dev) (f : Tiling → Tiling) : Dev := d.updTile fun t => { t with cur := f t.cur }

/-! ## Capacity (R173, R174) -/

/-- A member counts towards its rail's capacity (R173, R414). -/
def Dev.usable (d : Dev) (n : PhaseIx) : Bool :=
  !d.prot.trips[n].latch && d.cards[cardOf n].state == .qualified && !d.causeOf (srcCardFault (cardOf n)) 0 && !d.pwm[n].dlFail

def memberCount (t : Tiling) (r : RailIx) (p : PhaseIx → Bool) : Nat :=
  ((List.finRange 64).filter fun n => t.phases[n].rail == some r && p n).length

/-- Capacity of a rail in a structure, in mA. -/
def Dev.capacity (d : Dev) (t : Tiling) (r : RailIx) : Nat :=
  ((t.rails[r]).getD { rating := 0 }).rating.toNat * memberCount t r d.usable

/-- MARGIN and MIN_PHASES during a retile: the largest of the values it knows. -/
def Dev.marginOf (d : Dev) (r : RailIx) : Nat :=
  let m := fun (t : Tiling) => ((t.rails[r]).getD {}).margin.toNat
  max (m d.tile.committed) (max (m d.tile.cur) (m d.tile.rt.goal))
def Dev.minOfRail (d : Dev) (r : RailIx) : Nat :=
  let m := fun (t : Tiling) => match t.rails[r] with
    | some e => e.minPhases.toNat
    | none => 0
  max (m d.tile.committed) (max (m d.tile.cur) (m d.tile.rt.goal))

/-- NEED in mA, rounded up. -/
def Dev.needOf (d : Dev) (r : RailIx) : Nat := (d.rails[r].demand.toNat * (100 + d.marginOf r) + 99) / 100

/-- The capacity invariant for one rail between two structures. -/
def Dev.capOk (d : Dev) (a b : Tiling) (r : RailIx) : Bool :=
  let after := d.capacity b r
  decide (d.rails[r].demand.toNat * (100 + d.marginOf r) ≤ after * 100) || decide (d.capacity a r ≤ after)

/-- The rail whose capacity falls short between two structures. -/
def Dev.shortRail (d : Dev) (a b : Tiling) : Option RailIx := allRails.find? fun r => !d.capOk a b r

/-! ## Interleave and contexts (R174) -/

/-- The largest distance between circularly adjacent positions. -/
def maxGap (xs : List Nat) : Nat :=
  let s := sortBy id xs
  match s.head?, s.getLast? with
  | some a, some b => ((s.zip s.tail).map fun p => p.2 - p.1).foldl max (a + 65536 - b)
  | _, _ => 0

def Dev.interleaveOk (d : Dev) (r : RailIx) (without : Option PhaseIx) : Bool :=
  let m := d.mode r
  let ps := ((d.active r).filter fun n => without != some n).map fun n => d.pwm[n].arcNow.toNat
  !(m == .ramp || m == .regulate || m == .charge || m == .support) || decide (ps.length < 2) ||
    decide (maxGap ps * ps.length ≤ 131072)

/-- A WIDEN still to be applied binds an accumulator. -/
def bindsLater (g : Tiling) (rest : List RtStep) (k : AccIx) : Bool := match g.accs[k] with
  | some b => rest.any fun s => s.kind == .widen && s.target.toNat == b.quad.val
  | none => false

/-- The rail of an outer context waits for its UNDEFINE. -/
def goesLater (rest : List RtStep) (c : CtxIx) : Bool :=
  decide (c.val < 8) && rest.any fun s => s.kind == .undefine && s.target.toNat == c.val

/-- Every enabled context keeps a consumer and an input: one that a DEFINE has created may get its input from a WIDEN that is still
    to be applied, and one whose rail's UNDEFINE is still to come may have lost it to a NARROW, which R172 puts before it (DESIGN CHOICE,
    assumptions 38 and 95). -/
def contextsOk (t g : Tiling) (rest : List RtStep) : Bool := (List.finRange 80).all fun c =>
  let e := t.topo[c]
  !e.enable || (((t.accs[e.input]).isSome || bindsLater g rest e.input || goesLater rest c) &&
    if c.val < 8 then (t.rails[Fin.ofNat 8 c.val]).isSome
    else if c.val < 72 then (t.phases[Fin.ofNat 64 (c.val - 8)]).rail.isSome
    else match e.target with
      | some r => (t.topo[Fin.ofNat 80 r.val]).enable
      | none => false)

/-! ## The structure after a step (R172) -/

def targetRail (b : Byte) : RailIx := Fin.ofNat 8 b.toNat
def targetPhase (b : Byte) : PhaseIx := Fin.ofNat 64 b.toNat
def targetQuad (b : Byte) : QuadIx := Fin.ofNat 4 b.toNat

/-- Topology and Sector table of the contexts that satisfy `p` come from `g`. -/
def Tiling.takeCtx (t g : Tiling) (p : CtxIx → Bool) : Tiling :=
  { t with topo := mapV t.topo fun c x => if p c then g.topo[c] else x, sectors := mapV t.sectors fun c x => if p c then g.sectors[c] else x }

/-- The rail an auxiliary context counts for in a comparison: its TARGET in the goal, or else now. -/
def auxRail (t g : Tiling) (c : CtxIx) : Option RailIx := if (g.topo[c]).enable then (g.topo[c]).target else (t.topo[c]).target

/-- Phases that stay in a rail. -/
def stays (t g : Tiling) (r : RailIx) (n : PhaseIx) : Bool := (t.phases[n]).rail == some r && (g.phases[n]).rail == some r

/-- Contexts of a rail that did not move: its outer, the inner ones of staying phases, its auxiliary ones. -/
def ctxStays (t g : Tiling) (r : RailIx) (c : CtxIx) : Bool := match ctxPhase c with
  | some n => stays t g r n
  | none => if c.val < 8 then c.val == r.val else auxRail t g c == some r

/-- The quad of a binding. -/
def bindQuad (b : Option Bind) : Option QuadIx := b.map (·.quad)

/-- An old binding to quad `q` that the new one does not replace is carried (WIDEN). -/
def carriedBind (q : QuadIx) (old new : Option Bind) : Bool := bindQuad old == some q && bindQuad new != some q

/-- Entries of quad `q` that carried bindings need. -/
def carriedEntries (t g : Tiling) (q : QuadIx) : List (Fin 40) :=
  let xs := ((List.finRange 256).filter fun k => carriedBind q t.accs[k] g.accs[k]).filterMap fun k => t.accs[k].map (·.entry)
  let ys := ((List.finRange 64).filter fun k => carriedBind q t.trks[k] g.trks[k]).filterMap fun k => t.trks[k].map (·.entry)
  (xs ++ ys).eraseDups

/-- The widened sequence, and where each carried entry stands in it (R172). -/
def widened (t g : Tiling) (q : QuadIx) : SeqEnt × List (Fin 40 × Nat) :=
  let old := (t.seqs[q]).getD {}
  let new := (g.seqs[q]).getD {}
  (carriedEntries t g q).foldl (fun (a : SeqEnt × List (Fin 40 × Nat)) e =>
    let at_ := fun (x : SeqEnt) => if e.val < 32 then x.reg[e.val]? else x.inj[e.val - 32]?
    match at_ old with
    | none => a
    | some x =>
      if at_ new == some x then (a.1, a.2 ++ [(e, e.val)])
      else if e.val < 32 then ({ a.1 with reg := a.1.reg ++ [x] }, a.2 ++ [(e, a.1.reg.length)])
      else ({ a.1 with inj := a.1.inj ++ [x] }, a.2 ++ [(e, 32 + a.1.inj.length)])) (new, [])

def moveBind (map : List (Fin 40 × Nat)) (b : Option Bind) : Option Bind :=
  b.map fun b => { b with entry := match map.find? fun m => m.1 == b.entry with
    | some m => Fin.ofNat 40 m.2
    | none => b.entry }

/-- One binding at a WIDEN of quad `q`: the new one there, a carried one moved, any other kept. -/
def widenBind (q : QuadIx) (map : List (Fin 40 × Nat)) (old new : Option Bind) : Option Bind :=
  if bindQuad new == some q then new else if carriedBind q old new then moveBind map old else old

/-- One binding at a NARROW of quad `q`. -/
def narrowBind (q : QuadIx) (old new : Option Bind) : Option Bind :=
  if bindQuad old == some q || bindQuad new == some q then new else old

def Tiling.widen (t g : Tiling) (q : QuadIx) : Tiling :=
  let w := widened t g q
  { t with seqs := t.seqs.set q (if w.1.reg.isEmpty && w.1.inj.isEmpty && (g.seqs[q]).isNone then none else some w.1), accs := mapV t.accs fun k b => widenBind q w.2 b g.accs[k], trks := mapV t.trks fun k b => widenBind q w.2 b g.trks[k] }

def Tiling.narrow (t g : Tiling) (q : QuadIx) : Tiling :=
  { t with seqs := t.seqs.set q g.seqs[q], accs := mapV t.accs fun k b => narrowBind q b g.accs[k], trks := mapV t.trks fun k b => narrowBind q b g.trks[k] }

/-- The structure after one step towards `g`. A parked phase keeps its DUTY_SRC (DESIGN CHOICE, assumption 95). -/
def Tiling.after (t g : Tiling) (s : RtStep) : Tiling :=
  let r := targetRail s.target
  let n := targetPhase s.target
  match s.kind with
  | .define => ({ t with rails := t.rails.set r g.rails[r] }).takeCtx g fun c => c.val == r.val
  | .set => if s.target = 0xFE then { t with classes := g.classes, reactions := g.reactions }
    else if s.target = 0xFD then { t with snaps := g.snaps } else { t with rails := t.rails.set r g.rails[r] }
  | .widen => t.widen g (targetQuad s.target)
  | .park => ({ t with phases := t.phases.set n { host := (t.phases[n]).host } }).takeCtx {} fun c => c == innerIx n
  | .join => ({ t with phases := t.phases.set n g.phases[n] }).takeCtx g fun c => c == innerIx n
  | .arc => { t with phases := mapV t.phases fun n e => if stays t g r n then g.phases[n] else e }
  | .loops => t.takeCtx g (ctxStays t g r)
  | .fabric => { t with routes := g.routes }
  | .narrow => t.narrow g (targetQuad s.target)
  | .undefine => ({ t with rails := t.rails.set r none }).takeCtx {} fun c => c.val == r.val
  | .storage => let p : PortIx := Fin.ofNat 4 s.target.toNat
    { t with stores := t.stores.set p g.stores[p] }
  | .chord => { t with chord := g.chord }

/-! ## Planning (R170 to R172) -/

def Dev.notOff (d : Dev) (r : Option RailIx) : Bool := match r with
  | some r => d.mode r != .off
  | none => false

/-- A candidate step and the reason of R171 that refuses it by itself; 0: none. -/
abbrev Cand := RtStep × Byte

def railStep (k : StepKind) (r : RailIx) (bad : Bool) (reason : Byte) : Cand :=
  ({ kind := k, target := BitVec.ofNat 8 r.val }, if bad then reason else 0)

def Dev.candDefine (d : Dev) (g : Tiling) : List Cand :=
  (allRails.filter fun r => (d.tile.cur.rails[r]).isNone && (g.rails[r]).isSome).map fun r => railStep .define r false 0

def Dev.candUndefine (d : Dev) (g : Tiling) : List Cand :=
  (allRails.filter fun r => (d.tile.cur.rails[r]).isSome && (g.rails[r]).isNone).map fun r => railStep .undefine r (d.mode r != .off) 2

def Dev.candSet (d : Dev) (g : Tiling) : List Cand :=
  let t := d.tile.cur
  (allRails.filterMap fun (r : RailIx) => match (t.rails[r] : Option RailEnt), (g.rails[r] : Option RailEnt) with
    | some a, some b => if a = b then none else some (railStep .set r ((a.storage != b.storage || a.homeQuad != b.homeQuad) && d.mode r != .off) 2)
    | _, _ => none) ++
    (if t.snaps = g.snaps then [] else [({ kind := .set, target := 0xFD }, 0)]) ++
    if t.classes.toList = g.classes.toList ∧ t.reactions = g.reactions then [] else [({ kind := .set, target := 0xFE }, 0)]

/-- Quad `q`'s sequence or bindings change. -/
def seqChanges (t g : Tiling) (q : QuadIx) : Bool :=
  t.seqs[q] != g.seqs[q] ||
    ((List.finRange 256).any fun k => t.accs[k] != g.accs[k] && (bindQuad t.accs[k] == some q || bindQuad g.accs[k] == some q)) ||
    (List.finRange 64).any fun k => t.trks[k] != g.trks[k] && (bindQuad t.trks[k] == some q || bindQuad g.trks[k] == some q)

/-- SLICES or EFLAGS change on an entry that feeds an enabled context of a rail not OFF (R170). The entries compared are the old and the new
    one of the same number (DESIGN CHOICE, assumption 108). -/
def Dev.liveEntry (d : Dev) (g : Tiling) (q : QuadIx) : Bool :=
  let t := d.tile.cur
  (List.finRange 80).any fun c =>
    let e := t.topo[c]
    e.enable && d.notOff (d.ctxRail c) && match t.accs[e.input] with
      | some b => b.quad == q && match ((t.seqs[q]).getD {}).entry b.entry.val, ((g.seqs[q]).getD {}).entry b.entry.val with
          | some x, some y => x.slices != y.slices || x.eflags != y.eflags
          | _, _ => false
      | none => false

/-- The widened sequence exceeds what its quad holds: 32 and 8 entries (R147), and the VSNS of two rails (R235). -/
def widenTooWide (t g : Tiling) (q : QuadIx) : Bool :=
  let w := (widened t g q).1
  let rails := ((w.reg ++ w.inj).filter fun e => decide (0x20 ≤ e.input.toNat)).map fun e => e.input
  decide (32 < w.reg.length) || decide (8 < w.inj.length) || decide (2 < rails.eraseDups.length)

def Dev.candSeq (d : Dev) (g : Tiling) (k : StepKind) : List Cand :=
  let t := d.tile.cur
  ((List.finRange 4).filter (seqChanges t g)).map fun q =>
    ({ kind := k, target := BitVec.ofNat 8 q.val }, if k != .narrow && d.liveEntry g q then 2 else 0)

/-- The PARK and JOIN of the phases that move, pair by pair. DUTY_SRC of a phase that is not parked and unused is 0, LOOP (R145). -/
def Dev.candMoves (d : Dev) (g : Tiling) : List Cand :=
  (List.finRange 64).flatMap fun (n : PhaseIx) =>
    let a : Option RailIx := (d.tile.cur.phases[n]).rail
    let b : Option RailIx := (g.phases[n]).rail
    if a == b then []
    else
      let bad := (d.tile.cur.phases[n]).host != (g.phases[n]).host && (d.notOff a || d.notOff b)
      let s := fun (k : StepKind) => (({ kind := k, target := BitVec.ofNat 8 n.val, fromRail := a, toRail := b }, if bad then 1 else 0) : Cand)
      (if a.isSome then [s .park] else []) ++ if b.isSome then [s .join] else []

def Dev.candArc (d : Dev) (g : Tiling) : List Cand :=
  let t := d.tile.cur
  allRails.filterMap fun r =>
    let ch := (List.finRange 64).filter fun n => stays t g r n && t.phases[n] != g.phases[n]
    if ch.isEmpty then none
    else some (railStep .arc r (d.mode r != .off && ch.any fun n => (t.phases[n]).host != (g.phases[n]).host) 1)

/-- Contexts that change in a LOOPS step of a rail. -/
def loopsOf (t g : Tiling) (r : RailIx) : List CtxIx :=
  (List.finRange 80).filter fun c => ctxStays t g r c && (t.topo[c] != g.topo[c] || t.sectors[c] != g.sectors[c]) && match ctxPhase c with
    | some _ => true
    | none => decide (8 ≤ c.val) || ((t.rails[r]).isSome && (g.rails[r]).isSome)

/-- The LOOPS steps. LAW, ARITH and DIV count as changed where the context is enabled before and after: one that is newly enabled or
    disabled has no two values to compare (DESIGN CHOICE, assumption 62). -/
def Dev.candLoops (d : Dev) (g : Tiling) : List Cand :=
  let t := d.tile.cur
  allRails.filterMap fun r =>
    let cs := loopsOf t g r
    if cs.isEmpty then none
    else some (railStep .loops r (d.mode r != .off && cs.any fun c =>
      let x := t.topo[c]
      let y := g.topo[c]
      x.enable && y.enable && (x.law3 != y.law3 || x.compat != y.compat || x.div != y.div)) 2)

def Dev.candStorage (d : Dev) (g : Tiling) : List Cand :=
  (List.finRange 4).filterMap fun (p : PortIx) =>
    let a : Option StoreEnt := d.tile.cur.stores[p]
    let b : Option StoreEnt := g.stores[p]
    if a == b then none
    else some ({ kind := .storage, target := BitVec.ofNat 8 p.val }, if d.notOff (a.map (·.rail)) || d.notOff (b.map (·.rail)) then 2 else 0)

/-- Shared rails whose sharing changes. -/
def shareChanges (a b : Option ChordEnt) (r : RailIx) : Bool :=
  let f := fun (x : Option ChordEnt) => match x with
    | some c => if c.shared.getLsbD r.val then some c.share[r] else none
    | none => none
  f a != f b

def Dev.candChord (d : Dev) (g : Tiling) : List Cand :=
  let a := d.tile.cur.chord
  if a == g.chord then []
  else [({ kind := .chord, target := 0xFF }, if allRails.any fun r => shareChanges a g.chord r && d.mode r != .off then 5 else 0)]

/-- Every step of the plan, in the order of R172. -/
def Dev.candidates (d : Dev) (g : Tiling) : List Cand :=
  d.candDefine g ++ d.candSet g ++ d.candSeq g .widen ++ d.candMoves g ++ d.candArc g ++ d.candLoops g ++
    (if d.tile.cur.routes = g.routes then [] else [({ kind := .fabric, target := 0xFF }, 0)]) ++ d.candSeq g .narrow ++
    d.candUndefine g ++ d.candStorage g ++ d.candChord g

/-- What planning finds: the failing step with its number, reason and figures; none when every step passes (R171). -/
def Dev.planFault (d : Dev) (g : Tiling) : List Cand → Tiling → Nat → Option (RtStep × Nat × Byte × Nat × Nat)
  | [], _, _ => none
  | (s, bad) :: rest, t, k =>
    let t' := t.after g s
    let reason := if bad = 0 && s.kind == .widen && widenTooWide t g (targetQuad s.target) then 4 else bad
    if reason != 0 then some (s, k, reason, d.tile.rt.need.toNat, d.tile.rt.have_.toNat)
    else match d.shortRail t t' with
      | some r => some (s, k, 3, d.needOf r, d.capacity t' r)
      | none =>
        let few := s.kind == .park && match s.fromRail with
          | some r => d.mode r != .off && decide (memberCount t' r (fun _ => true) < d.minOfRail r)
          | none => false
        if few then some (s, k, 6, d.tile.rt.need.toNat, d.tile.rt.have_.toNat) else d.planFault g rest t' (k + 1)

/-- RDY is low for a bounded time, whose length is a free value of at most `most` ticks (R178). -/
def Dev.dipRdy (d : Dev) (most : Nat) : Dev :=
  let (w, d) := d.fresh
  { d with sys := { d.sys with rdyStepUntil := max d.sys.rdyStepUntil (d.clk.now + w.toNat % (most + 1)) } }

/-! ## The end of a retile (R166, R183 to R185) -/

/-- The end of a retile clears PARK of a phase for good, one that a PARK of the same LOOP_CLK cycle has set as well: what has set it is the
    retile itself, whose commit point follows its last step (R172, R218). -/
def Dev.dropPark (d : Dev) (n : PhaseIx) : Dev :=
  { d with cyc := { d.cyc with masks := d.cyc.masks.map fun x => if x.1 = n then (n, { x.2 with park := false }) else x } }

/-- Phases that the goal leaves unused are no longer parked. -/
def Dev.endParks (d : Dev) : Dev :=
  (List.finRange 64).foldl (fun d n =>
    if (d.railOf n).isNone then ((d.dropPark n).updPwm n fun p => { p.stopCarrier with parkRail := none }).setMask n fun m => { m with park := false, unused := true } else d) d

def Dev.clearDrained (d : Dev) : Dev := { d with rails := mapV d.rails fun _ x => { x with drained := 0 } }

/-- The commit point, or the end of a REVERT. -/
def Dev.retileEnd (d : Dev) : Dev :=
  let rt := d.tile.rt
  let d := ((d.updCur fun _ => rt.goal).endParks.clearDrained).updRt fun x => { x with defines := 0, undefines := 0 }
  if rt.toward then
    (d.updRt fun x => { x with state := .idle, isPartial := false, step := none }).note 0x0029 0 0xFFFF (leBytes 2 rt.done.toNat)
  else ((d.markCommit.exchange rt.goal).dipRdy (40 * usTicks)).updRt fun x => { x with state := .idle }

/-- The retile stops at the boundary it stands at. -/
def Dev.retileStop (d : Dev) (cause : Byte) : Dev :=
  let k := d.tile.rt.done
  (d.updRt fun x => { x with state := .stopped, stopCause := cause, stopAsked := none, isPartial := true, plan := [], defines := 0, undefines := 0, waitSince := none }).clearDrained.note
    0x0027 1 0xFFFF (cause :: leBytes 2 k.toNat)

/-- Planning ends (R169, R171, R177). -/
def Dev.planDone (d : Dev) : Dev :=
  let g := d.tile.rt.goal
  let cs := d.candidates g
  match d.planFault g cs d.tile.cur 1 with
  | some (s, k, reason, need, have_) =>
    (d.updRt fun x => { x with state := .refused, reason := reason, step := some s, total := BitVec.ofNat 16 cs.length, done := 0, need := satN 32 need, have_ := satN 32 have_, stopAsked := none }).note
      0x0028 1 0xFFFF (reason :: leBytes 2 k ++ leBytes 4 need ++ leBytes 4 have_)
  | none =>
    let goalGen := if d.tile.rt.toward then d.tile.image.gen else d.tile.rt.goalId.gen
    let plan := cs.map (·.1)
    let of := fun (k : StepKind) => (plan.filter fun s => s.kind == k).foldl (fun (m : Byte) s => setBit m (s.target.toNat % 8) true) 0
    let d := (d.updRt fun x => { x with state := .running, defines := of .define, undefines := of .undefine, plan := plan, step := plan.head?, total := BitVec.ofNat 16 plan.length, done := 0 }).note
      0x0025 0 0xFFFF (leBytes 4 d.tile.image.gen.toNat ++ leBytes 4 goalGen.toNat ++ leBytes 2 plan.length)
    if plan.isEmpty then d.retileEnd else d

/-! ## Drains, waits and steps (R174 to R181) -/

/-- The phase that the next step parks, while it still carries current: an active one, which a Flare makes of a shed member too (R175, R219,
    R324). -/
def Dev.mustDrain (d : Dev) : Option (PhaseIx × RailIx) := match d.tile.rt.plan with
  | s :: _ => match s.kind, s.fromRail with
    | .park, some r => let n := targetPhase s.target
        if (d.mode r).switching && d.isActive n then some (n, r) else none
    | _, _ => none
  | [] => none

/-- The rail that falls short at the next step, as if it were applied now. -/
def Dev.stepShort (d : Dev) : Option RailIx := match d.tile.rt.plan with
  | s :: _ => d.shortRail d.tile.cur (d.tile.cur.after d.tile.rt.goal s)
  | [] => none

/-- A capacity check fails in execution (R180). -/
def Dev.beginWait (d : Dev) (r : RailIx) : Dev :=
  let t' := match d.tile.rt.plan with
    | s :: _ => d.tile.cur.after d.tile.rt.goal s
    | [] => d.tile.cur
  let d := d.updRt fun x => { x with state := .waiting, waitSince := some (x.waitSince.getD d.clk.now), need := satN 32 (d.needOf r), have_ := satN 32 (d.capacity t' r) }
  if d.tile.rt.waitLimit = 0 then d.retileStop 4 else d

/-- The rail manager is asked to drain the phase of the next PARK, after a Flare only when its lift has ended (R174, R175, R335). -/
def Dev.drainRequest (d : Dev) : Dev :=
  if d.tile.rt.state != .running || d.tile.rt.stopAsked.isSome then d
  else match d.mustDrain with
    | none => d
    | some (n, r) =>
      if d.respreadBusy r || d.rails[r].notice.isSome || d.rails[r].flare.isSome || d.pwm[n].flareLift then d
      else match d.stepShort with
        | some x => d.beginWait x
        | none => if (allRails.all fun x => d.interleaveOk x (some n)) && contextsOk d.tile.cur d.tile.rt.goal d.tile.rt.plan then d.beginNotice r n true else d

/-- The failed check passes, or the retile waits on. -/
def Dev.capacityRecheck (d : Dev) : Dev :=
  if d.tile.rt.state != .waiting then d
  else match d.stepShort with
    | some r => d.beginWait r
    | none => d.updRt fun x => { x with state := .running, waitSince := none }

/-- No regular pass runs, and no regular interleaved run holds or reserves a slot: the wrap of a quad's regular sequence, at a SLICE_CLK
    edge (R266). -/
def Dev.atWrap (d : Dev) (q : QuadIx) : Bool :=
  let x := d.sense.quads[q]
  x.regPass.isNone && x.convs.all (fun c => c.req.inj || !c.interleaved || decide (c.slotsFree ≤ d.clk.now)) && !d.regReserves q

/-- The present tick is an apex or a valley of a phase's carrier; of a counter that stands still every tick serves. -/
def Dev.atCarrier (d : Dev) (n : PhaseIx) : Bool :=
  let p := d.pwm[n].sync d.clk.now
  let len := p.upLen + p.downLen
  let t := (d.clk.now - p.valley) % len
  len == 0 || t == 0 || t == p.upLen

/-- The anchor of a step on a rail: an apex or a valley of its lowest-numbered active member, or any cycle where it has none (R176). -/
def Dev.atRailAnchor (d : Dev) (r : RailIx) : Bool := match (d.active r).head? with
  | some n => d.atCarrier n
  | none => true

/-- The rail whose member anchors a STORAGE step: that of the port, as it stands or as it will. -/
def Dev.storageRail (d : Dev) (p : PortIx) : Option RailIx :=
  ((d.tile.cur.stores[p]).map (·.rail)).orElse fun _ => (d.tile.rt.goal.stores[p]).map (·.rail)

/-- The present tick is the anchor of a step (R176). -/
def Dev.atAnchor (d : Dev) (s : RtStep) : Bool := match s.kind with
  | .park | .join => d.atCarrier (targetPhase s.target)
  | .define | .arc | .loops | .undefine => d.atRailAnchor (targetRail s.target)
  | .set => decide (8 ≤ s.target.toNat) || d.atRailAnchor (targetRail s.target)
  | .storage => match d.storageRail (Fin.ofNat 4 s.target.toNat) with
    | some r => d.atRailAnchor r
    | none => true
  | .widen | .narrow => d.sliceEdge && d.atWrap (targetQuad s.target)
  | .fabric | .chord => true

/-- What besides the invariants a step waits for (R175, R176). -/
def Dev.stepReady (d : Dev) (s : RtStep) : Bool := d.atAnchor s && match s.kind with
  | .park => d.mustDrain.isNone
  | .arc | .loops => !d.respreadBusy (targetRail s.target)
  | _ => true

/-- Requests for entries that a step has removed are discarded without counting; an injected pass that stood at one goes on (R261,
    R266). A request whose entry number stays but whose entry the step has changed counts as removed (DESIGN CHOICE, assumption 110). -/
def Dev.dropRemoved (d : Dev) (q : QuadIx) (a b : SeqEnt) : Dev :=
  let stays := fun (r : Req) => a.entry r.entry.val == b.entry r.entry.val && (b.entry r.entry.val).isSome
  let gone := d.sense.quads[q].queue.find? fun r => !stays r && r.inj && r.kind == .pass
  let d := d.updQuad q fun x => { x with queue := x.queue.filter stays }
  match gone with
  | some r => d.settleReq q r false
  | none => d

/-- A quad's new sequence and bindings are installed; the timer counts from the first tick of the LOOP_CLK cycle (R257, R266). -/
def Dev.installSeq (d : Dev) (q : QuadIx) (t : Tiling) : Dev :=
  let old := d.tile.cur
  let a := (old.seqs[q]).getD {}
  let b := (t.seqs[q]).getD {}
  let d := d.updCur fun _ => t
  let d := d.updQuad q fun x => { x with timerNext := if a.timer = b.timer then x.timerNext else if b.timer = 0 then none else some (d.cycleTick + b.timer.toNat) }
  let d := { d with sense := { d.sense with accs := mapV d.sense.accs fun k x => if old.accs[k] = t.accs[k] then x else {}, trks := mapV d.sense.trks fun k x => if old.trks[k] = t.trks[k] then x else { win := x.win, opened := d.clk.now } } }
  d.dropRemoved q a b

/-- Contexts a LOOPS step has loaded take up their tables, idle ones too (R310, R312); without a match the Sector in effect stays, where
    the new table has one of its index (R308). -/
def Dev.reloadCtx (d : Dev) (c : CtxIx) : Dev :=
  if !(d.topo c).enable then if d.loop.ctx[c].active then d.idleCtx c else d
  else
    let held := (d.loop.ctx[c].sector.getD 0)
    let w := (d.winnerOf c).getD (if held.val < d.tile.cur.sectors[c].length then held else 0)
    let old := d.loop.ctx[c].sector
    let d := d.updCtx c fun x => { x with sector := some w, noMatch := (d.winnerOf c).isNone, candidate := none, wins := 0, changes := if old = some w then x.changes else x.changes + 1 }
    (if old = some w then d else d.event (0x0500 + c.val)).preload c hoLoops none

/-- Events held at inputs none of whose routes remains are discarded (R179). -/
def Dev.dropHeld (d : Dev) (old routes : List Route) : Dev × Nat :=
  let gone := fun (x : Nat) => !routes.any fun r => r.dst.toNat == x && old.contains r
  let f := d.loop.fab
  let cs := (List.finRange 80).map fun c => if gone (0x100 + c.val) then (f.ctxHeld[c]).toNat else 0
  let ss := (List.finRange 8).map fun i => if gone (0x200 + i.val) then (f.snapHeld[i]).toNat else 0
  (d.updFab fun f => { f with ctxHeld := mapV f.ctxHeld fun c x => if gone (0x100 + c.val) then 0 else x, snapHeld := mapV f.snapHeld fun i x => if gone (0x200 + i.val) then 0 else x }, cs.sum + ss.sum)

/-- One step is applied; the number of fabric events it discards. PARK and JOIN clear the phase's EMBER bit (DESIGN CHOICE, assumption 95),
    and a JOIN evaluates the context it loads (R310). A SET that lowers the count of a storage rail sheds at once (R383). -/
def Dev.applyStep (d : Dev) (s : RtStep) : Dev × Nat :=
  let g := d.tile.rt.goal
  let t := d.tile.cur.after g s
  let r := targetRail s.target
  let n := targetPhase s.target
  match s.kind with
  | .define =>
    let d := d.updCur fun _ => t
    (({ d with pwmg := { d.pwmg with refs := d.pwmg.refs.set r (d.newRef r) } } : Dev).trimCauses, 0)
  | .widen | .narrow => (d.installSeq (targetQuad s.target) t, 0)
  | .park =>
    let d := d.dropAdd n
    let d := if d.loop.ctx[innerIx n].active then d.idleCtx (innerIx n) else d
    let rail := d.railOf n
    ((((d.updCur fun _ => t).endStart n).updPwm n fun p => { p with parkRail := rail }).resettle d n |>.setMask n (fun m => { m with park := true, ember := false }), 0)
  | .join =>
    let d0 := d
    let d := ((d.updCur fun _ => t).updPwm n fun p => { p with arcTgt := (g.phases[n]).arc }).updCtx (innerIx n) fun x => { x with sector := none, candidate := none, wins := 0 }
    let d := match d.railOf n with
      | some r => d.joinCarrier r n
      | none => d
    let d := ((d.updPwm n fun p => { p with parkRail := none }).resettle d0 n).setMask n fun m => { m with park := false, unused := false, shed := true, ember := false }
    (if (d.topo (innerIx n)).enable then d.evalNow (innerIx n) else d, 0)
  | .arc =>
    let changed := (List.finRange 64).filter fun n => stays d.tile.cur g r n && (d.tile.cur.phases[n]).host != (g.phases[n]).host
    let d := d.updCur fun _ => t
    let d := changed.foldl (fun d n => (d.endHostOvr n).setMask n fun m => { m with shed := d.isLoop n }) d
    (d.respread r, 0)
  | .loops =>
    let cs := loopsOf d.tile.cur g r
    let d := d.updCur fun _ => t
    (cs.foldl Dev.reloadCtx d |>.syncCtx r, 0)
  | .fabric => (d.updCur fun _ => t).dropHeld d.tile.cur.routes g.routes
  | .undefine =>
    let d := d.updCur fun _ => t
    (({ d with pwmg := { d.pwmg with refs := d.pwmg.refs.set r {} } } : Dev).trimCauses, 0)
  | .storage => (((d.updCur fun _ => t).dropPorts d.tile.cur).trimCauses, 0)
  | .set =>
    let old := d
    let d := d.updCur fun _ => t
    (match d.portOf r with
      | some p => if s.target.toNat < 8 && ((d.mode r == .charge) || d.mode r == .support) && decide (d.portMembers p r < old.portMembers p r) then d.fitMembers p r else d
      | none => d, 0)
  | .chord => (d.updCur fun _ => t, 0)

/-- A PARK that a JOIN follows pauses the retile where that is asked for (R181). -/
def pausesAfter (s : RtStep) : List RtStep → Bool
  | x :: _ => s.kind == .park && x.kind == .join && x.target == s.target
  | [] => false

/-- The next step, at its anchor (R174, R176 to R178, R180, R181). A from-rail or to-rail of none is 0xFF in its record (DESIGN CHOICE,
    assumption 63). -/
def Dev.retileStep (d : Dev) : Dev :=
  let rt := d.tile.rt
  match rt.plan with
  | [] => d
  | s :: rest =>
    let t' := d.tile.cur.after rt.goal s
    if rt.state != .running || rt.stopAsked.isSome || !d.stepReady s || d.clk.cycleAt rt.stepAt == d.cycle then d
    else match d.shortRail d.tile.cur t' with
      | some r => d.beginWait r
      | none =>
        if !contextsOk t' rt.goal rest || !(allRails.all fun r => d.interleaveOk r none) then d
        else
          let (d, lost) := (d.dipRdy (10 * usTicks)).applyStep s
          let k := rt.done + 1
          let rails := fun (x : Option RailIx) => (railNib x).setWidth 8 ||| (if x.isNone then 0xF0 else 0)
          let d := d.updRt fun x => { x with plan := rest, done := k, step := rest.head?, stepAt := d.clk.now, state := if x.pauseAtPark && pausesAfter s rest then .paused else .running }
          let d := d.note 0x0026 0 k.toNat ([s.kind.code, s.target, rails s.fromRail, rails s.toRail] ++ leBytes 2 lost)
          if rest.isEmpty then d.retileEnd else d

/-- RT_CTRL requests (R185). -/
def Dev.rtStop (d : Dev) : Dev × Byte :=
  if d.tile.rt.active then (d.updRt fun x => { x with stopAsked := some (x.stopAsked.getD 1) }, stOk) else (d, stState)

def Dev.rtContinue (d : Dev) : Dev × Byte :=
  if d.tile.rt.state = .paused then (d.updRt fun x => { x with state := .running }, stOk) else (d, stState)

def Dev.rtHalted (d : Dev) : Bool :=
  let rt := d.tile.rt
  (rt.state == .stopped || (rt.state == .refused && rt.isPartial)) && (d.sys.devState == .run || d.sys.devState == .standby) &&
    d.tile.loading.isNone

def Dev.rtResume (d : Dev) : Dev × Byte :=
  if d.rtHalted && d.tile.loadSlot.state == .valid then
    (d.updTile fun t => { t with rt := { t.rt with state := .planning, toward := false, stopAsked := none, goal := tilingOf t.loadSlot.content, goalId := imgId t.loadSlot.content } }, stOk)
  else (d, stState)

def Dev.rtRevert (d : Dev) : Dev × Byte :=
  if !d.rtHalted then (d, stState)
  else if d.sys.devState = .run then
    (d.updTile fun t => { t with rt := { t.rt with state := .planning, toward := true, stopAsked := none, goal := t.committed, goalId := t.image } }, stOk)
  else ((d.updRt fun x => { x with toward := true }).startLoading .revert, stOk)

end Sys2Proof.Machine
end

