-- ==== Sys2Proof/Machine/Read.lean ====
section
/-! DEFINITION. A register's value by its address (R7, R531): the blocks of the register index put together. -/

namespace Sys2Proof.Machine

open Sys2Proof

/-- The block of an address and what it reads there. -/
def Dev.readBlock (d : Dev) (a : Nat) : Option Word :=
  let within := fun (base size : Nat) => decide (base ≤ a) && decide (a < base + size)
  if within 0x000000 0x1000 then d.readSys a
  else if within 0x001000 0x1000 then d.readClk (a - 0x001000)
  else if within 0x002000 0x800 then d.readLeave (a - 0x002000)
  else if within 0x002800 0x800 then d.readBank (a - 0x002800)
  else if within 0x004000 0x1000 then d.readTile (a - 0x004000)
  else if within 0x010000 0x4000 then d.readPwm (Fin.ofNat 64 ((a - 0x010000) / 0x100)) (a % 0x100)
  else if within 0x014000 0x1000 then d.readPwmg (a - 0x014000)
  else if within 0x020000 0x1000 then d.readSense (a - 0x020000)
  else if within 0x021000 0x1000 then d.readSeq (a - 0x021000)
  else if within 0x022000 0x1000 then d.readAcc (a - 0x022000)
  else if within 0x023000 0x1000 then d.readTrk (a - 0x023000)
  else if within 0x030000 0x5000 then d.readCtx (Fin.ofNat 80 ((a - 0x030000) / 0x100)) (a % 0x100)
  else if within 0x035000 0x4000 then d.readFab (a - 0x035000)
  else if within 0x040000 0x1000 then d.readRail (Fin.ofNat 8 ((a - 0x040000) / 0x200)) (a % 0x200)
  else if within 0x041000 0x1000 then d.readCard (Fin.ofNat 8 ((a - 0x041000) / 0x10)) (a % 0x10)
  else if within 0x042000 0x1000 then d.readVtab (a - 0x042000)
  else if within 0x043000 0x1000 then d.readSp (Fin.ofNat 8 ((a - 0x043000) / 0x20)) (a % 0x20)
  else if within 0x050000 0x1000 then d.readStore (Fin.ofNat 4 ((a - 0x050000) / 0x100)) (a % 0x100)
  else if within 0x060000 0x1000 then d.readProt (a - 0x060000)
  else if within 0x070000 0x1000 then d.readFault (a - 0x070000)
  else if within 0x080000 0x1000 then d.readLog (a - 0x080000)
  else if within 0x090000 0x1000 then d.readTrust (a - 0x090000)
  else if within 0x0A0000 0x1000 then d.readLink (a - 0x0A0000)
  else if within 0x0B0000 0x1000 then d.readChord (a - 0x0B0000)
  else if within 0x0C0000 0x2000 then d.readCal (a - 0x0C0000)
  else none

/-- The register at an address; none where the index has none. -/
def Dev.readReg (d : Dev) (a : Addr) : Option Word := if isReg a then some ((d.readBlock a.toNat).getD 0) else none

end Sys2Proof.Machine
end

