-- ==== Sys2Proof/Machine/React.lean ====
section
/-! DEFINITION. The reaction to a fault (R400 to R411, R414, R415) and the taking of snapshots (R432). -/

namespace Sys2Proof.Machine

open Sys2Proof

/-! ## Snapshots (R432) -/

/-- The 16 values of a list, as registers read now. -/
def Dev.snapValues (d : Dev) (i : Fin 8) : List Word :=
  ((d.tile.cur.snaps[i]).getD []).map fun a => if a = 0xFFFFFFFF then 0 else (d.readReg (a.setWidth 24)).getD 0

def Lantern.freeStage (l : Lantern) : Option (Fin 16) := (List.finRange 16).find? fun i => (l.staging[i]).isNone

/-- The staging area can take a snapshot now. -/
def Dev.canSnap (d : Dev) : Bool := d.lantern.freeStage.isSome && d.test.bist.isNone

def Dev.lostSnap (d : Dev) : Dev := { d with lantern := { d.lantern with snapLost := d.lantern.snapLost + 1 } }

/-- A snapshot of list `i` with the given values, and its record, stamped as given; a record suppressed or lost takes none. -/
def Dev.takeSnap (d : Dev) (i : Fin 8) (level : Fin 5) (trigger : BitVec 48) (values : List Word) (fabric : Bool) (ts : Tick) (tbu : Bool) : Dev :=
  match d.lantern.freeStage with
  | none => d.lostSnap
  | some slot =>
    let serial := d.lantern.serial
    let s : Snap := { seq := d.lantern.next, list := i, serial := serial, tick := d.clk.tbAt d.cycleTick, values := values }
    let (d', n) := d.journal { code := 0x0004, level := level, source := i.val, data := leBytes 6 trigger.toNat ++ leBytes 2 serial.toNat ++ (sha256 s.head).take 8, ts := ts, tbu := some tbu, snap := some serial, fabric := fabric }
    match n with
    | none => d'.lostSnap
    | some _ =>
      let d' := { d' with lantern := { d'.lantern.stage slot s with serial := serial + 1 } }
      d'.endLease true

/-- SNAP[i] takes a start (R302). Its record takes its place among those of the cycle (R423). -/
def Dev.fabricSnap (d : Dev) (i : Fin 8) : Dev :=
  if (d.tile.cur.snaps[i]).isNone then d
  else if d.canSnap then d.placed (d.takeSnap i 0 0 (d.snapValues i) true d.clk.now d.clk.tbUncertain) else d.lostSnap

/-! ## Matching (R406, R407) -/

/-- A reaction entry matches a source and class. -/
def Reaction.hits (x : Reaction) (k : SrcIx) (cls : Nat) : Bool :=
  (x.source.isNone || x.source == some k) && match x.cls with
    | none => true
    | some c => c.toNat == cls

/-- The winning entry: highest ACTION, then lowest index. -/
def bestReaction (xs : List Reaction) (k : SrcIx) (cls : Nat) : Option (Nat × Reaction) :=
  xs.zipIdx.foldl (fun (b : Option (Nat × Reaction)) (x, i) =>
    if x.hits k cls then
      match b with
      | some (_, y) => if y.action < x.action then some (i, x) else b
      | none => some (i, x)
    else b) none

/-- The least action of a level on a rail: 0 of L0, 1 of L1, L2_ACTION of the rail of L2 (3 of RAIL_UNDERPHASED), 4 of L3 and 5 of L4 (R406). -/
def Dev.leastAction (d : Dev) (k : SrcIx) (r : RailIx) (level : Nat) : Nat :=
  if level = 2 then (if (0x40 ≤ k.val ∧ k.val < 0x48) ∨ (d.railEnt r).l2Hold then 3 else 2)
  else if level < 2 then level else level + 1

/-- The rails a fault reaches; of a device own domain every rail, where the larger of the winner's action and the least action of the
    level is a rail action (R407). -/
def Dev.reached (d : Dev) (k : SrcIx) (inst : PhaseIx) (mask : Byte) (action level : Nat) : List RailIx :=
  if mask != 0 then allRails.filter fun r => mask.getLsbD r.val && d.railDefined r
  else match d.domain k inst with
    | .rails rs => rs
    | .device => if action ≤ 3 ∧ level ≤ 2 ∧ (2 ≤ action ∨ level = 2) then allRails.filter d.railDefined else []

/-! ## Entries (R410) -/

/-- What a fault finds on one rail: the level it takes there, and whether it opens, merges or escalates. -/
inductive EntryCase where
  | opens | merges | escalates
  deriving DecidableEq, Repr

structure RailHit where
  rail : RailIx
  found : EntryCase
  level : Nat
  action : Nat
  deriving DecidableEq, Repr

def Dev.railHit (d : Dev) (k : SrcIx) (cls : BitVec 5) (level action : Nat) (r : RailIx) : RailHit :=
  let found := if (d.entryOf r cls).isNone then EntryCase.opens
    else if d.domainSize r ≤ 16 && !d.domainSpans r then .merges else .escalates
  let lv := if level = 0 then 0 else if found = .escalates then min 4 (level + 1) else level
  { rail := r, found := found, level := lv, action := max action (d.leastAction k r lv) }

/-- Merge and escalation counts of an entry, a merge with its alert where the record can still be updated (R416); opened entries are put when their REACT record is known. -/
def Dev.countEntry (d : Dev) (cls : BitVec 5) (h : RailHit) : Dev := match h.found, d.entryOf h.rail cls with
  | .merges, some e =>
    let d := d.putEntry h.rail cls { e with merges := satInc e.merges }
    ({ d with lantern := d.lantern.merge e.seq } : Dev).alert e.seq (d.lantern.ram.any fun r => r.seq == e.seq)
  | .escalates, some e => d.putEntry h.rail cls { e with escalations := satInc e.escalations }
  | _, _ => d

/-- The number a record carries for one that may not have been numbered. -/
def Dev.seqOr (d : Dev) (n : Option Nat) : BitVec 48 × Dev := match n with
  | some n => (BitVec.ofNat 48 n, d)
  | none => (Config.noSeq d.free, { d with free := d.free + 1 })

/-! ## One fault (R400, R408, R415) -/

/-- Instance number of a FAULT record's SOURCE. -/
def instOf (k : SrcIx) (inst : PhaseIx) : Nat :=
  let v := k.val
  if srcPerPhase k then inst.val
  else if 0x20 ≤ v ∧ v < 0x68 then v % 8
  else if 0x68 ≤ v ∧ v < 0x74 then v % 4
  else if 0x74 ≤ v ∧ v < 0x84 then v - 0x74
  else if 0x84 ≤ v ∧ v < 0x9C then (v - 0x84) % 8
  else if 0x9C ≤ v ∧ v < 0xA0 then v - 0x9C
  else if 0xA0 ≤ v ∧ v < 0xB8 then (v - 0xA0) % 12
  else if 0xB8 ≤ v ∧ v < 0xC8 then v % 4 else 0xFFFF

/-- Status bit, FAULT_SET and count of a fault, in the LOOP_CLK cycle in which it is seen (R400). -/
def Dev.markFault (d : Dev) (k : SrcIx) : Dev :=
  let d := if d.fault.src[k].status then d else d.event (0x0600 + k.val)
  ({ d with fault := { d.fault with src := upd d.fault.src k fun f => { f with status := true, faults := f.faults + 1 } } } : Dev).setsBit (.status k)

/-- Reach of a fault, for the refusals of R322. -/
def Dev.addReach (d : Dev) (k : SrcIx) (rs : List RailIx) : Dev :=
  { d with fault := { d.fault with src := upd d.fault.src k fun f => { f with reach := rs.foldl (fun (m : Byte) r => setBit m r.val true) f.reach } } }

def Dev.setLast (d : Dev) (k : SrcIx) (n : Option Nat) : Dev := match n with
  | some n => { d with fault := { d.fault with src := upd d.fault.src k fun f => { f with last := n } } }
  | none => d

/-- DATA of a FAULT record; `merged` is the entry of the lowest-numbered rail it merged on, after the merge. -/
def Dev.faultData (d : Dev) (x : Seen) (merged : Option OpenEnt) : List Byte :=
  [BitVec.ofNat 8 x.src.val, BitVec.ofNat 8 (instOf x.src x.inst), BitVec.ofNat 8 (d.srcLevel x.src), BitVec.ofNat 8 (d.srcClass x.src), originOf x.src, (if x.forced then 1 else 0) ||| (if merged.isSome then 2 else 0)] ++
    leBytes 6 ((merged.map (·.seq)).getD 0) ++ leBytes 2 ((merged.map (·.merges.toNat)).getD 0) ++ slice x.detail 0 10

/-- The effects of a fault's actions at once, as a snapshot of its start cycle shows them. -/
def Dev.applyActions (d : Dev) (x : Seen) (top : Nat) (acts : List (RailIx × Nat)) : Dev :=
  if 4 ≤ top then d.deviceAction (top == 5) x.tick x.tbu else acts.foldl (fun d a => d.railAction a.1 a.2) d

/-- The FAULT record of a fault, with the snapshot it names. -/
def Dev.writeFault (d : Dev) (x : Seen) (merged : Option OpenEnt) (top : Nat) (acts : List (RailIx × Nat)) (snap : Option (Fin 8)) :
    Dev × Option Nat :=
  let level : Fin 5 := Fin.ofNat 5 (d.srcLevel x.src)
  let rec_ := fun (ref : Option (BitVec 16)) => ({ code := 0x0100 + x.src.val, level := level, source := instOf x.src x.inst, data := d.faultData x merged, ts := x.tick, tbu := some x.tbu, snap := ref, action := decide (1 ≤ top) } : RecIn)
  match snap with
  | none => d.journal (rec_ none)
  | some i =>
    let (d', n) := d.journal (rec_ (some d.lantern.serial))
    if d.canSnap && d'.lantern.hasRoom level then
      let values := ({ d.applyActions x top acts with lantern := d.lantern }).snapValues i
      let (q, d') := d'.seqOr n
      (d'.takeSnap i level q values false x.tick x.tbu, n)
    else
      let (d', n) := d.journal (rec_ none)
      (if d.canSnap then ({ d' with lantern := d'.lantern.lose level } : Dev).lostSnap else d'.lostSnap, n)

/-- A REACT record. -/
def Dev.writeReact (d : Dev) (x : Seen) (level source action : Nat) (entry : Option Nat) (escalated : Bool) (fault : BitVec 48) :
    Dev × Option Nat :=
  d.journal { code := 0x0200 + x.src.val, level := Fin.ofNat 5 level, source := source, ts := x.tick, tbu := some x.tbu, action := decide (1 ≤ action), data := [BitVec.ofNat 8 action] ++ leBytes 2 (entry.getD 0xFFFF) ++ [BitVec.ofNat 8 (d.srcClass x.src), if escalated then 1 else 0] ++ leBytes 6 fault.toNat }

def Dev.openEntry (d : Dev) (cls : BitVec 5) (h : RailHit) (seq : BitVec 48) : Dev :=
  if h.found = .opens then d.putEntry h.rail cls { level := Fin.ofNat 5 h.level, seq := seq.toNat } else d

/-- The REACT records of a fault that reaches rails by rail actions. -/
def Dev.reactRails (d : Dev) (x : Seen) (cls : BitVec 5) (entry : Option Nat) (fault : BitVec 48) (hs : List RailHit) : Dev :=
  hs.foldl (fun d h =>
    if h.found = .merges then d
    else
      let (d, n) := d.writeReact x h.level h.rail.val h.action entry (h.found == .escalates) fault
      let (q, d) := d.seqOr n
      d.openEntry cls h q) d

/-- The one REACT record that names the device; the entries it opens take its level. -/
def Dev.reactDevice (d : Dev) (x : Seen) (cls : BitVec 5) (entry : Option Nat) (fault : BitVec 48) (hs : List RailHit) (top : Nat) : Dev :=
  let level := (hs.map (·.level)).foldl max (d.srcLevel x.src)
  let (d, n) := d.writeReact x level 0x00FF top entry (hs.any fun h => h.found == .escalates) fault
  let (q, d) := d.seqOr n
  hs.foldl (fun d h => d.openEntry cls { h with level := level } q) d

/-- A retile step not yet applied names a rail (R183). -/
def RtStep.names (s : RtStep) (r : RailIx) : Bool :=
  s.fromRail == some r || s.toRail == some r || match s.kind with
    | .define | .arc | .loops | .undefine => s.target.toNat == r.val
    | .set => decide (s.target.toNat < 8) && s.target.toNat == r.val
    | _ => false

/-- A reaction stops a retile (R183). -/
def Dev.stopByFault (d : Dev) (level : Nat) (hs : List RailHit) : Dev :=
  let named := hs.any fun h => h.level == 2 && d.tile.rt.plan.any fun s => s.names h.rail
  let severe := decide (3 ≤ level) || hs.any fun h => decide (3 ≤ h.level)
  if d.tile.rt.active && d.tile.rt.stopAsked.isNone && (named || severe) then
    d.updRt fun t => { t with stopAsked := some 2 } else d

/-- One fault is matched, recorded and, where it acts on the device, acted on; the rail actions it leaves are the answer. -/
def Dev.reactOne (d : Dev) (x : Seen) : Dev × List (RailIx × Nat) :=
  let k := x.src
  if !d.tile.tiled then
    let (d, n) := d.writeFault x none 0 [] none
    (d.setLast k n, [])
  else
    let level := d.srcLevel k
    let cls := BitVec.ofNat 5 (d.srcClass k)
    let win := bestReaction d.tile.cur.reactions k (d.srcClass k)
    let w := (win.map fun p => p.2.action.val).getD 0
    let rs := d.reached k x.inst ((win.map fun p => p.2.railMask).getD 0) w level
    let hs := rs.map (d.railHit k cls level w)
    let top := (hs.map (·.action)).foldl max (max w (if 3 ≤ level then level + 1 else if level = 2 then 0 else level))
    let recorded := if level = 0 then [] else hs
    let acts := (hs.filter fun h => decide (2 ≤ h.action)).map fun h => (h.rail, h.action)
    let d := recorded.foldl (fun d h => d.countEntry cls h) d
    let d := if recorded.any fun h => h.found == .merges then { d with fault := { d.fault with merges := d.fault.merges + 1 } } else d
    let merged := match recorded.find? fun h => h.found == .merges with
      | some h => d.entryOf h.rail cls
      | none => none
    let (d, n) := d.writeFault x merged top acts (match win with
      | some p => p.2.snap
      | none => none)
    let d := d.setLast k n
    let (q, d) := d.seqOr n
    let entry := win.map (·.1)
    let d := if 4 ≤ top then d.reactDevice x cls entry q recorded top else d.reactRails x cls entry q recorded
    let d := if 2 ≤ top then { d with fault := { d.fault with reactions := d.fault.reactions + 1 } } else d
    let d := d.addReach k (if 4 ≤ top then allRails.filter d.railDefined else acts.map (·.1))
    let d := d.stopByFault level recorded
    if 4 ≤ top then
      let d := d.deviceAction (top == 5) x.tick x.tbu
      (if top = 5 then d.markHold else d, [])
    else (d, acts)

/-! ## The faults of one cycle (R411) -/

/-- Order of R411: source, then instance. -/
def seenKey (x : Seen) : Nat := 64 * x.src.val + x.inst.val

/-- The most severe action on a rail. -/
def worst (acts : List (RailIx × Nat)) (r : RailIx) : Nat := ((acts.filter fun a => a.1 == r).map (·.2)).foldl max 0

/-- A fault of the present LOOP_CLK cycle or of an earlier one; what a start raises anew is of the next (R128). -/
def Dev.seenBy (d : Dev) (x : Seen) : Bool := decide (x.tick < d.nextCycle)

/-- The faults seen set their status bits, and their reactions are due in the next LOOP_CLK cycle. In BOOT the fault manager does not
    run. -/
def Dev.takeSeen (d : Dev) : Dev :=
  if d.sys.devState = .boot then { d with fault := { d.fault with seen := [], due := [] } }
  else
    let xs := sortBy seenKey (d.fault.seen.filter d.seenBy)
    xs.foldl (fun d x => d.markFault x.src) { d with fault := { d.fault with seen := d.fault.seen.filter fun x => !d.seenBy x, due := d.fault.due ++ xs } }

/-- The reactions that start in this cycle: those of the faults of earlier ones. Every fault is matched and recorded in its order, then
    every rail takes its most severe action (R409, R411), and the cards of CARD_FAULT are excluded (R414). -/
def Dev.reactDue (d : Dev) : Dev :=
  if d.sys.devState = .boot then d
  else
    let past := fun (x : Seen) => decide (x.tick < d.cycleTick)
    let xs := sortBy seenKey (d.fault.due.filter past)
    let d := { d with fault := { d.fault with due := d.fault.due.filter fun x => !past x } }
    let (d, acts) := xs.foldl (fun (a : Dev × List (RailIx × Nat)) x =>
      let (d, more) := a.1.reactOne x
      (d, a.2 ++ more)) (d, [])
    allRails.foldl (fun d r => d.railAction r (worst acts r)) d

end Sys2Proof.Machine
end

