-- ==== Sys2Proof/Machine/Settle.lean ====
section
/-! DEFINITION. What ends every command: events reach their task inputs (R295 to R302), faults are reacted to (R409), and what
    follows from the new state at once takes place. -/

namespace Sys2Proof.Machine

open Sys2Proof

/-! ## Delivery of events (R299 to R302) -/

/-- A task input in Count mode takes a start, of the event's tick (R299, R300). SNAP[i] takes one start of a cycle, its first, after all
    events of the cycle have been counted: of 255 that are held the first event of a cycle is lost, and of 254 a later one. -/
def Dev.countInput (d : Dev) (dst : Nat) (at_ : Tick) (again : Bool) : Dev :=
  if dst < 4 then d.startPass (Fin.ofNat 4 dst) false at_
  else if dst < 8 then d.startPass (Fin.ofNat 4 (dst - 4)) true at_
  else if 0x20 ≤ dst ∧ dst < 0xA0 then d.startEntry (Fin.ofNat 4 ((dst - 0x20) / 32)) (Fin.ofNat 32 ((dst - 0x20) % 32)) at_
  else if 0x100 ≤ dst ∧ dst < 0x150 then d.countCtx (Fin.ofNat 80 (dst - 0x100))
  else if 0x200 ≤ dst ∧ dst < 0x208 then
    let i : Fin 8 := Fin.ofNat 8 (dst - 0x200)
    let h : Byte := d.loop.fab.snapHeld[i]
    if !again then (if h = 255 then (d.updFab fun f => { f with snapHeld := f.snapHeld.set i 254 }).overrun dst else d).fabricSnap i
    else if 254 ≤ h.toNat then d.overrun dst else d.updFab fun f => { f with snapHeld := f.snapHeld.set i (h + 1) }
  else d

/-- A merged start carries the earliest tick among its events: the requests that the first of them has made in this cycle (R301). -/
def Dev.mergeTick (d : Dev) (dst : Nat) (at_ : Tick) : Dev :=
  let now := fun (r : Req) => decide (at_ < r.tick ∧ r.tick ≤ d.cycleTick + 1)
  let early := fun (q : QuadIx) (p : Req → Bool) => d.updQuad q fun x =>
    { x with queue := x.queue.map fun r => if p r && now r then { r with tick := at_, waitFrom := at_ } else r }
  if dst < 8 then early (Fin.ofNat 4 (dst % 4)) fun r => r.kind == .pass && r.inj == decide (4 ≤ dst) && r.entry.val == seqBase r.inj
  else if 0x20 ≤ dst ∧ dst < 0xA0 then early (Fin.ofNat 4 ((dst - 0x20) / 32)) fun r => r.kind == .ent && r.entry.val == (dst - 0x20) % 32
  else d

/-- A task input in Latch mode takes an event (R301): a second one of the cycle, or one that finds a start held, or held until it was taken
    in this very cycle, merges. -/
def Dev.latchInput (d : Dev) (dst : Nat) (at_ : Tick) (again : Bool) : Dev :=
  let isCtx := decide (0x100 ≤ dst) && decide (dst < 0x150)
  let c : CtxIx := Fin.ofNat 80 (dst - 0x100)
  if again || (isCtx && (d.loop.fab.ctxHeld[c] != 0 || d.tookStart c)) then (d.mergeTick dst at_).overrun dst
  else if isCtx then
    let (d, ok) := d.startCtx c
    if ok then d else d.updFab fun f => { f with ctxHeld := f.ctxHeld.set c 1 }
  else d.countInput dst at_ false

/-- A start at SNAP[i], or the taking of one that is held there; one is taken in a cycle (R302, R432). -/
def Dev.snapStart (d : Dev) (i : Fin 8) : Dev :=
  let (again, d) := d.reachInput (BitVec.ofNat 16 (0x200 + i.val))
  if again then d.countInput (0x200 + i.val) d.clk.now true
  else (d.updFab fun f => { f with snapHeld := upd f.snapHeld i fun h => h - (if h = 0 then 0 else 1) }).fabricSnap i

/-- One event reaches one task input. -/
def Dev.reach (at_ : Tick) (d : Dev) (x : Route) : Dev :=
  let (again, d) := d.reachInput x.dst
  if x.latch then d.latchInput x.dst.toNat at_ again else d.countInput x.dst.toNat at_ again

/-- One event reaches every input it is routed to. -/
def Dev.deliverEvent (d : Dev) (e : BitVec 16 × Tick) : Dev :=
  (d.tile.cur.routes.filter fun x => x.src == e.1).foldl (Dev.reach e.2) d

/-- Every event reaches its inputs. While the PLL's clock stands still the fabric stops, and none does (R108). -/
def Dev.deliverAll (d : Dev) : Dev :=
  let es := if d.alive then d.fault.events else []
  es.foldl Dev.deliverEvent { d with fault := { d.fault with events := [] } }

/-! ## What follows from the state at once -/

/-- A card whose CARD_FAULT is present is excluded, from the start cycle of the reaction (R414). -/
def Dev.excludeCard (d : Dev) (s : CardIx) : Dev :=
  if d.causeOf (srcCardFault s) 0 && !((d.fault.due ++ d.fault.seen).any fun x => x.src == srcCardFault s) && (slotPhases s).any fun n => d.isLoop n && !d.pwm[n].mask.shed then d.shedSlot s true else d

/-- A retile is stopped by the device state or a SAFE stop (R183). -/
def Dev.stopRetile (d : Dev) : Dev :=
  if d.tile.rt.active && d.tile.rt.stopAsked.isNone then
    if d.sys.devState = .latched then d.updRt fun t => { t with stopAsked := some 2 }
    else if d.prot.stop then d.updRt fun t => { t with stopAsked := some 3 } else d
  else d

/-- The active set is no longer the one for which the targets stand: new targets, and contexts that follow (R281, R327). -/
def Dev.keepSpread (d : Dev) (r : RailIx) : Dev :=
  if (maskOf 64 fun n : PhaseIx => d.railOf n == some r && d.isActive n) == d.rails[r].spread then d else (d.respread r).syncCtx r

def Dev.follow (d : Dev) : Dev :=
  let d := (List.finRange 8).foldl (fun d s => (d.offsetCheck s).excludeCard s) d
  let d := allRails.foldl (fun d r => (((d.keepSpread r).keepAdd r).checkUnderphased r).keepOv r) d
  let d := d.leave.grants.foldl Dev.endMasked d
  let d := if d.alive then (List.finRange 4).foldl (fun d q => ((d.leaveLow q).quadEdges q).clearStale q) d else d
  d.railEndsCal.checkPhaseTest.jtagCause.stopRetile

/-- Nothing is left to deliver or to react to. -/
def Dev.quiet (d : Dev) : Bool := d.fault.events.isEmpty && !d.fault.seen.any d.seenBy

/-- Rounds of following, delivering and reacting until nothing is left; the fuel bounds them, and what a round beyond it would
    take stays for the next command. -/
def Dev.rounds (d : Dev) : Nat → Dev
  | 0 => d
  | k + 1 =>
    let d := d.follow
    if d.quiet then d else (d.deliverAll.takeSeen).rounds k

/-- A malformed transaction is refused; of a TOKEN and an ATTEST that is an outcome (R447, R456, R473). -/
def Dev.refuseForm (d : Dev) (payload : List Byte) : Dev := match (byteAt payload 0).toNat with
  | 0x0A => d.attestFail (payload.drop 4) stState
  | 0x0B => d.tokenEnd (payload.drop 4) stState (if d.sys.devState = .boot then 0 else 1)
  | _ => d.replyTo payload stState

/-- The transaction whose turn it is, where it is malformed. -/
def Dev.malformed (d : Dev) : Option (List Byte) := match (takeFirst d.link.window).2 with
  | none => none
  | some x => if formOk x.payload then none else some x.payload

/-- A malformed transaction is refused in its turn, in a LOOP_CLK cycle of its own (R473, R478). -/
def Dev.refuseForms (d : Dev) : Dev := match d.malformed with
  | some p => if d.linkBlocked then d else d.refuseForm p
  | none => d

def Dev.settle (d : Dev) : Dev := (d.rounds 8).refuseForms.trackRdy

/-- What the edges at stage F since `old` begin: the phase's blanking window (R228), and at the first edge of GH the last 100 µs
    of a phase start's leave (R519). -/
def Dev.edgesOf (old d : Dev) (n : PhaseIx) : Dev :=
  let e := d.emitted n
  let o := old.emitted n
  if e == o then d
  else
    let held := d.holdsLeave .phaseStart (phaseTarget n)
    d.updPwm n fun p =>
      { p with blankUntil := if p.blank = 0 then p.blankUntil else some (d.clk.now + p.blank.toNat), startEdge := if e.1 && !o.1 && held && p.startEdge.isNone then some d.clk.now else p.startEdge }

def Dev.edges (old d : Dev) : Dev := if d.alive then (List.finRange 64).foldl (Dev.edgesOf old) d else d

/-- What ends a command that found the device as `old` and left it as `d`. -/
def Dev.finish (old d : Dev) : Dev := Dev.edges old d.settle

/-- Time passes to tick `t`; what the completions of a cycle leave to the next one takes place in that one. -/
def Dev.passTo (d : Dev) (t : Tick) : Dev :=
  if d.loop.ended.isEmpty then d.clockTo t else (d.clockTo (min t d.nextCycle)).afterEnded.clockTo t

/-- Something is to take place in the next LOOP_CLK cycle of itself: a fault that a start raised anew is seen (R128), a reaction starts in
    the cycle after its fault (R409), a malformed transaction is refused in the cycle after the completion before it (R478). -/
def Dev.stirs (d : Dev) : Bool := !d.fault.due.isEmpty || !d.fault.seen.isEmpty || d.malformed.isSome && !d.linkHeld

/-- Time passes to tick `t`: what is to take place in a next cycle does, with what follows from it. On the backup oscillator
    the next cycle is the one of the next edge (R111). The fuel bounds the cycles of a chain of faults that reactions raise; what is left
    beyond it starts with the next command. -/
def Dev.turns (d : Dev) (t : Tick) : Nat → Dev
  | 0 => d
  | k + 1 =>
    if !d.stirs then d
    else
      let next := d.passTo (min t d.nextCycle)
      let next := if next.cycle = d.cycle then d.passTo t else next
      if next.cycle = d.cycle then d else (Dev.finish next next.reactDue).turns t k

def Dev.advance (d : Dev) (t : Tick) : Dev := ((d.turns t 8).passTo t).endRdyLow

/-- A command at tick `t`: time passes, the command acts, its consequences settle. -/
def Dev.act (d : Dev) (t : Tick) (f : Dev → Dev) : Dev := Dev.finish (d.advance t) (f (d.advance t))

def State.run (t : Tick) (s : State) (f : Dev → Dev) : Host.Outcome State Fault Refusal := .next { s with dev := s.dev.act t f }

/-- The same for what a block clocked by the PLL does: nothing while that clock stands still (R108, R118). -/
def State.runLive (t : Tick) (s : State) (f : Dev → Dev) : Host.Outcome State Fault Refusal :=
  s.run t fun d => if d.alive then f d else d

/-- A host transaction that writes one register. -/
def State.hostWrite (t : Tick) (s : State) (i : Instr) (f : Dev → Dev × Byte) : Host.Outcome State Fault Refusal :=
  s.run t fun d => d.host i false fun d =>
    let (d, st) := f d
    d.reply st

/-- The same for a command that also reads or writes the scratchpad. -/
def State.runMem (t : Tick) (s : State) (f : Dev → List Host.Cell → Dev × List Host.Cell) : Host.Outcome State Fault Refusal :=
  let (d, m) := f (s.dev.advance t) s.mem
  .next { s with dev := Dev.finish (s.dev.advance t) d, mem := m }

end Sys2Proof.Machine
end

