-- ==== Sys2Proof/Machine/Rail.lean ====
section
/-! DEFINITION. The commands of the rail manager (chapter 14): update points of the rail reference, RAIL[r].CMD, shedding,
    Flare, hiccup and cards. -/

namespace Sys2Proof.Machine

open Sys2Proof

/-! ## Update points of a rail reference (R201, R204, R304, R305, R323, R374) -/

/-- A valley of the rail reference: a written RPER takes effect, an alignment with the device reference is begun or met while the rail is
    OFF, and the members are re-placed or run free (R203, R204). -/
def Dev.refValley (d : Dev) (r : RailIx) : Dev :=
  let ref := d.pwmg.refs[r].sync d.clk.now
  let dev := d.pwmg.dev
  let per := ref.pend.getD ref.per
  let at_ := if ref.first then ref.valley else d.clk.now
  let due := per == dev.per && (ref.alignDue || (ref.pend.isSome && ref.per != dev.per))
  let aligns := due && d.mode r == .off
  let hold := aligns && dev.valley != at_
  let d := { d with pwmg := { d.pwmg with refs := d.pwmg.refs.set r { ref with valley := at_, first := false, down := false, per := per, wasPer := ref.per, pend := none, alignDue := due && !aligns, holding := hold } } }
  if !hold && (ref.pend.isSome || aligns) then d.placeMembers r { ref with wasPer := ref.per } else d

/-- The work of a mark before its decisions: keys, set-point, port reference, Sectors. The flag says that the rail sum is
    valid. -/
def Dev.railMark (d : Dev) (r : RailIx) : Dev × Bool :=
  let d := (d.refValley r).event (0x0300 + r.val)
  let (d, valid) := (d.formVout r).formKeys r
  let d := d.setpointMark r
  let d := match d.portOf r with
    | some p => d.portMark p r
    | none => d
  ((d.ctxsOf r).foldl (fun d c => if d.loop.ctx[c].active then d.evalMark r c else d) d, valid)

/-- RAIL_DIV, the transfer of the reference, and the decisions every update point takes. -/
def Dev.railTransfer (d : Dev) (r : RailIx) : Dev :=
  let d := d.railDiv r
  let d := match d.portOf r with
    | some p => d.portRef p r
    | none => d.transferRef r
  if d.rails[r].flare.isSome then d.flarePoint r else if d.mode r = .ember then d.emberPoint r else d

/-- The apex of the rail reference passes. -/
def Dev.refApex (d : Dev) (r : RailIx) : Dev :=
  { d with pwmg := { d.pwmg with refs := upd d.pwmg.refs r fun x => { x.sync d.clk.now with down := true } } }

/-- One update point of a rail reference, when it is due (R186, R201). -/
def Dev.railPoint (d : Dev) (r : RailIx) (apex : Bool) : Dev :=
  let ref := d.pwmg.refs[r]
  if !d.railDefined r || !ref.running || ref.holding || !ref.due d.clk.now apex then d
  else
    let d := { d with cyc := { d.cyc with points := setBit d.cyc.points r.val true } }
    if apex then ((d.refApex r).formVout r).railTransfer r
    else
      let (d, valid) := d.railMark r
      ((d.railTransfer r).markDecisions r valid).updRail r fun x => { x.noticeMark with markAt := d.clk.now }

def execRailUpdatePoint (t : Nat) (r : RailIx) (apex : Bool) (s : State) : Host.Outcome State Fault Refusal :=
  s.runLive t fun d => d.railPoint r apex

/-! ## RAIL[r].CMD (R322, R378, R500) -/

/-- What R500 says of a host command to a shared rail: none where the rail is not shared or the head may take it. -/
inductive SharedCmd where
  | own | refused | arms
  deriving DecidableEq, Repr

def Dev.sharedCmd (d : Dev) (r : RailIx) (on : Bool) : SharedCmd :=
  if (d.sharedAs r).isNone then .own
  else if d.chord.head then (if d.chord.st = 1 then .own else .refused)
  else if on && d.mode r == .off && !d.chord.armed.getLsbD r then .arms else .refused

/-- ON (R322), dropped by a reaction that has taken the device to LATCHED in the cycle (R40). -/
def Dev.cmdOn (d : Dev) (r : RailIx) : Dev × Byte :=
  let storage := (d.railEnt r).storage
  match d.sharedCmd r true with
  | .refused => (d, stState)
  | .arms =>
    if d.latchedNow then (d, stFault)
    else if !d.takesOn then (d, stState)
    else if d.faultBars r then (d, stFault)
    else ({ d with chord := { d.chord with armed := setBit d.chord.armed r true } }, stOk)
  | .own =>
    if d.mode r != .off || storage || !d.railDefined r || d.rails[r].vscale == 0 then (d, stState)
    else if d.latchedNow then (d, stFault)
    else if d.deviceBars r then (d, stState)
    else if d.faultBars r then (d, stFault)
    else (d.enterRamp r, stOk)

/-- OFF (R322). A reaction, or another stop, that has taken the device to LATCHED or the rail to HOLD or HICCUP in the same LOOP_CLK
    cycle drops it (R40, R321). -/
def Dev.cmdOff (d : Dev) (r : RailIx) : Dev × Byte :=
  let st := d.sys.devState
  if d.sharedCmd r false = .refused || st == .boot || st == .untiled || !d.railDefined r then (d, stState)
  else if d.latchedNow then (d, stFault)
  else if st == .latched then (d, stState)
  else if d.mode r = .off then (d, stOk)
  else if d.cyc.struck.getLsbD r.val then (d, stFault)
  else if d.cyc.stopped.getLsbD r.val then (d, stState)
  else (d.commandOff r, stOk)

/-- The conditions that refuse CHARGE (R378). -/
def Dev.chargeReady (d : Dev) (p : PortIx) (r : RailIx) : Bool :=
  let x := d.ports[p]
  d.rails[r].vscale != 0 && d.rails[r].iscale != 0 && decide (x.vTrickle.toNat ≤ x.vPre.toNat) && decide (x.vPre.toNat < x.vCv.toNat) &&
    decide (x.vRechg.toNat < x.vCv.toNat) && x.iCc != 0 && x.iSlew != 0 && x.safeIcc != 0 && x.safeVcv != 0

/-- The conditions that refuse SUPPORT (R378). -/
def Dev.supportReady (d : Dev) (p : PortIx) (r : RailIx) : Bool :=
  let x := d.ports[p]
  d.rails[r].iscale != 0 && d.loop.rails[r].vkScale != 0 && (d.inregOf p).isSome && x.vSup != 0 && x.iSup != 0 && !d.rails[r].vstale &&
    decide ((x.vCutoff.toNat : Int) < d.rails[r].vout.toInt)

/-- CHARGE (R378, R379). -/
def Dev.cmdCharge (d : Dev) (r : RailIx) : Dev × Byte :=
  match d.portOf r with
  | none => (d, stState)
  | some p =>
    if d.sharedCmd r false = .refused then (d, stState)
    else if d.latchedNow then (d, stFault)
    else if d.deviceBars r then (d, stState)
    else if d.faultBars r then (d, stFault)
    else match d.mode r with
      | .off | .support =>
        if d.chargeReady p r then ((d.enterStorage p r .charge).relight p, stOk) else (d, stState)
      | .charge =>
        if d.ports[p].phase = .stopped then (((d.takePhase p r).resumeZero p r).relight p, stOk) else (d, stOk)
      | _ => (d, stState)

/-- SUPPORT (R378, R379). -/
def Dev.cmdSupport (d : Dev) (r : RailIx) : Dev × Byte :=
  match d.portOf r with
  | none => (d, stState)
  | some p =>
    if d.sharedCmd r false = .refused then (d, stState)
    else if d.latchedNow then (d, stFault)
    else if d.deviceBars r then (d, stState)
    else if d.faultBars r then (d, stFault)
    else match d.mode r with
      | .off | .charge =>
        if d.supportReady p r then ((d.enterStorage p r .support).relight p, stOk) else (d, stState)
      | .support =>
        if d.ports[p].phase = .stopped then
          if (d.ports[p].vCutoff.toNat : Int) < d.rails[r].vout.toInt then
            (((d.setPhase p r .boost).resumeZero p r).relight p, stOk)
          else (d, stState)
        else (d, stOk)
      | _ => (d, stState)

/-- Code 0: no effect, and refused where R500 refuses every code. -/
def Dev.cmdNone (d : Dev) (r : RailIx) : Dev × Byte := (d, if d.sharedCmd r false = .refused then stState else stOk)

def execRailCmdNone (t : Nat) (r : RailIx) (s : State) : Host.Outcome State Fault Refusal :=
  s.hostWrite t (.railCmdNone t r) fun d => d.cmdNone r
def execRailCmdOff (t : Nat) (r : RailIx) (s : State) : Host.Outcome State Fault Refusal :=
  s.hostWrite t (.railCmdOff t r) fun d => d.cmdOff r
def execRailCmdOn (t : Nat) (r : RailIx) (s : State) : Host.Outcome State Fault Refusal :=
  s.hostWrite t (.railCmdOn t r) fun d => d.cmdOn r
def execRailCmdCharge (t : Nat) (r : RailIx) (s : State) : Host.Outcome State Fault Refusal :=
  s.hostWrite t (.railCmdCharge t r) fun d => d.cmdCharge r
def execRailCmdSupport (t : Nat) (r : RailIx) (s : State) : Host.Outcome State Fault Refusal :=
  s.hostWrite t (.railCmdSupport t r) fun d => d.cmdSupport r
def execRailCmdReserved (t : Nat) (r : RailIx) (code : Fin 3) (s : State) : Host.Outcome State Fault Refusal :=
  s.hostWrite t (.railCmdReserved t r code) fun d => (d, stState)

/-! ## Shedding, Flare, hiccup (R325, R331, R336, R350) -/

def execShedNoticeExpire (t : Nat) (r : RailIx) (s : State) : Host.Outcome State Fault Refusal :=
  s.run t fun d => match d.rails[r].notice with
    | some nt => if nt.until_ ≤ d.clk.now then d.shedNow r nt.phase else d
    | none => d

/-- The undershoot comparator crosses or releases. -/
def Dev.uvCross (d : Dev) (r : RailIx) (crossed : Bool) : Dev :=
  let w := d.prot.wins[r]
  if !crossed then d.updWin r fun w => { w with uv := false }
  else if !d.alive || w.uvCode == 0 || w.uv then d
  else
    let d := (d.updWin r fun w => { w with uv := true }).event (0x00C0 + 4 * r.val)
    if settling w.uvSettle d.clk.now then d else d.uvAction r

def execUndershootCrossing (t : Nat) (r : RailIx) (crossed : Bool) (s : State) : Host.Outcome State Fault Refusal :=
  s.run t fun d => d.uvCross r crossed

def execFlareRearm (t : Nat) (r : RailIx) (s : State) : Host.Outcome State Fault Refusal :=
  s.run t fun d =>
    let x := d.rails[r]
    match x.flareLastExit with
    | some e => if e + x.flareGap.toNat * 10 * usTicks ≤ d.clk.now then d.updRail r fun x => { x with flareLastExit := none } else d
    | none => d

/-- The hiccup of a member's shared rail is timed by the head (R502). -/
def execHiccupToffExpire (t : Nat) (r : RailIx) (s : State) : Host.Outcome State Fault Refusal :=
  s.run t fun d => match d.rails[r].toffAt with
    | some e =>
      if d.mode r = .hiccup ∧ e ≤ d.clk.now ∧ ((d.sharedAs r).isNone ∨ d.chord.head) then d.toffExpired r else d
    | none => d

def execRetriesClear (t : Nat) (r : RailIx) (s : State) : Host.Outcome State Fault Refusal :=
  s.run t fun d =>
    let x := d.rails[r]
    match x.regSince with
    | some e => if e + x.retryClr.toNat * 10 * msTicks ≤ d.clk.now then d.updRail r fun x => { x with retries := 0 } else d
    | none => d

/-- A write of RAIL[r].CTRL with its OLT_EN bit (R340, R199). -/
def Dev.writeRailCtrl (d : Dev) (r : RailIx) (v : Word) : Dev × Byte :=
  let on := v.getLsbD 3
  let ok := d.mode r == .off && (d.sys.devState == .standby || d.sys.devState == .run)
  if on && !ok then (d, stState)
  else
    let was := d.rails[r].oltEn
    let d := d.updRail r fun x =>
      { x with oltEn := on, flareEn := v.getLsbD 2, emberEn := v.getLsbD 1, shedEn := v.getLsbD 0 }
    (if was && !on then d.endHostOvrRail r else d, stOk)

def execOltEnWrite (t : Nat) (r : RailIx) (v : Word) (s : State) : Host.Outcome State Fault Refusal :=
  s.hostWrite t (.oltEnWrite t r v) fun d => d.writeRailCtrl r v

/-! ## Cards (R337 to R339, R362) -/

/-- The fault line of a slot is evaluated no longer: its counts and causes end (R362). -/
def Dev.clearCardLine (d : Dev) (c : CardIx) : Dev :=
  let x : LineIx := Fin.ofNat 12 (4 + c.val)
  let d := d.updLine x fun l => { l with low := false, chatter := false, stuck := false, assertSince := none, chatterSince := none }
  ((d.setCause (srcCardFault c) 0 false).setCause (srcChatter x) 0 false).setCause (srcStuck x) 0 false

/-- A card is taken as removed (R338). -/
def Dev.removeCard (d : Dev) (c : CardIx) : Dev :=
  let d := d.updCard c fun x => { x with state := .absent, removals := satInc x.removals, since := d.clk.now, qual := .ready }
  let d := (slotPhases c).foldl (fun d n => d.setMask n fun m => { m with card := true }) d
  let d := ((d.clearCardLine c).setCause (srcCardQual c) 0 false).event (0x04A0 + c.val)
  (((d.setCause (srcCardRemoved c) 0 true).shedSlot c false).restartToff c)

def Dev.setPres (d : Dev) (c : CardIx) (high : Bool) : Dev :=
  { d with sys := { d.sys with cardPresLvl := setBit d.sys.cardPresLvl c high } }

/-- A card pulled during a start loses its qualification; the removal counts, and its cause stands when the start ends (R338,
    R339). -/
def Dev.removeInBoot (d : Dev) (c : CardIx) : Dev :=
  match d.cards[c].state with
  | .absent => d
  | .debounce | .qualifying => d.updCard c fun x => { x with state := .absent, since := d.clk.now, qual := .ready }
  | .qualified | .failed => (d.updCard c fun x => { x with state := .absent, removals := satInc x.removals, since := d.clk.now, qual := .ready }).setCause (srcCardRemoved c) 0 true

def execCardRemoval (t : Nat) (c : CardIx) (s : State) : Host.Outcome State Fault Refusal :=
  s.run t fun d =>
    let d := d.setPres c true
    if d.sys.devState = .boot then d.removeInBoot c
    else match d.cards[c].state with
      | .absent => d
      | .debounce | .qualifying => d.updCard c fun x => { x with state := .absent, since := d.clk.now, qual := .ready }
      | .qualified | .failed => d.removeCard c

def execCardInsert (t : Nat) (c : CardIx) (s : State) : Host.Outcome State Fault Refusal :=
  s.run t fun d =>
    let d := d.setPres c false
    if d.sys.devState != .boot && d.cards[c].state == .absent then
      d.updCard c fun x => { x with state := .debounce, since := d.clk.now, lowSeen := !d.sys.cardFltLvl.getLsbD c.val }
    else d

/-- The card enters QUALIFYING. A line that is high without having been low has failed check 1. -/
def Dev.beginQual (d : Dev) (c : CardIx) : Dev :=
  let high := d.sys.cardFltLvl.getLsbD c.val
  let d := d.updCard c fun x => { x with state := .qualifying, since := d.clk.now, fail := 0, qual := if high then .idWait else .ready }
  if high && !d.cards[c].lowSeen then d.failCard c 1 else d

def execCardDebounceDone (t : Nat) (c : CardIx) (s : State) : Host.Outcome State Fault Refusal :=
  s.run t fun d =>
    let x := d.cards[c]
    if x.state = .debounce ∧ d.sys.devState ≠ .boot ∧ x.since + 50 * msTicks ≤ d.clk.now then d.beginQual c else d

/-- The ID that a low pulse of `w` ticks carries (R339 check 2). -/
def idOfPulse (w : Nat) : Option (BitVec 4) :=
  let i := (w + 24000) / 48000
  if 2 ≤ i ∧ i ≤ 15 ∧ (Int.natAbs ((w : Int) - 48000 * i)) ≤ 14400 then some (BitVec.ofNat 4 (i - 2)) else none

/-- A change of CARD_FLT_N[s] during qualification (R339 checks 1 and 2). -/
def Dev.qualLevel (d : Dev) (c : CardIx) (high : Bool) : Dev :=
  let x := d.cards[c]
  let now := d.clk.now
  match x.qual, high with
  | .ready, true => d.updCard c fun x => { x with qual := .idWait }
  | .idWait, false => d.updCard c fun x => { x with qual := .idPulse now }
  | .idPulse since, true => match idOfPulse (now - since) with
    | some i =>
      let d := d.updCard c fun x => { x with idRead := i }
      if x.idExp = 0xF ∨ x.idExp = i then d.updCard c fun x => { x with qual := .idHold now } else d.failCard c 2
    | none => (d.updCard c fun x => { x with idRead := 0xF }).failCard c 2
  | .idHold _, false => d.failCard c 2
  | _, _ => d

def execCardQualCheck (t : Nat) (c : CardIx) (high : Bool) (s : State) : Host.Outcome State Fault Refusal :=
  s.run t fun d =>
    let d := ({ d with sys := { d.sys with cardFltLvl := setBit d.sys.cardFltLvl c high } } : Dev).showPin (pinBit (24 + c.val))
    let d := if high then d else d.updCard c fun x => { x with lowSeen := true }
    if d.sys.devState != .boot && d.cards[c].state == .qualifying then d.qualLevel c high else d

def execCardQualTimeout (t : Nat) (c : CardIx) (s : State) : Host.Outcome State Fault Refusal :=
  s.run t fun d =>
    let x := d.cards[c]
    if x.state = .qualifying ∧ d.sys.devState ≠ .boot ∧ x.since + 100 * msTicks ≤ d.clk.now then d.failCard c 4 else d

def execCardIdHoldDone (t : Nat) (c : CardIx) (s : State) : Host.Outcome State Fault Refusal :=
  s.run t fun d =>
    let x := d.cards[c]
    match x.state, x.qual with
    | .qualifying, .idHold since =>
      if since + msTicks ≤ d.clk.now ∧ d.sys.devState ≠ .boot then (d.updCard c fun x => { x with qual := .offset }).offsetCheck c else d
    | _, _ => d

end Sys2Proof.Machine
end

