-- ==== Sys2Proof/Machine/PwmCmd.lean ====
section
/-! DEFINITION. The commands of phase PWM and its references (chapters 8 and 9). -/

namespace Sys2Proof.Machine

open Sys2Proof

/-! ## Update points of a phase (R195, R193, R199, R346) -/

/-- The FAIL mask of a phase that failed in the background is set at its next apex or valley, where it takes effect, and the rail manager
    sheds it (R193). -/
def Dev.failMask (d : Dev) (n : PhaseIx) : Dev :=
  if !d.pwm[n].dlFail || d.pwm[n].mask.fail then d
  else
    let d := (d.updPwm n fun p => p.putMask fun m => { m with fail := true }).dropAdd n
    match d.railOf n with
    | some r =>
      let d := if d.isLoop n && !d.pwm[n].mask.shed then d.shedOne n else d
      (d.respread r).syncCtx r
    | none => d

/-- A phase under HOST_OVR whose code in effect is 0 starts anew with its next non-zero code (R200). -/
def Pwm.hostStopped (p : Pwm) : Pwm :=
  if p.hostOvr && p.duty == 0 && !p.hostStartWait && p.loadShadow.isNone then { p with hostStarted := false } else p

/-- A valley of the phase under a shed-phase test is counted (R526). -/
def Dev.testValley (d : Dev) (n : PhaseIx) : Dev := match d.test.phase with
  | some (m, .running _) => if m = n then { d with test := { d.test with periods := d.test.periods + 1 } } else d
  | _ => d

/-- One update point of a phase, when it is due (R186). -/
def Dev.updatePoint (d : Dev) (n : PhaseIx) (apex : Bool) : Dev := match d.carrierRail n with
  | none => d
  | some r =>
    if !d.pwm[n].due d.clk.now apex then d
    else
      let d := (((d.failMask n).phaseUpdate r n apex).formAt n).updPwm n Pwm.hostStopped
      if apex then d else (d.tripValley n).testValley n

def execPhaseUpdatePoint (t : Nat) (n : PhaseIx) (apex : Bool) (s : State) : Host.Outcome State Fault Refusal :=
  s.runLive t fun d => d.updatePoint n apex

/-! ## Edges and triggers (R211, R223, R225, R228, R345, R351) -/

/-- The tick of a position. -/
def dueNow (pos : Option Int) (now : Tick) : Option Int := match pos with
  | some x => if x / 64 = now then some x else none
  | none => none

/-- One edge of a phase, when it is due. GH rises only under HI, GL only without it; both falling edges go with HI (R211), so that nothing
    is left of them to do. -/
def Dev.edge (d : Dev) (n : PhaseIx) (e : EdgeKind) : Dev :=
  let p := d.pwm[n]
  let now := d.clk.now
  match e with
  | .hiRise => match dueNow p.edgeAt now with
    | some x => if p.cmd then d else d.hiRise n x
    | none => d
  | .hiFall => match dueNow p.edgeAt now with
    | some x => if p.cmd then d.hiFall n x else d
    | none => d
  | .ghRise => match dueNow p.ghAt now with
    | some x => d.updPwm n fun p => p.beginGh x
    | none => d
  | .glRise => match dueNow p.glAt now with
    | some x => d.updPwm n fun p => p.beginGl x
    | none => d
  | .ghFall | .glFall => d

def execEmittedEdge (t : Nat) (n : PhaseIx) (e : EdgeKind) (s : State) : Host.Outcome State Fault Refusal :=
  s.runLive t fun d => if (d.carrierRail n).isSome then d.edge n e else d

/-- TRIG_A, or TRIG_B where `b`, meets its position (R225 to R227). -/
def Dev.trigHit (d : Dev) (n : PhaseIx) (b : Bool) : Dev :=
  let p := d.pwm[n].sync d.clk.now
  let g := if b then p.trigB else p.trigA
  let due := (d.carrierRail n).isSome && g.enEff && g.count == 0 && !g.fired && p.valley + g.posEff.toNat == d.clk.now &&
    decide (g.posEff.toNat < p.upLen + p.downLen)
  if !due then d
  else
    let d := d.updPwm n fun p =>
      if b then { p with trigB := { p.trigB with fired := true } } else { p with trigA := { p.trigA with fired := true } }
    d.event ((if b then 0x0040 else 0x0000) + n.val)

def execTrigHit (t : Nat) (n : PhaseIx) (b : Bool) (s : State) : Host.Outcome State Fault Refusal := s.runLive t fun d => d.trigHit n b

/-- Both outputs of stage D would be on (R223). -/
def Dev.interlock (d : Dev) (n : PhaseIx) : Dev :=
  if d.gateForce n then d
  else
    let detail := d.pwm[n].ilkDetail
    ((d.updPwm n fun p => { p with ilkLatch := true, ilkCount := satInc p.ilkCount }).setsBit (.ilk n)).setCause srcInterlock n true detail

def execInterlockLatch (t : Nat) (n : PhaseIx) (s : State) : Host.Outcome State Fault Refusal := s.runLive t fun d => d.interlock n

/-- A blanking window closes (R229). -/
def Dev.blankClose (d : Dev) (n : PhaseIx) : Dev := match d.pwm[n].blankUntil with
  | some u => if u ≤ d.clk.now then (d.updPwm n fun p => { p with blankUntil := none }).tripIfDue n else d
  | none => d

def execBlankWindowClose (t : Nat) (n : PhaseIx) (s : State) : Host.Outcome State Fault Refusal := s.runLive t fun d => d.blankClose n

/-- 100 µs after its first emitted edge a phase start gives its leave back (R519). -/
def Dev.startRelease (d : Dev) (n : PhaseIx) : Dev := match d.pwm[n].startEdge with
  | some e => if e + 100 * usTicks ≤ d.clk.now then d.endStart n else d
  | none => d

def execPhaseStartRelease (t : Nat) (n : PhaseIx) (s : State) : Host.Outcome State Fault Refusal := s.runLive t fun d => d.startRelease n

/-! ## Delay lines (R191 to R193) -/

def lineOut (b : Byte) : Bool := decide (b.toNat < 64) || decide (96 < b.toNat)

/-- The background calibration ends the slot of its present phase, when it is due, and goes on to the next (R191, R193). A failed phase
    without a carrier has no apex or valley, and takes its FAIL bit at once. -/
def Dev.bgMeasure (d : Dev) (m : LineMeas) : Dev :=
  let n := d.pwmg.bgPhase
  if d.clk.now < d.pwmg.bgAt then d
  else
    let d := { d with pwmg := { d.pwmg with bgPhase := n + 1, bgAt := d.pwmg.bgAt + 7500 } }
    let d := d.updPwm n fun p => { p with lineHi := { p.lineHi with meas := m.hi }, lineLo := { p.lineLo with meas := m.lo } }
    if (lineOut m.hi || lineOut m.lo) && !d.pwm[n].dlFail then
      let d := (d.updPwm n fun p => { p with dlFail := true }).setCause srcDline n true
      if (d.carrierRail n).isNone then d.failMask n else d
    else d

def execDlineBgMeasure (t : Nat) (m : LineMeas) (s : State) : Host.Outcome State Fault Refusal := s.runLive t fun d => d.bgMeasure m

/-! ## Host duty (R196 to R199) -/

/-- LOAD_ALL (R197). -/
def Dev.loadAll (d : Dev) (mask : BitVec 16) : Dev :=
  let d := ((List.finRange 64).filter fun n => d.covered mask n).foldl Dev.loadPhase d
  { d with pwmg := { d.pwmg with loadCount := d.pwmg.loadCount + 1, loadMask := mask } }

def execLoadAll (t : Nat) (mask : BitVec 16) (s : State) : Host.Outcome State Fault Refusal :=
  s.hostWrite t (.loadAll t mask) fun d => (d.loadAll mask, stOk)

/-- HOST_OVR may be set (R198). -/
def Dev.mayOvr (d : Dev) (n : PhaseIx) : Bool := match d.railOf n with
  | some r => d.isLoop n && (d.sys.devState == .maint ||
      (d.mode r == .off && d.rails[r].oltEn && (d.sys.devState == .standby || d.sys.devState == .run)))
  | none => false

/-- A WRITE of PWM[n].CTRL. -/
def Dev.writeHostOvr (d : Dev) (n : PhaseIx) (v : Word) : Dev × Byte :=
  if !v.getLsbD 0 then (d.endHostOvr n, stOk)
  else if !d.mayOvr n then (d, stState)
  else if d.pwm[n].hostOvr then (d, stOk)
  else match d.railOf n with
    | some r => (d.updPwm n fun p => { p with hostOvr := true, hostStartWait := false, hostStarted := false, loadShadow := some { per := d.pwmg.rper[r], duty := 0, at_ := d.cycleTick }, zeroDue := false }, stOk)
    | none => (d, stState)

def execHostOvrWrite (t : Nat) (n : PhaseIx) (v : Word) (s : State) : Host.Outcome State Fault Refusal :=
  s.hostWrite t (.hostOvrWrite t n v) fun d => d.writeHostOvr n v

/-! ## Reference periods (R187, R204, R201) -/

/-- A WRITE of PWMG.RPER[r]. -/
def Dev.writeRper (d : Dev) (r : RailIx) (v : Word) : Dev × Byte :=
  let per := fld v 0 16
  if d.mode r != .off then (d, stLocked)
  else if per.toNat < 120 then (d, stState)
  else
    ({ d with pwmg := { d.pwmg with rper := d.pwmg.rper.set r per, refs := upd d.pwmg.refs r fun x => if x.running then { x with pend := some per } else { x with per := per } } }, stOk)

/-- A WRITE of PWMG.SYNC_PER. -/
def Dev.writeSyncPer (d : Dev) (v : Word) : Dev × Byte :=
  let per := fld v 0 16
  if d.sys.devState = .run then (d, stLocked)
  else if per.toNat < 120 then (d, stState)
  else
    ({ d with pwmg := { d.pwmg with syncPer := per, dev := if d.pwmg.dev.running then { d.pwmg.dev with pend := some per } else { d.pwmg.dev with per := per } } }, stOk)

def execRperWrite (t : Nat) (r : RailIx) (v : Word) (s : State) : Host.Outcome State Fault Refusal :=
  s.hostWrite t (.rperWrite t r v) fun d => d.writeRper r v

def execSyncPerWrite (t : Nat) (v : Word) (s : State) : Host.Outcome State Fault Refusal :=
  s.hostWrite t (.syncPerWrite t v) fun d => d.writeSyncPer v

/-- What one rail reference does at a valley of the device reference (R201, R204): a holding or a new one starts with it; an OFF
    rail's that comes to have the new device period is due to align. -/
def Dev.refAtDevice (d : Dev) (changed : Bool) (r : RailIx) : Dev :=
  let now := d.pwmg.dev.valley
  let x := d.pwmg.refs[r]
  let set := fun (x : RefCarrier) => { d with pwmg := { d.pwmg with refs := d.pwmg.refs.set r x } }
  if x.startDue then set { x with running := true, startDue := false, per := d.pwmg.rper[r], valley := now, down := false, first := true }
  else if x.holding then (set { x with holding := false, valley := now, down := false, first := true }).placeMembers r x
  else if changed && x.running then set { x with alignDue := x.per == d.pwmg.dev.per }
  else d

/-- A valley of the device reference, when it is due (R186, R201). -/
def Dev.deviceValley (d : Dev) : Dev :=
  if !d.pwmg.dev.running || !d.pwmg.dev.due d.clk.now false then d
  else
    let dev := d.pwmg.dev.sync d.clk.now
    let per := dev.pend.getD dev.per
    let d := { d with pwmg := { d.pwmg with dev := { dev with valley := if dev.first then dev.valley else d.clk.now, first := false, per := per, pend := none } } }
    (allRails.foldl (fun d r => d.refAtDevice (per != dev.per) r) d).carrySync

def execDeviceReferenceValley (t : Nat) (s : State) : Host.Outcome State Fault Refusal := s.runLive t fun d => d.deviceValley

end Sys2Proof.Machine
end

