-- ==== Sys2Proof/Machine/Protect.lean ====
section
/-! DEFINITION. The commands of fast-path protection (chapter 15) and the VSEL pins (R367). -/

namespace Sys2Proof.Machine

open Sys2Proof

/-! ## Trips (R345, R346) -/

/-- The trip comparator of a phase enters or leaves its tripped state. -/
def Dev.tripCross (d : Dev) (n : PhaseIx) (crossed : Bool) : Dev :=
  let was := d.prot.trips[n].cmp
  let d := d.updTrip n fun t => { t with cmp := crossed }
  if !crossed || was || !d.alive then d else (d.event (0x0080 + n.val)).tripIfDue n

def execTrip (t : Nat) (n : PhaseIx) (crossed : Bool) (s : State) : Host.Outcome State Fault Refusal :=
  s.run t fun d => d.tripCross n crossed

def execTripCounterLatch (t : Nat) (n : PhaseIx) (s : State) : Host.Outcome State Fault Refusal := s.runLive t fun d => d.latchCheck n

/-! ## Window comparators (R344, R351, R352) -/

def Dev.ovCross (d : Dev) (r : RailIx) : Dev :=
  let w := d.prot.wins[r]
  if !d.alive || w.ovTh == 0 || d.rails[r].vscale == 0 || w.ov then d
  else
    let d := d.updWin r fun w => { w with ov := true, ovCount := w.ovCount + 1 }
    let d := (d.event (0x00C1 + 4 * r.val)).setCause (srcRailOv r) 0 (d.railDefined r)
    if settling w.ovSettle d.clk.now then d else d.ovHold r

def execOvCrossing (t : Nat) (r : RailIx) (s : State) : Host.Outcome State Fault Refusal := s.run t fun d => d.ovCross r

def execOvRelease (t : Nat) (r : RailIx) (s : State) : Host.Outcome State Fault Refusal :=
  s.run t fun d => (d.updWin r fun w => { w with ov := false }).setCause (srcRailOv r) 0 false

/-- The edge of the ramp-tracking window on the side named is in effect: a code was formed for it, and the rail is in RAMP (R349). -/
def Dev.rtOn (d : Dev) (r : RailIx) (high : Bool) : Bool :=
  let w := d.prot.wins[r]
  d.mode r == .ramp && if high then w.rtHiOn else w.rtLoOn

/-- The ball voltage leaves the window, or comes back into it. -/
def Dev.rtCross (d : Dev) (r : RailIx) (high crossed : Bool) : Dev :=
  let w := d.prot.wins[r]
  let was := if high then w.rtHi else w.rtLo
  if !crossed then d.updWin r fun w => if high then { w with rtHi := false } else { w with rtLo := false }
  else if !d.alive || was || !d.rtOn r high then d
  else
    let d := d.updWin r fun w => if high then { w with rtHi := true, rtCount := w.rtCount + 1 } else { w with rtLo := true, rtCount := w.rtCount + 1 }
    let d := d.event (0x00C2 + 4 * r.val)
    if settling (if high then w.rtHiSettle else w.rtLoSettle) d.clk.now then d else d.rtAct r

def execRampTrackExit (t : Nat) (r : RailIx) (high crossed : Bool) (s : State) : Host.Outcome State Fault Refusal :=
  s.run t fun d => d.rtCross r high crossed

/-- A deadline has passed. -/
def passed (deadline : Option Tick) (now : Tick) : Bool := match deadline with
  | some u => decide (u ≤ now)
  | none => false

/-- A settling interval ends: what is still crossed acts (R344). -/
def Dev.settleEnd (d : Dev) (x : CmpIx) : Dev :=
  let now := d.clk.now
  match x with
  | .trip n =>
    if passed d.prot.trips[n].settleUntil now then (d.updTrip n fun t => { t with settleUntil := none }).tripIfDue n else d
  | .uv r =>
    let w := d.prot.wins[r]
    if passed w.uvSettle now then
      let d := d.updWin r fun w => { w with uvSettle := none }
      if w.uv then d.uvAction r else d
    else d
  | .ov r =>
    let w := d.prot.wins[r]
    if passed w.ovSettle now then
      let d := d.updWin r fun w => { w with ovSettle := none }
      if w.ov then d.ovHold r else d
    else d
  | .rt r =>
    let w := d.prot.wins[r]
    let hi := passed w.rtHiSettle now
    let lo := passed w.rtLoSettle now
    let d := d.updWin r fun w => { w with rtHiSettle := if hi then none else w.rtHiSettle, rtLoSettle := if lo then none else w.rtLoSettle }
    if (hi && w.rtHi && d.rtOn r true) || (lo && w.rtLo && d.rtOn r false) then d.rtAct r else d

def execComparatorSettleEnd (t : Nat) (x : CmpIx) (s : State) : Host.Outcome State Fault Refusal := s.runLive t fun d => d.settleEnd x

/-! ## SAFE (R354 to R358) -/

/-- STOP becomes 1: every rail not OFF enters HOLD. -/
def Dev.stopBegins (d : Dev) : Dev :=
  let d : Dev := { d with prot := { d.prot with stops := d.prot.stops + 1 } }
  let d : Dev := allRails.foldl (fun (d : Dev) r => if d.mode r == .off || d.mode r == .hold then d else d.stopRail r .hold) d
  if d.sys.devState = .boot then d else d.setCause srcSafeStop 0 true

/-- The length of a disagreement in µs. -/
def usSince (since now : Tick) : Word := satN 32 ((now - since) / usTicks)

/-- The demands of the two channels change: a disagreement begins or ends, CYCLED is met, STOP begins or ends. -/
def Dev.safeDemand (d : Dev) (a b : Bool) : Dev :=
  let now := d.clk.now
  let was := d.prot.stop
  let p := { d.prot with aStop := a, bStop := b }
  let p := if d.sys.devState = .boot then p
    else match p.disSince, p.disagree with
      | none, true => { p with disSince := some now }
      | some t, false => { p with disSince := none, dtime := usSince t now }
      | _, _ => p
  let p := if p.disc && a && b then { p with cycled := true } else p
  let d := { d with prot := p }
  if p.stop && !was then d.stopBegins else if p.stop then d else d.setCause srcSafeStop 0 false

/-- The level of one channel has held for the filter time: SAFE_A_N demands stop low, SAFE_B high. -/
def Dev.safeTaken (d : Dev) (b level : Bool) : Dev :=
  let d := ({ d with sys := if b then { d.sys with safeBLvl := level } else { d.sys with safeALvl := level } } : Dev).showPin (pinBit (if b then 7 else 6))
  if b then d.safeDemand d.prot.aStop level else d.safeDemand (!level) d.prot.bStop

def execSafeLevelTaken (t : Nat) (b level : Bool) (s : State) : Host.Outcome State Fault Refusal := s.run t fun d => d.safeTaken b level

/-- The disagreement has reached DISC_TIME. -/
def Dev.safeTimeout (d : Dev) : Dev := match d.prot.disSince with
  | some t =>
    if t + d.prot.discTime.toNat * msTicks ≤ d.clk.now ∧ d.sys.devState ≠ .boot then
      (({ d with prot := { d.prot with disc := true, cycled := false, dtime := BitVec.ofNat 32 (d.prot.discTime.toNat * 1000) } } : Dev).setsBit .disc).setCause srcSafeDisc 0 true
    else d
  | none => d

def execSafeDiscrepancyTimeout (t : Nat) (s : State) : Host.Outcome State Fault Refusal := s.run t fun d => d.safeTimeout

/-! ## Fault lines (R359 to R362) -/

/-- The synchronised level of a line. -/
def Sys.setLine (s : Sys) (x : LineIx) (low : Bool) : Sys :=
  if x.val < 4 then { s with extFltLvl := setBit s.extFltLvl x.val (!low) } else { s with cardFltLvl := setBit s.cardFltLvl (x.val - 4) (!low) }

/-- What a line shows takes place. A card line is evaluated by the card's state at the start of the LOOP_CLK cycle (R362): of a card
    removed in this cycle the fault acts, and the line is then idle (R68). -/
def Dev.onLine (d : Dev) (x : LineIx) (f : Dev → Dev) : Dev :=
  let c : CardIx := Fin.ofNat 8 (x.val - 4)
  if d.lineLive x then f d
  else if d.cyc.no == d.cycle && d.cyc.cards[c].state == .qualified then (f d).clearCardLine c
  else d

/-- A level of a line is taken. -/
def Dev.lineTaken (d : Dev) (x : LineIx) (low : Bool) : Dev :=
  let d := ({ d with sys := d.sys.setLine x low } : Dev).showPin (pinBit (if x.val < 4 then 12 + x.val else 20 + x.val))
  d.onLine x fun d => (d.updLine x fun l => { l with low := low }).lineUpdate x

def execFaultLineTaken (t : Nat) (x : LineIx) (low : Bool) (s : State) : Host.Outcome State Fault Refusal :=
  s.run t fun d => d.lineTaken x low

/-- A line has changed too often within a millisecond (R360). -/
def Dev.lineChatter (d : Dev) (x : LineIx) : Dev :=
  d.onLine x fun d => (d.updLine x fun l => { l with chatter := true, chatterSince := some d.clk.now }).lineUpdate x

def execFaultLineChatter (t : Nat) (x : LineIx) (s : State) : Host.Outcome State Fault Refusal := s.run t fun d => d.lineChatter x

def execFaultLineChatterEnd (t : Nat) (x : LineIx) (s : State) : Host.Outcome State Fault Refusal :=
  s.run t fun d => match d.prot.lines[x].chatterSince with
    | some c =>
      if c + msTicks ≤ d.clk.now then (d.updLine x fun l => { l with chatter := false, chatterSince := none }).lineUpdate x else d
    | none => d

/-- Since when a line has been asserted; of a card removed in this cycle, as it was at the cycle's start (R362). -/
def Dev.lineSince (d : Dev) (x : LineIx) : Option Tick :=
  if d.lineLive x then d.prot.lines[x].assertSince else d.cyc.lines[x].assertSince

/-- A line has been asserted for STUCK_TIME (R361). -/
def Dev.lineStuck (d : Dev) (x : LineIx) : Dev := match d.lineSince x with
  | some c =>
    if c + d.prot.stuckTime.toNat * 100 * msTicks ≤ d.clk.now then d.onLine x fun d => (d.updLine x fun l => { l with stuck := true }).lineCauses x else d
  | none => d

def execFaultLineStuck (t : Nat) (x : LineIx) (s : State) : Host.Outcome State Fault Refusal := s.run t fun d => d.lineStuck x

/-! ## VSEL (R367) -/

def execVselCodeTaken (t : Nat) (code : BitVec 4) (s : State) : Host.Outcome State Fault Refusal :=
  s.run t fun d =>
    let d := ({ d with sys := { d.sys with vselLvl := code } } : Dev).showPin 0xF00
    if d.sys.devState = .boot then d else { d with sp := { d.sp with taken := true, vsel := code } }

end Sys2Proof.Machine
end

