-- ==== Sys2Proof/Machine/StoreCmd.lean ====
section
/-! DEFINITION. The commands of the storage ports (chapter 17): decision points and the Wick timer. -/

namespace Sys2Proof.Machine

open Sys2Proof

/-- The fallback is taken, where the timer has expired since the last point (R396). -/
def Dev.takeFallback (d : Dev) (p : PortIx) (r : RailIx) : Dev :=
  if !d.ports[p].fallback then d
  else
    let d := d.updPort p fun x => { x with fallback := false }
    if d.mode r = .support ∧ d.ports[p].phase = .boost then d.enterStorage p r .charge else d.wickFallback p r

/-- The rail sum of the last mark was valid (R31). -/
def Dev.sumValid (d : Dev) (r : RailIx) : Bool := !d.fault.src[srcSumInvalid r].cause.getLsbD 0

/-- The transitions of R384 and R390; a temperature hold keeps the phase (R394). -/
def Dev.portTransition (d : Dev) (p : PortIx) (r : RailIx) : Dev :=
  if d.ports[p].tempHold then d.holdPoint p r
  else if d.mode r = .charge then d.chargePoint p r (d.sumValid r)
  else d.supportPoint p r

/-- A point that has entered CV, or has ended a temperature hold in it, is itself a mark that writes the reference of CV (R385). -/
def Dev.cvMark (d : Dev) (p : PortIx) (r : RailIx) (was : StPhase) (held : Bool) : Dev :=
  if d.mode r = .charge ∧ d.ports[p].phase = .cv ∧ (was ≠ .cv ∨ held = true) ∧ d.ports[p].tempHold = false then d.writeCvRef p r else d

/-- A decision point (R380, R381), at a SUM_MARK of the rail that has come in this LOOP_CLK cycle. -/
def Dev.decisionPoint (d : Dev) (p : PortIx) : Dev :=
  match d.tile.cur.stores[p], d.ports[p].nextPoint with
  | some s, some k =>
    let r := s.rail
    let mark := d.rails[r].markAt
    if !(d.mode r == .charge || d.mode r == .support) || decide (mark < k) || d.clk.cycleAt mark != d.cycle then d
    else
      let d := d.updPort p fun x => { x with safeGov := x.safe }
      let was := d.ports[p].phase
      let held := d.ports[p].tempHold
      let d := ((((d.spendPre p (d.sumValid r)).takeFallback p r).portWindows p r s).portTransition p r).cvMark p r was held
      d.updPort p fun x =>
        { x with nextPoint := x.nextPoint.map fun _ => x.entered + ((d.clk.now - x.entered) / msTicks + 1) * msTicks }
  | _, _ => d

def execStoreDecisionPoint (t : Nat) (p : PortIx) (s : State) : Host.Outcome State Fault Refusal :=
  s.runLive t fun d => d.decisionPoint p

/-- A WRITE of STORE[p].WICK (R395, R399). -/
def Dev.writeWick (d : Dev) (p : PortIx) (v : Word) : Dev × Byte :=
  let wd := fld v 0 10
  if wd.toNat < 1 ∨ 600 < wd.toNat then (d, stState)
  else
    let d := d.updPort p fun x => { x with wdTime := wd }
    (if v.getLsbD 31 && (d.tile.cur.stores[p]).isSome then d.relight p else d, stOk)

def execWickRelight (t : Nat) (p : PortIx) (v : Word) (s : State) : Host.Outcome State Fault Refusal :=
  s.hostWrite t (.wickRelight t p v) fun d => d.writeWick p v

def execWickTimeout (t : Nat) (p : PortIx) (s : State) : Host.Outcome State Fault Refusal := s.run t fun d => d.wickExpire p d.clk.now

end Sys2Proof.Machine
end

