-- ==== Sys2Proof/Machine/SenseCmd.lean ====
section
/-! DEFINITION. The commands of the converter slices, of calibration, sequences, conversions and trackers (chapters 10 and 11). -/

namespace Sys2Proof.Machine

open Sys2Proof

def Dev.updSense (d : Dev) (f : Sense → Sense) : Dev := { d with sense := f d.sense }

/-! ## Rotation (R242, R243) -/

/-- The anchor of a quad's rotation. -/
def Dev.rotate (d : Dev) (q : QuadIx) : Dev :=
  if d.clk.now < d.sense.quads[q].rotAt then d
  else (d.updQuad q fun x => { x with rotAt := d.clk.now + d.sense.rotInt.toNat * 100 * usTicks }).askRotation q

def execSliceRotation (t : Nat) (q : QuadIx) (s : State) : Host.Outcome State Fault Refusal := s.runLive t fun d => d.rotate q

/-- A slice of the quad that a CAL_ZERO or CAL_FS converts on is about to lose its full-rate coefficients: they count for the conversions made
    up to now (R239, R250). -/
def Dev.keepCoef (d : Dev) (q : QuadIx) (i : Fin 5) : Dev := match d.sense.stage with
  | some (.running _) =>
    if d.calQuad = q ∧ d.sense.quads[q].lowPower = false then
      d.updSense fun s => { s with calCoefs := s.calCoefs ++ [(i, d.clk.now, s.quads[q].slices[i].coef false)] }
    else d
  | _ => d

/-- A measurement in MEASURE ends (R240, R245). It updates the set of the mode at its end (R241; DESIGN CHOICE, assumption 96). -/
def Dev.measured (d : Dev) (q : QuadIx) (m : SliceMeas) : Dev :=
  let d := d.quadEdges q
  let x := d.sense.quads[q]
  let now := d.clk.now
  match x.outOfLine, x.measEnd with
  | some i, some e =>
    if now < e then d
    else
      let d := (d.releaseLeave .rotation (rotTarget q)).updQuad q fun x => { x with measEnd := none, rotDone := x.rotDone + 1 }
      match SliceMeas.result m with
      | .ok (os, gs) => (d.keepCoef q i).updQuad q fun x =>
          { x with slices := upd x.slices i fun s => { (s.setCoef x.lowPower os gs now) with st := .spare } }
      | .error check => (d.updQuad q fun x => { x with outOfLine := none }).failSlice q i check
  | _, _ => d

def execSliceMeasureDone (t : Nat) (q : QuadIx) (m : SliceMeas) (s : State) : Host.Outcome State Fault Refusal :=
  s.runLive t fun d => d.measured q m

def execSliceStale (t : Nat) (q : QuadIx) (s : State) : Host.Outcome State Fault Refusal :=
  s.runLive t fun d => if d.staleNow q then d.updQuad q fun x => { x with stale := true } else d

/-! ## Failures in line (R246) -/

/-- A self-test whose slice is needed is abandoned: BUSY ends, nothing is reported. -/
def Dev.abandonTest (d : Dev) (q : QuadIx) : Dev :=
  if d.sense.op == .selftest && d.sense.stage.isSome && d.sense.stQuad.toNat == q.val then d.endCal d.sense.result else d

/-- The out-of-line slice, when it has not failed, takes an empty slot at the next SLICE_CLK edge; what it was at is abandoned. -/
def Dev.replaceSlice (d : Dev) (q : QuadIx) (slot : Fin 4) : Dev :=
  match d.sense.quads[q].outOfLine with
  | none => d.degradedCause q
  | some o =>
    let d := (d.abandonTest q).withdrawLeave .rotation (rotTarget q)
    (d.releaseLeave .rotation (rotTarget q)).updQuad q fun x =>
      { x with refill := some (slot, o, d.clk.edgeFrom (d.clk.now + 1)), outOfLine := none, measEnd := none, rotGranted := false, rotDue := false }

/-- The conversions that a slice still makes at `since` are lost (R246). -/
def Quad.lose (x : Quad) (i : Fin 5) (since : Tick) : Quad :=
  { x with convs := x.convs.map fun c => if c.slices.contains i && decide (since < c.slotsFree) then { c with lost := true } else c }

/-- A rotation has entered the slot in the present SLICE_CLK cycle: the edge of that cycle. -/
def Quad.entering (x : Quad) (slot : Fin 4) (now : Tick) : Option Tick := match x.rotEdge with
  | some e => if now < e + 6 ∧ slot + 1 = x.nextSlot ∧ x.measEnd.isSome then some e else none
  | none => none

/-- Every conversion under way is lost: from its acceptance on a foreground calibration leaves the quads converting nothing (R248). -/
def Quad.loseAll (x : Quad) (now : Tick) : Quad := { x with convs := x.convs.map fun c => if now < c.slotsFree then { c with lost := true } else c }

/-- A conversion of the slice in a slot does not complete within its cycle. In the cycle of a rotation's entry it is the slice that was
    leaving: it fails in place of being measured. -/
def Dev.inlineFail (d : Dev) (q : QuadIx) (slot : Fin 4) : Dev :=
  let d := d.quadEdges q
  let x := d.sense.quads[q]
  match x.entering slot d.clk.now, x.outOfLine with
  | some e, some o =>
    ((d.releaseLeave .rotation (rotTarget q)).updQuad q fun x => { (x.lose o (e - 6)) with outOfLine := none, measEnd := none }).failSlice q o 3
  | _, _ => match x.slots[slot] with
    | none => d
    | some i => ((d.updQuad q fun x => (x.lose i d.clk.now).setSlots (x.slots.set slot none)).failSlice q i 3).replaceSlice q slot

def execSliceInlineFail (t : Nat) (q : QuadIx) (slot : Fin 4) (s : State) : Host.Outcome State Fault Refusal :=
  s.runLive t fun d => d.inlineFail q slot

/-- A quad that belongs in low-power mode enters it at a SLICE_CLK edge at which no interleaved run is in progress (R247). -/
def Dev.enterLow (d : Dev) (q : QuadIx) : Dev :=
  let x := d.sense.quads[q]
  if d.sliceEdge && d.wantsLow q && !x.lowPower && !(x.convs.any fun c => c.interleaved && decide (d.clk.now < c.slotsFree)) then
    d.updQuad q fun x => x.beginLow d.clk.now
  else d

def execLowpowerEnter (t : Nat) (q : QuadIx) (s : State) : Host.Outcome State Fault Refusal := s.runLive t fun d => d.enterLow q

/-! ## Foreground calibration, self-test and system calibration (R248 to R251, R255) -/

/-- An operation of SENSE.CTRL begins by asking leave; a refused leave is result 7. -/
def Dev.startCal (d : Dev) (op : CalOp) (kind : LeaveKind) (target : Byte) : Dev :=
  let d := d.updSense fun s => { s with op := op, stage := some .waiting, calCoefs := [] }
  let (d, ok) := d.askLeave kind target
  if ok then d else d.updSense fun s => { s with stage := none, result := 7 }

def Dev.calState (d : Dev) : Bool := d.sys.devState == .standby || d.sys.devState == .maint

def Dev.startFgcal (d : Dev) : Dev × Byte :=
  if !d.calState || d.sense.stage.isSome then (d, stState)
  else
    let d := d.startCal .fgcal .fgcal leaveAll
    (if d.sense.stage.isSome then d.updSense fun s => { s with quads := mapV s.quads fun _ x => x.loseAll d.clk.now } else d, stOk)

/-- The quad named by STQUAD has its spare in SPARE. -/
def Dev.spareReady (d : Dev) (q : QuadIx) : Bool := match d.sense.quads[q].outOfLine with
  | some i => d.sense.quads[q].slices[i].st == .spare
  | none => false

def Dev.startSelftest (d : Dev) : Dev × Byte :=
  let q : QuadIx := Fin.ofNat 4 d.sense.stQuad.toNat
  if !(d.calState || d.sys.devState == .run) || d.sense.stage.isSome || !d.spareReady q then (d, stState)
  else (d.startCal .selftest .selftest (quadTestTarget q), stOk)

def Dev.startSysCal (d : Dev) (op : CalOp) : Dev × Byte :=
  if !d.calState || d.sense.stage.isSome || decide (87 < d.sense.entry.toNat) then (d, stState)
  else (d.startCal op .fgcal leaveAll, stOk)

def Dev.abortCal (d : Dev) : Dev × Byte :=
  (if d.sense.stage.isSome && (d.sense.op == .zero || d.sense.op == .fs) then d.endCal 6 else d, stOk)

/-- A WRITE of SENSE.CTRL. -/
def Dev.writeSenseCtrl (d : Dev) (v : Word) : Dev × Byte :=
  match fld v 0 5 with
  | 0 => (d, stOk)
  | 1 => d.startSysCal .zero
  | 2 => d.startSysCal .fs
  | 4 => d.startFgcal
  | 8 => d.startSelftest
  | 16 => d.abortCal
  | _ => (d, stState)

def execFgcal (t : Nat) (s : State) : Host.Outcome State Fault Refusal := s.hostWrite t (.fgcal t) fun d => d.startFgcal
def execSelftest (t : Nat) (s : State) : Host.Outcome State Fault Refusal := s.hostWrite t (.selftest t) fun d => d.startSelftest
def execCalZero (t : Nat) (s : State) : Host.Outcome State Fault Refusal := s.hostWrite t (.calZero t) fun d => d.startSysCal .zero
def execCalFs (t : Nat) (s : State) : Host.Outcome State Fault Refusal := s.hostWrite t (.calFs t) fun d => d.startSysCal .fs
def execCalAbort (t : Nat) (s : State) : Host.Outcome State Fault Refusal := s.hostWrite t (.calAbort t) fun d => d.abortCal

/-- An operation of SENSE.CTRL runs. -/
def Dev.calRuns (d : Dev) (op : CalOp) : Bool := d.sense.op == op && match d.sense.stage with
  | some (.running _) => true
  | _ => false

/-- What the foreground calibration finds of one slice; an invalid linearity trim fails it (R254). -/
def Dev.fgSlice (d : Dev) (q : QuadIx) (i : Fin 5) (ms : List SliceMeas) : Option (BitVec 16 × BitVec 16) :=
  let k := 5 * q.val + i.val
  if !d.sense.cal[(Fin.ofNat 112 (92 + k) : CalIx)].valid then none
  else match SliceMeas.result ((ms[k]?).getD {}) with
    | .ok x => some x
    | .error _ => none

/-- The slot map of R232 for the slices that pass: slots and spare. -/
def slotMap (pass : Fin 5 → Bool) : Vector (Option (Fin 5)) 4 × Option (Fin 5) :=
  let good := (List.finRange 5).filter pass
  match good.length with
  | 5 => (#v[some 0, some 1, some 2, some 3], some 4)
  | 4 => (Vector.ofFn fun j : Fin 4 => if pass (Fin.ofNat 5 j.val) then some (Fin.ofNat 5 j.val) else some 4, none)
  | _ => (Vector.ofFn fun j : Fin 4 => good[j.val]?, none)

/-- Every slice of a quad is calibrated in the foreground, and its slots are filled anew (R232, R248). A rotation that
    has gone on while the calibration waited or ran is dropped here (DESIGN CHOICE, assumption 110). -/
def Dev.fgQuad (d : Dev) (ms : List SliceMeas) (q : QuadIx) : Dev :=
  let d := (d.withdrawLeave .rotation (rotTarget q)).releaseLeave .rotation (rotTarget q)
  let find := fun (i : Fin 5) => d.fgSlice q i ms
  let (slots, spare) := slotMap fun i => (find i).isSome
  let d := d.updQuad q fun x =>
    let one := fun (i : Fin 5) (s : Slice) => match find i with
      | some (os, gs) => { (s.setCoef x.lowPower os gs d.clk.now) with st := if spare == some i then SliceState.spare else SliceState.service }
      | none => { s with st := SliceState.failed }
    { (x.setSlots slots) with slices := mapV x.slices one, outOfLine := spare, measEnd := none, rotGranted := false, rotDue := false, refill := none }
  (((List.finRange 5).filter fun i => (find i).isNone).foldl (fun d i => d.failSlice q i 5) d).degradedCause q

/-- Foreground calibration of every quad; the mask of the device slices that failed. -/
def Dev.fgAll (d : Dev) (ms : List SliceMeas) : Dev × Word :=
  let d := (List.finRange 4).foldl (Dev.fgQuad · ms) d
  (d, maskOf 32 fun k : Fin 20 => d.sense.quads[k.val / 5].slices[k.val % 5].st == .failed)

def Dev.fgcalDone (d : Dev) (ms : List SliceMeas) : Dev :=
  if !d.calRuns .fgcal then d
  else
    let (d, bad) := d.fgAll ms
    (d.endCal 1).note 0x0030 (if bad = 0 then 0 else 1) 0xFFFF (leBytes 4 bad.toNat)

def execFgcalDone (t : Nat) (ms : List SliceMeas) (s : State) : Host.Outcome State Fault Refusal :=
  s.runLive t fun d => d.fgcalDone ms

/-- The converter self-test passes: every code from -7680 to 7679 is hit, and none has more than 2.5 times the mean count of its
    neighbours (R249). `hits` counts the conversions by code from -7680 on; the two end codes have the one neighbour that the ramp
    counts (DESIGN CHOICE, assumption 70). -/
def rampOk (hits : List Nat) : Bool :=
  let v := hits.take 15360
  let level := fun (p : Nat × Nat × Nat) => decide (4 * p.2.1 ≤ 5 * (p.1 + p.2.2))
  decide (v.length = 15360) && v.all (0 < ·) && (v.zip ((v.drop 1).zip (v.drop 2))).all level &&
    decide (2 * v.getD 0 0 ≤ 5 * v.getD 1 0) && decide (2 * v.getD 15359 0 ≤ 5 * v.getD 15358 0)

/-- The self-test of a quad's spare ends (R249); a rotation that fell due meanwhile is taken. -/
def Dev.selftestDone (d : Dev) (hits : List Nat) : Dev :=
  if !d.calRuns .selftest then d
  else
    let pass := rampOk hits
    let q : QuadIx := Fin.ofNat 4 d.sense.stQuad.toNat
    match d.sense.quads[q].outOfLine with
    | none => d.endCal d.sense.result
    | some i =>
      let d := d.updSense fun s => { s with stSlice := BitVec.ofNat 4 (5 * q.val + i.val), stResult := if pass then 1 else 2 }
      let due := d.sense.quads[q].rotDue
      let d := d.updQuad q fun x =>
        { x with rotDue := false, rotFrom := max x.rotFrom d.clk.now, outOfLine := if pass then some i else none, slices := upd x.slices i fun s => { s with st := .spare } }
      let d := (if pass then d else d.failSlice q i 4).endCal 1
      if due then d.askRotation q else d

def execSelftestDone (t : Nat) (hits : List Nat) (s : State) : Host.Outcome State Fault Refusal := s.runLive t fun d => d.selftestDone hits

/-- The new gain of CAL_FS for a mean in 1/16 code; `none` out of range. -/
def fsGain (target mean os : Int) : Option (BitVec 16) :=
  let den := mean - os
  let num := 2 ^ 18 * target * 16
  if den = 0 then none
  else
    let g := (if 0 < den then rhe num den.natAbs else rhe (-num) den.natAbs) - 2 ^ 18
    if -32768 ≤ g ∧ g ≤ 32767 then some (BitVec.ofInt 16 g) else none

/-- The new VALUE of a system calibration, or its result without one (R250, R251). `span` is in units of 2^-24 code. -/
def calOutcome (fs : Bool) (target mean os gs : Int) (counted span : Nat) : Except (BitVec 4) Word :=
  if counted < 4096 then .error 4
  else if 64 * 2 ^ 24 < span then .error 3
  else if fs then
    if target.natAbs < 2048 then .error 5
    else match fsGain target mean os with
      | some g => .ok (at' g 16 ||| at' (BitVec.ofInt 16 os) 0)
      | none => .error 2
  else if -32768 ≤ mean ∧ mean ≤ 32767 then .ok (at' (BitVec.ofInt 16 gs) 16 ||| at' (BitVec.ofInt 16 mean) 0)
  else .error 2

/-- The coefficients of a slice at a conversion of a CAL_ZERO or CAL_FS (R239, R241). -/
def Dev.calCoef (d : Dev) (i : Fin 5) (at_ : Tick) : Int × Int :=
  let x := d.sense.quads[d.calQuad]
  match d.sense.calCoefs.find? fun y => y.1 == i && decide (at_ ≤ y.2.1) with
  | some y => if x.lowAt at_ then x.coef i at_ else y.2.2
  | none => x.coef i at_

/-- The u of the conversions that count, at most 4096: those that do not fail the common-mode check (R239, R250). Each conversion comes
    with the slice that makes it and its tick. -/
def Dev.calUs (d : Dev) (xs : List (Fin 5 × Tick × Sample)) : List Int :=
  let isns := decide (d.sense.entry.toNat < 64)
  ((xs.filter fun x => !isns || x.2.2.cmOk).take 4096).map fun x =>
    let (os, gs) := d.calCoef x.1 x.2.1
    uOf x.2.2.raw os gs isns

/-- Largest less smallest of some values. -/
def spread : List Int → Nat
  | [] => 0
  | x :: xs => (xs.foldl max x - xs.foldl min x).toNat

/-- The conversions of a calibration pass the common-mode check or not, as any of their input do (R276, R277). -/
def Dev.calCm (d : Dev) (xs : List (Fin 5 × Tick × Sample)) : Dev :=
  if d.sense.entry.toNat < 64 then xs.foldl (fun d x => d.countCm (Fin.ofNat 64 d.sense.entry.toNat) x.2.2.cmOk) d else d

/-- A system calibration ends. MEAN over no conversion is a value the spec does not state: it is free. -/
def Dev.calDone (d : Dev) (xs : List (Fin 5 × Tick × Sample)) : Dev :=
  let fs := d.sense.op == .fs
  if !(d.calRuns .zero || d.calRuns .fs) then d
  else
    let e : CalIx := Fin.ofNat 112 d.sense.entry.toNat
    let us := d.calUs xs
    let mean := rhe us.sum (2 ^ 20 * us.length)
    let d := d.calCm xs
    let (w, d) := if us.length = 0 then d.fresh else d.fit mean
    let d := d.updSense fun s => { s with mean := w }
    let (os, gs) := d.calOf e
    match calOutcome fs d.sense.target.toInt mean os gs us.length (spread us) with
    | .ok v => (d.writeCal e v).endCal 1
    | .error r => d.endCal r

/-- The conversions of a calibration: the slice that makes each, its tick, its raw code and its common-mode verdict (R250). -/
def calSamples (slices : List (Fin 5)) (ats : List Tick) (raws : List Int) (cms : List Bool) : List (Fin 5 × Tick × Sample) :=
  slices.zip (ats.zip ((raws.zip cms).map fun x => { raw := x.1, cmOk := x.2 }))

def execCalDone (t : Nat) (slices : List (Fin 5)) (ats : List Nat) (raws : List Int) (cms : List Bool) (s : State) :
    Host.Outcome State Fault Refusal :=
  s.runLive t fun d => d.calDone (calSamples slices ats raws cms)

/-- CAL.UNLOCK.OPEN as an execution cycle sees it (R450). -/
def Dev.unlocked (d : Dev) : Bool := match d.sense.unlockUntil with
  | some u => decide (d.cycle < d.clk.cycleAt u)
  | none => false

/-- A direct WRITE of CAL.E[e].VALUE (R253). -/
def Dev.writeCalValue (d : Dev) (e : CalIx) (v : Word) : Dev × Byte :=
  if d.sys.devState == .run || d.sys.devState == .latched || d.sense.stage.isSome then (d, stLocked)
  else if 88 ≤ e.val && !d.unlocked then (d, stAuth)
  else (d.writeCal e v, stOk)

def execCalValueWrite (t : Nat) (e : CalIx) (v : Word) (s : State) : Host.Outcome State Fault Refusal :=
  s.hostWrite t (.calValueWrite t e v) fun d => d.writeCalValue e v

def execCalUnlockExpire (t : Nat) (s : State) : Host.Outcome State Fault Refusal :=
  s.run t fun d => match d.sense.unlockUntil with
    | some u => if u ≤ d.clk.now ∧ d.sys.devState ≠ .boot then d.lockCal 1 else d
    | none => d

/-! ## Sequences and conversions (R256 to R266) -/

def execSeqRegStart (t : Nat) (q : QuadIx) (s : State) : Host.Outcome State Fault Refusal := s.runLive t fun d => d.startPass q false d.clk.now
def execSeqInjStart (t : Nat) (q : QuadIx) (s : State) : Host.Outcome State Fault Refusal := s.runLive t fun d => d.startPass q true d.clk.now
def execSeqEntStart (t : Nat) (q : QuadIx) (e : Fin 32) (s : State) : Host.Outcome State Fault Refusal :=
  s.runLive t fun d => d.startEntry q e d.clk.now

/-- The sequence timer fires (R257). -/
def Dev.seqTimer (d : Dev) (q : QuadIx) : Dev := match d.sense.quads[q].timerNext with
  | some u =>
    if u ≤ d.clk.now then (d.updQuad q fun x => { x with timerNext := some (u + (d.seqOf q).timer.toNat) }).startPass q false d.clk.now else d
  | none => d

def execSeqTimer (t : Nat) (q : QuadIx) (s : State) : Host.Outcome State Fault Refusal := s.runLive t fun d => d.seqTimer q

def execConversionStart (t : Nat) (q : QuadIx) (s : State) : Host.Outcome State Fault Refusal := s.runLive t fun d => d.serve q

/-- The codes of the conversion that has been ready longest. -/
def Dev.conversionReady (d : Dev) (q : QuadIx) (xs : List Sample) : Dev :=
  let d := d.quadEdges q
  match d.sense.quads[q].convs.filter fun c => decide (c.ready ≤ d.clk.now) with
  | [] => d
  | c :: cs => d.codesReady q (cs.foldl (fun a b => if b.ready < a.ready then b else a) c) xs

def execConversionReady (t : Nat) (q : QuadIx) (xs : List Sample) (s : State) : Host.Outcome State Fault Refusal :=
  s.runLive t fun d => d.conversionReady q xs

def execRequestLateDiscard (t : Nat) (q : QuadIx) (s : State) : Host.Outcome State Fault Refusal := s.runLive t fun d => d.discardLate q

/-! ## Trackers (R273) -/

/-- The window of a tracker is as long as WIN or longer. -/
def Trk.due (k : Trk) (now : Tick) : Bool := k.win != 0 && decide (k.opened + k.win.toNat * 4800 ≤ now)

/-- The tracker is bound by the running image. -/
def Dev.trkBound (d : Dev) (k : TrkIx) : Bool := (d.tile.cur.trks[k]).isSome

/-- A WRITE of TRK[k].CTRL: RESET closes the window, and so does a WIN that has passed already. -/
def Dev.writeTrk (d : Dev) (k : TrkIx) (v : Word) : Dev × Byte :=
  let d := d.updTrk k fun x => { x with win := fld v 0 16 }
  (if d.trkBound k && (v.getLsbD 31 || d.sense.trks[k].due d.clk.now) then d.closeTrk k else d, stOk)

def execTrkReset (t : Nat) (k : TrkIx) (v : Word) (s : State) : Host.Outcome State Fault Refusal := s.hostWrite t (.trkReset t k v) fun d => d.writeTrk k v

def execTrkWindowClose (t : Nat) (k : TrkIx) (s : State) : Host.Outcome State Fault Refusal :=
  s.runLive t fun d => if d.trkBound k && d.sense.trks[k].due d.clk.now then d.closeTrk k else d

end Sys2Proof.Machine
end

