-- ==== Sys2Proof/Machine/LoopCmd.lean ====
section
/-! DEFINITION. The commands of the loop engine (chapters 12 and 13). -/

namespace Sys2Proof.Machine

open Sys2Proof

def execCtxStart (t : Nat) (c : CtxIx) (s : State) : Host.Outcome State Fault Refusal := s.runLive t fun d => d.countCtx c

/-- Every free lane issues, in ascending lane number (R292). -/
def Dev.issueAll (d : Dev) : Dev := (List.finRange 4).foldl Dev.issueLane d

def execCtxComputeIssue (t : Nat) (s : State) : Host.Outcome State Fault Refusal := s.runLive t fun d => d.issueAll

/-- The compute in flight of a context completes in its cycle. -/
def Dev.computeDone (d : Dev) (c : CtxIx) : Dev := match d.loop.ctx[c].flight with
  | some f => if f.done ≤ d.cycle then d.completeCtx c f else d
  | none => d

def execCtxComputeDone (t : Nat) (c : CtxIx) (s : State) : Host.Outcome State Fault Refusal := s.runLive t fun d => d.computeDone c

/-- A WRITE of CTX[c].DELAY: a clear leaves MAX at the delay of a compute that completed in its cycle (R294). -/
def Dev.writeCtxDelay (d : Dev) (c : CtxIx) (v : Word) : Dev × Byte :=
  (if v.getLsbD 31 then d.updCtx c fun x => { x with delayMax := if d.cyc.delays.getLsbD c.val then x.delayLast else 0 } else d, stOk)

def execCtxDelayClr (t : Nat) (c : CtxIx) (v : Word) (s : State) : Host.Outcome State Fault Refusal :=
  s.hostWrite t (.ctxDelayClr t c v) fun d => d.writeCtxDelay c v

/-- A WRITE of LOOP.HSTAT: a clear leaves the completions of its cycle counted and QMAX at the contexts pending (R295). -/
def Dev.writeHstat (d : Dev) (v : Word) : Dev × Byte :=
  (if v.getLsbD 31 then { d with loop := { d.loop with hist := d.cyc.bins.foldl (fun h b => upd h b satInc) (Vector.replicate 12 0), qmax := satN 8 d.loop.queue.length } } else d, stOk)

def execLoopHistClr (t : Nat) (v : Word) (s : State) : Host.Outcome State Fault Refusal := s.hostWrite t (.loopHistClr t v) fun d => d.writeHstat v

end Sys2Proof.Machine
end

