-- ==== Sys2Proof/Machine/FaultCmd.lean ====
section
/-! DEFINITION. The commands of fault collection (chapter 18): causes, forces, acknowledgement and the W1C of status bits. -/

namespace Sys2Proof.Machine

open Sys2Proof

/-- Sources marked Event in R402. -/
def srcEvent (k : SrcIx) : Bool :=
  let v := k.val
  (0x28 ≤ v && v < 0x38) || (0x68 ≤ v && v < 0x6C) || (0x70 ≤ v && v < 0x74)

/-- The cause of a source becomes present or absent at its instance; a source whose rail or port is not defined has none (R401). -/
def Dev.faultRaise (d : Dev) (k : SrcIx) (inst : PhaseIx) (present : Bool) : Dev :=
  if d.sys.devState = .boot || !srcDefined k || !d.srcLives k then d
  else
    let i := if srcPerPhase k then inst else 0
    if srcEvent k then (if present then d.raiseEvent k i else d) else d.setCause k i present

def execFaultRaise (t : Nat) (k : SrcIx) (inst : PhaseIx) (present : Bool) (s : State) : Host.Outcome State Fault Refusal :=
  s.run t fun d => d.faultRaise k inst present

/-! ## Forces (R405, R419) -/

/-- The phase that a force of a source acts on. -/
def FaultMgr.finst (f : FaultMgr) (k : SrcIx) : PhaseIx :=
  if k = srcInterlock then f.finstIlk else if k = srcTripLatch then f.finstTrip
  else if k = srcIsnsCm then f.finstCm else if k = srcDline then f.finstDl else 0

/-- One force bit takes its written value; a rise is a fault unless the cause is present already. -/
def Dev.forceBit (d : Dev) (k : SrcIx) (on : Bool) : Dev :=
  if !srcDefined k || d.fault.src[k].force == on then d
  else
    let i := d.fault.finst k
    let had := d.causeOf k i
    let d := { d with fault := { d.fault with src := upd d.fault.src k fun f => { f with force := on, forcedInst := if on then i else f.forcedInst } } }
    if on && !had && !d.faultNow k i then
      { d with fault := { d.fault with seen := d.fault.seen ++ [{ src := k, inst := i, tick := d.clk.now, forced := true, detail := if k = srcInterlock then d.pwm[i].ilkDetail else [], tbu := d.clk.tbUncertain }] } }
    else d

/-- A WRITE of FAULT.FORCE[i]. -/
def Dev.writeForce (d : Dev) (i : Fin 8) (v : Word) : Dev × Byte :=
  ((List.finRange 32).foldl (fun d j => d.forceBit (Fin.ofNat 256 (32 * i.val + j.val)) (v.getLsbD j.val)) d, stOk)

def execFaultForce (t : Nat) (i : Fin 8) (v : Word) (s : State) : Host.Outcome State Fault Refusal := s.hostWrite t (.faultForce t i v) fun d => d.writeForce i v

/-! ## Acknowledgement and status (R404, R412) -/

/-- A W1C of FAULT.OPEN[r]. -/
def Dev.writeOpen (d : Dev) (r : RailIx) (v : Word) : Dev × Byte := (d.ackMask r v, stOk)

def execFaultAck (t : Nat) (r : RailIx) (v : Word) (s : State) : Host.Outcome State Fault Refusal := s.hostWrite t (.faultAck t r v) fun d => d.writeOpen r v

/-- A W1C of one status bit: it clears once no instance has its cause present, and not in the cycle that set it (R12, R402);
    FAULT_CLR fires. The flag says that it stayed. -/
def Dev.clearStatus (d : Dev) (k : SrcIx) : Dev × Bool :=
  if !d.fault.src[k].status then (d, false)
  else if d.anyCause k || d.bitSetNow (.status k) then (d, true)
  else
    (({ d with fault := { d.fault with src := upd d.fault.src k fun f => { f with status := false, reach := 0 } } }).event (0x0700 + k.val), false)

/-- A W1C of FAULT.STAT[i]. -/
def Dev.writeStat (d : Dev) (i : Fin 8) (v : Word) : Dev × Byte :=
  let (d, stayed) := ((List.finRange 32).filter fun j => v.getLsbD j.val).foldl (fun (a : Dev × Bool) j =>
    let (d, st) := a.1.clearStatus (Fin.ofNat 256 (32 * i.val + j.val))
    (d, a.2 || st)) (d, false)
  (d, if stayed then stCause else stOk)

end Sys2Proof.Machine
end

