-- ==== Sys2Proof/Machine/LeaveCmd.lean ====
section
/-! DEFINITION. The commands of the Leave governor, the leases and the tests (chapter 23). -/

namespace Sys2Proof.Machine

open Sys2Proof

/-! ## Grants (R520, R521) -/

/-- The trust engine's first waiting job runs. -/
def Dev.startTrust (d : Dev) : Dev := match d.trust.waiting with
  | [] => d.releaseLeave .signature leaveAll
  | j :: rest =>
    let d := d.updTrust fun t => { t with waiting := rest, running := t.running ++ [j] }
    match j with
    | .load => d.updTile fun t => { t with load := t.load.map fun l => { l with stage := some .sig } }
    | .verify => d.updTile fun t => { t with verify := some .sig }
    | _ => d

/-- A scope-limited self-test begins; that of a quad whose spare has gone meanwhile ends without a result. -/
def Dev.startTest (d : Dev) (target : Byte) : Dev :=
  let now := d.clk.now
  if target.toNat < 0x40 then d.updTest fun t => { t with phase := t.phase.map fun p => (p.1, .running now), periods := 0 }
  else if target.toNat < 0x50 then
    let q : QuadIx := Fin.ofNat 4 (target.toNat % 16)
    match d.sense.quads[q].outOfLine with
    | some i =>
      if d.spareReady q then
        (d.updQuad q fun x => { x with slices := upd x.slices i fun s => { s with st := .test } }).updSense fun s => { s with stage := some (.running now) }
      else d.endCal d.sense.result
    | none => d.endCal d.sense.result
  else d.updTest fun t => { t with bank := t.bank.map fun b => (b.1, .running now) }

/-- A phase start begins: an add, or first switching under HOST_OVR. -/
def Dev.startPhase (d : Dev) (n : PhaseIx) : Dev :=
  match d.railOf n with
  | some r =>
    if d.rails[r].addWait = some n then d.addGranted r n
    else if d.pwm[n].hostStartWait then
      (d.updPwm n fun p => { p with hostStartWait := false, hostStarted := true }).setMask n fun m => { m with shed := false }
    else d.releaseLeave .phaseStart (phaseTarget n)
  | none => d.releaseLeave .phaseStart (phaseTarget n)

/-- What a grant starts. -/
def Dev.startGranted (d : Dev) (q : LeaveReq) : Dev := match q.kind with
  | .fgcal => d.updSense fun s => { s with stage := s.stage.map fun _ => .running d.clk.now }
  | .rotation => d.updQuad (Fin.ofNat 4 q.target.toNat) fun x => { x with rotGranted := true, rotFrom := d.clk.now }
  | .mram => d.mramGranted
  | .signature => d.startTrust
  | .selftest => d.startTest q.target
  | .phaseStart => d.startPhase (Fin.ofNat 64 q.target.toNat)

/-! ## Refusals (R522) -/

/-- The trust engine's first waiting job ends with REFUSED_LEAVE. -/
def Dev.trustRefused (d : Dev) : Dev := match d.trust.waiting with
  | [] => d
  | j :: rest =>
    let d := d.updTrust fun t => { t with waiting := rest }
    match j with
    | .load => d.loadRefused
    | .verify => d.verifyRefused
    | .token bs => d.tokenEnd bs stLeave 0
    | .attest bs _ => d.attestFail bs stLeave

/-- What a refused request means to its owner. -/
def Dev.leaveRefused (d : Dev) (q : LeaveReq) : Dev := match q.kind with
  | .fgcal => d.updSense fun s => { s with stage := none, result := 7 }
  | .rotation => d.updQuad (Fin.ofNat 4 q.target.toNat) fun x => { x with rotSkipped := x.rotSkipped + 1 }
  | .mram => d.loadRefused
  | .signature => d.trustRefused
  | .selftest =>
    if q.target.toNat < 0x40 then d.updTest fun t => { t with phase := none, phaseRes := 4 }
    else if q.target.toNat < 0x50 then d.updSense fun s => { s with stage := none, result := 7 }
    else d.updTest fun t => { t with bank := none, bankRes := 4 }
  | .phaseStart =>
    let n : PhaseIx := Fin.ofNat 64 q.target.toNat
    let d := match d.railOf n with
      | some r => if d.rails[r].addWait = some n then d.updRail r fun x => { x with addWait := none } else d
      | none => d
    if d.pwm[n].hostStartWait then d.updPwm n fun p => { p with hostStartWait := false, loadShadow := none, zeroDue := true } else d

/-- One overdue request leaves the queue refused. -/
def Dev.refuseLeave (d : Dev) (q : LeaveReq) : Dev :=
  ({ d with leave := { d.leave with queue := d.leave.queue.erase q, cnt := upd d.leave.cnt q.kind.ix fun c => { c with refused := c.refused + 1 } } }).leaveRefused q

/-- Every request that has waited MAXWAIT is refused; on the backup oscillator none is (R110, R524). -/
def Dev.expireLeave (d : Dev) : Dev :=
  if d.alive then (d.leave.queue.filter fun q => d.leave.overdue d.clk.now q).foldl Dev.refuseLeave d else d

def execLeaveMaxwaitExpire (t : Nat) (s : State) : Host.Outcome State Fault Refusal := s.run t fun d => d.expireLeave

/-- One scan of the queue, in the last LOOP_CLK cycle of an HK_CLK cycle (R521). A request whose wait has run out, as one can while
    the core runs on the backup oscillator, is refused in it and not granted (R522, R524). -/
def Dev.grant (d : Dev) : Dev :=
  if d.noGrants || !d.hkLast then d
  else
    let d := d.expireLeave
    let (l, gs) := d.leave.scan d.leave.queue
    gs.foldl Dev.startGranted { d with leave := l }

def execLeaveGrant (t : Nat) (s : State) : Host.Outcome State Fault Refusal := s.run t fun d => d.grant

/-! ## Leases (R516, R517) -/

def execHkLeaseTake (t : Nat) (s : State) : Host.Outcome State Fault Refusal :=
  s.runLive t fun d =>
    if d.banks.leaseSince.isNone && decide (d.banks.pauseUntil ≤ d.clk.now) && d.test.bist.isNone then
      { d with banks := { d.banks with leaseSince := some d.clk.now, redo := false, hkWrote := true } }
    else d

def execLeaseExpire (t : Nat) (s : State) : Host.Outcome State Fault Refusal :=
  s.runLive t fun d => match d.banks.leaseSince with
    | some u => if u + 480 ≤ d.clk.now then d.endLease false else d
    | none => d

def execLeaseRelease (t : Nat) (s : State) : Host.Outcome State Fault Refusal :=
  s.runLive t fun d =>
    if d.banks.leaseSince.isSome then { d with banks := { d.banks with leaseSince := none, pauseUntil := d.clk.now + 480 } } else d

/-! ## Tests (R525 to R530) -/

def Dev.startPhaseTest (d : Dev) : Dev × Byte :=
  let n := d.test.selPhase
  if d.sys.devState != .run || !d.phaseTestable n || d.test.phase.isSome then (d, stState)
  else
    let d := d.updTest fun t => { t with phase := some (n, .waiting), phaseIn := d.phaseMode n, periods := 0 }
    let (d, ok) := d.askLeave .selftest (phaseTarget n)
    (if ok then d else d.updTest fun t => { t with phase := none, phaseRes := 4 }, stOk)

def Dev.startBankTest (d : Dev) : Dev × Byte :=
  let b := d.test.selBank
  let leased := b == 3 && d.banks.leaseSince.isSome
  if !(d.calState || d.sys.devState == .run) || d.test.bank.isSome || leased then (d, stState)
  else
    let d := d.updTest fun t => { t with bank := some (b, .waiting) }
    let (d, ok) := d.askLeave .selftest (bankTestTarget b)
    (if ok then d else d.updTest fun t => { t with bank := none, bankRes := 4 }, stOk)

/-- FULL_BIST: in MAINT, with no test running and nothing staged; the housekeeping processor suspends its work. -/
def Dev.startBist (d : Dev) : Dev × Byte :=
  let t := d.test
  let testing := t.bist.isSome || t.phase.isSome || t.bank.isSome || (d.sense.op == .selftest && d.sense.stage.isSome)
  if d.sys.devState != .maint || testing || d.lantern.staging.toList.any Option.isSome then (d, stState)
  else
    ((d.updTest fun t => { t with bist := some d.clk.now }).updSys fun s => { s with rdyLowBist := true }, stOk)

/-- A WRITE of TEST.CTRL. -/
def Dev.writeTestCtrl (d : Dev) (v : Word) : Dev × Byte :=
  match fld v 0 3 with
  | 0 => (d, stOk)
  | 1 => d.startBankTest
  | 2 => d.startPhaseTest
  | 4 => d.startBist
  | _ => (d, stState)

def execPhaseTest (t : Nat) (s : State) : Host.Outcome State Fault Refusal := s.hostWrite t (.phaseTest t) fun d => d.startPhaseTest
def execBankTest (t : Nat) (s : State) : Host.Outcome State Fault Refusal := s.hostWrite t (.bankTest t) fun d => d.startBankTest
def execFullBist (t : Nat) (s : State) : Host.Outcome State Fault Refusal := s.hostWrite t (.fullBist t) fun d => d.startBist

/-- The test ends: failed at a mismatch, passed after 64 whole periods. -/
def Dev.phaseTestDone (d : Dev) (mismatch : Bool) : Dev := match d.test.phase with
  | none => d
  | some (_, .waiting) => d
  | some (n, .running _) => if mismatch then d.endPhaseTest n 2 else if 65 ≤ d.test.periods then d.endPhaseTest n 1 else d

def execPhaseTestDone (t : Nat) (mismatch : Bool) (s : State) : Host.Outcome State Fault Refusal :=
  s.runLive t fun d => d.phaseTestDone mismatch

/-- A word the bank self-test reads: every word of a bank but the Lantern staging range at the end of bank 3 (R512, R527). -/
def bankTested (b : BitVec 2) (w : BitVec 14) : Bool := b != 3 || decide (w.toNat < 0x3E00)

/-- The bank self-test ends; `failWord` is the word of the first miscompare, which is one it tests. Contents are kept, and while the
    bank is leased the test pauses (R527). -/
def Dev.bankTestDone (d : Dev) (failWord : Option (BitVec 14)) : Dev := match d.test.bank with
  | some (b, .running _) =>
    if (b == 3 && d.banks.leaseSince.isSome) || !failWord.all (bankTested b) then d
    else (d.releaseLeave .selftest (bankTestTarget b)).updTest fun t =>
      { t with bank := none, bankRes := if failWord.isSome then 2 else 1, failWord := failWord.getD t.failWord }
  | _ => d

def execBankTestDone (t : Nat) (failWord : Option (BitVec 14)) (s : State) : Host.Outcome State Fault Refusal :=
  s.runLive t fun d => d.bankTestDone failWord

/-- The full BIST ends: every word of every bank reads 0, and the housekeeping processor starts from its initial state (R529). -/
def Dev.bistDone (d : Dev) (failed : BitVec 4) : Dev :=
  let d := (d.updTest fun t => { t with bist := none, bistDone := true, bistFailed := failed }).updSys fun s => { s with rdyLowBist := false }
  { d with banks := { d.banks with leaseSince := none, redo := false, hkWrote := false }, lantern := { d.lantern with staging := Vector.replicate 16 none, staged := Vector.replicate 16 [] } }

def execFullBistDone (t : Nat) (failed : BitVec 4) (s : State) : Host.Outcome State Fault Refusal :=
  s.runMem t fun d m => if d.test.bist.isSome && !d.clk.onBackup then (d.bistDone failed, []) else (d, m)

end Sys2Proof.Machine
end

