-- ==== Sys2Proof/Machine/TileCmd.lean ====
section
/-! DEFINITION. The commands of images and retiling (chapters 06 and 07). -/

namespace Sys2Proof.Machine

open Sys2Proof

/-! ## Images (R160 to R168) -/

def execTileBlock (t : Nat) (offset : Word) (data : List Byte) (s : State) : Host.Outcome State Fault Refusal :=
  s.run t fun d => d.host (.tileBlock t offset data) false fun d => d.tileBlock offset.toNat data

def execMramBurstDone (t : Nat) (ok : Bool) (s : State) : Host.Outcome State Fault Refusal :=
  s.run t fun d => d.mramDone ok

def execTileAbort (t : Nat) (s : State) : Host.Outcome State Fault Refusal := s.hostWrite t (.tileAbort t) fun d => d.tileAbort
def execTileVerify (t : Nat) (s : State) : Host.Outcome State Fault Refusal := s.hostWrite t (.tileVerify t) fun d => d.tileVerify
def execTileCommit (t : Nat) (s : State) : Host.Outcome State Fault Refusal := s.hostWrite t (.tileCommit t) fun d => d.tileCommit

/-- A WRITE of TILE.CTRL (R168). -/
def Dev.writeTileCtrl (d : Dev) (v : Word) : Dev × Byte := match fld v 0 3 with
  | 0 => (d, stOk)
  | 1 => d.tileCommit
  | 2 => d.tileVerify
  | 4 => d.tileAbort
  | _ => (d, stState)

def execDirectCommitDone (t : Nat) (s : State) : Host.Outcome State Fault Refusal := s.runLive t fun d => d.loadingDone

/-! ## Retiling (R169 to R185) -/

def execRetilePlanDone (t : Nat) (s : State) : Host.Outcome State Fault Refusal :=
  s.runLive t fun d => if d.tile.rt.state == .planning && d.tile.rt.stopAsked.isNone then d.planDone else d

def execRetileDrainRequest (t : Nat) (s : State) : Host.Outcome State Fault Refusal := s.runLive t fun d => d.drainRequest
def execRetileStep (t : Nat) (s : State) : Host.Outcome State Fault Refusal := s.runLive t fun d => d.retileStep

def execRetileCapacityRecheck (t : Nat) (s : State) : Host.Outcome State Fault Refusal :=
  s.runLive t fun d => if d.tile.rt.stopAsked.isSome then d else d.capacityRecheck

/-- A capacity wait has lasted WAIT_LIMIT × 100 ms (R180). -/
def Dev.waitLimit (d : Dev) : Dev :=
  let rt := d.tile.rt
  match rt.waitSince with
  | some u => if rt.state == .waiting && decide (u + rt.waitLimit.toNat * 100 * msTicks ≤ d.clk.now) then d.retileStop 4 else d
  | none => d

def execRetileWaitLimit (t : Nat) (s : State) : Host.Outcome State Fault Refusal := s.runLive t fun d => d.waitLimit

/-- The step boundary at which a stop asked for takes place (R183, R184). -/
def Dev.takeStop (d : Dev) : Dev := match d.tile.rt.stopAsked with
  | some c => if d.tile.rt.active then d.retileStop c else d
  | none => d

def execRetileStop (t : Nat) (s : State) : Host.Outcome State Fault Refusal := s.run t fun d => d.takeStop

def execRtStop (t : Nat) (s : State) : Host.Outcome State Fault Refusal := s.hostWrite t (.rtStop t) fun d => d.rtStop
def execRtContinue (t : Nat) (s : State) : Host.Outcome State Fault Refusal := s.hostWrite t (.rtContinue t) fun d => d.rtContinue
def execRtResume (t : Nat) (s : State) : Host.Outcome State Fault Refusal := s.hostWrite t (.rtResume t) fun d => d.rtResume
def execRtRevert (t : Nat) (s : State) : Host.Outcome State Fault Refusal := s.hostWrite t (.rtRevert t) fun d => d.rtRevert

/-- A WRITE of TILE.RT_CTRL (R185). -/
def Dev.writeRtCtrl (d : Dev) (v : Word) : Dev × Byte := match fld v 0 4 with
  | 0 => (d, stOk)
  | 1 => d.rtStop
  | 2 => d.rtResume
  | 4 => d.rtRevert
  | 8 => d.rtContinue
  | _ => (d, stState)

end Sys2Proof.Machine
end

