-- ==== Sys2Proof/Machine/TrustCmd.lean ====
section
/-! DEFINITION. The commands of trust and of the Lantern (chapters 19 and 20). -/

namespace Sys2Proof.Machine

open Sys2Proof

/-! ## Tokens and attestation (R443 to R456) -/

/-- A TOKEN transaction; in boot hold its refusal is an outcome that TRUST.LAST_TOKEN reports (R447). -/
def State.token (t : Tick) (s : State) (i : Instr) (bytes : List Byte) : Host.Outcome State Fault Refusal :=
  s.run t fun d => d.host i true fun d => d.token bytes

/-- An ATTEST transaction, allowed in boot hold (R137). -/
def State.attest (t : Tick) (s : State) (i : Instr) (bytes : List Byte) : Host.Outcome State Fault Refusal :=
  s.run t fun d => d.host i true fun d => d.attest bytes

def execTokenClear (t : Nat) (bytes : List Byte) (s : State) : Host.Outcome State Fault Refusal := s.token t (.tokenClear t bytes) bytes
def execTokenClaim (t : Nat) (bytes : List Byte) (s : State) : Host.Outcome State Fault Refusal := s.token t (.tokenClaim t bytes) bytes
def execTokenInstall (t : Nat) (bytes : List Byte) (s : State) : Host.Outcome State Fault Refusal := s.token t (.tokenInstall t bytes) bytes
def execTokenRevoke (t : Nat) (bytes : List Byte) (s : State) : Host.Outcome State Fault Refusal := s.token t (.tokenRevoke t bytes) bytes
def execTokenUnlock (t : Nat) (bytes : List Byte) (s : State) : Host.Outcome State Fault Refusal := s.token t (.tokenUnlock t bytes) bytes
def execAttestIdentity (t : Nat) (bytes : List Byte) (s : State) : Host.Outcome State Fault Refusal := s.attest t (.attestIdentity t bytes) bytes
def execAttestRecords (t : Nat) (bytes : List Byte) (s : State) : Host.Outcome State Fault Refusal := s.attest t (.attestRecords t bytes) bytes
def execAttestCalibration (t : Nat) (bytes : List Byte) (s : State) : Host.Outcome State Fault Refusal := s.attest t (.attestCalibration t bytes) bytes

/-- The slot that signed the running image has just left INSTALLED (R167). -/
def Dev.markDirty (d : Dev) (was : Bool) : Dev :=
  if d.tile.tiled && was && !d.signerHeld d.tile.image.signer then d.updTile fun t => { t with dirty := true } else d

/-- The trust engine's oldest running job completes (R443). -/
def Dev.trustOpDone (d : Dev) : Dev := match d.trust.running with
  | [] => d
  | j :: rest =>
    let was := d.signerHeld d.tile.image.signer
    let d := (d.releaseLeave .signature leaveAll).updTrust fun t => { t with running := rest }
    match j with
    | .load => d.loadVerified
    | .verify => d.verifyDone
    | .token bs => (d.tokenVerified bs).markDirty was
    | .attest bs cover => d.attestDone bs cover

def execTrustOpDone (t : Nat) (s : State) : Host.Outcome State Fault Refusal :=
  s.run t fun d => if d.clk.onBackup then d else d.trustOpDone

/-! ## The Lantern (R425 to R435) -/

def Dev.updLantern (d : Dev) (f : Lantern → Lantern) : Dev := { d with lantern := f d.lantern }

def execRecordCloseTimeout (t : Nat) (s : State) : Host.Outcome State Fault Refusal :=
  s.run t fun d => d.updLantern fun l => l.closeDue d.clk.now

/-- The Lantern works: in every device state but BOOT, and in boot hold (R136). -/
def Dev.logRuns (d : Dev) : Bool := d.sys.devState != .boot || d.sys.bootHold

def execLogRefill (t : Nat) (s : State) : Host.Outcome State Fault Refusal :=
  s.run t fun d => if d.logRuns && d.tb % d.lantern.refillEvery == 0 then d.refill else d

def execRecordPersisted (t : Nat) (s : State) : Host.Outcome State Fault Refusal :=
  s.run t fun d => if d.logRuns then d.updLantern Lantern.persist else d

def execSnapshotStart (t : Nat) (i : Fin 8) (s : State) : Host.Outcome State Fault Refusal :=
  s.runLive t fun d => d.snapStart i

/-- LOG_READ (R433, R471), refused in boot hold when the store could not be read (R137). -/
def Dev.logRead (d : Dev) (start max : Nat) : Dev :=
  if max < 1 ∨ 3 < max ∨ (d.sys.bootHold && d.lantern.storeBad) then d.reply stState
  else
    let l := d.lantern.closeDue d.clk.now
    ({ d with lantern := l }).reply stOk (l.logRead (start % 2 ^ 48) max)

def execLogRead (t : Nat) (start : Nat) (max : Byte) (s : State) : Host.Outcome State Fault Refusal :=
  s.run t fun d => d.host (.logRead t start max) true fun d => d.logRead start max.toNat

/-- A WRITE of LOG.RSEL_HI selects a record (R434). -/
def Dev.writeRselHi (d : Dev) (v : Word) : Dev × Byte :=
  let hi := fld v 0 16
  (d.updLantern fun l => { l with rselHi := hi, selSeq := hi.toNat * 2 ^ 32 + l.rselLo.toNat }, stOk)

def execRselHiWrite (t : Nat) (v : Word) (s : State) : Host.Outcome State Fault Refusal := s.hostWrite t (.rselHiWrite t v) fun d => d.writeRselHi v

/-- A WRITE of LOG.SNAP_SEL selects a snapshot (R434). -/
def Dev.writeSnapSel (d : Dev) (v : Word) : Dev × Byte := (d.updLantern fun l => { l with snapSel := some (fld v 0 16) }, stOk)

def execSnapSelWrite (t : Nat) (v : Word) (s : State) : Host.Outcome State Fault Refusal := s.hostWrite t (.snapSelWrite t v) fun d => d.writeSnapSel v

end Sys2Proof.Machine
end

