-- ==== Sys2Proof/Machine/StartOps.lean ====
section
/-! DEFINITION. Resets and starts (R117 to R139): the entry into BOOT, what each kind of start keeps and rebuilds, the
    recovery of the Lantern, and boot hold. -/

namespace Sys2Proof.Machine

open Sys2Proof

/-! ## Entering BOOT (R117, R118, R134, R139) -/

/-- The link at a reset: nothing taken, nothing to replay, and no symbol sync without a lock (R127, R481). -/
def Link.reset (l : Link) : Link := { epoch := l.epoch }

/-- The PLL of a start locks: EPOCH counts the start, and idle symbols go out from here (R459, R481). -/
def Link.lockAt (l : Link) (now : Tick) : Link := { l with epoch := l.epoch + 1, lineFrom := now, upFrom := now }

/-- What a cold start's lock does to pins: the supplies have passed (R55, R119), and both stop channels demand stop until each takes a
    level (R354). -/
def Dev.coldPins (d : Dev) : Dev :=
  { d with sys := { d.sys with vddlLow := false }, prot := { d.prot with aStop := true, bStop := true } }

/-- The PLL locks in the course of a start; what else a start's lock does is the start's own (assumptions 14 and 31). -/
def Dev.startLock (d : Dev) : Dev := match d.sys.start with
  | some p =>
    if d.locked then d
    else
      let d := { d with sys := { d.sys with start := some { p with locked := true } }, link := d.link.lockAt d.clk.now }
      if p.cold then d.coldPins else d
  | none => d

/-- The row write that the Lantern's writer may be in the middle of at a reset; whether it is in one, the spec leaves open: a free
    value (assumption 77). -/
def Dev.tearRow (d : Dev) : Dev :=
  if d.logRuns && d.lantern.nextOut.isSome then
    let (w, d) := d.fresh
    if w.getLsbD 0 then { d with lantern := d.lantern.tear } else d
  else d

/-- The device enters BOOT, which R46 journals where the logic has power (not at a power-on); every activity stops, and a start
    of the kind named is to run. HOT, OVERTEMP and TEMP stand as they stood, after a power-on and a supply trip too (DEDUCED,
    assumption 108). -/
def Dev.enterBoot (d : Dev) (cold : Bool) (cause : BitVec 4) (trip : BitVec 5) (failStep : BitVec 4) : Dev :=
  let prev : BitVec 3 := if cause = 1 then 7 else (d.stateFrom .boot).code
  let d : Dev := (if cold then d else d.lockCal 2).cutWrite.cutToken.tearRow
  let d := if cause = 1 ∨ d.sys.devState = .boot then d else d.setState .boot
  let d := d.updSys fun s =>
    { s with devState := .boot, latchCause := 0, bootHold := false, start := some { cold := cold }, prevState := prev, cause := cause, failStep := failStep, tripSupply := trip, retryPending := false, rdyLowStart := true, rdyLowBackup := false, rdyLowCommit := false, rdyLowBist := false, rdyStepUntil := 0, vddlLow := s.vddlLow || cause == 1 || trip.getLsbD 2 }
  let d := d.updClk fun c => { c with onBackup := !cold, pllLock := false, failAt := none, backupFrom := if cold then none else some c.now, tbHi := 0, tbUncertain := c.tbUncertain || !cold }
  let d := d.updTile fun t => { t with load := none, verify := none, verified := false, rt := { pauseAtPark := t.rt.pauseAtPark, waitLimit := t.rt.waitLimit } }
  let d := { d with rails := mapV d.rails fun _ x => { x with mode := .off }, cards := mapV d.cards fun _ c => if cold then {} else { c with qual := .ready }, ports := mapV d.ports fun _ p => { p with wickAt := none, wickStop := 0 } }
  { d with sense := { d.sense with stage := none, unlockUntil := d.sense.unlockUntil }, trust := { d.trust with running := [], waiting := [] }, link := d.link.reset, chord := { d.chord with txDn := none, txUp := none }, leave := { d.leave with queue := [], grants := [] }, banks := { d.banks with leaseSince := none }, test := { d.test with bist := none, phase := none, bank := none }, fault := { d.fault with seen := [], due := [], events := [] } }

/-- An internal watchdog reset or RST_N (R117): nothing in boot hold (R136), cold while a start runs, warm otherwise. -/
def Dev.resetBy (d : Dev) (cause : BitVec 4) : Dev :=
  if d.sys.bootHold then d else d.enterBoot (d.sys.devState == .boot) cause 0 0

/-- A fatal failure of a start step (R121). -/
def Dev.fatal (d : Dev) (step : BitVec 4) (tb : Nat) : Dev :=
  (d.updSys fun s => { s with boot := { s.boot with startFails := s.boot.startFails ++ [{ step := step, tick := tb }] } }).enterBoot true 6 0 step

/-! ## Failed starts (R134, R135) -/

/-- The start that runs follows a failed start. -/
def Sys.failedStart (s : Sys) : Bool := s.cause == 4 || s.cause == 5 || s.cause == 6 || (s.cause == 2 && s.prevState == 0)

/-- One failure is counted; the third sets HOLD. Of more than three the causes kept are the last three (DESIGN CHOICE, assumption 81). -/
def BootCtl.count (b : BootCtl) (cause : BitVec 4) : BootCtl :=
  let n := if b.failCount = 3 then b.failCount else b.failCount + 1
  let cs := (b.failCauses ++ [cause]).drop ((b.failCauses ++ [cause]).length - 3)
  { b with windowOpen := true, failCount := n, failCauses := cs, hold := b.hold || n == 3 }

/-- What the end of step 2 or of W2 counts, once for each start. -/
def Dev.countStart (d : Dev) : Dev := match d.sys.start with
  | some p =>
    if p.counted then d
    else d.updSys fun s =>
      let b := if s.failedStart then s.boot.count s.cause else s.boot
      { s with start := some { p with counted := true }, boot := b }
  | none => d

/-- Every 10 s of time base while the window is open. -/
def BootCtl.tick (b : BootCtl) : BootCtl :=
  if !b.windowOpen then b
  else
    let w := if b.window.toNat < 60 then b.window + 1 else b.window
    if w = 60 ∧ b.failCount ≠ 3 then { b with window := 0, windowOpen := false, failCount := 0, failCauses := [] } else { b with window := w }

/-! ## The Lantern at a start (R125, R132, R424, R431, R435) -/

/-- The count that a record carries for a REACT record: the number it names and the count. -/
def Record.carries (r : Record) : Option (Nat × Nat) :=
  if isFaultCode r.code && (byteAt r.data 5).getLsbD 1 then some (numAt r.data 6 6, numAt r.data 12 2)
  else if r.code = 0x0050 then some (numAt r.data 1 6, numAt r.data 7 2) else none

/-- A REACT record rebuilt with the highest count that the records carry for it. -/
def Record.recount (carried : List (Nat × Nat)) (r : Record) : Record :=
  match (carried.filter fun x => x.1 == r.seq).map (·.2) with
  | [] => r
  | c :: cs => if isReact r.code then { r with count := BitVec.ofNat 16 (cs.foldl max c) } else r

/-- The Lantern rebuilt from the persisted store from the floor on (R436): RAM, the reservation, and counters at their Cold values. Where the
    reservation cannot be used, the counter resumes 65 536 above the highest number, and not below the number given (R122). -/
def Lantern.rebuilt (l : Lantern) (bad : List Nat) (lostStore : Bool) (resume : Option Nat) : Lantern :=
  let store := if lostStore then [] else l.store.filter fun x => !bad.contains x.2.seq && decide (l.floor ≤ x.2.seq)
  let recs := sortBy (fun r : Record => r.seq) (store.map (·.2))
  let carried := recs.filterMap Record.carries
  let h := (recs.getLast?.map (·.seq)).getD 0
  let resv := match resume with
    | some low => max (h + 65536) low
    | none => l.resv
  let torn := l.torn ++ (l.store.filter fun x => bad.contains x.2.seq).map (·.1)
  { ram := (recs.drop (recs.length - 4096)).map (Record.recount carried), store := store, torn := torn, writePtr := l.writePtr, snaps := l.snaps, next := resv, resv := resv + 4096, floor := l.floor, clears := l.clears, serial := l.serial, newestClosed := (recs.getLast?.map (·.link)).getD 0, storeBad := lostStore }

/-- A GAP record. -/
def Dev.gap (d : Dev) (first last missing : Nat) (damaged : List Byte) : Dev :=
  let d := d.noteNext 0x0001 1 0xFFFF (leBytes 6 first ++ leBytes 6 last ++ leBytes 4 missing ++ damaged)
  { d with lantern := { d.lantern with gaps := d.lantern.gaps + 1 } }

/-- Step 9 of a cold start: recovery, and the GAP record it may need. Of a store that cannot be read the spec does not say how
    many records were found damaged: that number is free. -/
def Dev.recoverLantern (d : Dev) (bad : List Nat) (lostStore : Bool) (resume : Option Nat) : Dev :=
  let old := d.lantern
  let l := old.rebuilt bad lostStore resume
  let h := (l.ram.getLast?.map (·.seq)).getD 0
  let n := l.torn.length
  let (w, d) := if lostStore then d.fresh else (BitVec.ofNat 32 n, d)
  let d := { d with lantern := l }
  if h + 1 < l.next ∨ n ≠ 0 ∨ lostStore = true then d.gap (h + 1) h (l.next - h - 1) (leBytes 4 w.toNat) else d

/-- The maximal runs of consecutive numbers in an ascending list: first number and length. -/
def runsOf : List Nat → List (Nat × Nat)
  | [] => []
  | x :: xs => match runsOf xs with
    | (y, n) :: rest => if y = x + 1 then (x, n + 1) :: rest else (x, 1) :: (y, n) :: rest
    | [] => [(x, 1)]

/-- W4 takes the failed records out of Lantern RAM; the Lantern goes on with full buckets, nothing selected and nothing staged
    (assumption 78). -/
def Lantern.keep (l : Lantern) (bad : List Nat) : Lantern :=
  let l := l.closeNewest
  let ram := l.ram.filter fun r => !bad.contains r.seq
  let last := (sortBy (fun r : Record => r.seq) (l.store.map (·.2))).getLast?
  let p := match ram.getLast?, last with
    | some _, _ => l.chainP
    | none, some r => r.norm
    | none, none => List.replicate 58 0
  { l with ram := ram, chainP := p, rselLo := 0, rselHi := 0, selSeq := 0, snapSel := none, staging := Vector.replicate 16 none, buckets := (l.buckets.filter fun b => b.suppressed != 0).map fun b => { b with tokens := l.rlDepth.toNat, recent := false }, fullTokens := l.rlDepth.toNat }

/-- The GAP records of a warm start. -/
def Dev.warmGaps (d : Dev) (bad : List Nat) : Dev :=
  let had := d.lantern.ram.map (·.seq)
  let lost := had.filter bad.contains
  let d := { d with lantern := d.lantern.keep bad }
  (runsOf lost).foldl (fun d x =>
    let last := if (d.lantern.find (x.1 - 1)).isSome then x.1 - 1 else 0
    d.gap x.1 last x.2 (leBytes 4 x.2)) d

/-! ## Slots and images at a start (R123, R130, R159) -/

/-- The copies of the mark agree, and every slot that is not EMPTY is unverified. -/
def Tile.fresh (t : Tile) (badA badB : Bool) : Tile :=
  let m := t.mark
  let f := fun (s : Slot) (bad : Bool) => { s with state := if s.recLen.isNone then SlotState.empty else .unchecked, reject := 0, badWord := s.badWord || bad }
  { t with mark1 := m, mark2 := m, slotA := f t.slotA badA, slotB := f t.slotB badB }

/-- A slot is verified; an EMPTY one counts as a slot that fails. -/
def Tile.startVerify (t : Tile) (keys : Keys) (b : Bool) : Tile × Option Tiling :=
  if (t.slot b).recLen.isNone then (t, none)
  else match (t.slot b).verify keys with
    | .ok x => (t.updSlot b fun s => { s with state := .valid }, some x)
    | .error c => (t.updSlot b fun s => { s with state := .invalid, reject := c }, none)

/-- The image in a slot is the running image. -/
def Tile.runs (t : Tile) (b : Bool) (x : Tiling) : Tile :=
  let id := imgId (t.slot b).content
  { t with runB := b, tiled := true, image := id, committed := x, cur := x, keptDigest := id.digest, keptGen := id.gen }

/-- No image runs. -/
def Tile.unrun (t : Tile) : Tile := { t with tiled := false, image := {}, committed := {}, cur := {} }

/-- Step 5: the slot marked committed, then the other one; whether the image came from the other one. -/
def Tile.chooseImage (t : Tile) (keys : Keys) : Tile × Bool :=
  let b := t.mark.slotB
  match t.startVerify keys b with
  | (t, some x) => (t.runs b x, false)
  | (t, none) => match t.startVerify keys (!b) with
    | (t, some x) => (t.runs (!b) x, true)
    | (t, none) => (t.unrun, false)

/-- The slot that was running at the reset: the mark's when a commit was under way. -/
def Tile.runningSlot (t : Tile) : Bool := if t.loading = some .commit then t.mark.slotB else t.runB

/-- W5: the retained digest and generation stand in for a verification. -/
def Tile.digestHolds (t : Tile) (b : Bool) : Bool :=
  let s := t.slot b
  t.tiled && s.recLen.isSome && s.recLen != some 0 && !s.badWord && digestBits (imgDigest s.content) == t.keptDigest && s.gen == t.keptGen

/-- W5 of a warm start: fallback and SIG_SKIPPED beside the slots. Where the retained digest or generation differs, the slot verified
    first is the one marked committed, as step 5 has it (DEDUCED, assumption 80). -/
def Tile.warmImage (t : Tile) (keys : Keys) : Tile × Bool × Bool :=
  let b := t.runningSlot
  if t.digestHolds b then
    let t := (t.runs b (tilingOf (t.slot b).content)).updSlot b fun s => { s with state := .valid }
    (t, b != t.mark.slotB, true)
  else
    let (t, fb) := t.chooseImage keys
    (t, fb, false)

/-! ## What a warm start keeps, block by block (R14, R133) -/

/-- A staged write that is not yet in effect is discarded (R118, R133), and what was in effect is kept (assumption 66). -/
def Trig.warm (g : Trig) : Trig := { en := g.enEff, prescale := g.prescaleEff, pos := g.posEff, written := some 0 }

/-- The dead times in effect are kept; a staged pair not yet in effect is discarded (R118, R133; assumption 66). -/
def Pwm.warm (p : Pwm) : Pwm :=
  { dtFall := p.dtf, dtRise := p.dtr, dtf := p.dtf, dtr := p.dtr, trigA := p.trigA.warm, trigB := p.trigB.warm, blank := p.blank, ilkCount := p.ilkCount, ilkLatch := p.ilkLatch, dlFail := p.dlFail, lineHi := p.lineHi, lineLo := p.lineLo, mask := { fail := p.dlFail } }

/-- Periods and slew limits are kept; the background measurement goes on with the phase it stood at (DESIGN CHOICE, assumption 67). -/
def Pwmg.warm (g : Pwmg) : Pwmg := { rper := g.rper, syncPer := g.syncPer, rslew := g.rslew, bgPhase := g.bgPhase }

/-- The slot map, the slice states and every coefficient are kept (R232); a slice that was about to take a failed one's slot has it. A slice
    kept in MEASURE is measured anew from the end of the start, one kept in TEST is under no test (DESIGN CHOICE, assumption 69). -/
def Quad.warm (x : Quad) : Quad :=
  let x := match x.refill with
    | some (_, _, e) => x.refillNow e
    | none => x
  { slices := x.slices, slots := x.slots, outOfLine := x.outOfLine, stale := x.stale, rotDone := x.rotDone, rotSkipped := x.rotSkipped, nextSlot := x.nextSlot }

def Sense.warm (s : Sense) : Sense :=
  { quads := mapV s.quads fun _ x => x.warm, trks := mapV s.trks fun _ k => { win := k.win }, cal := s.cal, target := s.target, stQuad := s.stQuad, entry := s.entry, rotInt := s.rotInt, rotEn := s.rotEn, lpForce := s.lpForce, lpAuto := s.lpAuto }

def RailLoop.warm (x : RailLoop) : RailLoop :=
  { vkHost := x.vkHost, vkAcc := x.vkAcc, vkScale := x.vkScale, hoSteps := x.hoSteps, sdwell := x.sdwell, ssMode := x.ssMode, duty0 := x.duty0 }

def LoopEng.warm (l : LoopEng) : LoopEng :=
  { ctx := mapV l.ctx fun _ c => { cmpOsh := c.cmpOsh, polarity := c.polarity }, rails := mapV l.rails fun _ x => x.warm, stabCtx := l.stabCtx, stabSector := l.stabSector }

def Rail.warm (x : Rail) : Rail :=
  { flareEn := x.flareEn, emberEn := x.emberEn, shedEn := x.shedEn, vscale := x.vscale, iscale := x.iscale, shedTh := x.shedTh, addTh := x.addTh, shedDelay := x.shedDelay, addDwell := x.addDwell, shedDwell := x.shedDwell, emberDwell := x.emberDwell, emberEnter := x.emberEnter, embLo := x.embLo, embHi := x.embHi, embExit := x.embExit, minSleep := x.minSleep, pktLen := x.pktLen, emberDuty := x.emberDuty, flareDuty := x.flareDuty, flareGap := x.flareGap, flareTime := x.flareTime, flareRec := x.flareRec, tOff := x.tOff, retryMax := x.retryMax, retryClr := x.retryClr }

def Trip.warm (t : Trip) : Trip :=
  { polSup := t.polSup, thrSup := t.thrSup, pol := t.pol, thr := t.thr, win := t.win, n := t.n, winNow := t.win, nNow := t.n, total := t.total, cmp := t.cmp }

def Win.warm (w : Win) : Win :=
  { uvBelow := w.uvBelow, ovAct := w.ovAct, ovTh := w.ovTh, rtAbove := w.rtAbove, rtBelow := w.rtBelow, ovCount := w.ovCount, rtCount := w.rtCount, ov := w.ov }

def Prot.warm (p : Prot) : Prot :=
  { trips := mapV p.trips fun _ t => t.warm, wins := mapV p.wins fun _ w => w.warm, discTime := p.discTime, stops := p.stops, cycled := p.cycled, disc := p.disc, aStop := p.aStop, bStop := p.bStop, dtime := p.dtime, lines := mapV p.lines fun _ l => { filt := l.filt }, stuckTime := p.stuckTime }

def Sp.warm (s : Sp) : Sp :=
  { ssSlew := s.ssSlew, src := s.src, target := s.target, slew := s.slew, trim := s.trim, vmin := s.vmin, vmax := s.vmax }

def SetPt.warm (s : SetPt) : SetPt := { vtab := s.vtab, filt := s.filt, sp := mapV s.sp fun _ x => x.warm }

def Port.warm (p : Port) : Port :=
  { safe := p.safe, safeGov := p.safe, wdTime := p.wdTime, preTime := p.preTime, dwell := p.dwell, phaseLvl := p.phaseLvl, vTrickle := p.vTrickle, vPre := p.vPre, vCv := p.vCv, vRechg := p.vRechg, iTrickle := p.iTrickle, iPre := p.iPre, iCc := p.iCc, termPct := p.termPct, tTerm := p.tTerm, iSlew := p.iSlew, vInreg := p.vInreg, vSup := p.vSup, iSup := p.iSup, vCutoff := p.vCutoff, safeIcc := p.safeIcc, safeVcv := p.safeVcv, tempAcc := p.tempAcc, tSlope := p.tSlope, tOfs := p.tOfs, tChg := p.tChg, tSup := p.tSup, tDwell := p.tDwell, hyst := p.hyst, dones := p.dones, wickOuts := p.wickOuts, tempHolds := p.tempHolds, recharges := p.recharges }

def FaultMgr.warm (f : FaultMgr) : FaultMgr :=
  { src := mapV f.src fun _ x => { faults := x.faults, last := x.last }, sel := f.sel, selRail := f.selRail, selCls := f.selCls, reactions := f.reactions, merges := f.merges }

def Trust.warm (t : Trust) : Trust :=
  { slots := t.slots, claimOpen := t.claimOpen, devkeyBad := t.devkeyBad, chalCount := t.chalCount + 1, ownerSel := t.ownerSel, accepted := t.accepted, refused := t.refused }

def Chord.warm (c : Chord) : Chord := { shMargin := c.shMargin, ride := c.ride, slips := c.slips }

def Leave.warm (l : Leave) : Leave := { cardMax := l.cardMax, budget := l.budget, cnt := l.cnt }

def Banks.warm (b : Banks) : Banks := { hkWrote := b.hkWrote, expiries := b.expiries, revokes := b.revokes }

def Test.warm (t : Test) : Test := { selPhase := t.selPhase, selBank := t.selBank }

/-- Everything at what a warm start keeps of it; SYS, CLK, TILE, the cards, the Lantern and the link are the start's own. -/
def Dev.warmBase (d : Dev) : Dev :=
  { d with pwm := mapV d.pwm fun _ p => p.warm, pwmg := d.pwmg.warm, sense := d.sense.warm, loop := d.loop.warm, rails := mapV d.rails fun _ x => x.warm, prot := d.prot.warm, sp := d.sp.warm, ports := mapV d.ports fun _ p => p.warm, fault := d.fault.warm, trust := d.trust.warm, chord := d.chord.warm, leave := d.leave.warm, banks := d.banks.warm, test := d.test.warm }

/-- The same for a cold start: every field at its Cold value but what MRAM holds. -/
def Dev.coldBase (d : Dev) : Dev :=
  { d with pwm := Vector.replicate 64 {}, pwmg := {}, sense := { cal := d.sense.cal, unlockUntil := d.sense.unlockUntil }, loop := {}, rails := Vector.replicate 8 {}, prot := { aStop := d.prot.aStop, bStop := d.prot.bStop }, sp := {}, ports := Vector.replicate 4 {}, fault := {}, trust := { slots := d.trust.slots, claimOpen := d.trust.claimOpen, devkeyBad := d.trust.devkeyBad, chalCount := d.trust.chalCount + 1 }, chord := {}, leave := {}, banks := {}, test := {} }

/-! ## The time base at a cold lock (R111) -/

/-- A tick of the old count in the new one. -/
def rebase (old new t : Nat) : Nat := new + t - old

/-- The count begins again at the lock, `now` ticks ago. -/
def Dev.coldLock (d : Dev) (lockUs : BitVec 16) (now : Nat) : Dev :=
  let old := d.clk.now
  let l := if d.locked then { d.link with lineFrom := rebase old now d.link.lineFrom, upFrom := rebase old now d.link.upFrom } else d.link.lockAt 0
  let d := d.updSys fun s => { s with hotSince := s.hotSince.map (rebase old now), overSince := s.overSince.map (rebase old now), hiZUntil := rebase old now s.hiZUntil }
  let d := { d with cards := mapV d.cards fun _ c => { c with since := rebase old now c.since } }
  ({ d with clk := { now := now, lastLock := lockUs, pllLock := true }, link := { l with nakHold := l.nakHold.map fun x => (x.1, rebase old now x.2), rdyFell := some 0 } } : Dev).openCycle

/-- A number rounded up to the next even one. -/
def evenUp (n : Nat) : Nat := (n + 1) / 2 * 2

/-- A relock (R111): the count goes on from an even value. -/
def Clk.relock (c : Clk) (lockUs : BitVec 16) : Clk :=
  { c with now := c.now + c.tbAt c.now % 2, off := (evenUp (c.tbAt c.now) : Int) - (c.now + c.tbAt c.now % 2 : Nat), adjAt := none, lastLock := lockUs, pllLock := true, refOk := true, onBackup := false, failAt := none, backupFrom := none }

/-! ## Leaving BOOT (R128) -/

/-- Slots of cards at the end of a start (R339), and the CARD masks. A card kept in DEBOUNCE or QUALIFYING by a warm start begins that
    state's times and checks anew (DESIGN CHOICE, assumption 93). -/
def Dev.startCards (d : Dev) (cold : Bool) : Dev :=
  let one := fun (s : CardIx) (c : Card) =>
    if !cold && c.state != .absent then
      { c with since := d.clk.now, qual := if c.state == .qualifying && d.sys.cardFltLvl.getLsbD s.val then .idWait else .ready }
    else { c with state := if d.sys.cardPresLvl.getLsbD s.val then CardState.absent else .debounce, since := d.clk.now, qual := .ready, lowSeen := true }
  let d := { d with cards := mapV d.cards one }
  { d with pwm := mapV d.pwm fun n p => { p with mask := { p.mask with card := d.cards[cardOf n].state != CardState.qualified } } }

/-- The fault lines as their levels stand, and the thresholds of the window comparators. -/
def Dev.startProt (d : Dev) : Dev :=
  let low := fun (x : LineIx) => if x.val < 4 then !d.sys.extFltLvl.getLsbD x.val else !d.sys.cardFltLvl.getLsbD (x.val - 4)
  let d := { d with prot := { d.prot with disSince := if d.prot.disagree then some d.clk.now else none, lines := mapV d.prot.lines fun x l => { l with low := d.lineLive x && low x, assertSince := if d.lineLive x && low x then some d.clk.now else none } } }
  let d := allRails.foldl (fun d r => (d.setUv r).setOv r) d
  { d with prot := { d.prot with wins := mapV d.prot.wins fun _ w => { w with uvSettle := none, ovSettle := none, rtLoSettle := none, rtHiSettle := none } } }

/-- The structure of the running image is loaded; without one no reference runs. -/
def Dev.startStructure (d : Dev) : Dev :=
  let d := d.loadStructure d.tile.cur
  let d := { d with pwm := mapV d.pwm fun n p => if (d.railOf n).isSome && !d.isLoop n then { p with arcNow := d.imageArc n } else p }
  if d.tile.tiled then d.updTile fun t => { t with dirty := !d.signerHeld t.image.signer }
  else { d with pwmg := { d.pwmg with dev := { d.pwmg.dev with running := false } } }

/-- Every cause present is raised anew in the cycle after the start's end; `removed` are the slots whose CARD_REMOVED cause
    outlived the start. -/
def Dev.raiseAnew (d : Dev) (removed : Byte) : Dev :=
  let d := ((d.clockCauses.setCause srcDieHot 0 d.sys.hot).setCause srcDieOvertemp 0 d.sys.overtemp).jtagCause
  let d := ((d.setCause srcSafeStop 0 d.prot.stop).setCause srcSafeDisc 0 d.prot.disc).calBadCause
  let d := (List.finRange 64).foldl (fun d n => (d.setCause srcInterlock n d.pwm[n].ilkLatch d.pwm[n].ilkDetail).setCause srcDline n d.pwm[n].dlFail) d
  let d := allRails.foldl (fun d r => d.setCause (srcRailOv r) 0 (d.railDefined r && d.prot.wins[r].ov)) d
  let d := (List.finRange 4).foldl Dev.degradedCause d
  let d := (List.finRange 8).foldl (fun d s => (d.setCause (srcCardRemoved s) 0 (removed.getLsbD s.val)).setCause (srcCardQual s) 0 (d.cards[s].state == .failed)) d
  let d := (List.finRange 12).foldl Dev.lineCauses d
  let next := d.nextCycle
  { d with fault := { d.fault with seen := d.fault.seen.map fun x => { x with tick := next } } }

/-- Length of the start in units of 10 µs. -/
def durationOf (ticks : Nat) : BitVec 16 := satN 16 (ticks / 4800)

/-- The background measurement of a slice that a warm start has kept in MEASURE begins anew (R129, R232). -/
def Quad.resume (x : Quad) (now : Tick) : Quad := match x.outOfLine with
  | some i => if x.slices[i].st = .measure then { x with measEnd := some (now + 300 * usTicks) } else x
  | none => x

/-- The start completes: STANDBY with a running image, UNTILED without one. -/
def Dev.finishStart (d : Dev) (cold fallback skipped escalated : Bool) (ticks : Nat) : Dev :=
  { d with pwmg := { d.pwmg with bgAt := d.clk.now + 7500 }, sense := { d.sense with quads := mapV d.sense.quads fun _ x => x.resume d.clk.now } }.updSys fun s =>
    { s with start := none, duration := durationOf ticks, fallback := fallback, sigSkipped := skipped, escalated := escalated, kindWarm := !cold, warmCount := if cold then 0 else satInc s.warmCount, rdyLowStart := false }

/-- The wait in boot hold begins (R136). -/
def Dev.waitHold (d : Dev) : Dev :=
  let d := (d.updTile Tile.unrun).updSys fun s => { s with bootHold := true, start := none, duration := 0, fallback := false, sigSkipped := false, rdyLowStart := false }
  let cs := d.sys.boot.failCauses
  d.noteNext 0x0013 1 0xFFFF ((List.range 3).map fun i => (cs.getD i 0).setWidth 8)

/-! ## The cold start (R119 to R126) -/

/-- An event that a start has observed (R125): a record, or a fault seen. -/
inductive StartEvent where
  | note (i : RecIn) | fault (x : Seen)
  deriving DecidableEq, Repr

/-- The START_FAIL entries that await their record (R121, R126); an unlock that the start ended (R450). -/
def Dev.earlyEvents (d : Dev) : List StartEvent :=
  (if d.sense.unlockUntil.isSome then [StartEvent.note { code := 0x0305, data := [2], ts := 0 }] else []) ++
    d.sys.boot.startFails.map fun f => .note { code := 0x0012, level := 1, source := f.step.toNat, data := f.step.setWidth 8 :: leBytes 8 f.tick, ts := 0 }

/-- Step 4 on what MRAM holds (R122, R441, R442). -/
def Dev.scanned (d : Dev) (o : ColdOutcome) : Dev :=
  let d := { d with sense := { d.sense with cal := mapV d.sense.cal fun e x => if o.badCal.getLsbD e.val then { x with valid := false } else x } }
  { d with trust := { d.trust with slots := mapV d.trust.slots fun i x => if o.badOwner.getLsbD i.val then { x with st := .damaged } else x, devkeyBad := o.badDevkey, claimOpen := d.trust.claimOpen && !o.badClaim } }

/-- What step 4 has observed: CAL_ENTRY_BAD, then the damaged owner slots (assumption 58). -/
def Dev.scanEvents (d : Dev) (o : ColdOutcome) : List StartEvent :=
  (if (List.finRange 112).any fun e => !d.sense.cal[e].valid then [StartEvent.fault { src := srcCalBad, inst := 0, tick := o.t4, forced := false, detail := [] }] else []) ++
    ((List.range 4).filter o.badOwner.getLsbD).map fun i => .note { code := 0x0307, level := 1, source := i, ts := o.t4 }

/-- What step 7 has observed: the phases whose line failed. -/
def Dev.lineEvents (d : Dev) (o : ColdOutcome) : List StartEvent :=
  ((List.finRange 64).filter fun n => d.pwm[n].dlFail).map fun n => .fault { src := srcDline, inst := n, tick := o.t7, forced := false, detail := [] }

/-- Step 7: one phase's lines as measured. -/
def Pwm.calibrated (p : Pwm) (m : LineMeas) : Pwm := { p with lineHi := { use := m.hi, meas := m.hi }, lineLo := { use := m.lo, meas := m.lo } }

/-- Step 7: a phase whose line cannot cover the period fails (R124, R190). -/
def Dev.fullLines (d : Dev) (ms : List LineMeas) : Dev :=
  { d with pwm := mapV d.pwm fun n p =>
      let m := (ms[n.val]?).getD {}
      let bad := lineOut m.hi || lineOut m.lo
      { p.calibrated m with dlFail := bad, mask := { p.mask with fail := bad } } }

/-- Step 8: the slices that failed, each as the start saw it. -/
def Dev.startSlices (d : Dev) (ms : List SliceMeas) (at_ : Tick) : Dev × List Seen :=
  let now := d.clk.now
  let (d, _) := ({ d with clk := { d.clk with now := at_ } } : Dev).fgAll ms
  let failed := (List.finRange 4).flatMap fun q => ((List.finRange 5).filter fun i => d.sense.quads[q].slices[i].st == .failed).map fun i =>
    ({ src := srcSliceFail q, inst := 0, tick := at_, forced := false, detail := [BitVec.ofNat 8 i.val, 5], tbu := d.clk.tbUncertain } : Seen)
  ({ d with clk := { d.clk with now := now }, fault := { d.fault with seen := [] } }, failed)

/-- The FAULT record of a fault a start has seen: it is counted and takes no reaction. -/
def Dev.startFault (d : Dev) (x : Seen) : Dev :=
  let d := { d with fault := { d.fault with src := upd d.fault.src x.src fun f => { f with faults := f.faults + 1 } } }
  let (d, n) := d.writeFault x none 0 [] none
  d.setLast x.src n

/-- The events of a start, with their ticks (R125): at most 64 have a record of their own. -/
def Dev.startRecords (d : Dev) (es : List StartEvent) : Dev :=
  (es.take 64).foldl (fun d e => match e with
    | .note i => (d.journal i).1
    | .fault x => d.startFault x) d

/-- The COLD_START record; `n` is the number of the start's events. -/
def Dev.coldRecord (d : Dev) (o : ColdOutcome) (n : Nat) : Dev :=
  let s := d.sys
  d.noteNext 0x0010 1 s.cause.toNat ([s.cause.setWidth 8, s.failStep.setWidth 8] ++ leBytes 4 o.corrections.toNat ++ leBytes 4 (n - 64))

/-- The step at which a cold start fails fatally, if it does: no fatal lock failure and no step 6 on the path to boot hold. -/
def fatalStep (o : ColdOutcome) (hold : Bool) : Option (BitVec 4) :=
  if o.failStep = 2 ∨ o.failStep = 4 then some o.failStep
  else if (o.failStep = 3 ∨ o.failStep = 6) ∧ hold = false then some o.failStep else none

/-- The records of a cold start and what they need of the outcome. -/
def Dev.coldRecords (d : Dev) (o : ColdOutcome) (events : List StartEvent) : Dev :=
  let retry := d.sys.boot.resume && d.sys.cause == 7
  let both := o.badBoot1 && o.badBoot2
  let d := d.recoverLantern o.badRecords o.badStore (if both then some 0 else if retry then some d.lantern.resv else none)
  let d := d.updSys fun s => { s with boot := { s.boot with startFails := [], resume := both || (s.boot.resume && !retry) } }
  let d := (d.coldRecord o events.length).startRecords events
  { d with sense := { d.sense with unlockUntil := none } }

/-- Steps 5 to 9 of a cold start that runs on. -/
def Dev.coldRun (d : Dev) (o : ColdOutcome) (escalated : Bool) (ticks : Nat) (early : List StartEvent) : Dev :=
  let (t, fb) := ((d.tile.fresh o.badSlotA o.badSlotB).chooseImage d.trust.keys)
  let d := d.updTile fun x => { slotA := t.slotA, slotB := t.slotB, mark1 := t.mark1, mark2 := t.mark2, highGen := x.highGen, runB := t.runB, tiled := t.tiled, image := t.image, committed := t.committed, cur := t.cur, keptDigest := t.keptDigest, keptGen := t.keptGen }
  let scan := d.scanEvents o
  let d := d.fullLines o.lines
  let (d, slices) := d.startSlices o.slices o.t8
  let d := ((d.startCards true).startStructure).startProt
  let d := { d with fault := {}, chord := { d.chord with leftBoot := some d.clk.now }, sense := { d.sense with quads := mapV d.sense.quads fun _ q => { q with rotAt := d.clk.now + d.sense.rotInt.toNat * 100 * usTicks } } }
  let fall : List StartEvent := if fb then [.note { code := 0x0023, level := 1, source := slotNum d.tile.runB, data := leBytes 4 d.tile.image.gen.toNat, ts := o.t5 }] else []
  let d := d.coldRecords o (early ++ scan ++ fall ++ d.lineEvents o ++ slices.map .fault)
  let d := (d.finishStart true fb false escalated ticks).setStateAt (if d.tile.tiled then .standby else .untiled) d.clk.now d.clk.tbUncertain
  ({ d with fault := { d.fault with seen := [], events := [] } }).raiseAnew 0

/-- Steps 3, 4 and 9 of a cold start that finds HOLD set, and the wait (R136). -/
def Dev.coldHold (d : Dev) (o : ColdOutcome) (escalated : Bool) (early : List StartEvent) : Dev :=
  let d := d.updTile fun t =>
    let f := t.fresh o.badSlotA o.badSlotB
    { slotA := f.slotA, slotB := f.slotB, mark1 := f.mark1, mark2 := f.mark2, highGen := t.highGen }
  let d := d.coldRecords o (early ++ d.scanEvents o)
  (d.updSys fun s => { s with escalated := escalated, kindWarm := false, warmCount := 0 }).waitHold

/-- Steps 2 to 9 of a cold start (R119), or of a warm start that escalates. The flag says that the BIST has run. Of a start that
    a reset cuts short, what its step 2 counted stays (R134). -/
def Dev.coldSteps (d : Dev) (o : ColdOutcome) (escalated : Bool) (ticks : Nat) : Dev × Bool :=
  let d := if d.locked then d else d.coldPins
  if o.failStep = 2 then (d.fatal 2 0, false)
  else
    let d := d.countStart
    let bothBad := o.badBoot1 && o.badBoot2
    if o.failStep = 3 ∧ d.sys.boot.hold = true then (d, false)
    else
    let d := d.updSys fun s => { s with boot := { s.boot with coldCount := satInc s.boot.coldCount } }
    if o.cut then (d, false)
    else if o.failStep = 3 then (d.fatal 3 0, false)
    else
      let early := d.earlyEvents
      let d := d.coldLock o.lockUs o.sinceLock
      let d := if bothBad && o.failStep != 4 then d.updSys fun s => { s with boot := { s.boot with hold := true, resume := true } } else d
      match fatalStep o d.sys.boot.hold with
      | some k => (d.fatal k d.tb, false)
      | none =>
        let d := d.coldBase.scanned o
        if d.sys.boot.hold then (d.coldHold o escalated early, false) else (d.coldRun o escalated ticks early, true)

/-! ## The warm start (R129 to R132) -/

/-- W6: the lines take their new measurements at once, and none fails anew (R192). -/
def Dev.fastLines (d : Dev) (ms : List LineMeas) : Dev :=
  { d with pwm := mapV d.pwm fun n p => p.calibrated ((ms[n.val]?).getD {}) }

/-- The WARM_START record. -/
def Dev.warmRecord (d : Dev) : Dev :=
  let s := d.sys
  d.noteNext 0x0011 (if s.cause = 4 ∨ s.cause = 5 then 1 else 0) s.cause.toNat [s.cause.setWidth 8, s.prevState.setWidth 8]

/-- The slots whose CARD_REMOVED cause stands. -/
def Dev.removedCards (d : Dev) : Byte := maskOf 8 fun s : CardIx => d.fault.src[srcCardRemoved s].cause != 0

/-- The wait in boot hold that W2 found: W3 and W4 have run, and no WARM_START record is written, which W7 would (R136). -/
def Dev.warmHold (d : Dev) (o : WarmOutcome) : Dev :=
  let d := { d with fault := d.fault.warm, trust := d.trust.warm, sense := { d.sense with unlockUntil := none } }
  ((d.warmGaps o.badRecords).updSys fun s => { s with escalated := false, warmCount := satInc s.warmCount }).waitHold

/-- W5 to W7. -/
def Dev.warmRun (d : Dev) (o : WarmOutcome) : Dev :=
  let removed := d.removedCards
  let d := d.warmBase
  let (t, fb, skipped) := ((d.tile.fresh o.badSlotA o.badSlotB).warmImage d.trust.keys)
  let d := d.updTile fun x => { slotA := t.slotA, slotB := t.slotB, mark1 := t.mark1, mark2 := t.mark2, highGen := x.highGen, runB := t.runB, tiled := t.tiled, image := t.image, committed := t.committed, cur := t.cur, keptDigest := t.keptDigest, keptGen := t.keptGen, rt := { pauseAtPark := x.rt.pauseAtPark, waitLimit := x.rt.waitLimit } }
  let d := d.fastLines o.lines
  let d := ((d.startCards false).startStructure).startProt
  let d := { d with chord := { d.chord with leftBoot := some d.clk.now }, sense := { d.sense with quads := mapV d.sense.quads fun _ q => { q with rotAt := d.clk.now + d.sense.rotInt.toNat * 100 * usTicks } } }
  let d := { d with fault := d.fault.warm }
  let d := (d.warmGaps o.badRecords).warmRecord
  let d := if fb && !skipped then d.noteNext 0x0023 1 (slotNum d.tile.runB) (leBytes 4 d.tile.image.gen.toNat) else d
  let d := (d.finishStart false fb skipped false o.ticks).setStateAt (if d.tile.tiled then .standby else .untiled) d.clk.now d.clk.tbUncertain
  ({ d with fault := { d.fault with seen := [], events := [] } }).raiseAnew removed

/-- A warm start. The flag says that it escalated and its BIST has run. -/
def Dev.warmSteps (d : Dev) (o : WarmOutcome) : Dev × Bool :=
  let d := d.countStart
  let hold := d.sys.boot.hold
  if o.cut then (d, false)
  else if o.noLock then (if hold then (d, false) else (d.fatal 10 d.tb, false))
  else
    let d : Dev := ({ d with clk := d.clk.relock o.lockUs, link := if d.locked then d.link else d.link.lockAt d.clk.now } : Dev).openCycle
    if o.w4Fails then
      let d := d.updSys fun s => { s with start := some { cold := true, counted := true } }
      ({ d with cards := Vector.replicate 8 {} } : Dev).coldSteps o.cold true o.ticks
    else if hold then (d.warmHold o, false) else (d.warmRun o, false)

end Sys2Proof.Machine
end

