-- ==== Sys2Proof/Machine/SysCmd.lean ====
section
/-! DEFINITION. The commands of resets, starts, clocks, pins and the device state (chapters 01 to 05). -/

namespace Sys2Proof.Machine

open Sys2Proof

/-! ## Resets (R58, R84, R85, R110, R117) -/

def execPowerOn (t : Nat) (s : State) : Host.Outcome State Fault Refusal := s.run t fun d => d.enterBoot true 1 0 0

/-- A supply trip; `mask` names the supplies as SYS.RESET.TRIP_SUPPLY does. -/
def Dev.supplyTrip (d : Dev) (mask : BitVec 5) : Dev := if mask = 0 then d else d.enterBoot true 2 mask 0

def execSupplyMonitorTrip (t : Nat) (mask : BitVec 5) (s : State) : Host.Outcome State Fault Refusal := s.run t fun d => d.supplyTrip mask

/-- VDDL below its falling threshold for `len` ticks (R55); from 2 µs on it is a trip (R85). -/
def Dev.vddlDip (d : Dev) (len : Nat) : Dev :=
  if 2 * usTicks ≤ len then d.supplyTrip 4 else d.updSys fun s => { s with hiZUntil := max s.hiZUntil (d.clk.now + len) }

def execVddlDip (t : Nat) (len : Nat) (s : State) : Host.Outcome State Fault Refusal := s.run t fun d => d.vddlDip len

def execRstNAsserted (t : Nat) (s : State) : Host.Outcome State Fault Refusal := s.run t fun d => d.resetBy 3
def execHkWatchdogReset (t : Nat) (s : State) : Host.Outcome State Fault Refusal := s.run t fun d => d.resetBy 5

/-! ## Starts (R119, R129, R135, R138) -/

/-- The cold start that runs began as a warm one: its cause is that of a warm start, and no start ran at the reset. -/
def Sys.cameFromWarm (s : Sys) : Bool := (s.cause == 3 || s.cause == 4 || s.cause == 5) && s.prevState != 0

/-- The banks once their BIST has run (R133). -/
def bistMem (ran : Bool) (m : List Host.Cell) : List Host.Cell := if ran then [] else m
def Dev.bistBanks (d : Dev) (ran : Bool) : Dev :=
  if ran then { d with banks := { d.banks with hkWrote := false }, lantern := { d.lantern with staged := Vector.replicate 16 [] } } else d

def execColdStart (t : Nat) (o : ColdOutcome) (s : State) : Host.Outcome State Fault Refusal :=
  s.runMem t fun d m => match d.sys.start with
    | some p =>
      if p.cold then
        let (d, ran) := d.coldSteps o d.sys.cameFromWarm o.ticks
        (d.bistBanks ran, bistMem ran m)
      else (d, m)
    | none => (d, m)

def execWarmStart (t : Nat) (o : WarmOutcome) (s : State) : Host.Outcome State Fault Refusal :=
  s.runMem t fun d m => match d.sys.start with
    | some p =>
      if p.cold then (d, m)
      else
        let (d, ran) := d.warmSteps o
        (d.bistBanks ran, bistMem ran m)
    | none => (d, m)

/-- The time base has come to a multiple of 10 s with the present count or step of its clock, which on the backup oscillator is an
    edge of 12 counts (R111) and can pass the multiple, as an inserted count can (R115). -/
def Dev.windowDue (d : Dev) : Bool :=
  decide (d.clk.tbAt (d.clk.now - (if d.clk.onBackup then 12 else 1)) / 4800000000 < d.tb / 4800000000) || d.tb == 0

def execBootWindowTick (t : Nat) (s : State) : Host.Outcome State Fault Refusal :=
  s.run t fun d => if d.windowDue then d.updSys fun s => { s with boot := s.boot.tick } else d

/-- Records leave for the store until none waits. -/
def Lantern.persistAll (l : Lantern) : Nat → Lantern
  | 0 => l
  | n + 1 => l.persist.persistAll n

/-- The cold start that a RETRY asked for begins when its response has left. -/
def Dev.startRetry (d : Dev) : Dev := if d.sys.retryPending && !d.link.responding then d.enterBoot true 7 0 0 else d

/-- A WRITE of SYS.BOOTCTRL. -/
def Dev.writeBootCtrl (d : Dev) (v : Word) : Dev × Byte :=
  if !v.getLsbD 0 then (d, stOk)
  else if !d.sys.bootHold then (d, stState)
  else
    let d := d.updSys fun s => { s with boot := { s.boot with window := 0, windowOpen := false, hold := false, failCount := 0, failCauses := [] } }
    let d := d.note 0x0014 0 0xFFFF []
    let d := d.updLantern fun l => l.persistAll l.waiting.length
    (d.updSys fun s => { s with retryPending := true }, stOk)

def execRetry (t : Nat) (v : Word) (s : State) : Host.Outcome State Fault Refusal :=
  s.run t fun d => d.host (.retry t v) true fun d =>
    let (d, st) := d.writeBootCtrl v
    (d.reply st).startRetry

/-! ## The clock (R107 to R111) -/

/-- A clock failure: the core moves to the backup oscillator. -/
def Dev.clockFailure (d : Dev) (refLoss : Bool) : Dev :=
  let d := if refLoss then d.updClk fun c => { c with refOk := false } else d
  let d := if d.clk.pllLock then
      let d := d.updClk fun c => { c with unlockCount := satInc c.unlockCount, onBackup := true, pllLock := false, tbUncertain := true, failAt := some c.now, backupFrom := some c.now }
      let d := (d.setsBit .tbUncertain).updSys fun s => { s with rdyLowBackup := true }
      let d := d.dropTransaction
      { d with link := d.link.stop }
    else d
  if d.sys.devState = .boot then d else d.clockCauses

def execClockFailure (t : Nat) (refLoss : Bool) (s : State) : Host.Outcome State Fault Refusal := s.run t fun d => d.clockFailure refLoss

/-- A retry of the lock that finds none changes nothing. -/
def execLockRetry (t : Nat) (s : State) : Host.Outcome State Fault Refusal := s.run t fun d => d

/-- A stopped carrier of a member begins its period at its place against its reference. -/
def Dev.restartPwm (d : Dev) (n : PhaseIx) : Dev := match d.railOf n with
  | none => d
  | some r =>
    let ref := d.pwmg.refs[r]
    d.updPwm n fun p =>
      let per := p.perEff.toNat
      let o := (arcOfs p.arcNow.toNat per / 64).toNat
      ({ p with upLen := per, downLen := per, valley := if p.free || o == 0 then ref.valley else ref.valley + o - 2 * per } : Pwm).reform d.clk.now

/-- The blocks that stood still begin again (R110). -/
def Dev.restartBlocks (d : Dev) : Dev :=
  if d.sys.devState = .boot then d
  else
    let now := d.clk.now
    let g := d.pwmg.restart d.tile.cur d.cycleTick
    let d := { d with pwmg := { g with dev := { g.dev with running := d.tile.tiled }, bgAt := now + 7500 } }
    let d := (List.finRange 64).foldl Dev.restartPwm d
    { d with sense := { d.sense with quads := mapV d.sense.quads fun q x => x.install ((d.tile.cur.seqs[q]).getD {}).timer d.cycleTick } }

/-- The PLL locks: the logic returns to the PLL clocks; in the course of a start it is the start's lock. -/
def Dev.pllRelock (d : Dev) (lockUs : BitVec 16) : Dev :=
  if d.clk.failAt.isNone then d.startLock
  else
    let d := ({ d with clk := d.clk.relock lockUs, sys := { d.sys with rdyLowBackup := false } } : Dev).openCycle
    let d := d.updLink fun l => { l with lineFrom := d.clk.now, framed := true, upFrom := d.clk.now }
    if d.sys.devState = .boot then d else d.restartBlocks.clockCauses

def execPllRelock (t : Nat) (lockUs : BitVec 16) (s : State) : Host.Outcome State Fault Refusal := s.run t fun d => d.pllRelock lockUs

/-- 20 ms without lock after the failure. -/
def Dev.clockWatchdog (d : Dev) : Dev := match d.clk.failAt with
  | some f => if f + 20 * msTicks ≤ d.clk.now then d.resetBy 4 else d
  | none => d

def execClockWatchdogReset (t : Nat) (s : State) : Host.Outcome State Fault Refusal := s.run t fun d => d.clockWatchdog

/-! ## Time base and epoch (R113, R114) -/

def execTbLoRead (t : Nat) (s : State) : Host.Outcome State Fault Refusal :=
  s.run t fun d => d.host (.tbLoRead t) true fun d => d.readTbLo.reply stOk (leBytes 4 (lo32 d.tb).toNat)

def execEpochHiWrite (t : Nat) (v : Word) (s : State) : Host.Outcome State Fault Refusal :=
  s.hostWrite t (.epochHiWrite t v) fun d => (d.writeEpochHi v, stOk)

/-! ## Die temperature, JTAG, device state (R46, R59, R101, R102) -/

def execDieTempReading (t : Nat) (code : BitVec 12) (s : State) : Host.Outcome State Fault Refusal :=
  s.run t fun d => d.updSys fun s => s.reading code d.clk.now

/-- In BOOT the flags follow their dwell, and no cause is examined. -/
def execDieTempDwell (t : Nat) (s : State) : Host.Outcome State Fault Refusal := s.run t fun d => d.tempDwell

def execJtagExtestClamp (t : Nat) (on : Bool) (s : State) : Host.Outcome State Fault Refusal :=
  s.run t fun d => d.updSys fun s => { s with jtag := on }

def execMaintEnter (t : Nat) (s : State) : Host.Outcome State Fault Refusal := s.hostWrite t (.maintEnter t) fun d => d.maintEnter
def execMaintExit (t : Nat) (s : State) : Host.Outcome State Fault Refusal := s.hostWrite t (.maintExit t) fun d => d.leaveMaint
def execLatchRelease (t : Nat) (s : State) : Host.Outcome State Fault Refusal := s.hostWrite t (.latchRelease t) fun d => d.latchRelease

/-! ## Pins (R55, R56, R127, R416, R468) -/

/-- What a gate output pair shows. -/
inductive GateLevel where
  | off | on | highZ
  deriving DecidableEq, Repr

/-- VDDL lies below its falling threshold, or rises from below it. -/
def Dev.gatesHighZ (d : Dev) : Bool := d.sys.vddlLow || decide (d.clk.now < d.sys.hiZUntil)

/-- GATE_HI[n] and GATE_LO[n]. -/
def Dev.gateOut (d : Dev) (n : PhaseIx) : GateLevel × GateLevel :=
  let f := fun (b : Bool) => if d.gatesHighZ then GateLevel.highZ else if b then .on else .off
  (f (d.emitted n).1, f (d.emitted n).2)

/-- ALERT_N is driven low: released throughout BOOT but for boot hold. -/
def Dev.alertLow (d : Dev) : Bool := d.fault.pend && (d.sys.devState != .boot || d.sys.bootHold)

end Sys2Proof.Machine
end

