-- ==== Sys2Proof/Machine/WriteOps.lean ====
section
/-! DEFINITION. A WRITE of one register by its address (R8 to R18): the fields of each block, the values its chapter refuses, and
    what an accepted write does. A refused write leaves the device as it was (R13). -/

namespace Sys2Proof.Machine

open Sys2Proof

/-! ## SYS to TILE -/

/-- SYS. -/
def Dev.writeSys (d : Dev) (off : Nat) (v : Word) : Dev × Byte := match off with
  | 0x08 => if fld v 0 3 = 2 then d.leaveMaint else d.writeSysCtrl v
  | _ => d.writeBootCtrl v

/-- CLK. The cause of TB_UNCERTAIN is present while ON_BACKUP is 1. -/
def Dev.writeClk (d : Dev) (off : Nat) (v : Word) : Dev × Byte := match off with
  | 0x00 =>
    if !(v.getLsbD 3 && d.clk.tbUncertain) then (d, stOk)
    else if d.clk.onBackup || d.bitSetNow .tbUncertain then (d, stCause) else (d.updClk fun c => { c with tbUncertain := false }, stOk)
  | 0x10 => (d.updClk fun c => { c with epochLo := v }, stOk)
  | _ => (d.writeEpochHi v, stOk)

/-- LEAVE (R519, R520, R523). -/
def Dev.writeLeave (d : Dev) (off : Nat) (v : Word) : Dev × Byte :=
  if off = 0 then
    let cards := fld v 16 4
    let budget := fld v 0 16
    if cards == 0 || decide (8 < cards.toNat) || decide (budget.toNat < 100) || decide (2000 < budget.toNat) then (d, stState)
    else ({ d with leave := { d.leave with cardMax := cards, budget := budget } }, stOk)
  else
    let w := fld v 16 16
    if w == 0 then (d, stState)
    else ({ d with leave := { d.leave with cnt := upd d.leave.cnt (Fin.ofNat 6 ((off - 0x10) / 4)) fun c => { c with maxwait := w } } }, stOk)

/-- TEST. -/
def Dev.writeTest (d : Dev) (off : Nat) (v : Word) : Dev × Byte := match off with
  | 0 => d.writeTestCtrl v
  | _ => (d.updTest fun t => { t with selPhase := Fin.ofNat 64 (fld v 8 6).toNat, selBank := fld v 0 2 }, stOk)

/-- TILE. -/
def Dev.writeTile (d : Dev) (off : Nat) (v : Word) : Dev × Byte := match off with
  | 0x04 => d.writeTileCtrl v
  | 0x40 => d.writeRtCtrl v
  | _ => (d.updRt fun t => { t with pauseAtPark := v.getLsbD 8, waitLimit := fld v 0 8 }, stOk)

/-! ## PWM -/

/-- A staged PER or DUTY may be written (R196). -/
def Dev.mayStage (d : Dev) (n : PhaseIx) : Bool :=
  (d.railOf n).isSome && ((d.tile.cur.phases[n]).host || d.pwm[n].hostOvr)

/-- A clear of ILK.LATCH (R224): while LATCH stands, stage D holds both outputs off, so its cause is absent; in the cycle that set it the bit stays (R12). -/
def Dev.clearIlk (d : Dev) (n : PhaseIx) : Dev × Byte :=
  if d.bitSetNow (.ilk n) then (d, stCause)
  else ((d.updPwm n fun p => { p with ilkLatch := false }).setCause srcInterlock n false, stOk)

/-- What a trigger register stages. -/
def Trig.stage (g : Trig) (v : Word) (now : Tick) : Trig :=
  { g with en := v.getLsbD 31, prescale := fld v 24 4, pos := fld v 0 17, written := some now }

/-- PWM[n]. -/
def Dev.writePwm (d : Dev) (n : PhaseIx) (off : Nat) (v : Word) : Dev × Byte :=
  let now := d.clk.now
  match off with
  | 0x00 => d.writeHostOvr n v
  | 0x04 =>
    if !d.mayStage n || decide ((fld v 0 16).toNat < 120) then (d, stState)
    else (d.updPwm n fun p => { p with perStaged := fld v 0 16 }, stOk)
  | 0x08 => if !d.mayStage n then (d, stState) else (d.updPwm n fun p => { p with dutyStaged := fld v 0 22 }, stOk)
  | 0x40 => (d.updPwm n fun p => { p with dtFall := fld v 16 16, dtRise := fld v 0 16, dtWritten := some now }, stOk)
  | 0x48 => (d.setMask n fun m => { m with hmask := v.getLsbD 15 }, stOk)
  | 0x4C => (d.updPwm n fun p => { p with trigA := p.trigA.stage v now }, stOk)
  | 0x50 => (d.updPwm n fun p => { p with trigB := p.trigB.stage v now }, stOk)
  | 0x58 => (d.updPwm n fun p => { p with blank := fld v 0 10 }, stOk)
  | _ => if v.getLsbD 0 then d.clearIlk n else (d, stOk)

/-- PWMG. -/
def Dev.writePwmg (d : Dev) (off : Nat) (v : Word) : Dev × Byte :=
  if off < 0x20 then d.writeRper (Fin.ofNat 8 (off / 4)) v
  else if off = 0x20 then d.writeSyncPer v
  else
    let s := fld v 0 13
    if s == 0 || decide (4096 < s.toNat) then (d, stState)
    else ({ d with pwmg := { d.pwmg with rslew := d.pwmg.rslew.set (Fin.ofNat 8 ((off - 0x40) / 4)) s } }, stOk)

/-! ## SENSE -/

/-- SENSE. -/
def Dev.writeSense (d : Dev) (off : Nat) (v : Word) : Dev × Byte := match off with
  | 0x400 => d.writeSenseCtrl v
  | 0x404 =>
    if d.sense.stage.isSome then (d, stLocked)
    else (d.updSense fun s => { s with target := fld v 16 16, stQuad := fld v 8 2, entry := fld v 0 8 }, stOk)
  | _ =>
    if (fld v 8 8).toNat < 5 then (d, stState)
    else (d.updSense fun s => { s with rotInt := fld v 8 8, rotEn := v.getLsbD 2, lpForce := v.getLsbD 1, lpAuto := v.getLsbD 0 }, stOk)

/-! ## LOOP and FAB -/

/-- CTX[c]. -/
def Dev.writeCtx (d : Dev) (c : CtxIx) (off : Nat) (v : Word) : Dev × Byte := match off with
  | 0x00 =>
    if d.loop.ctx[c].active then (d, stLocked)
    else (d.updCtx c fun x => { x with cmpOsh := fld v 8 4, polarity := v.getLsbD 0 }, stOk)
  | _ => d.writeCtxDelay c v

/-- LOOP.STAB_SEL. -/
def Dev.writeStabSel (d : Dev) (v : Word) : Dev × Byte :=
  if 79 < (fld v 8 7).toNat then (d, stState)
  else ({ d with loop := { d.loop with stabCtx := fld v 8 7, stabSector := fld v 0 3 } }, stOk)

/-- LOOP.VKSRC[r]. KEY_V as it stands is kept when you take it over. -/
def Dev.writeVksrc (d : Dev) (r : RailIx) (v : Word) : Dev × Byte :=
  let host := v.getLsbD 31
  let acc : AccIx := Fin.ofNat 256 (fld v 0 8).toNat
  if !host && (d.tile.cur.accs[acc]).isNone then (d, stState)
  else (d.updRailLoop r fun l => { l with vkHost := host, vkAcc := fld v 0 8, keyVHost := if host && !l.vkHost then l.keyV else l.keyVHost }, stOk)

/-- The LOOP registers of one rail (R318). -/
def Dev.writeRailLoop (d : Dev) (r : RailIx) (off : Nat) (v : Word) : Dev × Byte := match off with
  | 0x04 => if !d.loop.rails[r].vkHost then (d, stState) else (d.updRailLoop r fun l => { l with keyVHost := v }, stOk)
  | 0x08 => d.writeVksrc r v
  | 0x0C => (d.updRailLoop r fun l => { l with vkScale := v }, stOk)
  | 0x10 =>
    let steps := fld v 8 5
    if steps == 0 || decide (16 < steps.toNat) || fld v 0 8 == 0 then (d, stState)
    else (d.updRailLoop r fun l => { l with hoSteps := steps, sdwell := fld v 0 8 }, stOk)
  | _ =>
    if fld v 30 2 = 3 then (d, stState) else (d.updRailLoop r fun l => { l with ssMode := fld v 30 2, duty0 := fld v 0 22 }, stOk)

/-- The task inputs of the OVERRUN bits that a W1C at an offset of FAB names. -/
def fabInputs (off : Nat) (v : Word) : List Nat :=
  let base := if off = 0x04 then 0 else if off < 0x18 then 0x20 + 32 * ((off - 0x08) / 4)
    else if off < 0x24 then 0x100 + 32 * ((off - 0x18) / 4) else 0x200
  ((List.range 32).filter v.getLsbD).map fun i => base + i

/-- FAB: a W1C of OVERRUN bits, whose cause has always gone (R303); a bit set in this cycle stays (R12). -/
def Dev.writeFab (d : Dev) (off : Nat) (v : Word) : Dev × Byte :=
  let stay := (fabInputs off v).filter fun x => d.bitSetNow (.overrun x)
  let v := v &&& ~~~(stay.foldl (fun (m : Word) x => setBit m (x % 32) true) 0)
  let f := fun (f : Fabric) =>
    if off = 0x04 then { f with ovrReg := f.ovrReg &&& ~~~(fld v 0 4), ovrInj := f.ovrInj &&& ~~~(fld v 4 4) }
    else if off < 0x18 then { f with ovrEnt := upd f.ovrEnt (Fin.ofNat 4 ((off - 0x08) / 4)) fun w => w &&& ~~~v }
    else if off < 0x24 then { f with ovrCtx := f.ovrCtx &&& ~~~(v.setWidth 80 <<< (32 * ((off - 0x18) / 4))) }
    else { f with ovrSnap := f.ovrSnap &&& ~~~(fld v 0 8) }
  ((d.updFab f).overrunCause, if stay.isEmpty then stOk else stCause)

/-- LOOP beyond the contexts, by offset from 0x03_5000. -/
def Dev.writeLoop (d : Dev) (off : Nat) (v : Word) : Dev × Byte :=
  if off = 0x40 then d.writeHstat v
  else if off = 0x1000 then d.writeStabSel v
  else if off < 0x3000 then d.writeRailLoop (Fin.ofNat 8 ((off - 0x2200) / 0x20)) ((off - 0x2200) % 0x20) v
  else d.writeFab (off - 0x3000) v

/-! ## RAIL, CARD, VTAB and SP -/

/-- RAIL[r].CMD. -/
def Dev.writeCmd (d : Dev) (r : RailIx) (v : Word) : Dev × Byte := match (fld v 0 3).toNat with
  | 0 => d.cmdNone r
  | 1 => d.cmdOff r
  | 2 => d.cmdOn r
  | 3 => d.cmdCharge r
  | 4 => d.cmdSupport r
  | _ => (d, stState)

/-- VSCALE and ISCALE are Locked while the rail is not OFF; a write of VSCALE forms the overvoltage threshold, and the other
    window thresholds follow at the next mark (R349). -/
def Dev.writeScale (d : Dev) (r : RailIx) (volts : Bool) (v : Word) : Dev × Byte :=
  if d.mode r != .off then (d, stLocked)
  else if volts then ((d.updRail r fun x => { x with vscale := v }).setOv r, stOk)
  else (d.updRail r fun x => { x with iscale := v }, stOk)

/-- The registers of shedding and Ember (R341). -/
def Dev.writeShed (d : Dev) (r : RailIx) (off : Nat) (v : Word) : Dev × Byte :=
  let x := d.rails[r]
  let put := fun (f : Rail → Rail) => (d.updRail r f, stOk)
  match off with
  | 0x1C => if x.addTh.toNat ≤ (fld v 0 24).toNat then (d, stState) else put fun x => { x with shedTh := fld v 0 24 }
  | 0x20 => if (fld v 0 24).toNat ≤ x.shedTh.toNat then (d, stState) else put fun x => { x with addTh := fld v 0 24 }
  | 0x24 => put fun x => { x with shedDelay := fld v 24 8, addDwell := fld v 8 8, shedDwell := fld v 0 8 }
  | 0x28 => put fun x => { x with emberDwell := fld v 24 8, emberEnter := fld v 0 24 }
  | 0x2C => put fun x => { x with embLo := fld v 16 16, embHi := fld v 0 16 }
  | _ => if fld v 0 8 == 0 then (d, stState) else put fun x => { x with embExit := fld v 16 16, minSleep := fld v 8 8, pktLen := fld v 0 8 }

/-- The registers of Flare and Hiccup (R341). -/
def Dev.writeFlare (d : Dev) (r : RailIx) (off : Nat) (v : Word) : Dev × Byte :=
  let put := fun (f : Rail → Rail) => (d.updRail r f, stOk)
  match off with
  | 0x34 => put fun x => { x with emberDuty := fld v 0 22 }
  | 0x38 => put fun x => { x with flareDuty := fld v 0 22 }
  | 0x3C => if fld v 0 16 == 0 then (d, stState) else put fun x => { x with flareGap := fld v 16 16, flareTime := fld v 0 16 }
  | 0x40 => put fun x => { x with flareRec := fld v 0 16 }
  | _ => if fld v 16 16 == 0 then (d, stState) else put fun x => { x with tOff := fld v 16 16, retryMax := fld v 12 4, retryClr := fld v 0 12 }

/-- RAIL[r]. -/
def Dev.writeRail (d : Dev) (r : RailIx) (off : Nat) (v : Word) : Dev × Byte :=
  if off = 0x00 then d.writeCmd r v
  else if off = 0x08 then d.writeRailCtrl r v
  else if off = 0x0C then d.writeScale r true v
  else if off = 0x10 then d.writeScale r false v
  else if off < 0x34 then d.writeShed r off v
  else d.writeFlare r off v

/-- CARD[s].CFG. -/
def Dev.writeCard (d : Dev) (s : CardIx) (v : Word) : Dev × Byte :=
  if fld v 0 4 = 14 then (d, stState) else (d.updCard s fun c => { c with ofsTol := fld v 16 16, idExp := fld v 0 4 }, stOk)

/-- VTAB and SP.VSEL (R375). -/
def Dev.writeVtab (d : Dev) (off : Nat) (v : Word) : Dev × Byte :=
  if off = 0x100 then
    if fld v 8 8 == 0 then (d, stState) else ({ d with sp := { d.sp with filt := fld v 8 8 } }, stOk)
  else
    let put := fun (f : VtabEnt → VtabEnt) => ({ d with sp := { d.sp with vtab := upd d.sp.vtab (Fin.ofNat 16 (off / 0x10)) f } }, stOk)
    match off % 0x10 with
    | 0x0 => put fun e => { e with target := fld v 0 24 }
    | 0x4 => if fld v 0 16 == 0 then (d, stState) else put fun e => { e with slew := fld v 0 16 }
    | _ => put fun e => { e with rails := fld v 16 8, cmask := fld v 4 4, code := fld v 0 4 }

/-- SP[r] (R375, R500). -/
def Dev.writeSp (d : Dev) (r : RailIx) (off : Nat) (v : Word) : Dev × Byte :=
  let x := d.sp.sp[r]
  let put := fun (bad : Bool) (f : Sp → Sp) => if bad then (d, stState) else (d.updSp r f, stOk)
  if d.sharedCmd r false != .own then (d, stState)
  else match off with
    | 0x00 => put (fld v 0 2 == 3) fun x => { x with ssSlew := fld v 16 16, src := fld v 0 2 }
    | 0x04 => put false fun x => { x with target := fld v 0 24 }
    | 0x08 => put (fld v 0 16 == 0) fun x => { x with slew := fld v 0 16 }
    | 0x0C =>
      let t := (fld v 0 16).toInt
      put (decide (t < -5000) || decide (5000 < t)) fun x => { x with trim := fld v 0 16 }
    | 0x10 => put (decide (x.vmax.toNat < (fld v 0 24).toNat)) fun x => { x with vmin := fld v 0 24 }
    | _ => put (decide ((fld v 0 24).toNat < x.vmin.toNat)) fun x => { x with vmax := fld v 0 24 }

/-! ## STORE -/

/-- A window lies above its floor by more than the hysteresis (R399). -/
def windowOk (hi lo : BitVec 12) (hyst : Byte) : Bool := decide (lo.toInt + hyst.toNat < hi.toInt)

/-- A TEMP_ACC field names no accumulator, or one bound to the AUX input of its position (R399); where the image gives no port
    there is no input to compare with. -/
def Dev.tempAccOk (d : Dev) (p : PortIx) (v : Word) (k : Fin 4) : Bool :=
  let f : Byte := fld v (8 * k.val) 8
  f == 0xFF || match d.tile.cur.stores[p] with
    | none => true
    | some s => match d.tile.cur.accs[(Fin.ofNat 256 f.toNat : AccIx)] with
      | none => false
      | some b => b.quad == s.tempQuad && match d.tile.cur.seqs[b.quad] with
        | none => false
        | some q => match (q.reg ++ List.replicate (32 - q.reg.length) {} ++ q.inj)[b.entry.val]? with
          | some e => sourceOf b.quad e.input == .aux k
          | none => false

/-- The currents and voltages of STORE[p]: 24 bits, Live but for SAFE_ICC and SAFE_VCV, which are Locked while the rail is not
    OFF (R397, R399). -/
def Dev.writeStoreLimit (d : Dev) (p : PortIx) (off : Nat) (v : Word) : Dev × Byte :=
  let w := fld v 0 24
  let put := fun (f : Port → Port) => (d.updPort p f, stOk)
  let locked : Bool := match d.portRail p with
    | some r => d.mode r != .off
    | none => false
  match off with
  | 0x10 => put fun x => { x with vTrickle := w }
  | 0x14 => put fun x => { x with vPre := w }
  | 0x18 => put fun x => { x with vCv := w }
  | 0x1C => put fun x => { x with vRechg := w }
  | 0x20 => put fun x => { x with iTrickle := w }
  | 0x24 => put fun x => { x with iPre := w }
  | 0x28 => put fun x => { x with iCc := w }
  | 0x30 => if w == 0 then (d, stState) else put fun x => { x with iSlew := w }
  | 0x34 => put fun x => { x with vInreg := w }
  | 0x38 => put fun x => { x with vSup := w }
  | 0x3C => put fun x => { x with iSup := w }
  | 0x40 => put fun x => { x with vCutoff := w }
  | 0x44 => if locked then (d, stLocked) else put fun x => { x with safeIcc := w }
  | _ => if locked then (d, stLocked) else put fun x => { x with safeVcv := w }

/-- The temperature registers of STORE[p] (R399). -/
def Dev.writeStoreTemp (d : Dev) (p : PortIx) (off : Nat) (v : Word) : Dev × Byte :=
  let x := d.ports[p]
  let put := fun (ok : Bool) (f : Port → Port) => if ok then (d.updPort p f, stOk) else (d, stState)
  match off with
  | 0x4C => put ((List.finRange 4).all fun k => d.tempAccOk p v k) fun x => { x with tempAcc := v }
  | 0x50 => put true fun x => { x with tSlope := fld v 16 16, tOfs := fld v 0 16 }
  | 0x54 => put (windowOk (fld v 16 12) (fld v 0 12) x.hyst) fun x => { x with tChg := { hi := fld v 16 12, lo := fld v 0 12 } }
  | 0x58 => put (windowOk (fld v 16 12) (fld v 0 12) x.hyst) fun x => { x with tSup := { hi := fld v 16 12, lo := fld v 0 12 } }
  | _ =>
    let h : Byte := fld v 0 8
    put (fld v 8 8 != 0 && decide (16 ≤ h.toNat) && windowOk x.tChg.hi x.tChg.lo h && windowOk x.tSup.hi x.tSup.lo h) fun x =>
      { x with tDwell := fld v 8 8, hyst := h }

/-- A W1C of STORE[p].STAT.SAFE: its cause is present while the timer stands at 0 unrelit. The configured values govern again from the
    next decision point (R397). -/
def Dev.clearSafe (d : Dev) (p : PortIx) (v : Word) : Dev × Byte :=
  let x := d.ports[p]
  if !(v.getLsbD 8 && x.safe) then (d, stOk)
  else if x.wickOut || d.bitSetNow (.safe p) then (d, stCause) else (d.updPort p fun x => { x with safe := false, safeGov := x.nextPoint.isSome }, stOk)

/-- STORE[p]. -/
def Dev.writeStore (d : Dev) (p : PortIx) (off : Nat) (v : Word) : Dev × Byte :=
  if off = 0x00 then d.clearSafe p v
  else if off = 0x04 then d.writeWick p v
  else if off = 0x0C then
    if fld v 8 8 == 0 then (d, stState)
    else (d.updPort p fun x => { x with preTime := fld v 16 16, dwell := fld v 8 8, phaseLvl := v.getLsbD 0 }, stOk)
  else if off = 0x2C then
    let pct := fld v 24 5
    if pct == 0 || decide (25 < pct.toNat) || fld v 0 16 == 0 then (d, stState)
    else (d.updPort p fun x => { x with termPct := pct, tTerm := fld v 0 16 }, stOk)
  else if off < 0x4C then d.writeStoreLimit p off v
  else d.writeStoreTemp p off v

/-! ## PROT -/

/-- PROT.TRIP[n] (R363). -/
def Dev.writeTrip (d : Dev) (n : PhaseIx) (off : Nat) (v : Word) : Dev × Byte :=
  if off = 0 then (d.writeThr n v, stOk)
  else
    let win := fld v 16 11
    let k := fld v 0 8
    if win == 0 || k == 0 || decide (1024 < win.toNat) || decide (win.toNat < k.toNat) then (d, stState)
    else (d.updTrip n fun t => { t with win := win, n := k }, stOk)

/-- PROT.WIN[r]: the overvoltage threshold is formed at the write, the others at the next mark (R349). -/
def Dev.writeWin (d : Dev) (r : RailIx) (off : Nat) (v : Word) : Dev × Byte := match off with
  | 0x00 => (d.updWin r fun w => { w with uvBelow := fld v 0 16 }, stOk)
  | 0x04 => ((d.updWin r fun w => { w with ovAct := v.getLsbD 24, ovTh := fld v 0 24 }).setOv r, stOk)
  | _ => (d.updWin r fun w => { w with rtAbove := fld v 16 16, rtBelow := fld v 0 16 }, stOk)

/-- SAFE_CFG and SAFE_STAT (R357, R363). -/
def Dev.writeSafe (d : Dev) (off : Nat) (v : Word) : Dev × Byte := match off with
  | 0 =>
    let t := fld v 0 10
    if d.sys.devState = .run then (d, stLocked)
    else if t.toNat < 10 ∨ 1000 < t.toNat then (d, stState)
    else ({ d with prot := { d.prot with discTime := t } }, stOk)
  | _ =>
    if !(v.getLsbD 5 && d.prot.disc) then (d, stOk)
    else if !d.prot.cycled || d.prot.stop || d.bitSetNow .disc then (d, stCause)
    else (({ d with prot := { d.prot with disc := false } }).setCause srcSafeDisc 0 false, stOk)

/-- Four line filters from line `i` on. -/
def Dev.writeFilt (d : Dev) (i : Nat) (v : Word) : Dev × Byte :=
  ((List.range 4).foldl (fun d k => d.updLine (Fin.ofNat 12 (i + k)) fun l => { l with filt := fld v (8 * k) 8 }) d, stOk)

/-- PROT, by offset from 0x06_0000. -/
def Dev.writeProt (d : Dev) (off : Nat) (v : Word) : Dev × Byte :=
  if off < 0x400 then d.writeTrip (Fin.ofNat 64 (off / 0x10)) (off % 0x10) v
  else if off < 0xC00 then d.writeWin (Fin.ofNat 8 ((off - 0x800) / 0x20)) (off % 0x20) v
  else if off < 0xD00 then d.writeSafe (off - 0xC00) v
  else if off < 0xD0C then d.writeFilt (off - 0xD00) v
  else if fld v 0 16 == 0 then (d, stState)
  else ({ d with prot := { d.prot with stuckTime := fld v 0 16 } }, stOk)

/-! ## FAULT to CAL -/

/-- FAULT.FINST. -/
def FaultMgr.setFinst (f : FaultMgr) (v : Word) : FaultMgr :=
  let ph := fun (lo : Nat) => (Fin.ofNat 64 (fld v lo 6).toNat : PhaseIx)
  { f with finstDl := ph 24, finstCm := ph 16, finstTrip := ph 8, finstIlk := ph 0 }

/-- FAULT. A W1C of ALERT.PEND is always accepted (R416). -/
def Dev.writeFaultReg (d : Dev) (off : Nat) (v : Word) : Dev × Byte :=
  let put := fun (f : FaultMgr → FaultMgr) => ({ d with fault := f d.fault }, stOk)
  if off < 0x20 then d.writeStat (Fin.ofNat 8 (off / 4)) v
  else if off < 0x40 then d.writeForce (Fin.ofNat 8 ((off - 0x20) / 4)) v
  else if off = 0x40 then put fun f => f.setFinst v
  else if off = 0x44 then put fun f => { f with sel := fld v 0 8 }
  else if off < 0xA0 then d.writeOpen (Fin.ofNat 8 ((off - 0x80) / 4)) v
  else if off = 0xA0 then put fun f => { f with selRail := fld v 8 3, selCls := fld v 0 5 }
  else put fun f => { f with pend := f.pend && (!v.getLsbD 0 || d.bitSetNow .pend) }

/-- LOG (R437). -/
def Dev.writeLog (d : Dev) (off : Nat) (v : Word) : Dev × Byte := match off with
  | 0x20 => if 50 < (fld v 0 8).toNat then (d, stState) else (d.updLantern fun l => { l with repeatWin := fld v 0 8 }, stOk)
  | 0x24 =>
    let rate := fld v 0 16
    if fld v 24 8 == 0 || rate == 0 || decide (10000 < rate.toNat) then (d, stState)
    else (d.updLantern fun l => { l.setDepth (fld v 24 8) with rlRate := rate }, stOk)
  | 0x60 => (d.updLantern fun l => { l with rselLo := v }, stOk)
  | 0x64 => d.writeRselHi v
  | _ => d.writeSnapSel v

/-- CHORD.CFG; a RIDE governs from its write (R511). -/
def Dev.writeChordCfg (d : Dev) (v : Word) : Dev × Byte :=
  if 50 < (fld v 24 8).toNat ∨ 60000 < (fld v 0 16).toNat then (d, stState)
  else ((d.updChord fun c => { c with shMargin := fld v 24 8, ride := fld v 0 16 }).chordCauses, stOk)

/-- LINK.CTRL. -/
def Dev.writeLinkCtrl (d : Dev) (v : Word) : Dev × Byte := (if v.getLsbD 0 then d.updLink (Link.clear · d.cyc.counts) else d, stOk)

/-- A WRITE of the register at an address that holds a writable one. -/
def Dev.writeReg (d : Dev) (a : Nat) (v : Word) : Dev × Byte :=
  if a < 0x001000 then d.writeSys a v
  else if a < 0x002000 then d.writeClk (a - 0x001000) v
  else if a < 0x002800 then d.writeLeave (a - 0x002000) v
  else if a < 0x004000 then d.writeTest (a - 0x002900) v
  else if a < 0x010000 then d.writeTile (a - 0x004000) v
  else if a < 0x014000 then d.writePwm (Fin.ofNat 64 ((a - 0x010000) / 0x100)) (a % 0x100) v
  else if a < 0x020000 then d.writePwmg (a - 0x014000) v
  else if a < 0x023000 then d.writeSense (a - 0x020000) v
  else if a < 0x030000 then d.writeTrk (Fin.ofNat 64 ((a - 0x023000) / 0x20)) v
  else if a < 0x035000 then d.writeCtx (Fin.ofNat 80 ((a - 0x030000) / 0x100)) (a % 0x100) v
  else if a < 0x040000 then d.writeLoop (a - 0x035000) v
  else if a < 0x041000 then d.writeRail (Fin.ofNat 8 ((a - 0x040000) / 0x200)) (a % 0x200) v
  else if a < 0x042000 then d.writeCard (Fin.ofNat 8 ((a - 0x041000) / 0x10)) v
  else if a < 0x043000 then d.writeVtab (a - 0x042000) v
  else if a < 0x050000 then d.writeSp (Fin.ofNat 8 ((a - 0x043000) / 0x20)) (a % 0x20) v
  else if a < 0x060000 then d.writeStore (Fin.ofNat 4 ((a - 0x050000) / 0x100)) (a % 0x100) v
  else if a < 0x070000 then d.writeProt (a - 0x060000) v
  else if a < 0x080000 then d.writeFaultReg (a - 0x070000) v
  else if a < 0x090000 then d.writeLog (a - 0x080000) v
  else if a < 0x0A0000 then (d.updTrust fun t => { t with ownerSel := fld v 0 2 }, stOk)
  else if a < 0x0B0000 then d.writeLinkCtrl v
  else if a < 0x0C0000 then d.writeChordCfg v
  else d.writeCalValue (Fin.ofNat 112 ((a - 0x0C0000) / 8)) v

end Sys2Proof.Machine
end

