-- ==== Sys2Proof/Machine/LinkCmd.lean ====
section
/-! DEFINITION. The commands of the host link (chapter 21): what arrives on the line, and the transactions on registers and on the
    scratchpad. -/

namespace Sys2Proof.Machine

open Sys2Proof

/-! ## The line and the link layer (R460 to R470) -/

def execRxSyncGain (t : Nat) (s : State) : Host.Outcome State Fault Refusal :=
  s.run t fun d => if d.locked then d.updLink fun l => { l with rxSync := true } else d

def execRxSyncLoss (t : Nat) (inFrame : Bool) (s : State) : Host.Outcome State Fault Refusal := s.run t fun d => d.syncLost inFrame
def execRequestFrame (t : Nat) (seq : Byte) (payload : List Byte) (s : State) : Host.Outcome State Fault Refusal :=
  s.run t fun d => d.requestFrame seq payload

/-- What has been received of a frame; one that passes reception is a REQUEST_FRAME or a SYNC. -/
def execFrameRxFail (t : Nat) (received : List (Option Symbol)) (s : State) : Host.Outcome State Fault Refusal :=
  s.run t fun d => if receptionFails received && d.hears (40 * received.length) then d.frameFail else d

def execNakHoldoffExpire (t : Nat) (s : State) : Host.Outcome State Fault Refusal :=
  s.run t fun d => match d.link.nakHold with
    | some (_, u) => if u ≤ d.clk.now then d.updLink fun l => { l with nakHold := none } else d
    | none => d

def execSync (t : Nat) (seq : Byte) (s : State) : Host.Outcome State Fault Refusal := s.run t fun d => d.syncFrame seq

/-- The frame in transmission has left; while the transmitter is off none does (R127, R480). -/
def Dev.frameSent (d : Dev) : Dev := if d.hlTx == .off then d else (d.lineEvent (Link.sent · d.clk.now)).startRetry

def execResponseSent (t : Nat) (s : State) : Host.Outcome State Fault Refusal := s.run t fun d => d.frameSent

def execLinkCtrlClr (t : Nat) (v : Word) (s : State) : Host.Outcome State Fault Refusal := s.hostWrite t (.linkCtrlClr t v) fun d => d.writeLinkCtrl v

/-! ## Reads (R7, R137, R471, R474, R475, R512) -/

/-- What a read of a register does beside returning it: the shadow of R113; a free value is given once. -/
def Dev.readEffect (d : Dev) (a : Nat) : Dev :=
  if a = 0x001008 then d.readTbLo
  else if a = 0x004000 && !d.tile.tiled then { d with free := d.free + 1 } else d

/-- A word of the scratchpad range: the host's banks, the housekeeping processor's region, which reads 0 until that processor has begun
    to use it and whose contents the spec does not give from then on (assumption 101), and the staging slots. -/
def Dev.scratchWord (d : Dev) (m : List Host.Cell) (a : Nat) : Word × Dev :=
  if a < bank3Base then (Memory.word m a, d)
  else if a < stageBase then if d.banks.hkWrote then d.fresh else (0, d)
  else (wordAt ((List.range 4).map fun i => d.lantern.stageByte (a - stageBase + i)) 0, d)

/-- A word of either range. -/
def Dev.wordAt (d : Dev) (m : List Host.Cell) (a : Nat) : Word × Dev :=
  if a < scratchBase then ((d.readReg (BitVec.ofNat 24 a)).getD 0, d.readEffect a) else d.scratchWord m a

/-- An address that a READ serves. -/
def readable (a : Nat) : Bool :=
  if a < scratchBase then isReg (BitVec.ofNat 24 a) else a % 4 == 0 && decide (a < scratchEnd)

/-- Blocks that a host may read in boot hold: SYS, CLK, LOG and TRUST. -/
def heldRead (a : Nat) : Bool := decide (a < 0x002000) || decide (0x080000 ≤ a) && decide (a < 0x0A0000)

/-- The addresses of a burst. -/
def burstAddrs (a n : Nat) : List Nat := (List.range n).map fun i => a + 4 * i

/-- A burst keeps to one range (R474). -/
def oneRange (xs : List Nat) : Bool := (xs.all fun a => decide (a < scratchBase)) || xs.all fun a => decide (scratchBase ≤ a)

/-- Words read one after another. -/
def Dev.readAll (d : Dev) (m : List Host.Cell) : List Nat → List Byte × Dev
  | [] => ([], d)
  | a :: xs =>
    let (w, d) := d.wordAt m a
    let (bs, d) := d.readAll m xs
    (leBytes 4 w.toNat ++ bs, d)

/-- READ and READ_BURST of the addresses listed. -/
def Dev.readHost (d : Dev) (m : List Host.Cell) (xs : List Nat) : Dev :=
  if d.sys.bootHold && !xs.all heldRead then d.reply stState
  else if !oneRange xs || !xs.all readable then d.reply stBadAddr
  else
    let (bs, d) := d.readAll m xs
    d.reply stOk bs

def execRead (t : Nat) (addr : Addr) (s : State) : Host.Outcome State Fault Refusal :=
  s.runMem t fun d m => (d.host (.read t addr) true fun d => d.readHost m [addr.toNat], m)

def execReadBurst (t : Nat) (addr : Addr) (count : Byte) (s : State) : Host.Outcome State Fault Refusal :=
  s.runMem t fun d m => (d.host (.readBurst t addr count) true fun d =>
    if count.toNat < 1 ∨ 64 < count.toNat then d.reply stState else d.readHost m (burstAddrs addr.toNat count.toNat), m)

/-! ## Writes (R10, R13, R471, R474, R476, R512) -/

/-- The address check of a write-class transaction: it lies in the scratchpad and is aligned, or holds a writable register. -/
def writable (a : Nat) : Bool :=
  if a < scratchBase then isWritable (BitVec.ofNat 24 a) else a % 4 == 0 && decide (a < scratchEnd)

/-- A host transaction that may change the scratchpad: nothing while the link is blocked or the window asks for another, REFUSED_STATE
    in boot hold. The status and payload of `f` are its response. -/
def Dev.hostMem (d : Dev) (m : List Host.Cell) (i : Instr) (inHold : Bool) (payload : List Byte)
    (f : Dev → Dev × List Host.Cell × Byte × List Byte) : Dev × List Host.Cell :=
  if d.linkBlocked || !d.asked i then (d, m)
  else if d.sys.bootHold && !inHold then (d.replyTo payload stState, m)
  else
    let (d, m, st, data) := f d
    ((d.reply st data).startRetry, m)

/-- A WRITE of one word. -/
def Dev.writeWord (d : Dev) (m : List Host.Cell) (a : Nat) (v : Word) : Dev × List Host.Cell × Byte :=
  if !writable a then (d, m, stBadAddr)
  else if a < scratchBase then
    let (d, st) := d.writeReg a v
    (d, m, st)
  else if bank3Base ≤ a then (d, m, stLocked)
  else (d, Memory.setWord m a v, stOk)

def execWrite (t : Nat) (addr : Addr) (data : Word) (s : State) : Host.Outcome State Fault Refusal :=
  s.runMem t fun d m => d.hostMem m (.write t addr data) (addr == 0x000020) [] fun d =>
    let (d, m, st) := d.writeWord m addr.toNat data
    (d, m, st, [])

/-- A CAUSE_PRESENT that is a refusal: that of a device state request (R46), not that of a W1C bit (R11). -/
def refusesWord (a : Nat) (st : Byte) : Bool := st != stOk && (st != stCause || a == 0x000008)

/-- The words of a burst on registers, one after another: the device after them, the first word refused with its status, and the
    first word in which a W1C bit stayed set. -/
def Dev.writeSeq (d : Dev) (i : Nat) : List (Nat × Word) → Dev × Option (Nat × Byte) × Option Nat
  | [] => (d, none, none)
  | (a, v) :: xs =>
    let (d, st) := d.writeReg a v
    if refusesWord a st then (d, some (i, st), none)
    else
      let (d, bad, kept) := d.writeSeq (i + 1) xs
      (d, bad, if st = stCause then some i else kept)

/-- A WRITE_BURST on registers: every word or none. -/
def Dev.writeRegs (d : Dev) (xs : List (Nat × Word)) : Dev × Byte × List Byte :=
  match d.writeSeq 0 xs with
  | (_, some (i, st), _) => (d, st, indexBytes i)
  | (d', none, some i) => (d', stCause, indexBytes i)
  | (d', none, none) => (d', stOk, [])

/-- The first index at which `p` fails. -/
def firstBad (p : Nat → Bool) (xs : List Nat) : Nat := (xs.findIdx? fun a => !p a).getD 0

/-- A WRITE_BURST. -/
def Dev.writeBurst (d : Dev) (m : List Host.Cell) (a : Nat) (ws : List Word) : Dev × List Host.Cell × Byte × List Byte :=
  let xs := burstAddrs a ws.length
  let same := fun x => decide (x < scratchBase) == decide (a < scratchBase)
  if ws.isEmpty || decide (62 < ws.length) then (d, m, stState, indexBytes 0)
  else if !(xs.all fun x => same x && writable x) then (d, m, stBadAddr, indexBytes (firstBad (fun x => same x && writable x) xs))
  else if a < scratchBase then
    let (d, st, data) := d.writeRegs (xs.zip ws)
    (d, m, st, data)
  else if xs.any fun x => decide (bank3Base ≤ x) then (d, m, stLocked, indexBytes (firstBad (fun x => decide (x < bank3Base)) xs))
  else (d, (xs.zip ws).foldl (fun m x => Memory.setWord m x.1 x.2) m, stOk, [])

def execWriteBurst (t : Nat) (addr : Addr) (words : List Word) (s : State) : Host.Outcome State Fault Refusal :=
  s.runMem t fun d m => d.hostMem m (.writeBurst t addr words) false [4] fun d => d.writeBurst m addr.toNat words

/-! ## Atomics (R474, R477) -/

/-- An atomic on one word: the old value is returned, the new one written. -/
def Dev.atomic (d : Dev) (m : List Host.Cell) (a : Nat) (f : Word → Word) : Dev × List Host.Cell × Byte × List Byte :=
  if a < scratchBase ∨ !writable a then (d, m, stBadAddr, [])
  else if bank3Base ≤ a then (d, m, stLocked, [])
  else
    let old := Memory.word m a
    (d, Memory.setWord m a (f old), stOk, leBytes 4 old.toNat)

def execAtomicAdd (t : Nat) (addr : Addr) (operand : Word) (s : State) : Host.Outcome State Fault Refusal :=
  s.runMem t fun d m => d.hostMem m (.atomicAdd t addr operand) false [] fun d => d.atomic m addr.toNat (· + operand)
def execAtomicSwap (t : Nat) (addr : Addr) (operand : Word) (s : State) : Host.Outcome State Fault Refusal :=
  s.runMem t fun d m => d.hostMem m (.atomicSwap t addr operand) false [] fun d => d.atomic m addr.toNat (fun _ => operand)

end Sys2Proof.Machine
end

