-- ==== Sys2Proof/Machine/ChordCmd.lean ====
section
/-! DEFINITION. The commands of Chord (chapter 22): what the chain's ports receive, and the marks and times of a sweep. -/

namespace Sys2Proof.Machine

open Sys2Proof

def execChordPortSyncChange (t : Nat) (up sync : Bool) (s : State) : Host.Outcome State Fault Refusal :=
  s.run t fun d => d.portSync up sync
def execChordProbeSend (t : Nat) (s : State) : Host.Outcome State Fault Refusal := s.run t fun d => d.probeSend
def execChordProbeRx (t : Nat) (received : List (Option Symbol)) (s : State) : Host.Outcome State Fault Refusal :=
  s.run t fun d => d.probeRx received
def execChordEchoRx (t : Nat) (received : List (Option Symbol)) (rt : Nat) (s : State) : Host.Outcome State Fault Refusal :=
  s.run t fun d => d.echoRx received rt
def execChordHeadTimeout (t : Nat) (s : State) : Host.Outcome State Fault Refusal := s.run t fun d => d.becomeHead
def execChordUnjoined (t : Nat) (s : State) : Host.Outcome State Fault Refusal := s.run t fun d => d.unjoin
def execSweepMarkHead (t : Nat) (s : State) : Host.Outcome State Fault Refusal := s.run t fun d => d.sweepMark
/-- A frame as its symbols were received from its SOF on; of one that fails reception, what of it is forwarded (R486). -/
def execChordDownRx (t : Nat) (received : List (Option Symbol)) (sinceSof : Nat) (s : State) : Host.Outcome State Fault Refusal :=
  s.run t fun d => d.downRx (DownFrame.read (chordBytes received)) (chordIntact 0x12 received) sinceSof
def execChordUpRx (t : Nat) (received : List (Option Symbol)) (s : State) : Host.Outcome State Fault Refusal :=
  s.run t fun d => d.upRx (UpFrame.read (chordBytes received)) (chordIntact 0x13 received)
def execChordMemberBreak (t : Nat) (s : State) : Host.Outcome State Fault Refusal := s.run t fun d => d.memberBreak

/-- The causes of a break follow RIDE. -/
def execChordRideExpire (t : Nat) (s : State) : Host.Outcome State Fault Refusal := s.runLive t fun d => d.chordCauses

end Sys2Proof.Machine
end

