-- ==== Sys2Proof/Machine/Dispatch.lean ====
section
/-! DEFINITION. `exec`: one arm per command, a direct call of its meaning. -/

namespace Sys2Proof.Machine

def exec (i : Instr) (s : State) : Host.Outcome State Fault Refusal :=
  match i with
  | .powerOn t => Sys2Proof.Machine.execPowerOn t s
  | .supplyMonitorTrip t mask => Sys2Proof.Machine.execSupplyMonitorTrip t mask s
  | .vddlDip t len => Sys2Proof.Machine.execVddlDip t len s
  | .rstNAsserted t => Sys2Proof.Machine.execRstNAsserted t s
  | .hkWatchdogReset t => Sys2Proof.Machine.execHkWatchdogReset t s
  | .coldStart t o => Sys2Proof.Machine.execColdStart t o s
  | .warmStart t o => Sys2Proof.Machine.execWarmStart t o s
  | .bootWindowTick t => Sys2Proof.Machine.execBootWindowTick t s
  | .retry t v => Sys2Proof.Machine.execRetry t v s
  | .clockFailure t refLoss => Sys2Proof.Machine.execClockFailure t refLoss s
  | .lockRetry t => Sys2Proof.Machine.execLockRetry t s
  | .pllRelock t lockUs => Sys2Proof.Machine.execPllRelock t lockUs s
  | .clockWatchdogReset t => Sys2Proof.Machine.execClockWatchdogReset t s
  | .tbLoRead t => Sys2Proof.Machine.execTbLoRead t s
  | .epochHiWrite t v => Sys2Proof.Machine.execEpochHiWrite t v s
  | .dieTempReading t code => Sys2Proof.Machine.execDieTempReading t code s
  | .dieTempDwell t => Sys2Proof.Machine.execDieTempDwell t s
  | .jtagExtestClamp t on => Sys2Proof.Machine.execJtagExtestClamp t on s
  | .maintEnter t => Sys2Proof.Machine.execMaintEnter t s
  | .maintExit t => Sys2Proof.Machine.execMaintExit t s
  | .latchRelease t => Sys2Proof.Machine.execLatchRelease t s
  | .tileBlock t offset data => Sys2Proof.Machine.execTileBlock t offset data s
  | .mramBurstDone t ok => Sys2Proof.Machine.execMramBurstDone t ok s
  | .tileAbort t => Sys2Proof.Machine.execTileAbort t s
  | .tileVerify t => Sys2Proof.Machine.execTileVerify t s
  | .tileCommit t => Sys2Proof.Machine.execTileCommit t s
  | .directCommitDone t => Sys2Proof.Machine.execDirectCommitDone t s
  | .retilePlanDone t => Sys2Proof.Machine.execRetilePlanDone t s
  | .retileDrainRequest t => Sys2Proof.Machine.execRetileDrainRequest t s
  | .retileStep t => Sys2Proof.Machine.execRetileStep t s
  | .retileCapacityRecheck t => Sys2Proof.Machine.execRetileCapacityRecheck t s
  | .retileWaitLimit t => Sys2Proof.Machine.execRetileWaitLimit t s
  | .retileStop t => Sys2Proof.Machine.execRetileStop t s
  | .rtStop t => Sys2Proof.Machine.execRtStop t s
  | .rtContinue t => Sys2Proof.Machine.execRtContinue t s
  | .rtResume t => Sys2Proof.Machine.execRtResume t s
  | .rtRevert t => Sys2Proof.Machine.execRtRevert t s
  | .phaseUpdatePoint t n apex => Sys2Proof.Machine.execPhaseUpdatePoint t n apex s
  | .dlineBgMeasure t m => Sys2Proof.Machine.execDlineBgMeasure t m s
  | .loadAll t mask => Sys2Proof.Machine.execLoadAll t mask s
  | .hostOvrWrite t n v => Sys2Proof.Machine.execHostOvrWrite t n v s
  | .rperWrite t r v => Sys2Proof.Machine.execRperWrite t r v s
  | .syncPerWrite t v => Sys2Proof.Machine.execSyncPerWrite t v s
  | .trigHit t n b => Sys2Proof.Machine.execTrigHit t n b s
  | .interlockLatch t n => Sys2Proof.Machine.execInterlockLatch t n s
  | .blankWindowClose t n => Sys2Proof.Machine.execBlankWindowClose t n s
  | .sliceRotation t q => Sys2Proof.Machine.execSliceRotation t q s
  | .sliceMeasureDone t q m => Sys2Proof.Machine.execSliceMeasureDone t q m s
  | .sliceStale t q => Sys2Proof.Machine.execSliceStale t q s
  | .sliceInlineFail t q slot => Sys2Proof.Machine.execSliceInlineFail t q slot s
  | .lowpowerEnter t q => Sys2Proof.Machine.execLowpowerEnter t q s
  | .fgcal t => Sys2Proof.Machine.execFgcal t s
  | .fgcalDone t ms => Sys2Proof.Machine.execFgcalDone t ms s
  | .selftest t => Sys2Proof.Machine.execSelftest t s
  | .selftestDone t hits => Sys2Proof.Machine.execSelftestDone t hits s
  | .calZero t => Sys2Proof.Machine.execCalZero t s
  | .calFs t => Sys2Proof.Machine.execCalFs t s
  | .calAbort t => Sys2Proof.Machine.execCalAbort t s
  | .calDone t slices ats raws cms => Sys2Proof.Machine.execCalDone t slices ats raws cms s
  | .calValueWrite t e v => Sys2Proof.Machine.execCalValueWrite t e v s
  | .calUnlockExpire t => Sys2Proof.Machine.execCalUnlockExpire t s
  | .seqRegStart t q => Sys2Proof.Machine.execSeqRegStart t q s
  | .seqInjStart t q => Sys2Proof.Machine.execSeqInjStart t q s
  | .seqEntStart t q e => Sys2Proof.Machine.execSeqEntStart t q e s
  | .seqTimer t q => Sys2Proof.Machine.execSeqTimer t q s
  | .conversionStart t q => Sys2Proof.Machine.execConversionStart t q s
  | .conversionReady t q xs => Sys2Proof.Machine.execConversionReady t q xs s
  | .requestLateDiscard t q => Sys2Proof.Machine.execRequestLateDiscard t q s
  | .trkReset t k v => Sys2Proof.Machine.execTrkReset t k v s
  | .trkWindowClose t k => Sys2Proof.Machine.execTrkWindowClose t k s
  | .ctxStart t c => Sys2Proof.Machine.execCtxStart t c s
  | .ctxComputeIssue t => Sys2Proof.Machine.execCtxComputeIssue t s
  | .ctxComputeDone t c => Sys2Proof.Machine.execCtxComputeDone t c s
  | .ctxDelayClr t c v => Sys2Proof.Machine.execCtxDelayClr t c v s
  | .loopHistClr t v => Sys2Proof.Machine.execLoopHistClr t v s
  | .railUpdatePoint t r apex => Sys2Proof.Machine.execRailUpdatePoint t r apex s
  | .railCmdNone t r => Sys2Proof.Machine.execRailCmdNone t r s
  | .railCmdOff t r => Sys2Proof.Machine.execRailCmdOff t r s
  | .railCmdOn t r => Sys2Proof.Machine.execRailCmdOn t r s
  | .railCmdCharge t r => Sys2Proof.Machine.execRailCmdCharge t r s
  | .railCmdSupport t r => Sys2Proof.Machine.execRailCmdSupport t r s
  | .railCmdReserved t r code => Sys2Proof.Machine.execRailCmdReserved t r code s
  | .shedNoticeExpire t r => Sys2Proof.Machine.execShedNoticeExpire t r s
  | .undershootCrossing t r crossed => Sys2Proof.Machine.execUndershootCrossing t r crossed s
  | .flareRearm t r => Sys2Proof.Machine.execFlareRearm t r s
  | .hiccupToffExpire t r => Sys2Proof.Machine.execHiccupToffExpire t r s
  | .retriesClear t r => Sys2Proof.Machine.execRetriesClear t r s
  | .cardRemoval t c => Sys2Proof.Machine.execCardRemoval t c s
  | .cardInsert t c => Sys2Proof.Machine.execCardInsert t c s
  | .cardDebounceDone t c => Sys2Proof.Machine.execCardDebounceDone t c s
  | .cardQualCheck t c high => Sys2Proof.Machine.execCardQualCheck t c high s
  | .cardQualTimeout t c => Sys2Proof.Machine.execCardQualTimeout t c s
  | .oltEnWrite t r v => Sys2Proof.Machine.execOltEnWrite t r v s
  | .trip t n crossed => Sys2Proof.Machine.execTrip t n crossed s
  | .tripCounterLatch t n => Sys2Proof.Machine.execTripCounterLatch t n s
  | .comparatorSettleEnd t which => Sys2Proof.Machine.execComparatorSettleEnd t which s
  | .ovCrossing t r => Sys2Proof.Machine.execOvCrossing t r s
  | .ovRelease t r => Sys2Proof.Machine.execOvRelease t r s
  | .rampTrackExit t r high crossed => Sys2Proof.Machine.execRampTrackExit t r high crossed s
  | .safeLevelTaken t b level => Sys2Proof.Machine.execSafeLevelTaken t b level s
  | .safeDiscrepancyTimeout t => Sys2Proof.Machine.execSafeDiscrepancyTimeout t s
  | .faultLineTaken t line low => Sys2Proof.Machine.execFaultLineTaken t line low s
  | .faultLineChatter t line => Sys2Proof.Machine.execFaultLineChatter t line s
  | .faultLineChatterEnd t line => Sys2Proof.Machine.execFaultLineChatterEnd t line s
  | .faultLineStuck t line => Sys2Proof.Machine.execFaultLineStuck t line s
  | .vselCodeTaken t code => Sys2Proof.Machine.execVselCodeTaken t code s
  | .storeDecisionPoint t p => Sys2Proof.Machine.execStoreDecisionPoint t p s
  | .wickRelight t p v => Sys2Proof.Machine.execWickRelight t p v s
  | .wickTimeout t p => Sys2Proof.Machine.execWickTimeout t p s
  | .faultRaise t k inst present => Sys2Proof.Machine.execFaultRaise t k inst present s
  | .faultForce t word v => Sys2Proof.Machine.execFaultForce t word v s
  | .faultAck t r v => Sys2Proof.Machine.execFaultAck t r v s
  | .recordCloseTimeout t => Sys2Proof.Machine.execRecordCloseTimeout t s
  | .logRefill t => Sys2Proof.Machine.execLogRefill t s
  | .recordPersisted t => Sys2Proof.Machine.execRecordPersisted t s
  | .snapshotStart t k => Sys2Proof.Machine.execSnapshotStart t k s
  | .logRead t start max => Sys2Proof.Machine.execLogRead t start max s
  | .rselHiWrite t v => Sys2Proof.Machine.execRselHiWrite t v s
  | .snapSelWrite t v => Sys2Proof.Machine.execSnapSelWrite t v s
  | .tokenClear t bytes => Sys2Proof.Machine.execTokenClear t bytes s
  | .tokenClaim t bytes => Sys2Proof.Machine.execTokenClaim t bytes s
  | .tokenInstall t bytes => Sys2Proof.Machine.execTokenInstall t bytes s
  | .tokenRevoke t bytes => Sys2Proof.Machine.execTokenRevoke t bytes s
  | .tokenUnlock t bytes => Sys2Proof.Machine.execTokenUnlock t bytes s
  | .trustOpDone t => Sys2Proof.Machine.execTrustOpDone t s
  | .attestIdentity t bytes => Sys2Proof.Machine.execAttestIdentity t bytes s
  | .attestRecords t bytes => Sys2Proof.Machine.execAttestRecords t bytes s
  | .attestCalibration t bytes => Sys2Proof.Machine.execAttestCalibration t bytes s
  | .rxSyncGain t => Sys2Proof.Machine.execRxSyncGain t s
  | .rxSyncLoss t inFrame => Sys2Proof.Machine.execRxSyncLoss t inFrame s
  | .requestFrame t seq payload => Sys2Proof.Machine.execRequestFrame t seq payload s
  | .frameRxFail t received => Sys2Proof.Machine.execFrameRxFail t received s
  | .nakHoldoffExpire t => Sys2Proof.Machine.execNakHoldoffExpire t s
  | .sync t seq => Sys2Proof.Machine.execSync t seq s
  | .read t addr => Sys2Proof.Machine.execRead t addr s
  | .write t addr data => Sys2Proof.Machine.execWrite t addr data s
  | .readBurst t addr count => Sys2Proof.Machine.execReadBurst t addr count s
  | .writeBurst t addr words => Sys2Proof.Machine.execWriteBurst t addr words s
  | .atomicAdd t addr operand => Sys2Proof.Machine.execAtomicAdd t addr operand s
  | .atomicSwap t addr operand => Sys2Proof.Machine.execAtomicSwap t addr operand s
  | .linkCtrlClr t v => Sys2Proof.Machine.execLinkCtrlClr t v s
  | .chordPortSyncChange t up sync => Sys2Proof.Machine.execChordPortSyncChange t up sync s
  | .chordProbeSend t => Sys2Proof.Machine.execChordProbeSend t s
  | .chordProbeRx t received => Sys2Proof.Machine.execChordProbeRx t received s
  | .chordEchoRx t received rt => Sys2Proof.Machine.execChordEchoRx t received rt s
  | .chordHeadTimeout t => Sys2Proof.Machine.execChordHeadTimeout t s
  | .chordUnjoined t => Sys2Proof.Machine.execChordUnjoined t s
  | .sweepMarkHead t => Sys2Proof.Machine.execSweepMarkHead t s
  | .chordDownRx t received sinceSof => Sys2Proof.Machine.execChordDownRx t received sinceSof s
  | .chordUpRx t received => Sys2Proof.Machine.execChordUpRx t received s
  | .chordMemberBreak t => Sys2Proof.Machine.execChordMemberBreak t s
  | .chordRideExpire t => Sys2Proof.Machine.execChordRideExpire t s
  | .leaveGrant t => Sys2Proof.Machine.execLeaveGrant t s
  | .leaveMaxwaitExpire t => Sys2Proof.Machine.execLeaveMaxwaitExpire t s
  | .phaseStartRelease t n => Sys2Proof.Machine.execPhaseStartRelease t n s
  | .hkLeaseTake t => Sys2Proof.Machine.execHkLeaseTake t s
  | .leaseExpire t => Sys2Proof.Machine.execLeaseExpire t s
  | .fullBist t => Sys2Proof.Machine.execFullBist t s
  | .fullBistDone t failed => Sys2Proof.Machine.execFullBistDone t failed s
  | .phaseTest t => Sys2Proof.Machine.execPhaseTest t s
  | .phaseTestDone t mismatch => Sys2Proof.Machine.execPhaseTestDone t mismatch s
  | .bankTest t => Sys2Proof.Machine.execBankTest t s
  | .bankTestDone t failWord => Sys2Proof.Machine.execBankTestDone t failWord s
  | .emittedEdge t n edge => Sys2Proof.Machine.execEmittedEdge t n edge s
  | .deviceReferenceValley t => Sys2Proof.Machine.execDeviceReferenceValley t s
  | .responseSent t => Sys2Proof.Machine.execResponseSent t s
  | .leaseRelease t => Sys2Proof.Machine.execLeaseRelease t s
  | .cardIdHoldDone t c => Sys2Proof.Machine.execCardIdHoldDone t c s

end Sys2Proof.Machine
end

