-- ==== Sys2Proof/Safety.lean ====
section
/-! DEFINITION. What counts as safe, and the words statements are made of: the state after a command's effect has settled, the
    blocks a command leaves alone, and what the consequences of a command never touch. -/

namespace Sys2Proof

/-- A command does nothing to the scratchpad: all but the transactions on it and the three that leave it at 0 (R133, R513,
    R529). -/
def Instr.keepsScratch : Instr → Bool
  | .coldStart _ _ | .warmStart _ _ | .fullBistDone _ _ => false
  | .write _ _ _ | .writeBurst _ _ _ | .atomicAdd _ _ _ | .atomicSwap _ _ _ => false
  | _ => true

/-- A command that is a transaction of the host link: its tick, whether it may execute in boot hold (R137), and the payload a refusal
    of it carries before its words are looked at (R471). -/
def Instr.transaction : Instr → Option (Tick × Bool × List Byte)
  | .retry t _ | .tbLoRead t | .read t _ | .readBurst t _ _ | .logRead t _ _ => some (t, true, [])
  | .attestIdentity t _ | .attestRecords t _ | .attestCalibration t _ => some (t, true, [])
  | .write t a _ => some (t, a == 0x000020, [])
  | .writeBurst t _ _ => some (t, false, [0, 0, 0, 0])
  | .atomicAdd t _ _ | .atomicSwap t _ _ => some (t, false, [])
  | .tokenClear t _ | .tokenClaim t _ | .tokenInstall t _ | .tokenRevoke t _ | .tokenUnlock t _ => some (t, true, [])
  | .epochHiWrite t _ | .maintEnter t | .maintExit t | .latchRelease t => some (t, false, [])
  | .tileBlock t _ _ | .tileAbort t | .tileVerify t | .tileCommit t => some (t, false, [])
  | .rtStop t | .rtContinue t | .rtResume t | .rtRevert t => some (t, false, [])
  | .loadAll t _ | .hostOvrWrite t _ _ | .rperWrite t _ _ | .syncPerWrite t _ => some (t, false, [])
  | .fgcal t | .selftest t | .calZero t | .calFs t | .calAbort t | .calValueWrite t _ _ | .trkReset t _ _ => some (t, false, [])
  | .ctxDelayClr t _ _ | .loopHistClr t _ => some (t, false, [])
  | .railCmdNone t _ | .railCmdOff t _ | .railCmdOn t _ | .railCmdCharge t _ | .railCmdSupport t _ => some (t, false, [])
  | .railCmdReserved t _ _ | .oltEnWrite t _ _ | .wickRelight t _ _ => some (t, false, [])
  | .faultForce t _ _ | .faultAck t _ _ | .rselHiWrite t _ | .snapSelWrite t _ => some (t, false, [])
  | .linkCtrlClr t _ | .fullBist t | .phaseTest t | .bankTest t => some (t, false, [])
  | _ => none

end Sys2Proof

namespace Sys2Proof.Machine

open Sys2Proof

/-! ## Safe outputs, bounds and canonical form -/

/-- Both gate outputs of every phase are off at stage E (R210). -/
def Dev.gatesOff (d : Dev) : Prop := ∀ n : PhaseIx, d.emitted n = (false, false)

/-- The conditions under which stage D holds every phase off, whatever the registers hold: a SAFE stop, the backup oscillator,
    EXTEST or CLAMP, and the device states BOOT, UNTILED and LATCHED (R36, R58, R108, R210, R355). -/
def Dev.mustBeOff (d : Dev) : Prop :=
  d.prot.stop = true ∨ d.clk.onBackup = true ∨ d.sys.jtag = true ∨ d.sys.devState = .boot ∨ d.sys.devState = .untiled ∨
    d.sys.devState = .latched

/-- The scratchpad is in canonical form (R512). -/
def State.memOk (s : State) : Prop := Memory.wf s.mem = true

/-! ## The state after a command -/

/-- The state that follows `s` when a command at tick `t` has left the device as `d`: its consequences have settled. -/
def State.after (s : State) (t : Tick) (d : Dev) : State := { s with dev := Dev.finish (s.dev.advance t) d }

/-- The blocks of the device (R531), with the model's counter of free values. The bookkeeping of the present LOOP_CLK cycle (`Dev.cyc`,
    assumption 57) is no block. -/
inductive Block where
  | sys | clk | tile | pwm | pwmg | sense | loop | rails | cards | prot | sp | ports | fault | lantern | trust | link | chord
  | leave | banks | test | free
  deriving DecidableEq, Repr

/-- A block stands in `d'` as it stands in `d`. -/
def Dev.same (d d' : Dev) : Block → Prop
  | .sys => d'.sys = d.sys
  | .clk => d'.clk = d.clk
  | .tile => d'.tile = d.tile
  | .pwm => d'.pwm = d.pwm
  | .pwmg => d'.pwmg = d.pwmg
  | .sense => d'.sense = d.sense
  | .loop => d'.loop = d.loop
  | .rails => d'.rails = d.rails
  | .cards => d'.cards = d.cards
  | .prot => d'.prot = d.prot
  | .sp => d'.sp = d.sp
  | .ports => d'.ports = d.ports
  | .fault => d'.fault = d.fault
  | .lantern => d'.lantern = d.lantern
  | .trust => d'.trust = d.trust
  | .link => d'.link = d.link
  | .chord => d'.chord = d.chord
  | .leave => d'.leave = d.leave
  | .banks => d'.banks = d.banks
  | .test => d'.test = d.test
  | .free => d'.free = d.free

/-- `d'` differs from `d` in no block but those named. -/
def Dev.onlyIn (d d' : Dev) (bs : List Block) : Prop := ∀ b : Block, b ∉ bs → d.same d' b

/-- A host transaction executes: it is the taken one that is next, the link is not blocked and the device does not wait in boot hold
    (R137, R468, R478). -/
def Dev.takesHost (d : Dev) (i : Instr) : Prop := d.linkBlocked = false ∧ d.sys.bootHold = false ∧ d.asked i = true

/-! ## Effects that several commands have -/

/-- `d'` is `d` after a trip of phase `n` has become active: the trip stands and HI is off; a period that counts is limited, once; where the
    count could not change, the pulse ends with GL due DTF later, and nothing else but `n`'s own record is touched (R229, R345, R346). -/
def Dev.TripTaken (d d' : Dev) (n : PhaseIx) : Prop :=
  let x := d.prot.trips[n]
  let p := d.pwm[n]
  d'.prot.trips[n].active = true ∧ d'.pwm[n].hi = false ∧
  (∀ m : RailMode, x.limited = false → d.phaseMode n = some m → m.switching = true → p.cHi.passes = true → d.gateForce n = false →
    d'.prot.trips[n].limited = true ∧ d'.prot.trips[n].total = x.total + 1) ∧
  (x.latch = true ∨ x.limited = true →
    (p.hi = true → d'.pwm[n].gh = false ∧ d'.pwm[n].ghAt = none ∧ d'.pwm[n].glAt = some (64 * d.clk.now + (dtFloor p.dtf).toNat)) ∧
    (∀ k : PhaseIx, k ≠ n → d'.pwm[k] = d.pwm[k] ∧ d'.prot.trips[k] = d.prot.trips[k]) ∧ d'.prot.wins = d.prot.wins ∧ d.onlyIn d' [.pwm, .prot, .fault])

/-- HI is held off on every member of rail `r` in `d'`, a pulse in progress ended with GL due DTF later (R351). -/
def Dev.HeldHi (d d' : Dev) (r : RailIx) : Prop := ∀ n : PhaseIx, d.railOf n = some r →
  d'.prot.trips[n].hold = true ∧ d'.pwm[n].hi = false ∧
    (d.pwm[n].hi = true → d'.pwm[n].gh = false ∧ d'.pwm[n].glAt = some (64 * d.clk.now + (dtFloor d.pwm[n].dtf).toNat))

/-! ## What an update point of a rail reference does -/

/-- A value lies in the range of the signed 32-bit field that carries it; elsewhere the spec states no result (assumption 4). -/
def Fits (v : Int) : Prop := -(2 ^ 31) ≤ v ∧ v < 2 ^ 31

/-- KEY_I and DEMAND from the rail's sum, KEY_V from its source, as a mark forms them (R307, R323). -/
def Dev.KeysFormed (d d' : Dev) (r : RailIx) : Prop :=
  let l := d.loop.rails[r]
  let l' := d'.loop.rails[r]
  let k : AccIx := Fin.ofNat 256 l.vkAcc.toNat
  (∀ sum : Int, d.railSum r = some sum → let v := rhe (sum * d.rails[r].iscale.toNat) 1000
    Fits v → l'.keyI = BitVec.ofInt 32 v ∧ ((d.rails[r].mode).switching = true → v.natAbs ≤ d'.rails[r].demand.toNat)) ∧
  (d.railSum r = none → l'.keyI = l.keyI) ∧
  (l.vkHost = true → l'.keyV = l.keyVHost ∧ l'.keyStale = false) ∧
  (∀ x : AccResult, l.vkHost = false → d.sense.accs[k].latest = some x → (d.tile.cur.accs[k]).isSome = true →
    let v := rhe (16 * x.sum.toInt * l.vkScale.toNat) (x.valid.toNat * 1000)
    Fits v → l'.keyV = BitVec.ofInt 32 v ∧ l'.keyStale = (d.sense.accs[k].valid == 0)) ∧
  (l.vkHost = false → d.sense.accs[k].latest = none ∨ (d.tile.cur.accs[k]).isSome = false → l'.keyV = l.keyV ∧ l'.keyStale = true)

/-- IREF of a rail without a port: the least of the outer output and those of the active auxiliary contexts, with AUX_LIM where one of
    them lies strictly below; it stands in REF of every active inner context (R305, R306). -/
def Dev.IrefTransferred (d d' : Dev) (r : RailIx) : Prop :=
  let l' := d'.loop.rails[r]
  let x := d.loop.ctx[outerIx r]
  let out := x.delivered.toInt
  (x.active = false → l'.iref = d.loop.rails[r].iref ∧ l'.auxLim = d.loop.rails[r].auxLim) ∧
  (x.active = true → l'.iref.toInt ≤ out ∧ (l'.auxLim = true ↔ l'.iref.toInt < out) ∧
    (∀ c ∈ d.auxOf r, d.loop.ctx[c].active = true → l'.iref.toInt ≤ d.loop.ctx[c].delivered.toInt) ∧
    (l'.iref = x.delivered ∨ ∃ c ∈ d.auxOf r, d.loop.ctx[c].active = true ∧ l'.iref = d.loop.ctx[c].delivered) ∧
    ∀ n : PhaseIx, d.railOf n = some r → d.loop.ctx[innerIx n].active = true → d'.loop.ctx[innerIx n].ref = l'.iref)

/-- A mark moves the target P by the slew of one carrier period toward the commanded one, never past it, in RAMP, REGULATE and EMBER
    alone, and writes REF; RAMP ends where P has come to it (R319, R370 to R373). -/
def Dev.TargetSlewed (d d' : Dev) (r : RailIx) : Prop :=
  let p := d.sp.sp[r].p
  let y := d'.sp.sp[r]
  let m := d.rails[r].mode
  let c : Int := (y.cmdMv.toNat : Int) * 65536
  let slew := if m = .ramp ∧ y.ssSlew ≠ 0 then y.ssSlew.toNat else y.lastSlew
  let delta := rhe ((slew * 2 * d.pwmg.rper[r].toNat * 65536 : Nat) : Int) 480000
  (m = .regulate ∨ m = .ember ∨ m = .ramp ∧ d.rails[r].m0Wait = none →
    (p < c → y.p = min (p + delta) c) ∧ (c < p → y.p = max (p - delta) c) ∧ (p = c → y.p = c) ∧
    let v := rhe (y.p * 1000) (d.rails[r].vscale.toNat * 65536)
    Fits v → d'.loop.ctx[outerIx r].ref = BitVec.ofInt 32 v) ∧
  (m ≠ .ramp → m ≠ .regulate → m ≠ .ember → y.p = p) ∧ (y.slewing = true ↔ y.p ≠ c) ∧
  (m = .ramp → d.rails[r].m0Wait = none → d.rails[r].flare = none → d'.rails[r].mode = if y.p = c then .regulate else .ramp)

/-- Shedding at a mark of REGULATE outside a Flare: a notice ends by a sum above ADD_TH, and begins when the sum has stayed below SHED_TH
    for the dwell; an invalid sum leaves its interval out (R325, R341). -/
def Dev.ShedDecided (d d' : Dev) (r : RailIx) : Prop :=
  let x := d.rails[r]
  let x' := d'.rails[r]
  let now := d.clk.now
  let a := d.activeCount r
  let i := d'.loop.rails[r].keyI.toInt.natAbs
  let valid := (d.railSum r).isSome = true
  let may := x.shedEn = true ∧ d.respreadBusy r = false ∧ d.minPhases r < a
  let low := i < x.shedTh.toNat * (a - 1)
  let since := x.shedSince.getD now
  let full := since + x.shedDwell.toNat * 48000 ≤ now
  (∀ nt : Notice, x.notice = some nt → let ends := valid ∧ nt.drain = false ∧ x.addTh.toNat * a < i
    (ends → x'.notice = none ∧ x'.shedSince = none) ∧
    (¬ends → x'.notice = some { nt with until_ := nt.began + x.shedDelay.toNat * 48000 })) ∧
  (x.notice = none → ¬may ∨ valid ∧ ¬low → x'.notice = none ∧ x'.shedSince = none) ∧
  (x.notice = none → may → ¬valid → x'.notice = none ∧ x'.shedSince = x.shedSince.map fun s => s + (now - max s x.markAt)) ∧
  (x.notice = none → may → valid → low → ¬full → x'.notice = none ∧ x'.shedSince = some since) ∧
  ∀ n : PhaseIx, x.notice = none → may → valid → low → full → d.topMember r = some n →
    x'.notice = some { phase := n, began := now, until_ := now + x.shedDelay.toNat * 48000, drain := false }

/-- Adding at a mark of REGULATE or RAMP outside a Flare: where the sum has stayed above ADD_TH for the dwell, shedding is off, the rail is
    still in RAMP or too few phases are active, the next phase asks leave (R326, R522). -/
def Dev.AddDecided (d d' : Dev) (r : RailIx) : Prop :=
  let x := d.rails[r]
  let x' := d'.rails[r]
  let a := d.activeCount r
  let above := (d.railSum r).isSome = true ∧ x.addTh.toNat * a < d'.loop.rails[r].keyI.toInt.natAbs ∧ x.addSince.getD d.clk.now + x.addDwell.toNat * 48000 ≤ d.clk.now
  let go := above ∨ x.shedEn = false ∨ x'.mode = .ramp ∨ a < d.minPhases r
  (x.addWait.isSome = true → x'.addWait = x.addWait) ∧
  (x.addWait = none → ¬go ∨ d.addCandidate r = none → x'.addWait = none) ∧
  ∀ n : PhaseIx, x.addWait = none → go → d.addCandidate r = some n → d.leave.queue.length < 32 → LeaveKind.phaseStart.cost ≤ d.leave.budget.toNat →
    x'.addWait = some n ∧ d'.waitsLeave .phaseStart (phaseTarget n) = true

/-- The way into EMBER at a mark of REGULATE outside a Flare and a notice: KEY_I has stayed below EMBER_ENTER for the dwell with
    MIN_PHASES active; the rail is then asleep, every active LOOP member masked and every context idle (R328). -/
def Dev.EmberEntered (d d' : Dev) (r : RailIx) : Prop :=
  let x := d.rails[r]
  let x' := d'.rails[r]
  let now := d.clk.now
  let low := x.emberEn = true ∧ d.activeCount r = d.minPhases r ∧ d'.loop.rails[r].keyI.toInt.natAbs < x.emberEnter.toNat
  let since := x.emberSince.getD now
  let full := since + x.emberDwell.toNat * 48000 ≤ now
  (¬low → x'.mode = .regulate ∧ x'.emberSince = none) ∧ (low → ¬full → x'.mode = .regulate ∧ x'.emberSince = some since) ∧
  (low → full → x'.mode = .ember ∧ x'.burst = none ∧ x'.sleepSince = now ∧ x'.emberSince = none ∧ (∀ c ∈ d.ctxsOf r, d'.loop.ctx[c].active = false) ∧
    ∀ n : PhaseIx, d.railOf n = some r → d.isLoop n = true → d.isActive n = true → d'.pwm[n].mask.ember = true ∧ x'.burstMembers.getLsbD n.val = true)

/-- A mark after which the rail's decisions cannot take it into EMBER at once. -/
def Rail.staysOut (x : Rail) : Prop := x.emberEn = false ∨ x.emberSince = none ∧ x.emberDwell ≠ 0

/-- An update point of EMBER outside a Flare: the rail leaves it, or a burst begins when VOUT has fallen by EMB_LO, or ends after PKT_LEN
    periods or when VOUT has risen by EMB_HI (R329, R330). `settled` says that what follows at the same mark cannot undo it. -/
def Dev.EmberDecided (d d' : Dev) (r : RailIx) (settled : Prop) : Prop :=
  let x := d.rails[r]
  let x' := d'.rails[r]
  let now := d.clk.now
  let v := x'.vout.toInt
  let aim := d'.targetMv r
  let wakes := x.burst = none ∧ v ≤ aim - x.embLo.toNat
  let short := if x.burst = none ∧ v ≤ aim - x.embLo.toNat then (if now - x.sleepSince < x.minSleep.toNat * 4800 then x.shortSleeps + 1 else 0) else x.shortSleeps
  let stale := if x'.vstale = true then x.staleRun + 1 else 0
  let leaves := v ≤ aim - x.embExit.toNat ∨ 4 ≤ short ∨ x.emberEn = false ∨ 4 ≤ stale
  let woken := fun n : PhaseIx => d.railOf n = some r → x.burstMembers.getLsbD n.val = true → (d.setNow n).ember = false → d'.pwm[n].mask.ember = false
  (leaves → settled → x'.mode = .regulate ∧ x'.burst = none ∧ ∀ n : PhaseIx, woken n) ∧
  (¬leaves → x'.mode = .ember ∧ x'.shortSleeps = short ∧ x'.staleRun = stale ∧
    (wakes → x'.burst = some now ∧ x'.packetDuty = x.emberDuty ∧ ∀ n : PhaseIx, woken n ∧
      (d.railOf n = some r → x.burstMembers.getLsbD n.val = true → d.srcHost n = false → d.pwm[n].flareOn = false →
        d'.pwm[n].loopShadow = some { duty := x.emberDuty, at_ := d.cycleTick })) ∧
    (¬wakes → x.burst = none → x'.burst = none) ∧
    ∀ b : Tick, x.burst = some b → let ends := b + x.pktLen.toNat * 2 * d'.pwmg.refs[r].per.toNat ≤ now ∨ aim + x.embHi.toNat ≤ v
      (¬ends → x'.burst = some b) ∧
      (ends → x'.burst = none ∧ x'.sleepSince = now ∧ ∀ n : PhaseIx, d.railOf n = some r → x.burstMembers.getLsbD n.val = true → d'.pwm[n].mask.ember = true))

/-- An update point of a Flare that began at `f` in REGULATE or EMBER: it ends by recovery, from a result after the entry and with the undershoot comparator
    released, or by its time; a participant takes FLARE_DUTY into its shadow and, unless drained, is kept with IREF as its REF (R305, R330,
    R333, R334). -/
def Dev.FlareDecided (d d' : Dev) (r : RailIx) (f : Tick) (settled : Prop) : Prop :=
  let x := d.rails[r]
  let x' := d'.rails[r]
  let back := (∃ l : AccResult, (d.accOf (outerIx r)).latest = some l ∧ f < l.at_) ∧ d'.targetMv r - x.flareRec.toNat ≤ x'.vout.toInt ∧ d'.prot.wins[r].uv = false
  let late := f + x.flareTime.toNat * 480 ≤ d.clk.now
  (¬back → ¬late → x'.flare = some f ∧ x'.mode = x.mode ∧ x'.addWait = x.addWait ∧ x'.shedSince = x.shedSince) ∧
  (back → x'.timeouts = x.timeouts) ∧ (¬back → late → x'.timeouts = x.timeouts + 1 ∧ d'.causeOf (srcFlareTimeout r) 0 = true) ∧
  (back ∨ late → x'.flare = none ∧ x'.flareLastExit = some d.clk.now ∧
    ∀ n : PhaseIx, d.railOf n = some r → d.pwm[n].flareOn = true → d'.pwm[n].loopShadow = some { duty := x.flareDuty, at_ := d.cycleTick + 1 }) ∧
  (back ∨ late → settled → x'.mode = .regulate ∧
    ∀ n : PhaseIx, d.railOf n = some r → d.pwm[n].flareOn = true → x.drained.getLsbD n.val = false →
      ((d.setNow n).shed = false → d'.pwm[n].mask.shed = false) ∧ ((d.setNow n).ember = false → d'.pwm[n].mask.ember = false) ∧
      (d'.loop.ctx[innerIx n].active = true → d'.loop.ctx[innerIx n].ref = d'.loop.rails[r].iref))

/-! ## What a fault comes to -/

/-- The entry that wins for a source and class matches it, no matching entry has a higher ACTION, and of those with its ACTION it is the
    first; there is one whenever an entry matches (R407). -/
def WinsReaction (xs : List Reaction) (k : SrcIx) (cls : Nat) : Prop :=
  (∀ (i : Nat) (y : Reaction), bestReaction xs k cls = some (i, y) → xs[i]? = some y ∧ y.hits k cls = true ∧
    ∀ (j : Nat) (z : Reaction), xs[j]? = some z → z.hits k cls = true → z.action ≤ y.action ∧ (z.action = y.action → i ≤ j)) ∧
  (bestReaction xs k cls = none ↔ ∀ z ∈ xs, z.hits k cls = false)

/-- The mode in which a rail action leaves a rail (R408). -/
def actedMode (a : Nat) (m : RailMode) : RailMode :=
  if a = 2 ∧ m.switching = true then .hiccup else if 3 ≤ a ∧ (m.switching = true ∨ m = .hiccup) then .hold else m

/-- `d'` is `d` after the reaction to the one fault `x`: each rail reached takes the larger of the winner's ACTION and the least action of
    the level it meets there, raised by one where an open entry escalates it; an action of 4 or more on any of them, or a level of 3 or more,
    is the device's. Entries open, merge or escalate per rail, and an open entry never spares a rail its action (R406 to R408, R410). -/
def Dev.Reacted (d d' : Dev) (x : Seen) : Prop :=
  let k := x.src
  let level := d.srcLevel k
  let cls := BitVec.ofNat 5 (d.srcClass k)
  let win := bestReaction d.tile.cur.reactions k (d.srcClass k)
  let w := (win.map fun p => p.2.action.val).getD 0
  let rs := d.reached k x.inst ((win.map fun p => p.2.railMask).getD 0) w level
  let wide := fun r => decide (16 < d.domainSize r) || d.domainSpans r
  let lv := fun r => if level = 0 then 0 else if (d.entryOf r cls).isSome && wide r then min 4 (level + 1) else level
  let act := fun r => max w (d.leastAction k r (lv r))
  let device := 4 ≤ w ∨ 3 ≤ level ∨ ∃ r ∈ rs, 4 ≤ act r
  let chain := 5 ≤ w ∨ level = 4 ∨ ∃ r ∈ rs, 5 ≤ act r
  (¬device → d'.sys.devState = d.sys.devState ∧ (∀ r ∈ rs, d'.rails[r].mode = actedMode (act r) d.rails[r].mode) ∧
    ∀ r : RailIx, r ∉ rs → d'.rails[r].mode = d.rails[r].mode) ∧
  (device → (∀ r : RailIx, d'.rails[r].mode = actedMode 4 d.rails[r].mode) ∧
    (d.sys.devState = .standby ∨ d.sys.devState = .run → d'.sys.devState = .latched ∧ (chain → d'.sys.latchCause = 2) ∧ (¬chain → d'.sys.latchCause = 1)) ∧
    (d.sys.devState = .maint → d'.sys.devState = .maint)) ∧
  (device ∨ (∃ r ∈ rs, 2 ≤ act r) → d'.fault.reactions = d.fault.reactions + 1) ∧
  (level = 0 → d'.fault.entries = d.fault.entries ∧ d'.fault.merges = d.fault.merges) ∧
  (level ≠ 0 → (∀ r : RailIx, r ∉ rs → d'.fault.entries[r] = d.fault.entries[r]) ∧
    (∀ r ∈ rs, (d.entryOf r cls = none → ∃ e, d'.entryOf r cls = some e ∧ e.merges = 0 ∧ e.escalations = 0 ∧ (¬device → e.level.val = level)) ∧
      ∀ e : OpenEnt, d.entryOf r cls = some e → (wide r = true → d'.entryOf r cls = some { e with escalations := satInc e.escalations }) ∧
        (wide r = false → d'.entryOf r cls = some { e with merges := satInc e.merges })) ∧
    (d'.fault.merges = if rs.any fun r => (d.entryOf r cls).isSome && !wide r then d.fault.merges + 1 else d.fault.merges))

/-! ## What the consequences of a command never touch -/

/-- What stays of a record when the fields that reactions, deliveries and mode changes write are blanked. -/
def Pwm.kept (p : Pwm) : Pwm :=
  { p with mask := { p.mask with shed := false, ember := false, card := false }, maskChanges := [], hostOvr := false, hostStartWait := false, hostStarted := false, loadShadow := none, loopShadow := none, zeroDue := false, cHi := .held, tapHi := 0, flareOn := false, flarePulse := false, flareLift := false, arcTgt := 0, startEdge := none, blankUntil := none, valley := 0, upLen := 0, downLen := 0, down := false, cmd := false, hi := false, gh := false, gl := false, edgeAt := none, ghAt := none, glAt := none }
def Ctx.kept (c : Ctx) : Ctx := { cmpOsh := c.cmpOsh, polarity := c.polarity, ref := c.ref }
def LoopEng.kept (l : LoopEng) : LoopEng :=
  { l with ctx := mapV l.ctx fun _ c => c.kept, queue := [], ended := [], qmax := 0, fab := {}, rails := mapV l.rails fun _ x => { x with divLeft := none } }
def Rail.kept (x : Rail) : Rail :=
  { x with mode := .off, flare := none, flareLastExit := none, notice := none, addWait := none, burst := none, burstMembers := 0, shedSince := none, addSince := none, emberSince := none, m0Wait := none, shortSleeps := 0, staleRun := 0, toffAt := none, hiccupFrom := .ramp, hiccups := 0, regSince := none, oltEn := false, spread := 0 }
def Win.kept (w : Win) : Win := { w with rtLoCode := 0, rtHiCode := 0, rtLoOn := false, rtHiOn := false, rtLoSettle := none, rtHiSettle := none, rtLo := false, rtHi := false }
def Prot.kept (p : Prot) : Prot :=
  { p with trips := mapV p.trips fun _ x => { x with settleUntil := none, hold := false }, wins := mapV p.wins fun _ w => w.kept }
def Port.kept (p : Port) : Port :=
  { p with tempHold := false, hot := false, cold := false, openIn := false, hotRun := 0, coldRun := 0, nextPoint := none, takePhase := false, inreg := false, phase := .none, stopCause := 0, phaseSince := 0, dwellRun := 0, termSince := none, dones := 0, iNow := 0 }
def FaultMgr.kept (f : FaultMgr) : FaultMgr :=
  { f with src := mapV f.src fun _ x => { force := x.force, forcedInst := x.forcedInst }, entries := Vector.replicate 8 [], pend := false, alertSeq := 0, reactions := 0, merges := 0, seen := [], due := [], events := [] }
def Lantern.kept (l : Lantern) : Lantern :=
  { droppedSeqs := l.droppedSeqs, store := l.store, writePtr := l.writePtr, torn := l.torn, snaps := l.snaps, floor := l.floor, clears := l.clears, repeatWin := l.repeatWin, rlDepth := l.rlDepth, rlRate := l.rlRate, gaps := l.gaps, rselLo := l.rselLo, rselHi := l.rselHi, selSeq := l.selSeq, snapSel := l.snapSel, storeBad := l.storeBad, stagedBusy := l.stagedBusy }
def Link.kept (l : Link) : Link :=
  { l with window := [], tx := [], replay := [], lastStatus := 0, lastData := [], holding := false, rdyFell := none, rdyLows := [], fullSince := none, fulls := [], doneCycle := none }
def Trust.kept (t : Trust) : Trust :=
  { slots := t.slots, claimOpen := t.claimOpen, devkeyBad := t.devkeyBad, ownerSel := t.ownerSel, running := t.running, waiting := t.waiting }

def Card.kept (c : Card) : Card := { c with state := .absent, fail := 0, since := 0 }

/-- The part of the device that no consequence of a command writes: the clocks and the time base, every register the host writes
    but the few above, coefficients, calibration values, set-points, thresholds, keys and counters of other events. -/
def Dev.kept (d : Dev) : Dev :=
  { d with sys := { d.sys with devState := .boot, latchCause := 0 }, tile := { d.tile with rt := { d.tile.rt with stopAsked := none } }, pwm := mapV d.pwm fun _ p => p.kept, sense := { d.sense with quads := Vector.replicate 4 {}, stage := none, result := 0 }, loop := d.loop.kept, rails := mapV d.rails fun _ x => x.kept, cards := mapV d.cards fun _ c => c.kept, prot := d.prot.kept, ports := mapV d.ports fun _ p => p.kept, fault := d.fault.kept, lantern := d.lantern.kept, trust := d.trust.kept, link := d.link.kept, chord := { d.chord with events := Vector.replicate 8 {}, holdMarks := 0, holdReports := 0 }, leave := { d.leave with queue := [], grants := [] }, banks := {}, test := { d.test with phase := none, phaseRes := 0 }, cyc := {}, free := 0 }

/-! ## Resets -/

/-- The device as a reset leaves it (R84, R117, R118, R139): in BOOT with the start to run named, every activity stopped, and what
    MRAM and the journal's store hold as it was, but for the words or the row whose write the reset cut (R118, R429, R448, R534). -/
structure Dev.EnteredBoot (d d' : Dev) (cold : Bool) (cause : BitVec 4) (trip : BitVec 5) : Prop where
  state : d'.sys.devState = .boot ∧ d'.sys.bootHold = false ∧ d'.sys.latchCause = 0
  start : d'.sys.start = some { cold := cold }
  report : d'.sys.cause = cause ∧ d'.sys.tripSupply = trip ∧ d'.sys.failStep = 0 ∧
    d'.sys.prevState = if cause = 1 then 7 else d.sys.devState.code
  clock : d'.clk.pllLock = false ∧ d'.clk.onBackup = !cold ∧ d'.clk.now = d.clk.now
  rails : ∀ r : RailIx, d'.rails[r].mode = .off
  gates : d'.gatesOff
  link : d'.link.window = [] ∧ d'.link.replay = [] ∧ d'.link.tx = [] ∧ d'.link.expect = 0 ∧ d'.link.epoch = d.link.epoch ∧
    d'.link.rxSync = false ∧ d'.chord.txDn = none ∧ d'.chord.txUp = none
  engines : d'.leave.queue = [] ∧ d'.leave.grants = [] ∧ d'.trust.running = [] ∧ d'.trust.waiting = [] ∧ d'.tile.load = none ∧
    d'.tile.verify = none ∧ d'.tile.rt.state = .idle ∧ d'.sense.stage = none ∧ d'.banks.leaseSince = none
  mram : d'.sys.boot = d.sys.boot ∧ d'.tile.slotA = d.cutWrite.tile.slotA ∧ d'.tile.slotB = d.cutWrite.tile.slotB ∧ d'.tile.mark1 = d.tile.mark1 ∧
    d'.tile.mark2 = d.tile.mark2 ∧ d'.tile.highGen = d.tile.highGen ∧ d'.sense.cal = d.sense.cal ∧
    d'.trust.slots = d.cutWrite.cutToken.trust.slots ∧ d'.trust.claimOpen = d.cutWrite.cutToken.trust.claimOpen ∧ d'.lantern.snaps = d.lantern.snaps
  row : (d'.lantern.store = d.lantern.store ∧ d'.lantern.torn = d.lantern.torn) ∨
    ∃ p, d'.lantern.store = (d.lantern.store.filter fun x => x.1 != p) ∧ p ∈ d'.lantern.torn
  frame : d.onlyIn d' [.sys, .clk, .tile, .rails, .cards, .ports, .sense, .trust, .link, .chord, .leave, .banks, .test, .fault, .lantern, .free]

end Sys2Proof.Machine
end

