-- ==== Sys2Proof/Certificates/Slice0/Obligations.lean ====
section
/-! DEFINITION. The statements for the provers. `s.after t d` is the state after a command at tick `t` that left the device as `d`, with
    its consequences settled; what those may touch is `Obligations.ConsequencesKeepTheRest`. -/

open Sys2Proof Sys2Proof.Machine

/-! ## The machine as a whole -/

/-- A step executes the command at the front of the queue with the queue's rest, and idles on an empty queue (the model's choice,
    assumption 2). Every command completes, in every state: none ends in a fault or a refusal (the model's choice, assumption 3). -/
def Obligations.StepExecutesTheFrontCommand : Prop :=
  (∀ (s : State) (c : Instr) (rest : List Instr), s.pending = c :: rest → step s = exec c { s with pending := rest }) ∧
    (∀ s : State, s.pending = [] → step s = .next s) ∧
    ∀ (c : Instr) (s : State), ∃ s' : State, exec c s = .next s'

/-- The machine right after power-on: BOOT, a cold start to run, cause 1 and PREV_STATE 7, every gate output off, every rail OFF, no
    command waiting, the PLL not locked, RDY held low, SAFE demanding a stop (R35, R117, R139, R210, R354, R468). What the spec does not say
    of the moment before the first lock, the stop demand, the clock and the kind of the start that runs among it, is the model's choice
    (assumption 9). -/
def Obligations.PowerOnStateHolds : Prop :=
  let d := State.reset.dev
  d.sys.devState = .boot ∧ d.sys.start = some { cold := true } ∧ d.sys.cause = 1 ∧ d.sys.prevState = 7 ∧ d.sys.bootHold = false ∧
    d.clk.pllLock = false ∧ d.clk.onBackup = false ∧ (∀ r : RailIx, d.rails[r].mode = .off) ∧ d.gatesOff ∧ d.prot.stop = true ∧
    d.rdy = false ∧ d.tile.tiled = false ∧ d.link.window = [] ∧ State.reset.pending = [] ∧ State.reset.memOk

/-- A transaction of the host link does nothing while the link is blocked or where it is not the first of the window that has not
    executed; in boot hold one that is not allowed there has status REFUSED_STATE and no other effect (R137, R468, R471, R478, R480). That a
    command no transaction of the window asks for passes time only is the model's choice (assumption 5). None executes in the LOOP_CLK
    cycle in which the one before it completed (R478). Forming a response: status and payload stand as those of the last transaction, the first transaction of the window that has not
    executed is marked executed and its response joins the transmitter and the replay store, which keeps the newest eight; nothing
    else changes (R461, R464, R467). -/
def Obligations.TransactionsWaitAndAreAnsweredOnce : Prop :=
  (∀ (c : Instr) (s : State) (t : Tick) (inHold : Bool) (payload : List Byte), c.transaction = some (t, inHold, payload) →
    let d := s.dev.advance t
    (d.linkBlocked = true ∨ d.asked c = false → exec c s = .next (s.after t d)) ∧
      (d.linkBlocked = false → d.asked c = true → d.sys.bootHold = true → inHold = false → exec c s = .next (s.after t (d.reply stState payload))) ∧
      (d.link.doneCycle = some d.cycle → exec c s = .next (s.after t d))) ∧
  (∀ (d : Dev) (st : Byte) (data : List Byte),
    let d' := d.reply st data
    d'.link.lastStatus = st ∧ d'.link.lastData = data ∧ d'.link.holding = false ∧ d'.link.doneCycle = some d.cycle ∧ d.onlyIn d' [.link] ∧
      d'.link.expect = d.link.expect ∧ d'.link.frames = d.link.frames ∧ d'.link.epoch = d.link.epoch ∧
      ((∀ x ∈ d.link.window, x.done = true) → d'.link.window = d.link.window ∧ d'.link.tx = d.link.tx ∧ d'.link.replay = d.link.replay) ∧
      ∀ (pre post : List Taken) (x : Taken), d.link.window = pre ++ x :: post → (∀ y ∈ pre, y.done = true) → x.done = false →
        let r : Response := { seq := x.seq, status := st, expect := d.link.expect, epoch := d.link.epoch.setWidth 8, op := byteAt x.payload 0, payload := data }
        d'.link.window = pre ++ { x with done := true } :: post ∧ d'.link.tx = d.link.tx ++ [.response r] ∧
          d'.link.replay = (d.link.replay ++ [r]).drop (d.link.replay.length + 1 - 8))

/-- What no consequence of a command ever writes: the deliveries and mode changes that end a command leave what `Dev.kept` does not
    blank as the command's own effect left it: the clocks and the time base, the set-points, thresholds and calibration values, the keys,
    the image, the counters of Chord and of the leave governor, and the host's registers but for OLT_EN, HOST_OVR, the masks and the
    pending bits; of a card all but its qualification state, what failed and since when. The reactions that start as time passes, one
    LOOP_CLK cycle after their faults (R409), leave it as the passing of time alone does. Where no reaction, no fault to be seen, no
    malformed transaction and no completion is due and RDY is not low, the passing of time moves the clock alone (R128, R478). That what
    follows from a command settles within it is the model's choice (assumption 3). -/
def Obligations.ConsequencesKeepTheRest : Prop :=
  (∀ (old d : Dev), (Dev.finish old d).kept = d.kept) ∧
  ∀ (d : Dev) (t : Tick), (d.advance t).kept = (d.clockTo t).kept ∧ (d.fault.due = [] → d.fault.seen = [] → d.malformed = none → d.loop.ended = [] → d.link.rdyFell = none → d.advance t = d.clockTo t)

/-- Every step keeps the scratchpad in canonical form: addresses rise strictly within banks 0 to 2 and no listed byte is 0 (R512). -/
def Obligations.EveryStepKeepsTheScratchpadCanonical : Prop :=
  ∀ s s' : State, s.memOk → step s = .next s' → s'.memOk

/-- Reset leaves the scratchpad canonical and every byte of it 0: after a cold start it is (R133, R512), before the first one it is the
    model's choice (assumption 8). A word written to the scratchpad reads back, and every byte outside it reads as before (R5, R512). -/
def Obligations.TheScratchpadReadsWhatWasWritten : Prop :=
  (State.reset.memOk ∧ ∀ a : Nat, Memory.read State.reset.mem a = 0) ∧
  (∀ (m : List Host.Cell) (a : Nat) (v : Word), Memory.wf m = true → scratchBase ≤ a → a + 4 ≤ bank3Base →
    Memory.word (Memory.setWord m a v) a = v ∧ ∀ b : Nat, b < a ∨ a + 4 ≤ b → Memory.read (Memory.setWord m a v) b = Memory.read m b)

/-- Only the transactions on the scratchpad and the three operations that zero it change a byte of it, and no command changes what
    waits behind it (R133, R512, R529). -/
def Obligations.OtherCommandsKeepScratchpadAndQueue : Prop :=
  ∀ (c : Instr) (s s' : State), exec c s = .next s' → s'.pending = s.pending ∧ (c.keepsScratch = true → s'.mem = s.mem)

/-- While SAFE demands a stop, on the backup oscillator, under EXTEST or CLAMP, and in BOOT, UNTILED and LATCHED, both outputs of
    every phase are off at stage E; those of a phase are while its trip latch or its interlock latch stands, and while its rail is in
    HICCUP, HOLD or OFF, where a phase under HOST_OVR whose start has leave is held off by HICCUP and HOLD only (assumption 20); and no
    phase ever has both on (R36, R108, R199, R210, R223, R355). -/
def Obligations.StageDHoldsEveryPhaseOff : Prop :=
  ∀ d : Dev, (d.mustBeOff → d.gatesOff) ∧ ∀ n : PhaseIx,
    (d.prot.trips[n].latch = true ∨ d.pwm[n].ilkLatch = true → d.emitted n = (false, false)) ∧
    (∀ r : RailIx, d.railOf n = some r → d.rails[r].mode = .hiccup ∨ d.rails[r].mode = .hold ∨
      (d.rails[r].mode = .off ∧ ¬(d.pwm[n].hostOvr = true ∧ d.pwm[n].hostStarted = true)) → d.emitted n = (false, false)) ∧
    d.emitted n ≠ (true, true)

/-! ## Resets, starts, clocks and the device state -/

/-- Each reset source enters BOOT with the start and the cause of R117: power-on, a supply trip and a VDDL dip of 2 µs or more begin a
    cold start; RST_N, the housekeeping watchdog and a clock failure that has lasted 20 ms begin a warm one, or a cold one while a start
    runs. A shorter VDDL dip only puts the gate outputs at high impedance, and in boot hold RST_N and the watchdog do nothing (R55, R58,
    R84, R85, R110, R117, R136, R139). -/
def Obligations.ResetsEnterBoot : Prop :=
  (∀ (s : State) (t : Tick), ∃ d', exec (.powerOn t) s = .next (s.after t d') ∧ (s.dev.advance t).EnteredBoot d' true 1 0) ∧
  (∀ (s : State) (t : Tick) (mask : BitVec 5), mask ≠ 0 →
    ∃ d', exec (.supplyMonitorTrip t mask) s = .next (s.after t d') ∧ (s.dev.advance t).EnteredBoot d' true 2 mask) ∧
  (∀ (s : State) (t : Tick) (len : Nat), let d := s.dev.advance t
    (960 ≤ len → ∃ d', exec (.vddlDip t len) s = .next (s.after t d') ∧ d.EnteredBoot d' true 2 4) ∧
    (len < 960 → exec (.vddlDip t len) s =
      .next (s.after t { d with sys := { d.sys with hiZUntil := max d.sys.hiZUntil (d.clk.now + len) } }))) ∧
  ∀ (s : State) (t : Tick), let d := s.dev.advance t
    (d.sys.bootHold = false →
      (∃ d', exec (.rstNAsserted t) s = .next (s.after t d') ∧ d.EnteredBoot d' (d.sys.devState == .boot) 3 0) ∧
      (∃ d', exec (.hkWatchdogReset t) s = .next (s.after t d') ∧ d.EnteredBoot d' (d.sys.devState == .boot) 5 0) ∧
      ∀ f : Tick, d.clk.failAt = some f → f + 9600000 ≤ d.clk.now →
        ∃ d', exec (.clockWatchdogReset t) s = .next (s.after t d') ∧ d.EnteredBoot d' (d.sys.devState == .boot) 4 0) ∧
    (d.sys.bootHold = true →
      exec (.rstNAsserted t) s = .next (s.after t d) ∧ exec (.hkWatchdogReset t) s = .next (s.after t d))

/-- A cold start whose steps succeed ends in STANDBY with the image of the slot marked committed, else of the other slot, else in
    UNTILED; it counts itself, starts the time base at its lock, zeroes the scratchpad and marks the damaged calibration entries (R111,
    R119, R122, R123, R133, R134, R159). -/
def Obligations.ColdStartCompletes : Prop :=
  ∀ (s : State) (t : Tick) (o : ColdOutcome) (p : StartPending), let d := s.dev.advance t
    d.sys.start = some p → p.cold = true → o.failStep = 0 → o.cut = false → (o.badBoot1 && o.badBoot2) = false →
    d.sys.boot.hold = false → d.sys.boot.failCount.toNat < 2 →
    let marks := d.tile.fresh o.badSlotA o.badSlotB
    let keys := Trust.keys { d.trust with slots := mapV d.trust.slots fun i x => if o.badOwner.getLsbD i.val then { x with st := .damaged } else x }
    let holds := fun (b : Bool) (x : Tiling) => (marks.slot b).recLen.isSome = true ∧ (marks.slot b).verify keys = .ok x
    let m := d.tile.mark.slotB
    ∃ d', exec (.coldStart t o) s = .next { s.after t d' with mem := [] } ∧
      d'.sys.start = none ∧ d'.sys.devState = (if d'.tile.tiled then .standby else .untiled) ∧ d'.sys.kindWarm = false ∧
      d'.sys.warmCount = 0 ∧ d'.sys.sigSkipped = false ∧ d'.sys.rdyLowStart = false ∧ (d.locked = false → d'.sys.vddlLow = false) ∧
      d'.sys.boot.coldCount = satInc d.sys.boot.coldCount ∧ d'.sys.boot.hold = false ∧ d'.sys.boot.startFails = [] ∧
      d'.clk = { now := o.sinceLock, lastLock := o.lockUs, pllLock := true } ∧ d'.link.epoch = (if d.locked then d.link.epoch else d.link.epoch + 1) ∧
      (∀ r : RailIx, d'.rails[r].mode = .off) ∧ d'.trust.chalCount = d.trust.chalCount + 1 ∧ d'.sense.unlockUntil = none ∧
      (∀ e : CalIx, d'.sense.cal[e] = if o.badCal.getLsbD e.val then { d.sense.cal[e] with valid := false } else d.sense.cal[e]) ∧
      (∀ x, holds m x → d'.tile.tiled = true ∧ d'.tile.runB = m ∧ d'.tile.committed = x ∧ d'.sys.fallback = false) ∧
      (∀ x, (¬∃ y, holds m y) → holds (!m) x → d'.tile.tiled = true ∧ d'.tile.runB = !m ∧ d'.tile.committed = x ∧ d'.sys.fallback = true) ∧
      ((¬∃ b y, holds b y) → d'.tile.tiled = false)

/-- A cold start that fails in step 2 begins again with cause 6 and the failing step; one that finds HOLD set waits in boot hold, no
    image running (R119, R121, R136). -/
def Obligations.FailedAndHeldColdStarts : Prop :=
  ∀ (s : State) (t : Tick) (o : ColdOutcome) (p : StartPending), let d := s.dev.advance t
    d.sys.start = some p → p.cold = true →
    (o.failStep = 2 → ∃ d', exec (.coldStart t o) s = .next { s.after t d' with mem := s.mem } ∧ d'.sys.devState = .boot ∧
      d'.sys.start = some { cold := true } ∧ d'.sys.cause = 6 ∧ d'.sys.failStep = 2 ∧
      d'.sys.boot = { d.sys.boot with startFails := d.sys.boot.startFails ++ [{ step := 2, tick := 0 }] }) ∧
    (o.failStep = 0 → o.cut = false → (o.badBoot1 && o.badBoot2) = false → d.sys.boot.hold = true →
      ∃ d', exec (.coldStart t o) s = .next { s.after t d' with mem := s.mem } ∧ d'.sys.devState = d.sys.devState ∧
        d'.sys.bootHold = true ∧ d'.sys.start = none ∧ d'.tile.tiled = false ∧ d'.sys.rdyLowStart = false ∧ d'.sys.boot.hold = true ∧
        d'.clk.pllLock = true ∧ d'.link.epoch = if d.locked then d.link.epoch else d.link.epoch + 1)

/-- A warm start whose steps succeed keeps the time base, the scratchpad and the host's settings, counts itself, relocks at an even
    count, and runs the retained image again without a verification when its digest and generation stand (R14, R111, R129, R130). -/
def Obligations.WarmStartCompletes : Prop :=
  ∀ (s : State) (t : Tick) (o : WarmOutcome) (p : StartPending), let d := s.dev.advance t
    d.sys.start = some p → p.cold = false → o.cut = false → o.noLock = false → o.w4Fails = false → d.sys.boot.hold = false →
    d.sys.boot.failCount.toNat < 2 →
    let marks := d.tile.fresh o.badSlotA o.badSlotB
    let b := d.tile.runningSlot
    ∃ d', exec (.warmStart t o) s = .next (s.after t d') ∧ d'.sys.start = none ∧
      d'.sys.devState = (if d'.tile.tiled then .standby else .untiled) ∧ d'.sys.kindWarm = true ∧
      d'.sys.warmCount = satInc d.sys.warmCount ∧ d'.sys.rdyLowStart = false ∧ d'.clk.pllLock = true ∧ d'.clk.onBackup = false ∧
      d'.clk.failAt = none ∧ d'.tb = (d.tb + 1) / 2 * 2 ∧ d.clk.now ≤ d'.clk.now ∧ d'.clk.now ≤ d.clk.now + 1 ∧
      d'.clk.lastLock = o.lockUs ∧ d'.link.epoch = (if d.locked then d.link.epoch else d.link.epoch + 1) ∧ (∀ r : RailIx, d'.rails[r].mode = .off) ∧
      d'.sp.vtab = d.sp.vtab ∧ d'.pwmg.rper = d.pwmg.rper ∧ d'.sense.cal = d.sense.cal ∧ d'.trust.slots = d.trust.slots ∧
      d'.sense.unlockUntil = none ∧ d'.leave.budget = d.leave.budget ∧
      (marks.digestHolds b = true → d'.tile.tiled = true ∧ d'.tile.runB = b ∧ d'.sys.sigSkipped = true ∧
        d'.tile.committed = tilingOf (marks.slot b).content ∧ d'.sys.fallback = (b != d.tile.mark.slotB))

/-- The failure window of R135 and the RETRY of R138: where the present count of the time base, or the present edge of 12 counts on the
    backup oscillator, comes to or passes a multiple of 10 s, an open window grows by one, at 60 of them it closes and the failures are
    forgotten, unless three stand, and elsewhere it stays as it is; and a RETRY in boot hold clears window, failures and HOLD and asks for
    the cold start, which begins once its response has left. -/
def Obligations.BootWindowAndRetry : Prop :=
  (∀ (s : State) (t : Tick), let d := s.dev.advance t; let b := d.sys.boot
    let before := d.clk.tbAt (d.clk.now - if d.clk.onBackup then 12 else 1)
    ((∀ k, ¬(before < 4800000000 * k ∧ 4800000000 * k ≤ d.tb)) → d.tb ≠ 0 → exec (.bootWindowTick t) s = .next (s.after t d)) ∧
    ∀ k, (before < 4800000000 * k ∨ d.tb = 0) → 4800000000 * k ≤ d.tb → exec (.bootWindowTick t) s = .next (s.after t { d with sys := { d.sys with boot :=
      if b.windowOpen = false then b
      else if (b.window = 59 ∨ b.window = 60) ∧ b.failCount ≠ 3 then { b with window := 0, windowOpen := false, failCount := 0, failCauses := [] }
      else { b with window := if b.window.toNat < 60 then b.window + 1 else b.window } } })) ∧
  ∀ (s : State) (t : Tick) (v : Word), let d := s.dev.advance t
    d.linkBlocked = false → d.asked (.retry t v) = true → d.sys.bootHold = true → v.getLsbD 0 = true →
    ∃ d', exec (.retry t v) s = .next (s.after t d') ∧ d'.link.lastStatus = stOk ∧ d'.sys.retryPending = true ∧ d'.sys.bootHold = true ∧
      d'.sys.boot = { d.sys.boot with window := 0, windowOpen := false, hold := false, failCount := 0, failCauses := [] } ∧
      d.onlyIn d' [.sys, .lantern, .link, .fault]

/-- A clock failure moves the core to the backup oscillator, counts, marks the time base uncertain, holds RDY low and discards what the
    link has not executed, the transaction that holds the link with its job too, and the frames it has to send but the responses
    (assumption 106); the PLL's relock undoes the move and resumes the time base at an even count; a retry that finds no lock
    changes nothing; in the course of a start the lock counts the start in EPOCH and opens the line, and of a cold
    start it finds the supplies passed and makes both SAFE channels demand stop until each takes a level (R55, R107 to R111, R354, R459, R480,
    R481). -/
def Obligations.ClockFailureAndRelock : Prop :=
  (∀ (s : State) (t : Tick) (refLoss : Bool), let d := s.dev.advance t
    d.clk.pllLock = true → ∃ d', exec (.clockFailure t refLoss) s = .next (s.after t d') ∧
      d'.clk = { d.clk with refOk := d.clk.refOk && !refLoss, unlockCount := satInc d.clk.unlockCount, onBackup := true, pllLock := false, tbUncertain := true, failAt := some d.clk.now, backupFrom := some d.clk.now } ∧
      d'.sys = { d.sys with rdyLowBackup := true } ∧ d'.link.window = d.link.window.filter (·.done) ∧ d'.link.holding = false ∧
      d'.link.expect = (match d.link.window.filter fun x => !x.done with | x :: _ => x.seq | [] => d.link.expect) ∧
      d'.link.tx = (d.link.tx.filter fun f => match f with | .response _ => true | _ => false) ∧
      (d.sys.devState ≠ .boot → d'.causeOf srcUnlock 0 = true ∧ (refLoss = true → d'.causeOf srcRefLoss 0 = true)) ∧
      (d.link.holding = true → d.trust.running.any TrustJob.hosted = true → d'.trust.running.any TrustJob.hosted = false) ∧
      (d.link.holding = false → d.onlyIn d' [.sys, .clk, .link, .fault]) ∧ d.onlyIn d' [.sys, .clk, .tile, .trust, .link, .leave, .fault]) ∧
  (∀ (s : State) (t : Tick), exec (.lockRetry t) s = .next (s.after t (s.dev.advance t))) ∧
  (∀ (s : State) (t : Tick) (us : BitVec 16) (f : Tick), let d := s.dev.advance t
    d.clk.failAt = some f → ∃ d', exec (.pllRelock t us) s = .next (s.after t d') ∧ d'.clk.pllLock = true ∧ d'.clk.refOk = true ∧
      d'.clk.onBackup = false ∧ d'.clk.failAt = none ∧ d'.clk.lastLock = us ∧ d.clk.now ≤ d'.clk.now ∧
      d'.clk.now ≤ d.clk.now + 1 ∧ d'.tb = (d.tb + 1) / 2 * 2 ∧ d'.sys = { d.sys with rdyLowBackup := false } ∧
      d'.link = { d.link with lineFrom := d'.clk.now, framed := true, upFrom := d'.clk.now } ∧ (d.sys.devState = .boot → d.onlyIn d' [.sys, .clk, .link]) ∧
      (d.sys.devState ≠ .boot → d'.causeOf srcUnlock 0 = d.fault.src[srcUnlock].force ∧ d.onlyIn d' [.sys, .clk, .pwm, .pwmg, .sense, .fault, .link])) ∧
  ∀ (s : State) (t : Tick) (us : BitVec 16) (p : StartPending), let d := s.dev.advance t
    let sys : Sys := { d.sys with start := some { p with locked := true } }
    let link : Link := { d.link with epoch := d.link.epoch + 1, lineFrom := d.clk.now, upFrom := d.clk.now }
    d.clk.failAt = none → d.sys.start = some p → d.locked = false → exec (.pllRelock t us) s = .next (s.after t (
      if p.cold then { d with sys := { sys with vddlLow := false }, prot := { d.prot with aStop := true, bStop := true }, link := link }
      else { d with sys := sys, link := link }))

/-- A read of TB_LO returns the low half of the time base and copies the upper half into TB_HI; a write of EPOCH_HI copies the whole
    time base and journals the epoch (R113, R114). A reading of the die temperature is stored and starts, keeps or ends the dwell of each flag; once a dwell of 10 ms has run the flag
    changes and its cause follows it: DIE_HOT above 100 °C until 97 °C or less, DIE_OVERTEMP above 110 °C until 107 °C or less (R101,
    R102). JTAG pins and VSEL codes are stored as the pins show them (R57, R59, R367). -/
def Obligations.TimeBaseSensorsAndPinsAreTaken : Prop :=
  ((∀ (s : State) (t : Tick), let d := s.dev.advance t
    d.linkBlocked = false → d.asked (.tbLoRead t) = true → exec (.tbLoRead t) s = .next (s.after t
      (Dev.reply { d with clk := { d.clk with tbHi := lo32 (d.tb >>> 32) } } stOk (leBytes 4 (d.tb % 4294967296))))) ∧
  ∀ (s : State) (t : Tick) (v : Word), let d := s.dev.advance t
    d.takesHost (.epochHiWrite t v) → exec (.epochHiWrite t v) s = .next (s.after t (Dev.reply (Dev.note
      { d with clk := { d.clk with epochHi := v, epochTbLo := lo32 d.tb, epochTbHi := lo32 (d.tb >>> 32) } }
      0x0016 0 0xFFFF (leBytes 4 d.clk.epochLo.toNat ++ leBytes 4 v.toNat ++ leBytes 8 d.tb)) stOk))) ∧
  ((∀ (s : State) (t : Tick) (code : BitVec 12), let d := s.dev.advance t
    exec (.dieTempReading t code) s = .next (s.after t { d with sys := { d.sys with
      temp := code
      hotSince := if (if d.sys.hot then code.toInt ≤ 776 else 800 < code.toInt) then some (d.sys.hotSince.getD d.clk.now) else none
      overSince := if (if d.sys.overtemp then code.toInt ≤ 856 else 880 < code.toInt) then some (d.sys.overSince.getD d.clk.now) else none } })) ∧
  (∀ (s : State) (t : Tick), let d := s.dev.advance t
    let due := fun (x : Option Tick) => match x with | some u => decide (u + 4800000 ≤ d.clk.now) | none => false
    ∃ d', exec (.dieTempDwell t) s = .next (s.after t d') ∧
      d'.sys = { d.sys with
        hot := d.sys.hot != due d.sys.hotSince
        hotSince := if due d.sys.hotSince then none else d.sys.hotSince
        overtemp := d.sys.overtemp != due d.sys.overSince
        overSince := if due d.sys.overSince then none else d.sys.overSince } ∧
      d'.causeOf srcDieHot 0 = (d'.sys.hot || d.eventNow srcDieHot 0 || d.fault.src[srcDieHot].force) ∧
      d'.causeOf srcDieOvertemp 0 = (d'.sys.overtemp || d.eventNow srcDieOvertemp 0 || d.fault.src[srcDieOvertemp].force) ∧
      d.onlyIn d' [.sys, .fault]) ∧
  (∀ (s : State) (t : Tick) (on : Bool), let d := s.dev.advance t
    exec (.jtagExtestClamp t on) s = .next (s.after t { d with sys := { d.sys with jtag := on } })) ∧
  ∀ (s : State) (t : Tick) (code : BitVec 4), let d := s.dev.advance t
    ∃ d', exec (.vselCodeTaken t code) s = .next (s.after t d') ∧ d'.sys = { d.sys with vselLvl := code } ∧
      d'.sp = (if d.sys.devState = .boot then d.sp else { d.sp with taken := true, vsel := code }) ∧
      d'.pinLevels &&& 0xF00 = code.setWidth 32 <<< 8 ∧ d.onlyIn d' [.sys, .sp])

/-- MAINT is entered from STANDBY and LATCHED with every rail OFF, and from a RUN that the same LOOP_CLK cycle has entered from STANDBY, which
    is dropped for it (R40); MAINT_EXIT returns to STANDBY, ends every HOST_OVR and loads the
    structure anew, LATCH_RELEASE returns to RUN or STANDBY, both only while no L3 or L4 status bit is set. In the LOOP_CLK cycle in which
    a reaction has taken the device to LATCHED, MAINT_ENTER and LATCH_RELEASE are dropped with REFUSED_FAULT (R40). A WRITE of SYS.CTRL
    with more than one request is REFUSED_STATE and requests nothing, one with none is OK without effect (R36, R37, R40, R45, R46, R199). The
    status of what R40 drops is the model's reading (assumption 22). -/
def Obligations.MaintenanceAndLatchRelease : Prop :=
  ∀ (s : State) (t : Tick), let d := s.dev.advance t
    let drops := d.sys.devState = .run ∧ d.cyc.no = d.cycle ∧ d.cyc.state = .standby
    (d.takesHost (.maintEnter t) → let st := d.sys.devState
      (d.latchedNow = true → exec (.maintEnter t) s = .next (s.after t (d.reply stFault))) ∧
      (d.latchedNow = false → st = .standby ∨ st = .latched ∨ drops → ∃ d', exec (.maintEnter t) s = .next (s.after t d') ∧
        d'.link.lastStatus = stOk ∧ d'.sys.devState = .maint ∧ d'.sys.latchCause = 0 ∧ d'.allOff = true) ∧
      (d.latchedNow = false → st ≠ .standby → st ≠ .latched → ¬drops → exec (.maintEnter t) s = .next (s.after t (d.reply stState)))) ∧
    (d.takesHost (.maintExit t) →
      (d.sys.devState = .maint → d.hasSevere = false → ∃ d', exec (.maintExit t) s = .next (s.after t d') ∧ d'.link.lastStatus = stOk ∧
        d'.sys.devState = .standby ∧ d'.tile.loading = some .restore ∧ d'.sys.rdyLowCommit = true ∧ ∀ n : PhaseIx, d'.pwm[n].hostOvr = false) ∧
      (d.sys.devState = .maint → d.hasSevere = true → exec (.maintExit t) s = .next (s.after t (d.reply stCause))) ∧
      (d.sys.devState ≠ .maint → exec (.maintExit t) s = .next (s.after t (d.reply stState)))) ∧
    (d.takesHost (.latchRelease t) →
      (d.latchedNow = true → exec (.latchRelease t) s = .next (s.after t (d.reply stFault))) ∧
      (d.latchedNow = false → d.sys.devState = .latched → d.hasSevere = false → ∃ d', exec (.latchRelease t) s = .next (s.after t d') ∧
        d'.link.lastStatus = stOk ∧ d'.sys.devState = (if d.allOff then .standby else .run) ∧ d'.sys.latchCause = 0 ∧
        d.onlyIn d' [.sys, .lantern, .link, .fault]) ∧
      (d.latchedNow = false → d.sys.devState = .latched → d.hasSevere = true → exec (.latchRelease t) s = .next (s.after t (d.reply stCause))) ∧
      (d.latchedNow = false → d.sys.devState ≠ .latched → exec (.latchRelease t) s = .next (s.after t (d.reply stState)))) ∧
    ∀ v : Word, d.takesHost (.write t 0x000008 v) → d.sys.retryPending = false →
      (1 < ((List.finRange 3).filter fun i => v.getLsbD i.val).length → exec (.write t 0x000008 v) s = .next (s.after t (d.reply stState))) ∧
      (((List.finRange 3).all fun i => !v.getLsbD i.val) = true → exec (.write t 0x000008 v) s = .next (s.after t (d.reply stOk)))

/-! ## Images and retiling -/

/-- TILE_BLOCK opens a load with a first unit of 128 bytes that passes the header's checks, takes each next unit in its place, and
    with the last one composes the image, checks it and asks leave for the verification while the link waits; a unit out of place
    is refused (R160, R161, R478). -/
def Obligations.ImageLoadsTakeTheirUnits : Prop :=
  ∀ (s : State) (t : Tick) (off : Word) (data : List Byte), let d := s.dev.advance t
    d.takesHost (.tileBlock t off data) → d.sys.devState ≠ .boot → d.tile.loading = none → d.tile.verify = none → d.tile.rt.active = false →
    d.tile.completing = false → data.length % 4 = 0 → data.length ≠ 0 → data.length ≤ 128 →
    (off = 0 → data.length = 128 → headerCheck data none = 0 → exec (.tileBlock t off data) s =
      .next (s.after t (Dev.reply { d with tile := { d.tile with load := some { bytes := data, total := imgLen data } } } stOk))) ∧
    (∀ l : Load, d.tile.load = some l → off.toNat = l.bytes.length → off ≠ 0 → data.length = 128 → l.bytes.length + 128 < l.total →
      exec (.tileBlock t off data) s =
        .next (s.after t (Dev.reply { d with tile := { d.tile with load := some { l with bytes := l.bytes ++ data } } } stOk))) ∧
    (∀ (l : Load) (full : List Byte), d.tile.load = some l → off.toNat = l.bytes.length → off ≠ 0 → l.bytes.length + data.length = l.total →
      loadCheck (l.bytes ++ data) d.tile.runBytes = .ok full → d.leave.queue.length < 32 → 300 ≤ d.leave.budget.toNat →
      exec (.tileBlock t off data) s = .next (s.after t { d with
        tile := { d.tile with load := some { l with bytes := l.bytes ++ data, stage := some .leaveSig, full := full } }
        leave := { d.leave with queue := d.joinQueue { kind := .signature, target := leaveAll, arrival := d.clk.now } }
        trust := { d.trust with waiting := d.trust.waiting ++ [.load] }, link := { d.link with holding := true } })) ∧
    (∀ l : Load, d.tile.load = some l → off.toNat ≠ l.bytes.length → off ≠ 0 →
      exec (.tileBlock t off data) s = .next (s.after t (d.reply stState)))

/-- The write of a load ends: the load slot holds the image and is VALID, or INVALID with check 18, and the load is over either way.
    ABORT discards a load. VERIFY puts the load slot to BUSY and asks leave (R161, R162, R163). -/
def Obligations.ImageWriteAbortAndVerify : Prop :=
  (∀ (s : State) (t : Tick) (l : Load), let d := s.dev.advance t
    d.tile.load = some l → l.stage = some .mram → l.silent = false →
    let b := d.tile.loadB
    (∃ d', exec (.mramBurstDone t true) s = .next (s.after t d') ∧ d'.tile.load = none ∧ d'.link.lastStatus = stOk ∧
      d'.tile.slot b = { d.tile.slot b with bytes := l.full, recLen := some l.full.length, state := .valid } ∧
      d'.tile.slot (!b) = d.tile.slot (!b) ∧ d'.leave.grants = d.leave.grants.erase { kind := .mram, target := leaveAll } ∧
      d.onlyIn d' [.tile, .leave, .lantern, .fault, .link]) ∧
    ∃ d', exec (.mramBurstDone t false) s = .next (s.after t d') ∧ d'.tile.load = none ∧ d'.link.lastStatus = rejectStatus 18 ∧
      d'.tile.lastReject = 18 ∧ d'.tile.slot b = { d.tile.slot b with bytes := overlay l.full (d.tile.slot b).bytes, state := .invalid, reject := 18 } ∧
      d'.tile.slot (!b) = d.tile.slot (!b) ∧ d.onlyIn d' [.tile, .leave, .lantern, .fault, .link]) ∧
  ∀ (s : State) (t : Tick), let d := s.dev.advance t
    (d.takesHost (.tileAbort t) → exec (.tileAbort t) s = .next (s.after t (Dev.reply (if d.tile.completing then d
      else { d with tile := { d.tile with load := none } }) stOk))) ∧
    (d.takesHost (.tileVerify t) → d.sys.devState ≠ .boot → d.tile.loading = none → d.tile.verify = none → d.tile.completing = false → (d.tile.loadSlot.recLen).isSome = true →
      d.leave.queue.length < 32 → 300 ≤ d.leave.budget.toNat →
      ∃ d', exec (.tileVerify t) s = .next (s.after t d') ∧ d'.link.lastStatus = stOk ∧ d'.tile.verify = some .leaveSig ∧
        d'.tile.slot d.tile.loadB = { d.tile.loadSlot with state := .busy, reject := 0 } ∧ d'.tile.slot (!d.tile.loadB) = d.tile.slot (!d.tile.loadB) ∧
        d'.trust.waiting = d.trust.waiting ++ [.verify] ∧
        d'.leave.queue = d.joinQueue { kind := .signature, target := leaveAll, arrival := d.clk.now } ∧
        d.onlyIn d' [.tile, .leave, .trust, .link])

/-- COMMIT of a VALID load slot: in UNTILED, STANDBY and MAINT both copies of the mark name that slot with the next commit count,
    HIGH_GEN never falls and the structure begins to load, RDY low; in RUN a retile begins to plan, nothing marked; it is refused while
    another load, verification or retile is under way (R164, R165, R169, R182). That the marks and HIGH_GEN are written with the COMMIT
    itself is assumption 35 (DEDUCED). The end of a direct commit installs the image (R165). -/
def Obligations.CommitsMarkThenInstall : Prop :=
  (∀ (s : State) (t : Tick), let d := s.dev.advance t
    let slot := d.tile.loadSlot
    let mark : Mark := { slotB := d.tile.loadB, count := d.tile.mark.count + 1 }
    let busy := d.tile.loading.isSome || d.tile.verify.isSome || d.tile.rt.active
    d.takesHost (.tileCommit t) →
    (slot.state = .valid → busy = false → d.sys.devState = .untiled ∨ d.sys.devState = .standby ∨ d.sys.devState = .maint →
      exec (.tileCommit t) s = .next (s.after t (Dev.reply { d with
        tile := { d.tile with mark1 := mark, mark2 := mark, loading := some .commit, highGen := BitVec.ofNat 32 (max d.tile.highGen.toNat (imgGen slot.bytes).toNat) }
        sys := { d.sys with rdyLowCommit := true } } stOk))) ∧
    (slot.state = .valid → busy = false → d.sys.devState = .run → d.tile.rt.state ≠ .stopped → d.tile.rt.isPartial = false →
      exec (.tileCommit t) s = .next (s.after t (Dev.reply { d with tile := { d.tile with rt := { d.tile.rt with
        state := .planning, toward := false, stopAsked := none, goal := tilingOf slot.content, goalId := imgId slot.content } } } stOk))) ∧
    (slot.state ≠ .valid ∨ busy = true → exec (.tileCommit t) s = .next (s.after t (d.reply stState)))) ∧
  ∀ (s : State) (t : Tick), let d := s.dev.advance t
    d.alive = true → d.tile.loading = some .commit →
    let x := tilingOf d.tile.loadSlot.content
    ∃ d', exec (.directCommitDone t) s = .next (s.after t d') ∧ d'.tile.loading = none ∧ d'.sys.rdyLowCommit = false ∧
      d'.tile.tiled = true ∧ d'.tile.runB = d.tile.loadB ∧ d'.tile.committed = x ∧ d'.tile.cur = x ∧
      d'.tile.image = imgId d.tile.loadSlot.content ∧ d'.tile.keptDigest = (imgId d.tile.loadSlot.content).digest ∧
      d'.tile.slotA = d.tile.slotA ∧ d'.tile.slotB = d.tile.slotB ∧ d'.tile.mark1 = d.tile.mark1 ∧ d'.tile.highGen = d.tile.highGen ∧
      d'.sys.devState = (if d.sys.devState = .untiled then .standby else d.sys.devState) ∧ (∀ k : TrkIx, d'.sense.trks[k].win = d.sense.trks[k].win) ∧
      d'.sense.cal = d.sense.cal ∧ d.onlyIn d' [.sys, .tile, .pwm, .pwmg, .sense, .loop, .rails, .ports, .fault, .lantern, .leave]

/-- Planning ends: with the first step that fails, the retile is REFUSED, naming that step, its reason and its figures, nothing
    changed; else it is RUNNING with every step to come (R169, R171, R177). -/
def Obligations.RetilePlanningEnds : Prop :=
  ∀ (s : State) (t : Tick), let d := s.dev.advance t
    let g := d.tile.rt.goal
    let steps := d.candidates g
    d.alive = true → d.tile.rt.state = .planning → d.tile.rt.stopAsked = none →
    (∀ (x : RtStep) (k : Nat) (reason : Byte) (need have_ : Nat), d.planFault g steps d.tile.cur 1 = some (x, k, reason, need, have_) →
      ∃ d', exec (.retilePlanDone t) s = .next (s.after t d') ∧ d'.tile = { d.tile with rt := { d.tile.rt with
          state := .refused, reason := reason, step := some x, total := BitVec.ofNat 16 steps.length, done := 0, need := satN 32 need, have_ := satN 32 have_ } } ∧
        d.onlyIn d' [.tile, .lantern, .fault]) ∧
    (d.planFault g steps d.tile.cur 1 = none → steps ≠ [] →
      ∃ d', exec (.retilePlanDone t) s = .next (s.after t d') ∧ d'.tile = { d.tile with rt := { d.tile.rt with
          state := .running, plan := steps.map (·.1), step := (steps.map (·.1)).head?, total := BitVec.ofNat 16 steps.length, done := 0, defines := d'.tile.rt.defines, undefines := d'.tile.rt.undefines } } ∧
        (∀ r : RailIx, d'.tile.rt.defines.getLsbD r.val = (steps.any fun c => c.1.kind == .define && c.1.target.toNat % 8 == r.val) ∧
          d'.tile.rt.undefines.getLsbD r.val = (steps.any fun c => c.1.kind == .undefine && c.1.target.toNat % 8 == r.val)) ∧
        d.onlyIn d' [.tile, .lantern, .fault])

/-- A retile step at its anchor: with the invariants held, the running structure takes the step, DONE counts it and the next step is
    named; the retile pauses after a PARK whose JOIN follows where PAUSE_AT_PARK is set; the last step installs the goal, and a retile
    towards the load slot's image then commits it: both copies of the mark name that slot with the next commit count and HIGH_GEN does not
    fall below its generation; before that, and in a retile back to the committed structure, the marks stay (R166, R174, R177, R181). -/
def Obligations.RetileStepsInstallTheGoal : Prop :=
  ∀ (s : State) (t : Tick) (x : RtStep) (rest : List RtStep), let d := s.dev.advance t
    let rt := d.tile.rt
    let next := d.tile.cur.after rt.goal x
    let mark : Mark := { slotB := d.tile.loadB, count := d.tile.mark.count + 1 }
    d.alive = true → d.tile.tiled = true → rt.plan = x :: rest → rt.state = .running → rt.stopAsked = none → d.stepReady x = true → d.clk.cycleAt rt.stepAt ≠ d.cycle →
    d.shortRail d.tile.cur next = none → contextsOk next rt.goal rest = true → (∀ r : RailIx, d.interleaveOk r none = true) →
    ∃ d', exec (.retileStep t) s = .next (s.after t d') ∧ d'.tile.rt.done = rt.done + 1 ∧ d'.tile.rt.goal = rt.goal ∧
      (rest ≠ [] → d'.tile.cur = next ∧ d'.tile.rt.plan = rest ∧ d'.tile.rt.step = rest.head? ∧ d'.tile.committed = d.tile.committed ∧
        d'.tile.rt.state = if rt.pauseAtPark && pausesAfter x rest then .paused else .running) ∧
      (rest = [] → d'.tile.cur = rt.goal ∧ d'.tile.rt.state = .idle ∧ d'.tile.rt.isPartial = false ∧
        d'.tile.committed = (if rt.toward then d.tile.committed else rt.goal) ∧ d'.tile.runB = if rt.toward then d.tile.runB else d.tile.loadB) ∧
      (if rest = [] ∧ rt.toward = false then d'.tile.mark1 = mark ∧ d'.tile.mark2 = mark ∧
          d'.tile.highGen = BitVec.ofNat 32 (max d.tile.highGen.toNat (imgGen d.tile.loadSlot.bytes).toNat)
        else d'.tile.mark1 = d.tile.mark1 ∧ d'.tile.mark2 = d.tile.mark2 ∧ d'.tile.highGen = d.tile.highGen) ∧
      d.onlyIn d' [.sys, .tile, .pwm, .pwmg, .sense, .loop, .rails, .prot, .ports, .fault, .lantern, .leave, .free]

/-- Before a PARK the rail drains the phase with a notice of its shed delay; a capacity wait ends when the figures hold again; at
    WAIT_LIMIT × 100 ms it ends the retile, and a stop asked for ends it at its boundary: STOPPED with the cause, PARTIAL (R175, R180,
    R183, R184). The requests of TILE.RT_CTRL: STOP of an active retile is taken at the next boundary, CONTINUE ends a pause, RESUME plans again
    towards the load slot's image and REVERT towards the committed one (in STANDBY by loading it); each is refused in any other state
    (R181, R183, R185). -/
def Obligations.RetilesWaitStopAndResume : Prop :=
  (∀ (s : State) (t : Tick), let d := s.dev.advance t
    (∀ (n : PhaseIx) (r : RailIx), d.alive = true → d.tile.rt.state = .running → d.tile.rt.stopAsked = none → d.mustDrain = some (n, r) →
      d.respreadBusy r = false → d.rails[r].notice = none → d.rails[r].flare = none → d.pwm[n].flareLift = false → d.stepShort = none →
      (∀ x : RailIx, d.interleaveOk x (some n) = true) → contextsOk d.tile.cur d.tile.rt.goal d.tile.rt.plan = true →
      exec (.retileDrainRequest t) s = .next (s.after t { d with rails := d.rails.set r { d.rails[r] with
        notice := some { phase := n, began := d.clk.now, until_ := d.clk.now + d.rails[r].shedDelay.toNat * 48000, drain := true }, shedSince := none, drained := setBit d.rails[r].drained n true } })) ∧
    (d.alive = true → d.tile.rt.state = .waiting → d.tile.rt.stopAsked = none → d.stepShort = none →
      exec (.retileCapacityRecheck t) s = .next (s.after t { d with tile := { d.tile with rt := { d.tile.rt with state := .running, waitSince := none } } })) ∧
    (∀ u : Tick, d.alive = true → d.tile.rt.state = .waiting → d.tile.rt.waitSince = some u → u + d.tile.rt.waitLimit.toNat * 48000000 ≤ d.clk.now →
      ∃ d', exec (.retileWaitLimit t) s = .next (s.after t d') ∧ d'.tile = { d.tile with rt := { d.tile.rt with
        state := .stopped, stopCause := 4, stopAsked := none, isPartial := true, plan := [], defines := 0, undefines := 0, waitSince := none } } ∧
        (∀ r : RailIx, d'.rails[r] = { d.rails[r] with drained := 0 }) ∧ d.onlyIn d' [.tile, .rails, .lantern, .fault]) ∧
    ∀ c : Byte, d.tile.rt.stopAsked = some c → d.tile.rt.active = true →
      ∃ d', exec (.retileStop t) s = .next (s.after t d') ∧ d'.tile = { d.tile with rt := { d.tile.rt with
        state := .stopped, stopCause := c, stopAsked := none, isPartial := true, plan := [], defines := 0, undefines := 0, waitSince := none } } ∧
        (∀ r : RailIx, d'.rails[r] = { d.rails[r] with drained := 0 }) ∧ d.onlyIn d' [.tile, .rails, .lantern, .fault]) ∧
  (∀ (s : State) (t : Tick), let d := s.dev.advance t
    let rt := d.tile.rt
    let halted := (rt.state = .stopped ∨ rt.state = .refused ∧ rt.isPartial = true) ∧ (d.sys.devState = .run ∨ d.sys.devState = .standby) ∧ d.tile.loading = none
    let answer := fun (x : Retile) => Dev.reply { d with tile := { d.tile with rt := x } } stOk
    (d.takesHost (.rtStop t) →
      exec (.rtStop t) s = .next (s.after t (if rt.active then answer { rt with stopAsked := some (rt.stopAsked.getD 1) } else d.reply stState))) ∧
    (d.takesHost (.rtContinue t) →
      exec (.rtContinue t) s = .next (s.after t (if rt.state = .paused then answer { rt with state := .running } else d.reply stState))) ∧
    (d.takesHost (.rtResume t) → halted → d.tile.loadSlot.state = .valid → exec (.rtResume t) s = .next (s.after t (answer { rt with
      state := .planning, toward := false, stopAsked := none, goal := tilingOf d.tile.loadSlot.content, goalId := imgId d.tile.loadSlot.content }))) ∧
    (d.takesHost (.rtRevert t) → halted → d.sys.devState = .run → exec (.rtRevert t) s = .next (s.after t (answer { rt with
      state := .planning, toward := true, stopAsked := none, goal := d.tile.committed, goalId := d.tile.image }))) ∧
    (d.takesHost (.rtRevert t) → halted → d.sys.devState = .standby → exec (.rtRevert t) s = .next (s.after t (Dev.reply { d with
      tile := { d.tile with rt := { rt with toward := true }, loading := some .revert }, sys := { d.sys with rdyLowCommit := true } } stOk))) ∧
    (d.takesHost (.rtResume t) → ¬halted ∨ d.tile.loadSlot.state ≠ .valid → exec (.rtResume t) s = .next (s.after t (d.reply stState))) ∧
    (d.takesHost (.rtRevert t) → ¬halted → exec (.rtRevert t) s = .next (s.after t (d.reply stState))))


/-! ## Phase PWM -/

/-- An update point of a phase that has a carrier, when it is due: the duty code that has stood in its shadow for two ticks takes
    effect, a LOOP phase's with its rail's period, a host's with the period it was transferred with, which changes at a valley only; under
    the Flare command FLARE_DUTY governs; the mask pattern that has stood for two ticks takes effect; and HI goes on as the carrier
    forms it from there, each edge at its own position: one in the tick of the update point is made with it, and the one behind it (assumption 86). A valley also begins the new period, moves each delay line by one tap towards its measurement and moves the
    window of limited periods on, WIN and N taken as last written (assumption 12). At any other tick nothing happens (R186, R188, R192, R195, R197, R220, R221, R332, R363). What a
    valley does when it fails the phase or latches it off is bounded by the frame alone. -/
def Obligations.UpdatePointsTakeTheShadow : Prop :=
  ∀ (s : State) (t : Tick) (n : PhaseIx) (apex : Bool), let d := s.dev.advance t
    let p := d.pwm[n].sync d.clk.now
    let trip := d.prot.trips[n]
    let v := Trip.recount { trip with periods := (trip.limited :: trip.periods).take 1024, limited := false, winNow := trip.win, nNow := trip.n }
    let moved := fun (l : DLine) => { l with
      use := if l.use.toNat < l.meas.toNat then l.use + 1 else if l.meas.toNat < l.use.toNat then l.use - 1 else l.use }
    d.alive = true →
    (d.carrierRail n = none ∨ d.pwm[n].due d.clk.now apex = false → exec (.phaseUpdatePoint t n apex) s = .next (s.after t d)) ∧
    ∀ r : RailIx, d.carrierRail n = some r → d.pwm[n].due d.clk.now apex = true →
      ∃ d', exec (.phaseUpdatePoint t n apex) s = .next (s.after t d') ∧
        d.onlyIn d' [.pwm, .loop, .rails, .prot, .ports, .fault, .lantern, .chord, .leave, .test] ∧
        (p.dlFail = false ∨ p.mask.fail = true → apex = true ∨ v.latch = true ∨ v.count.toNat < trip.n.toNat → let q := d'.pwm[n]
          (∀ m : PhaseIx, m ≠ n → d'.pwm[m] = d.pwm[m]) ∧ d.onlyIn d' [.pwm, .prot, .test] ∧
          (d.railOf n = some r → d.srcHost n = false → p.flareOn = false → p.zeroDue = false → ∀ x : LoopShadow, p.loopShadow = some x →
            q.perEff = d.pwmg.refs[r].per ∧ q.dutyEff = if x.at_ + 2 ≤ d.clk.now then x.duty else p.dutyEff) ∧
          (d.railOf n = some r → d.srcHost n = false → p.flareOn = true → d.rails[r].flare.isSome = true →
            q.flareCode = d.rails[r].flareDuty ∧ q.dutyEff = p.dutyEff) ∧
          (d.railOf n = some r → d.srcHost n = true → p.hostStartWait = false → p.zeroDue = false → ∀ x : LoadShadow, p.loadShadow = some x →
            if x.at_ + 2 ≤ d.clk.now ∧ (x.per = p.perEff ∨ apex = false) then q.dutyEff = x.duty ∧ q.perEff = x.per
            else q.dutyEff = p.dutyEff ∧ q.perEff = p.perEff) ∧
          (p.flareOn = false → ∀ c : MaskChange, (p.maskChanges.filter fun c => c.at_ + 2 ≤ d.clk.now).getLast? = some c →
            q.maskEff = c.bits ∧ q.liftEff = c.lift ∧ q.masked = c.bits.pattern c.lift) ∧
          (p.flarePulse = false →
            let turn := fun (a : Bool × Option Int) => match a.2 with
              | some x => if x / 64 = d.clk.now then (!a.1, q.nextEdge (!a.1) x) else a
              | none => a
            (q.cmd, q.edgeAt) = turn (turn (p.cmd, q.nextEdge p.cmd (64 * d.clk.now)))) ∧
          (apex = true → q.valley = p.valley ∧ q.down = true ∧ q.lineHi = p.lineHi ∧ q.lineLo = p.lineLo ∧ d'.test = d.test) ∧
          (apex = false → q.valley = d.clk.now ∧ q.down = false ∧ d'.prot.trips[n].periods = v.periods ∧ d'.prot.trips[n].count = v.count ∧
            (64 ≤ p.lineHi.meas.toNat → p.lineHi.meas.toNat ≤ 96 → q.lineHi = moved p.lineHi) ∧
            (64 ≤ p.lineLo.meas.toNat → p.lineLo.meas.toNat ≤ 96 → q.lineLo = moved p.lineLo)))

/-- A re-spread moves a phase by the shorter way: at each valley of an aligned phase ARC_NOW moves towards ARC_TGT by the smaller of the
    error and the rail's slew, a retard never reduced, an advance reduced only so far that 16 ticks of off-time are left, and the period
    is lengthened or shortened by the whole ticks of the move, half of them rounded towards zero in the up-count (R202, R205, R206). How
    a reduced advance falls on Arc units is the model's choice (assumption 65). -/
def Obligations.ArcMovesByTheShorterWay : Prop :=
  (∀ (tgt now : BitVec 16) (slew per duty : Nat), let e := arcErr tgt now; let k := arcMove tgt now slew per duty
    let room : Int := 128 * per - 2 * duty - 1024
    k.natAbs ≤ slew ∧ k.natAbs ≤ e.natAbs ∧ (0 ≤ e → 0 ≤ k) ∧ (e ≤ 0 → k ≤ 0) ∧ e.natAbs ≤ 32768 ∧ BitVec.ofInt 16 (now.toNat + e) = tgt ∧
      (0 ≤ e → e ≤ slew → BitVec.ofInt 16 (now.toNat + k) = tgt) ∧ (0 ≤ e → k = min e slew) ∧
      (e < 0 → (arcShift now per (max e (-slew))).natAbs ≤ room.toNat → k = max e (-slew)) ∧ (e < 0 → -arcShift now per k ≤ max 0 room)) ∧
  ∀ (s : State) (t : Tick) (n : PhaseIx) (r : RailIx), let d := s.dev.advance t
    let p := d.pwm[n].sync d.clk.now
    let ref := d.pwmg.refs[r]
    let trip := d.prot.trips[n]
    let v := Trip.recount { trip with periods := (trip.limited :: trip.periods).take 1024, limited := false, winNow := trip.win, nNow := trip.n }
    d.alive = true → d.railOf n = some r → d.pwm[n].due d.clk.now false = true → d.srcHost n = false → p.perEff = ref.per → ref.running = true →
    ref.holding = false → p.free = false → p.joined = false → p.corr = 0 →
    ∃ d', exec (.phaseUpdatePoint t n false) s = .next (s.after t d') ∧ let q := d'.pwm[n]
      let k := arcMove p.arcTgt p.arcNow d.pwmg.rslew[r].toNat ref.per.toNat q.duty
      let goal := arcOfs (p.arcNow.toNat + k) ref.per.toNat
      let whole := goal / 64 - arcOfs p.arcNow.toNat ref.per.toNat / 64
      (p.dlFail = false ∨ p.mask.fail = true → v.latch = true ∨ v.count.toNat < trip.n.toNat → q.arcNow = BitVec.ofInt 16 (p.arcNow.toNat + k) ∧ q.fine = (goal % 64).toNat ∧
        q.upLen = ((ref.per.toNat : Int) + Int.tdiv whole 2).toNat ∧ q.downLen = ((ref.per.toNat : Int) + (whole - Int.tdiv whole 2)).toNat)

/-- The edges of a phase come at the ticks their positions lie in, and at no other: HI rises where the carrier has placed the edge,
    which turns GL off, makes GH due DTR later, places the next edge and ends a trip, unless a comparator of the rail still holds the phase off; HI falls and
    takes GH with it, GL due DTF later; GH and GL begin where they are due, unless the pulse would last less than 246/64 ticks, which is
    swallowed; and no edge turns both on (R188, R211, R214, R332, R345, R351). -/
def Obligations.EdgesNeverOverlap : Prop :=
  ∀ (s : State) (t : Tick) (n : PhaseIx) (e : EdgeKind), let d := s.dev.advance t
    let p := d.pwm[n]
    let place : Option Int := match e with
      | .hiRise => if p.cmd then none else p.edgeAt
      | .hiFall => if p.cmd then p.edgeAt else none
      | .ghRise => p.ghAt
      | .glRise => p.glAt
      | .ghFall | .glFall => none
    let apart := fun (x : Pwm) => (x.gh = true → x.hi = true) ∧ (x.hi = true → x.gl = false) ∧ (x.ghAt.isSome = true → x.hi = true) ∧
      (x.glAt.isSome = true → x.hi = false)
    d.alive = true → (d.carrierRail n).isSome = true →
    ((∀ x : Int, place = some x → x / 64 ≠ d.clk.now) → exec (.emittedEdge t n e) s = .next (s.after t d)) ∧
    ∀ x : Int, place = some x → x / 64 = d.clk.now →
    ∃ d', exec (.emittedEdge t n e) s = .next (s.after t d') ∧
      (e = .hiRise → d.heldOff n = false → d'.prot.trips[n] = { d.prot.trips[n] with active := false, hold := false } ∧
        d'.pwm[n].cmd = true ∧ d'.pwm[n].edgeAt = p.nextEdge true x ∧ d'.pwm[n].hi = true ∧
        (p.hi = false → d'.pwm[n].gl = false ∧ d'.pwm[n].gh = p.gh ∧ d'.pwm[n].glAt = none ∧ d'.pwm[n].ghAt = some (x + (dtFloor p.dtr).toNat))) ∧
      (e = .hiRise → d.heldOff n = true → d' = { d with pwm := d.pwm.set n { p with cmd := true, edgeAt := p.nextEdge true x } }) ∧
      (e = .hiFall → p.flarePulse = false → d'.pwm[n].cmd = false ∧ d'.pwm[n].edgeAt = p.nextEdge false x ∧ d'.pwm[n].hi = false ∧
        (p.hi = true → d'.pwm[n].gh = false ∧ d'.pwm[n].gl = p.gl ∧ d'.pwm[n].ghAt = none ∧ d'.pwm[n].glAt = some (x + (dtFloor p.dtf).toNat))) ∧
      (e = .hiFall → p.flarePulse = true → d'.pwm[n].flarePulse = false ∧ d'.pwm[n].cmd = p.level x ∧ d'.pwm[n].edgeAt = p.nextEdge (p.level x) x) ∧
      (e = .ghRise → d'.pwm[n].hi = p.hi ∧ d'.pwm[n].gl = p.gl ∧ d'.pwm[n].ghAt = none ∧
        (tooShort x (p.hiEnd x) = false → d'.pwm[n].gh = true ∧ d'.pwm[n].swallowHi = p.swallowHi) ∧
        (tooShort x (p.hiEnd x) = true → d'.pwm[n].gh = p.gh ∧ d'.pwm[n].swallowHi = if p.cHi.passes then p.swallowHi + 1 else p.swallowHi)) ∧
      (e = .glRise → d'.pwm[n].hi = p.hi ∧ d'.pwm[n].gh = p.gh ∧ d'.pwm[n].glAt = none ∧
        (tooShort x (p.nextRise x) = false → d'.pwm[n].gl = true ∧ d'.pwm[n].swallowLo = p.swallowLo) ∧
        (tooShort x (p.nextRise x) = true → d'.pwm[n].gl = p.gl ∧ d'.pwm[n].swallowLo = if p.cLo.passes then p.swallowLo + 1 else p.swallowLo)) ∧
      (apart p → apart d'.pwm[n] ∧ ¬(d'.pwm[n].gh = true ∧ d'.pwm[n].gl = true)) ∧
      (∀ m : PhaseIx, m ≠ n → d'.pwm[m] = d.pwm[m] ∧ d'.prot.trips[m] = d.prot.trips[m]) ∧ d.onlyIn d' [.pwm, .prot]

/-- A due trigger fires once at its position with its fabric event; the interlock turns its phase off, latches and counts while stage D
    does not hold it off already; a blanking window closes, and a trip comparator that is still crossed then trips, unless it settles; and
    100 µs after its first edge a phase start gives its leave back (R223, R225, R226, R228, R229, R344, R519). The background calibration measures both lines of one phase every 7500 ticks and goes on to the next, 63
    before 0; a measurement outside 64 to 96 fails the phase and raises DLINE_FAIL (R191, R193). -/
def Obligations.TriggersInterlockAndDelayLines : Prop :=
  (∀ (s : State) (t : Tick) (n : PhaseIx), let d := s.dev.advance t
    let p := d.pwm[n]
    let c := p.sync d.clk.now
    let meets := fun (g : Trig) => (d.carrierRail n).isSome = true ∧ g.enEff = true ∧ g.count = 0 ∧ g.fired = false ∧
      c.valley + g.posEff.toNat = d.clk.now ∧ g.posEff.toNat < c.upLen + c.downLen
    d.alive = true →
    (meets p.trigA →
      exec (.trigHit t n false) s = .next (s.after t (Dev.event { d with pwm := d.pwm.set n { p with trigA := { p.trigA with fired := true } } } n.val))) ∧
    (meets p.trigB →
      exec (.trigHit t n true) s = .next (s.after t (Dev.event { d with pwm := d.pwm.set n { p with trigB := { p.trigB with fired := true } } } (64 + n.val)))) ∧
    (¬meets p.trigA → exec (.trigHit t n false) s = .next (s.after t d)) ∧ (¬meets p.trigB → exec (.trigHit t n true) s = .next (s.after t d)) ∧
    (d.gateForce n = false → ∃ d', exec (.interlockLatch t n) s = .next (s.after t d') ∧ d'.pwm = d.pwm.set n { p with ilkLatch := true, ilkCount := satInc p.ilkCount } ∧
      d'.emitted n = (false, false) ∧ d'.causeOf srcInterlock n = true ∧ d.onlyIn d' [.pwm, .fault]) ∧
    (d.gateForce n = true → exec (.interlockLatch t n) s = .next (s.after t d)) ∧
    (∀ u : Tick, p.blankUntil = some u → u ≤ d.clk.now →
      (d.prot.trips[n].cmp = false ∨ settling d.prot.trips[n].settleUntil d.clk.now = true →
        exec (.blankWindowClose t n) s = .next (s.after t { d with pwm := d.pwm.set n { p with blankUntil := none } })) ∧
      (d.prot.trips[n].cmp = true → settling d.prot.trips[n].settleUntil d.clk.now = false →
        ∃ d', exec (.blankWindowClose t n) s = .next (s.after t d') ∧ d'.pwm[n].blankUntil = none ∧ d.TripTaken d' n)) ∧
    (p.blankUntil = none ∨ (∃ u : Tick, p.blankUntil = some u ∧ d.clk.now < u) → exec (.blankWindowClose t n) s = .next (s.after t d)) ∧
    ∀ u : Tick, p.startEdge = some u → u + 48000 ≤ d.clk.now →
      exec (.phaseStartRelease t n) s = .next (s.after t { d with
        pwm := d.pwm.set n { p with startEdge := none }
        leave := { d.leave with
          queue := d.leave.queue.filter fun q => !(q.kind == .phaseStart && q.target == phaseTarget n)
          grants := d.leave.grants.erase { kind := .phaseStart, target := phaseTarget n } } })) ∧
  (∀ (s : State) (t : Tick) (m : LineMeas), let d := s.dev.advance t
    let n := d.pwmg.bgPhase
    let out := fun (b : Byte) => b.toNat < 64 ∨ 96 < b.toNat
    d.alive = true →
    (d.clk.now < d.pwmg.bgAt → exec (.dlineBgMeasure t m) s = .next (s.after t d)) ∧
    (d.pwmg.bgAt ≤ d.clk.now → ∃ d', exec (.dlineBgMeasure t m) s = .next (s.after t d') ∧
      d'.pwmg = { d.pwmg with bgPhase := n + 1, bgAt := d.pwmg.bgAt + 7500 } ∧
      d'.pwm[n].lineHi = { d.pwm[n].lineHi with meas := m.hi } ∧ d'.pwm[n].lineLo = { d.pwm[n].lineLo with meas := m.lo } ∧
      (out m.hi ∨ out m.lo → d'.pwm[n].dlFail = true ∧ (d.pwm[n].dlFail = false → d'.causeOf srcDline n = true)) ∧
      (¬out m.hi → ¬out m.lo → d'.pwm[n].dlFail = d.pwm[n].dlFail ∧ d'.fault = d.fault) ∧
      (∀ k : PhaseIx, k ≠ n → d'.pwm[k] = d.pwm[k]) ∧ d.onlyIn d' [.pwm, .pwmg, .fault]))

/-- LOAD_ALL transfers the staged values of every phase it covers in one cycle, the others untouched; a first non-zero code under
    HOST_OVR asks leave, and one that is refused leaves the phase as it was; a code of 0 withdraws a request that waits. The transfer counts
    from the first tick of its LOOP_CLK cycle (DEDUCED, assumption 92). HOST_OVR is taken for a LOOP phase in MAINT, or of an OFF
    rail with its open-loop test enabled, with the duty 0 and the rail's period; its end returns the phase shed, its duty 0 from the next
    update point (R197, R198, R199, R200, R522). -/
def Obligations.HostDutyIsTransferred : Prop :=
  (∀ (s : State) (t : Tick) (mask : BitVec 16), let d := s.dev.advance t
    let asks := fun (n : PhaseIx) => d.pwm[n].hostOvr = true ∧ d.pwm[n].hostStarted = false ∧ d.pwm[n].hostStartWait = false ∧ d.pwm[n].dutyStaged ≠ 0
    let ends := fun (n : PhaseIx) => d.pwm[n].hostStartWait = true ∧ d.pwm[n].dutyStaged = 0
    let taken := fun (n : PhaseIx) => { d.pwm[n] with loadShadow := some { per := d.pwm[n].perStaged, duty := d.pwm[n].dutyStaged, at_ := d.cycleTick } }
    d.takesHost (.loadAll t mask) → ∃ d', exec (.loadAll t mask) s = .next (s.after t d') ∧ d'.link.lastStatus = stOk ∧
      d'.pwmg = { d.pwmg with loadCount := d.pwmg.loadCount + 1, loadMask := mask } ∧
      (∀ n : PhaseIx, d.covered mask n = false → d'.pwm[n] = d.pwm[n]) ∧
      (∀ n : PhaseIx, d.covered mask n = true → ¬asks n → ¬ends n → d'.pwm[n] = taken n) ∧
      (∀ n : PhaseIx, d.covered mask n = true → ends n → d'.pwm[n] = { taken n with hostStartWait := false } ∧
        ∀ q ∈ d'.leave.queue, ¬(q.kind = .phaseStart ∧ q.target = phaseTarget n)) ∧
      (∀ n : PhaseIx, d.covered mask n = true → asks n → d'.pwm[n] = d.pwm[n] ∨
        d'.pwm[n] = { taken n with hostStartWait := true } ∧ { kind := .phaseStart, target := phaseTarget n, arrival := d.clk.now } ∈ d'.leave.queue) ∧
      ((∀ n : PhaseIx, d.covered mask n = true → ¬asks n ∧ ¬ends n) → d'.leave = d.leave) ∧ d.onlyIn d' [.pwm, .pwmg, .leave, .link]) ∧
  ∀ (s : State) (t : Tick) (n : PhaseIx) (v : Word), let d := s.dev.advance t
    let p := d.pwm[n]
    let may := fun (r : RailIx) => d.railOf n = some r ∧ d.tile.cur.phases[n].host = false ∧
      (d.sys.devState = .maint ∨ (d.mode r = .off ∧ d.rails[r].oltEn = true ∧ (d.sys.devState = .standby ∨ d.sys.devState = .run)))
    d.takesHost (.hostOvrWrite t n v) →
    (∀ r : RailIx, v.getLsbD 0 = true → may r → p.hostOvr = false →
      exec (.hostOvrWrite t n v) s = .next (s.after t (Dev.reply { d with pwm := d.pwm.set n { p with
        hostOvr := true, hostStartWait := false, hostStarted := false, zeroDue := false
        loadShadow := some { per := d.pwmg.rper[r], duty := 0, at_ := d.cycleTick } } } stOk))) ∧
    (∀ r : RailIx, v.getLsbD 0 = true → may r → p.hostOvr = true → exec (.hostOvrWrite t n v) s = .next (s.after t (d.reply stOk))) ∧
    (v.getLsbD 0 = true → (∀ r : RailIx, ¬may r) → exec (.hostOvrWrite t n v) s = .next (s.after t (d.reply stState))) ∧
    (v.getLsbD 0 = false → p.hostOvr = false → exec (.hostOvrWrite t n v) s = .next (s.after t (d.reply stOk))) ∧
    (v.getLsbD 0 = false → p.hostOvr = true → ∃ d', exec (.hostOvrWrite t n v) s = .next (s.after t d') ∧ d'.link.lastStatus = stOk ∧
      d'.pwm[n].hostOvr = false ∧ d'.pwm[n].loadShadow = none ∧ d'.pwm[n].loopShadow = none ∧ d'.pwm[n].zeroDue = true ∧ d'.pwm[n].mask.shed = true ∧
      (∀ m : PhaseIx, m ≠ n → d'.pwm[m] = d.pwm[m]) ∧ d.onlyIn d' [.pwm, .leave, .link])

/-- A reference period from 120 up is taken for the reference's next valley, RPER only of an OFF rail and SYNC_PER never in RUN; at
    each valley of the device reference its new period begins, a reference that holds or waits starts with it, and an OFF rail's of the
    new period is due to align (R13, R187, R201, R204). -/
def Obligations.ReferencePeriodsChangeAtValleys : Prop :=
  (∀ (s : State) (t : Tick) (r : RailIx) (v : Word), let d := s.dev.advance t
    let per := v.setWidth 16
    let x := d.pwmg.refs[r]
    d.takesHost (.rperWrite t r v) →
    (d.rails[r].mode ≠ .off → exec (.rperWrite t r v) s = .next (s.after t (d.reply stLocked))) ∧
    (d.rails[r].mode = .off → per.toNat < 120 → exec (.rperWrite t r v) s = .next (s.after t (d.reply stState))) ∧
    (d.rails[r].mode = .off → 120 ≤ per.toNat → exec (.rperWrite t r v) s = .next (s.after t (Dev.reply { d with pwmg := { d.pwmg with
      rper := d.pwmg.rper.set r per, refs := d.pwmg.refs.set r (if x.running then { x with pend := some per } else { x with per := per }) } } stOk)))) ∧
  (∀ (s : State) (t : Tick) (v : Word), let d := s.dev.advance t
    let per := v.setWidth 16
    let x := d.pwmg.dev
    d.takesHost (.syncPerWrite t v) →
    (d.sys.devState = .run → exec (.syncPerWrite t v) s = .next (s.after t (d.reply stLocked))) ∧
    (d.sys.devState ≠ .run → per.toNat < 120 → exec (.syncPerWrite t v) s = .next (s.after t (d.reply stState))) ∧
    (d.sys.devState ≠ .run → 120 ≤ per.toNat → exec (.syncPerWrite t v) s = .next (s.after t (Dev.reply { d with pwmg := { d.pwmg with
      syncPer := per, dev := if x.running then { x with pend := some per } else { x with per := per } } } stOk)))) ∧
  ∀ (s : State) (t : Tick), let d := s.dev.advance t
    let dev := d.pwmg.dev.sync d.clk.now
    let per := dev.pend.getD dev.per
    let v := if dev.first then dev.valley else d.clk.now
    let plain := fun (x y : RefCarrier) => { x with exts := y.exts }
    d.alive = true →
    (d.pwmg.dev.running = false ∨ d.pwmg.dev.due d.clk.now false = false → exec (.deviceReferenceValley t) s = .next (s.after t d)) ∧
    (d.pwmg.dev.running = true → d.pwmg.dev.due d.clk.now false = true →
      ∃ d', exec (.deviceReferenceValley t) s = .next (s.after t d') ∧ plain d'.pwmg.dev dev = { dev with valley := v, first := false, per := per, pend := none } ∧
      (∀ r : RailIx, let x := d.pwmg.refs[r]; plain d'.pwmg.refs[r] x =
        if x.startDue then { x with running := true, startDue := false, per := d.pwmg.rper[r], valley := v, down := false, first := true }
        else if x.holding then { x with holding := false, valley := v, down := false, first := true }
        else if per ≠ dev.per ∧ x.running = true then { x with alignDue := x.per == per } else x) ∧
      (d.chord.free = false → d.chord.corr = 0 → d'.pwmg.dev.exts = dev.exts ∧ (∀ r : RailIx, d'.pwmg.refs[r].exts = d.pwmg.refs[r].exts) ∧ d'.chord = d.chord ∧ d'.fault = d.fault) ∧
      d'.pwmg.rper = d.pwmg.rper ∧ d'.pwmg.syncPer = d.pwmg.syncPer ∧ d.onlyIn d' [.pwm, .pwmg, .fault, .chord])

/-! ## Sensing -/

/-- The anchor of a quad's rotation sets the next one and asks leave for the spare; a measurement that passes gives its slice the
    coefficients of the quad's present mode and makes it the spare, one that fails leaves the quad without a spare and the slice
    FAILED; STALE and low-power mode are entered on their conditions, the latter at a SLICE_CLK edge (R240, R242, R243, R245, R247). A slice that fails in line leaves
    its slot empty, its conversions under way are lost, and the out-of-line slice, whose rotation or measurement is abandoned, takes
    the slot at the next SLICE_CLK edge; with none to take its place the slot stays empty and the quad is degraded; in the cycle of a
    rotation's entry it is the leaving slice that fails (R245, R246). That a rotation counts when its measurement ends and that slots are
    refilled and entered at SLICE_CLK edges is assumption 24 (DEDUCED); that the set of the mode at the end is the one measured is
    assumption 96. A quad that enters low-power mode leaves every sample taken before the coefficient set it had (R241). The statements start from the quad as the edges up to the tick
    have left it. -/
def Obligations.SlicesRotateAndAreReplaced : Prop :=
  (∀ (s : State) (t : Tick) (q : QuadIx), let d := s.dev.advance t
    let x := d.sense.quads[q]
    d.alive = true →
    (d.clk.now < x.rotAt → exec (.sliceRotation t q) s = .next (s.after t d)) ∧
    (∀ i : Fin 5, x.rotAt ≤ d.clk.now → x.outOfLine = some i → x.slices[i].st = .spare → d.sense.rotEn = true → x.rotGranted = false →
      d.testing q = false → d.waitsLeave .rotation (rotTarget q) = false → d.leave.queue.length < 32 → 40 ≤ d.leave.budget.toNat →
      exec (.sliceRotation t q) s = .next (s.after t { d with
        sense := { d.sense with quads := d.sense.quads.set q { x with rotAt := d.clk.now + d.sense.rotInt.toNat * 48000 } }
        leave := { d.leave with queue := d.joinQueue { kind := .rotation, target := rotTarget q, arrival := d.clk.now } } })) ∧
    exec (.sliceStale t q) s = .next (s.after t (if d.staleNow q then { d with sense := { d.sense with quads := d.sense.quads.set q { x with stale := true } } } else d)) ∧
    (d.sliceEdge = false → exec (.lowpowerEnter t q) s = .next (s.after t d)) ∧
    (d.sliceEdge = true → d.wantsLow q = true → x.lowPower = false → (∀ c ∈ x.convs, c.interleaved = true → c.slotsFree ≤ d.clk.now) →
      ∃ d', exec (.lowpowerEnter t q) s = .next (s.after t d') ∧ d'.sense = { d.sense with quads := d.sense.quads.set q { x with
          lowPower := true, lpFrom := if d.clk.now < x.lpUntil then x.lpFrom else d.clk.now, lows := d'.sense.quads[q].lows } } ∧
        (∀ c ∈ x.convs, ∀ a : Tick, c.sampleAt ≤ a → a < d.clk.now → d'.sense.quads[q].lowAt a = x.lowAt a) ∧
        d'.sense.quads[q].lowAt d.clk.now = true ∧ d.onlyIn d' [.sense])) ∧
  (∀ (s : State) (t : Tick) (q : QuadIx) (i : Fin 5) (e : Tick) (m : SliceMeas), let d := (s.dev.advance t).quadEdges q
    let x := d.sense.quads[q]
    (s.dev.advance t).alive = true → x.outOfLine = some i → x.measEnd = some e → e ≤ d.clk.now →
      ∃ d', exec (.sliceMeasureDone t q m) s = .next (s.after t d') ∧ d'.sense.quads[q].measEnd = none ∧ d'.sense.quads[q].rotDone = x.rotDone + 1 ∧
        d'.leave.grants = d.leave.grants.erase { kind := .rotation, target := rotTarget q } ∧ d'.sense.quads[q].slots = x.slots ∧
        (∀ os gs, SliceMeas.result m = .ok (os, gs) → d'.sense.quads[q].outOfLine = some i ∧ d'.fault = d.fault ∧ d'.sense.quads[q].slices[i] =
          if x.lowPower then { x.slices[i] with st := .spare, osLow := os, gsLow := gs, measLow := d.clk.now }
          else { x.slices[i] with st := .spare, osFull := os, gsFull := gs, measFull := d.clk.now }) ∧
        (∀ check, SliceMeas.result m = .error check → d'.sense.quads[q].outOfLine = none ∧ d'.sense.quads[q].slices[i] = { x.slices[i] with st := .failed }) ∧
        (∀ j : Fin 5, j ≠ i → d'.sense.quads[q].slices[j] = x.slices[j]) ∧ (∀ k : QuadIx, k ≠ q → d'.sense.quads[k] = d.sense.quads[k]) ∧
        d.onlyIn d' [.sense, .fault, .leave]) ∧
  (∀ (s : State) (t : Tick) (q : QuadIx) (slot : Fin 4), let d := (s.dev.advance t).quadEdges q
    let x := d.sense.quads[q]
    let lost := fun (i : Fin 5) (since : Tick) => x.convs.map fun c => if c.slices.contains i = true ∧ since < c.slotsFree then { c with lost := true } else c
    (s.dev.advance t).alive = true →
    (∀ i : Fin 5, x.entering slot d.clk.now = none → x.slots[slot] = some i →
      ∃ d', exec (.sliceInlineFail t q slot) s = .next (s.after t d') ∧ d'.sense.quads[q].convs = lost i d.clk.now ∧
        d'.sense.quads[q].slots = x.slots.set slot none ∧ d'.sense.quads[q].slices[i].st = .failed ∧
        (∀ o : Fin 5, x.outOfLine = some o → d'.sense.quads[q].refill = some (slot, o, d.clk.edgeFrom (d.clk.now + 1)) ∧
          d'.sense.quads[q].outOfLine = none ∧ d'.sense.quads[q].measEnd = none ∧ d'.sense.quads[q].rotGranted = false ∧
          (d.sense.stage = none → d'.leave.grants = d.leave.grants.erase { kind := .rotation, target := rotTarget q })) ∧
        (x.outOfLine = none → d.srcLives (srcDegraded q) = true → d'.causeOf (srcDegraded q) 0 = true) ∧
        (∀ k : QuadIx, k ≠ q → d'.sense.quads[k] = d.sense.quads[k]) ∧ d.onlyIn d' [.sense, .fault, .leave]) ∧
    (∀ (e : Tick) (o : Fin 5), x.entering slot d.clk.now = some e → x.outOfLine = some o →
      ∃ d', exec (.sliceInlineFail t q slot) s = .next (s.after t d') ∧ d'.sense.quads[q].convs = lost o (e - 6) ∧
        d'.sense.quads[q].slots = x.slots ∧ d'.sense.quads[q].slices[o].st = .failed ∧ d'.sense.quads[q].outOfLine = none ∧
        d'.sense.quads[q].measEnd = none ∧ d'.leave.grants = d.leave.grants.erase { kind := .rotation, target := rotTarget q } ∧
        (∀ k : QuadIx, k ≠ q → d'.sense.quads[k] = d.sense.quads[k]) ∧ d.onlyIn d' [.sense, .fault, .leave]) ∧
    (x.entering slot d.clk.now = none → x.slots[slot] = none → exec (.sliceInlineFail t q slot) s = .next (s.after t d))) ∧
  ∀ (x : Quad) (now e : Tick) (j : Fin 4) (i : Fin 5), x.refill = some (j, i, e) → e ≤ now →
    (x.refillNow now).slots = x.slots.set j (some i) ∧ (x.refillNow now).slices[i].st = .service ∧ (x.refillNow now).refill = none

/-- The operations of SENSE.CTRL begin by asking leave: FGCAL, CAL_ZERO and CAL_FS in STANDBY and MAINT, the latter two for an entry up
    to 87, SELFTEST in RUN too, of a quad whose spare is ready; each is refused while another is under way; one whose leave is
    refused ends with result 7; from the acceptance of an FGCAL on the conversions under way are lost. That a full queue of leave requests
    gives result 7 too, and the leave target 0x40 + q of a self-test, is assumption 25 (DEDUCED). ABORT ends a system calibration with result 6 (R248 to R251, R519). A direct WRITE of a calibration value is refused
    LOCKED in RUN and LATCHED and while an operation runs, refused for a factory entry while the unlock is closed, and otherwise writes
    the value, valid and of the user; conversions under way keep the old one for what they have sampled. The unlock closes when its time
    has run (R252, R253, R450). -/
def Obligations.CalibrationsAskLeaveAndAreGuarded : Prop :=
  (∀ (s : State) (t : Tick), let d := s.dev.advance t
    let q : QuadIx := Fin.ofNat 4 d.sense.stQuad.toNat
    let begun := fun (op : CalOp) (kind : LeaveKind) (target : Byte) => Dev.reply { d with
      sense := { d.sense with op := op, stage := some .waiting, calCoefs := [] }
      leave := { d.leave with queue := d.joinQueue { kind := kind, target := target, arrival := d.clk.now } } } stOk
    let idle := d.sys.devState = .standby ∨ d.sys.devState = .maint
    let room := fun (cost : Nat) => d.leave.queue.length < 32 ∧ cost ≤ d.leave.budget.toNat
    let takes := d.takesHost
    (takes (.fgcal t) → idle → d.sense.stage = none → room 450 → exec (.fgcal t) s = .next (s.after t (Dev.reply { d with
      sense := { d.sense with op := .fgcal, stage := some .waiting, calCoefs := [], quads := mapV d.sense.quads fun _ x =>
        { x with convs := x.convs.map fun c => if d.clk.now < c.slotsFree then { c with lost := true } else c } }
      leave := { d.leave with queue := d.joinQueue { kind := .fgcal, target := 0xFF, arrival := d.clk.now } } } stOk))) ∧
    (takes (.calZero t) → idle → d.sense.stage = none → d.sense.entry.toNat ≤ 87 → room 450 → exec (.calZero t) s = .next (s.after t (begun .zero .fgcal 0xFF))) ∧
    (takes (.calFs t) → idle → d.sense.stage = none → d.sense.entry.toNat ≤ 87 → room 450 → exec (.calFs t) s = .next (s.after t (begun .fs .fgcal 0xFF))) ∧
    (takes (.selftest t) → idle ∨ d.sys.devState = .run → d.sense.stage = none → d.spareReady q = true → room 60 →
      exec (.selftest t) s = .next (s.after t (begun .selftest .selftest (BitVec.ofNat 8 (0x40 + q.val))))) ∧
    (¬idle ∨ (d.sense.stage).isSome = true → (takes (.fgcal t) → exec (.fgcal t) s = .next (s.after t (d.reply stState))) ∧
      (takes (.calZero t) → exec (.calZero t) s = .next (s.after t (d.reply stState))) ∧
      (takes (.calFs t) → exec (.calFs t) s = .next (s.after t (d.reply stState)))) ∧
    (takes (.fgcal t) → idle → d.sense.stage = none → ¬room 450 → ∃ d', exec (.fgcal t) s = .next (s.after t d') ∧ d'.link.lastStatus = stOk ∧
      d'.sense = { d.sense with op := .fgcal, stage := none, result := 7, calCoefs := [] } ∧ d.onlyIn d' [.sense, .leave, .link]) ∧
    (takes (.calAbort t) → d.sense.stage = none ∨ (d.sense.op ≠ .zero ∧ d.sense.op ≠ .fs) → exec (.calAbort t) s = .next (s.after t (d.reply stOk))) ∧
    (takes (.calAbort t) → (d.sense.stage).isSome = true → d.sense.op = .zero ∨ d.sense.op = .fs → ∃ d', exec (.calAbort t) s = .next (s.after t d') ∧
      d'.link.lastStatus = stOk ∧ d'.sense = { d.sense with stage := none, result := 6 } ∧ d.onlyIn d' [.sense, .leave, .link])) ∧
  ((∀ (s : State) (t : Tick) (e : CalIx) (v : Word), let d := s.dev.advance t
    let locked := d.sys.devState = .run ∨ d.sys.devState = .latched ∨ (d.sense.stage).isSome = true
    d.takesHost (.calValueWrite t e v) →
    (locked → exec (.calValueWrite t e v) s = .next (s.after t (d.reply stLocked))) ∧
    (¬locked → 88 ≤ e.val → d.unlocked = false → exec (.calValueWrite t e v) s = .next (s.after t (d.reply stAuth))) ∧
    (¬locked → e.val < 88 ∨ d.unlocked = true → ∃ d', exec (.calValueWrite t e v) s = .next (s.after t d') ∧ d'.link.lastStatus = stOk ∧
      d'.sense = { d.sense with cal := d.sense.cal.set e { value := v, valid := true, user := true }, quads := d'.sense.quads } ∧
      (∀ q : QuadIx, let bare := fun (c : Conv) => { c with cals := [] }
        d'.sense.quads[q] = { d.sense.quads[q] with convs := d'.sense.quads[q].convs } ∧ d'.sense.quads[q].convs.map bare = d.sense.quads[q].convs.map bare) ∧
      d'.causeOf srcCalBad 0 = ((List.finRange 112).any (fun k => k != e && !(d.sense.cal[k]).valid) || d.eventNow srcCalBad 0 || d.fault.src[srcCalBad].force) ∧
      d.onlyIn d' [.sense, .prot, .fault, .lantern, .link])) ∧
  ∀ (s : State) (t : Tick) (u : Tick), let d := s.dev.advance t
    d.sense.unlockUntil = some u → d.sys.devState ≠ .boot → u ≤ d.clk.now →
      exec (.calUnlockExpire t) s = .next (s.after t (Dev.note { d with sense := { d.sense with unlockUntil := none } } 0x0305 0 0xFFFF [1])))

/-- The operations end: FGCAL gives every slice that measures well and has a valid trim its coefficients and puts it in service or
    makes it the spare, the others FAILED, result 1; SELFTEST reports the slice and returns it, or fails it where the ramp's counts fail; CAL_ZERO
    writes the mean u of the conversions that count as the entry's offset, and CAL_FS the gain that makes that mean read TARGET, each
    with result 1, unless fewer than 4096 counted, they spread over 64 codes, TARGET is below 2048 codes or the new coefficient is out of
    range: results 4, 3, 5 and 2 (R232, R248 to R251, R253). That of several the first of 4, 3, 5, 2 is reported, and that a self-test
    whose spare is gone leaves RESULT as it was, is assumption 25 (DEDUCED); that STTEST.SLICE holds the low four bits of the slice's
    number is assumption 53 (DEDUCED). -/
def Obligations.CalibrationsEnd : Prop :=
  ∀ (s : State) (t : Tick) (since : Tick), let d := s.dev.advance t
    let e : CalIx := Fin.ofNat 112 d.sense.entry.toNat
    let old := d.sense.cal[e]
    d.alive = true → d.sense.stage = some (.running since) →
    (∀ ms : List SliceMeas, d.sense.op = .fgcal → ∃ d', exec (.fgcalDone t ms) s = .next (s.after t d') ∧ d'.sense.stage = none ∧ d'.sense.result = 1 ∧
      (∀ (q : QuadIx) (i : Fin 5) (os gs : BitVec 16), d.fgSlice q i ms = some (os, gs) → d'.sense.quads[q].slices[i].st ≠ .failed ∧
        (d.sense.quads[q].lowPower = false → d'.sense.quads[q].slices[i].osFull = os ∧ d'.sense.quads[q].slices[i].gsFull = gs)) ∧
      (∀ (q : QuadIx) (i : Fin 5), d.fgSlice q i ms = none → d'.sense.quads[q].slices[i].st = .failed) ∧
      d'.sense.cal = d.sense.cal ∧ d.onlyIn d' [.sense, .fault, .lantern, .leave]) ∧
    (∀ (hits : List Nat) (i : Fin 5), let q : QuadIx := Fin.ofNat 4 d.sense.stQuad.toNat
      let pass := rampOk hits
      d.sense.op = .selftest → d.sense.quads[q].outOfLine = some i →
      ∃ d', exec (.selftestDone t hits) s = .next (s.after t d') ∧ d'.sense.stage = none ∧ d'.sense.result = 1 ∧
        d'.sense.stSlice = BitVec.ofNat 4 (5 * q.val + i.val) ∧ d'.sense.stResult = (if pass then 1 else 2) ∧
        d'.sense.quads[q].outOfLine = (if pass then some i else none) ∧ d'.sense.quads[q].slices[i].st = (if pass then .spare else .failed) ∧
        d.onlyIn d' [.sense, .fault, .leave]) ∧
    (∀ hits : List Nat, d.sense.op = .selftest → d.sense.quads[(Fin.ofNat 4 d.sense.stQuad.toNat : QuadIx)].outOfLine = none →
      ∃ d', exec (.selftestDone t hits) s = .next (s.after t d') ∧ d'.sense = { d.sense with stage := none } ∧ d.onlyIn d' [.sense, .leave]) ∧
    (∀ (slices : List (Fin 5)) (ats : List Tick) (raws : List Int) (cms : List Bool), let us := d.calUs (calSamples slices ats raws cms)
      let counted := us.length
      let mean := rhe us.sum (2 ^ 20 * counted)
      let near := ∀ u ∈ us, ∀ v ∈ us, u - v ≤ 64 * 2 ^ 24
      d.sense.op = .zero → ∃ d', exec (.calDone t slices ats raws cms) s = .next (s.after t d') ∧ d'.sense.stage = none ∧
        (counted < 4096 → d'.sense.result = 4) ∧ (4096 ≤ counted → ¬near → d'.sense.result = 3) ∧
        (4096 ≤ counted → near → -32768 ≤ mean → mean ≤ 32767 → d'.sense.result = 1 ∧ d'.sense.mean = BitVec.ofInt 32 mean ∧
          d'.sense.cal[e] = { value := at' (if old.valid then old.value.extractLsb' 16 16 else 0) 16 ||| at' (BitVec.ofInt 16 mean) 0, valid := true, user := true }) ∧
        (4096 ≤ counted → near → mean < -32768 ∨ 32767 < mean → d'.sense.result = 2) ∧
        (d'.sense.result ≠ 1 → d'.sense.cal = d.sense.cal) ∧ d.onlyIn d' [.sense, .prot, .fault, .lantern, .leave, .free]) ∧
    (∀ (slices : List (Fin 5)) (ats : List Tick) (raws : List Int) (cms : List Bool), let us := d.calUs (calSamples slices ats raws cms)
      let near := ∀ u ∈ us, ∀ v ∈ us, u - v ≤ 64 * 2 ^ 24
      let os : BitVec 16 := if old.valid then old.value.extractLsb' 0 16 else 0
      let den := rhe us.sum (2 ^ 20 * us.length) - os.toInt
      let gain := rhe (den.sign * (2 ^ 22 * d.sense.target.toInt)) den.natAbs - 2 ^ 18
      d.sense.op = .fs → ∃ d', exec (.calDone t slices ats raws cms) s = .next (s.after t d') ∧ d'.sense.stage = none ∧
      (us.length < 4096 → d'.sense.result = 4) ∧ (4096 ≤ us.length → ¬near → d'.sense.result = 3) ∧
      (4096 ≤ us.length → near → d.sense.target.toInt.natAbs < 2048 → d'.sense.result = 5) ∧
      (4096 ≤ us.length → near → 2048 ≤ d.sense.target.toInt.natAbs → den ≠ 0 → -32768 ≤ gain → gain ≤ 32767 → d'.sense.result = 1 ∧
        d'.sense.cal[e] = { value := at' (BitVec.ofInt 16 gain) 16 ||| at' os 0, valid := true, user := true }) ∧
      (4096 ≤ us.length → near → 2048 ≤ d.sense.target.toInt.natAbs → den = 0 ∨ gain < -32768 ∨ 32767 < gain → d'.sense.result = 2) ∧
      (d'.sense.result ≠ 1 → d'.sense.cal = d.sense.cal) ∧
      d.onlyIn d' [.sense, .prot, .fault, .lantern, .leave, .free])

/-- A start of a pass requests its first entry; while a pass of the class runs one start is remembered and a further one counted. An
    entry start requests its entry, unless it does not exist or the queue holds 16: both are counted. The timer starts a regular pass and runs on
    (R256, R257, R258, R261, R262). -/
def Obligations.PassesRequestTheirEntries : Prop :=
  ∀ (s : State) (t : Tick) (q : QuadIx), let d := s.dev.advance t
    let x := d.sense.quads[q]
    let quad := fun (y : Quad) => { d with sense := { d.sense with quads := d.sense.quads.set q y } }
    let req := fun (e : Fin 40) (inj : Bool) (k : ReqKind) => ({ entry := e, inj := inj, kind := k, tick := d.clk.now, waitFrom := d.clk.now } : Req)
    d.alive = true →
    (x.regPass = none → x.injPrio = false → (d.seqOf q).reg ≠ [] → x.queue.length < 16 →
      exec (.seqRegStart t q) s = .next (s.after t (quad { x with regPass := some 0, queue := x.queue ++ [req 0 false .pass] }))) ∧
    (x.regPass.isSome = true → exec (.seqRegStart t q) s = .next (s.after t
      (quad (if x.regPend then { x with passOvr := x.passOvr + 1 } else { x with regPend := true })))) ∧
    (x.injPass = none → (d.seqOf q).inj ≠ [] → x.queue.length < 16 →
      exec (.seqInjStart t q) s = .next (s.after t (quad { x with injPass := some 32, queue := x.queue ++ [req 32 true .pass] }))) ∧
    (x.injPass.isSome = true → exec (.seqInjStart t q) s = .next (s.after t
      (quad (if x.injPend then { x with passOvr := x.passOvr + 1 } else { x with injPend := true })))) ∧
    (∀ e : Fin 32, ((d.seqOf q).entry e.val).isSome = true → x.queue.length < 16 →
      exec (.seqEntStart t q e) s = .next (s.after t (quad { x with queue := x.queue ++ [req (Fin.ofNat 40 e.val) false .ent] }))) ∧
    (∀ e : Fin 32, ((d.seqOf q).entry e.val).isSome = true → 16 ≤ x.queue.length →
      exec (.seqEntStart t q e) s = .next (s.after t ((quad { x with dropFull := x.dropFull + 1 }).raiseEvent (srcSeqMiss q) 0))) ∧
    (∀ e : Fin 32, (d.seqOf q).entry e.val = none → exec (.seqEntStart t q e) s = .next (s.after t (quad { x with dropFull := x.dropFull + 1 }))) ∧
    ∀ u : Tick, x.timerNext = some u → u ≤ d.clk.now → x.regPass = none → x.injPrio = false → (d.seqOf q).reg ≠ [] → x.queue.length < 16 →
      exec (.seqTimer t q) s = .next (s.after t
        (quad { x with timerNext := some (u + (d.seqOf q).timer.toNat), regPass := some 0, queue := x.queue ++ [req 0 false .pass] }))

/-- A request alone in its queue begins at a SLICE_CLK edge on the first free slot two ticks after its start, samples at once and is ready
    18 ticks later, 66 in low-power mode; at no other tick is a request served; one that has waited 480 ticks is discarded, counted, and
    offered to its results as invalid (R106, R236, R238, R247, R259, R260, R268). The code of a ready conversion of a rail's voltage reaches exactly the
    accumulators bound to its entry, corrected by its slice and by its calibration entry as they stood at the sampling instant, and the
    entry's event follows (R239, R252, R265, R267, R268). -/
def Obligations.ConversionsReachTheirAccumulators : Prop :=
  (∀ (s : State) (t : Tick) (q : QuadIx) (r : Req) (y : SeqEntry), let d := (s.dev.advance t).quadEdges q
    let x := d.sense.quads[q]
    (s.dev.advance t).alive = true → x.queue = [r] → r.kind = .ent → (d.seqOf q).entry r.entry.val = some y → y.slices = 0 →
    (∀ (j : Fin 4) (i : Fin 5), (s.dev.advance t).sliceEdge = true → r.tick + 2 ≤ d.clk.now → d.converting = true → d.noPort q y.input = false →
      x.convs = [] → x.slots[j] = some i → (∀ k : Fin 4, k < j → x.slots[k] = none) →
      ∃ d', exec (.conversionStart t q) s = .next (s.after t d') ∧ d'.sense.quads[q].queue = [] ∧
        d'.sense.quads[q].convs = [{ req := r, slots := [j], slices := [i], sampleAt := d.clk.now, slotsFree := d.clk.now + (if x.lowPower then 48 else 6), ready := d.clk.now + (if x.lowPower then 66 else 18), count := 1, interleaved := false, step2 := if x.lowPower then 96 else 12, ent := y, low := x.lowPower }] ∧
        (∀ k : QuadIx, k ≠ q → d'.sense.quads[k] = d.sense.quads[k]) ∧ d'.sense.accs = d.sense.accs ∧ d.onlyIn d' [.sense])) ∧
  (∀ (s : State) (t : Tick) (q : QuadIx), let d := s.dev.advance t
    d.alive = true → d.sliceEdge = false → exec (.conversionStart t q) s = .next (s.after t d)) ∧
  (∀ (s : State) (t : Tick) (q : QuadIx) (r : Req) (y : SeqEntry), let d := s.dev.advance t
    let x := d.sense.quads[q]
    d.alive = true → x.queue = [r] → r.kind = .ent → (d.seqOf q).entry r.entry.val = some y → y.slices = 0 → r.waitHeld = false →
      r.waitFrom + 480 ≤ d.clk.now →
      ∃ d', exec (.requestLateDiscard t q) s = .next (s.after t d') ∧ d'.sense.quads[q] = { x with queue := [], dropLate := x.dropLate + 1 } ∧
        (∀ k : AccIx, d'.sense.accs[k] = match d.tile.cur.accs[k] with
          | some b => if b.quad = q ∧ b.entry = r.entry then d.sense.accs[k].offerOne b.n.toNat none d.clk.now d.tb else d.sense.accs[k]
          | none => d.sense.accs[k]) ∧ d.onlyIn d' [.sense, .fault]) ∧
  (∀ (s : State) (t : Tick) (q : QuadIx) (c : Conv) (r : RailIx) (i : Fin 5) (z : Sample), let d := (s.dev.advance t).quadEdges q
    let x := d.sense.quads[q]
    let slice := x.coef i c.sampleAt
    let input := d.calAt q c c.sampleAt
    let code := (codeOf z.raw slice.1 slice.2 input.1 input.2 false).1
    (s.dev.advance t).alive = true → x.convs = [c] → c.ready ≤ d.clk.now → c.req.kind = .ent → c.lost = false → c.interleaved = false → c.count = 1 → c.slices = [i] →
    sourceOf q c.ent.input = .vsns r →
    (c.cals = [] → input = d.calOf (Fin.ofNat 112 (64 + r.val))) ∧
    ∃ d', exec (.conversionReady t q [z]) s = .next (s.after t d') ∧ d'.sense.quads[q].convs = [] ∧ d'.sense.quads[q].queue = x.queue ∧
      d'.fault.events = d.fault.events ++ [(BitVec.ofNat 16 (0x0200 + 0x40 * q.val + c.req.entry.val), d.clk.now)] ∧
      (∀ k : AccIx, d'.sense.accs[k] = match d.tile.cur.accs[k] with
        | some b => if b.quad = q ∧ b.entry = c.req.entry then d.sense.accs[k].offerOne b.n.toNat (some code) d.clk.now d.tb else d.sense.accs[k]
        | none => d.sense.accs[k]) ∧ d.onlyIn d' [.sense, .fault])

/-- N conversions of a single-conversion entry make one result: its SUM is the sum of the valid codes, VALID their number, and the
    result counter moves on by one; a result of no valid code is not kept (R267, R268, R269). -/
def Obligations.AccumulatorsSumTheirConversions : Prop :=
  ∀ (a : Acc) (xs : List (Option Int)) (t : Tick) (tb : Nat), xs ≠ [] → a.pCount = 0 → a.pSum = 0 → a.pValid = 0 →
    let codes := xs.filterMap id
    let b := xs.foldl (fun b x => b.offerOne xs.length x t tb) a
    b.sum = BitVec.ofInt 32 codes.sum ∧ b.valid = BitVec.ofNat 13 codes.length ∧ b.results = a.results + 1 ∧ b.ts = tb ∧ b.pCount = 0 ∧
      b.history = if codes = [] then a.history else ({ sum := b.sum, valid := b.valid, at_ := t } :: a.history).take 16

/-- A tracker window holds the least and the greatest of the codes it took and their number, up to 65 535; it closes into LAST and the
    next opens, at a RESET or when WIN has passed, a WIN written now too, once in a LOOP_CLK cycle, the codes of that cycle in the new one (R272, R273). -/
def Obligations.TrackersKeepExtremes : Prop :=
  (∀ xs : List (Int × Tick), xs ≠ [] → (∀ x ∈ xs, -8192 ≤ x.1 ∧ x.1 ≤ 16383) →
    let w := (TrkWin.takeAll {} (xs.map fun x => (some x.1, x.2)))
    (∀ x ∈ xs, w.min.toInt ≤ x.1 ∧ x.1 ≤ w.max.toInt) ∧ (∃ x ∈ xs, w.min.toInt = x.1) ∧ (∃ x ∈ xs, w.max.toInt = x.1) ∧
      w.count.toNat = min xs.length 65535) ∧
  (∀ (s : State) (t : Tick) (k : TrkIx), let d := s.dev.advance t
    let x := d.sense.trks[k]
    let bound := (d.tile.cur.trks[k]).isSome
    let late := (d.cyc.trkOffers.filter fun p => p.1 == k).flatMap (·.2)
    let last := ((d.cyc.trkWas.find? fun p => p.1 == k).map (·.2)).getD x.cur
    let closed := fun (win : BitVec 16) => { d with
      cyc := { d.cyc with trkClosed := setBit d.cyc.trkClosed k.val true }
      sense := { d.sense with trks := d.sense.trks.set k { win := win, cur := TrkWin.takeAll {} late, last := last, opened := d.clk.now } } }
    let closes := fun (v : Word) => v.getLsbD 31 = true ∨ v.setWidth 16 ≠ (0 : BitVec 16) ∧ x.opened + (v.setWidth 16 : BitVec 16).toNat * 4800 ≤ d.clk.now
    (∀ v : Word, d.takesHost (.trkReset t k v) → bound = true → closes v → d.cyc.trkClosed.getLsbD k.val = false →
      exec (.trkReset t k v) s = .next (s.after t ((closed (v.setWidth 16)).reply stOk))) ∧
    (∀ v : Word, d.takesHost (.trkReset t k v) → bound = false ∨ ¬closes v ∨ d.cyc.trkClosed.getLsbD k.val = true →
      exec (.trkReset t k v) s = .next (s.after t (Dev.reply { d with sense := { d.sense with trks := d.sense.trks.set k { x with win := v.setWidth 16 } } } stOk))) ∧
    (d.alive = true → bound = true → x.win ≠ 0 → x.opened + x.win.toNat * 4800 ≤ d.clk.now → d.cyc.trkClosed.getLsbD k.val = false →
      exec (.trkWindowClose t k) s = .next (s.after t (closed x.win))) ∧
    (d.alive = true → bound = false ∨ x.win = 0 ∨ d.clk.now < x.opened + x.win.toNat * 4800 ∨ d.cyc.trkClosed.getLsbD k.val = true →
      exec (.trkWindowClose t k) s = .next (s.after t d)))

/-! ## Loop engine -/

/-- CTX_START, a start at a task input in Count mode (assumption 107), of an active context waits in the dispatch queue, or, while one
    waits or computes and in the LOOP_CLK cycle of a completion, at its task input, which holds 255, one that this cycle has taken among
    them; a start of an idle context does nothing. An event at a context's input in Latch mode starts it, or sets the input to 1 where it
    cannot start; one that finds a start held, or that is not the first of its cycle, merges and sets OVERRUN; the requests that a merged
    start of a quad's input has made carry the earliest tick (R300, R301). A free lane issues the oldest start two cycles after it was taken, with the values that stood when its cycle
    began, and is free again three cycles later (R281, R290, R292, R301, R302). The host clears a context's greatest delay with bit 31 of its DELAY, and
    the histogram and the deepest queue with bit 31 of HSTAT: the computes that complete in that very cycle stay counted, and the queue
    as it is; a 0 there writes nothing (R293, R294, R295). -/
def Obligations.ContextStartsWaitAndIssue : Prop :=
  (∀ (s : State) (t : Tick) (c : CtxIx), let d := s.dev.advance t
    let x := d.loop.ctx[c]
    let held : Byte := d.loop.fab.ctxHeld[c]
    let waits := (x.pending).isSome = true ∨ (x.flight).isSome = true ∨ ∃ y ∈ d.loop.ended, y.1 = c
    d.alive = true →
    (x.active = false → exec (.ctxStart t c) s = .next (s.after t d)) ∧
    (x.active = true → x.pending = none → x.flight = none → (∀ y ∈ d.loop.ended, y.1 ≠ c) → ∃ d', exec (.ctxStart t c) s = .next (s.after t d') ∧
      d'.loop.ctx[c] = { x with pending := some d.cycle } ∧ d'.loop.queue.Perm (c :: d.loop.queue) ∧ d'.loop.fab = d.loop.fab ∧
      (∀ k : CtxIx, k ≠ c → d'.loop.ctx[k] = d.loop.ctx[k]) ∧ d.onlyIn d' [.loop]) ∧
    let full := held = 255 ∨ held = 254 ∧ x.pending = some d.cycle
    (x.active = true → waits → ¬full →
      exec (.ctxStart t c) s = .next (s.after t { d with loop := { d.loop with fab := { d.loop.fab with ctxHeld := d.loop.fab.ctxHeld.set c (held + 1) } } })) ∧
    (x.active = true → waits → full → ∃ d', exec (.ctxStart t c) s = .next (s.after t d') ∧
      d'.loop.ctx = d.loop.ctx ∧ d'.loop.fab.ctxHeld = d.loop.fab.ctxHeld ∧ d'.loop.fab.ovrCtx.getLsbD c.val = true ∧
      d'.loop.fab.ovrCount = d.loop.fab.ovrCount + 1 ∧ d.onlyIn d' [.loop, .fault]) ∧
    (d.loop.queue = [] → exec (.ctxComputeIssue t) s = .next (s.after t d)) ∧
    ∀ k : Nat, d.loop.queue = [c] → x.pending = some k → k + 2 ≤ d.cycle → x.flight = none → d.loop.lanes[0] ≤ d.cycle → (∀ h ∈ d.cyc.handed, h.1 ≠ c) →
      exec (.ctxComputeIssue t) s = .next (s.after t { d with loop := { d.loop with
        ctx := d.loop.ctx.set c { x with flight := some { taken := k, done := d.cycle + (d.atIssue.topo c).latency, res := d.atIssue.compute c }, pending := none }
        queue := [], lanes := d.loop.lanes.set 0 (d.cycle + 3) } })) ∧
  (∀ (d : Dev) (c : CtxIx) (at_ : Tick), let x := d.loop.ctx[c]
    let free := x.pending = none ∧ x.flight = none ∧ ∀ y ∈ d.loop.ended, y.1 ≠ c
    let held := d.loop.fab.ctxHeld[c] ≠ 0 ∨ x.pending = some d.cycle
    let merged := fun (d' : Dev) => d'.loop.ctx = d.loop.ctx ∧ d'.loop.queue = d.loop.queue ∧ d'.loop.fab.ctxHeld = d.loop.fab.ctxHeld ∧
      d'.loop.fab.ovrCtx = setBit d.loop.fab.ovrCtx c.val true ∧ d'.loop.fab.ovrCount = d.loop.fab.ovrCount + 1 ∧ d.onlyIn d' [.loop, .fault]
    merged (d.latchInput (0x100 + c.val) at_ true) ∧ (held → merged (d.latchInput (0x100 + c.val) at_ false)) ∧
    (¬held → x.active = false → d.latchInput (0x100 + c.val) at_ false = d) ∧
    (¬held → x.active = true → free → (d.latchInput (0x100 + c.val) at_ false).loop.ctx[c].pending = some d.cycle ∧
      (d.latchInput (0x100 + c.val) at_ false).loop.fab = d.loop.fab ∧ d.onlyIn (d.latchInput (0x100 + c.val) at_ false) [.loop]) ∧
    (¬held → x.active = true → ¬free → d.latchInput (0x100 + c.val) at_ false =
      { d with loop := { d.loop with fab := { d.loop.fab with ctxHeld := d.loop.fab.ctxHeld.set c 1 } } })) ∧
  (∀ (d : Dev) (q : QuadIx) (e : Fin 32) (at_ : Tick), let d' := d.latchInput (0x20 + 32 * q.val + e.val) at_ true
    d'.sense.quads[q] = { d.sense.quads[q] with queue := d.sense.quads[q].queue.map fun r =>
        if r.kind = .ent ∧ r.entry.val = e.val ∧ at_ < r.tick ∧ r.tick ≤ d.cycleTick + 1 then { r with tick := at_, waitFrom := at_ } else r } ∧
      (∀ k : QuadIx, k ≠ q → d'.sense.quads[k] = d.sense.quads[k]) ∧ (d'.loop.fab.ovrEnt[q]).getLsbD e.val = true ∧
      d'.loop.fab.ovrCount = d.loop.fab.ovrCount + 1 ∧ d.onlyIn d' [.sense, .loop, .fault]) ∧
  (∀ (s : State) (t : Tick) (c : CtxIx) (v : Word), let d := s.dev.advance t
    (d.takesHost (.ctxDelayClr t c v) → exec (.ctxDelayClr t c v) s = .next (s.after t (Dev.reply
      (if v.getLsbD 31 then { d with loop := { d.loop with ctx := d.loop.ctx.set c { d.loop.ctx[c] with
        delayMax := if d.cyc.delays.getLsbD c.val then d.loop.ctx[c].delayLast else 0 } } } else d) stOk))) ∧
    (d.takesHost (.loopHistClr t v) → exec (.loopHistClr t v) s = .next (s.after t (Dev.reply
      (if v.getLsbD 31 then { d with loop := { d.loop with
        hist := d.cyc.bins.foldl (fun h b => upd h b satInc) (Vector.replicate 12 0)
        qmax := satN 8 d.loop.queue.length } } else d) stOk))))

/-- A compute completes in its cycle. With a result, the context's state moves on by one sample, its delay is counted, and an inner
    context's output stands in its phase's shadow, clamped to 22 bits; a held compute only counts as invalid, the eighth in a row raising
    LOOP_INPUT; one whose context became idle writes nothing but the histogram. The next start and a preload that waits are left to the next
    LOOP_CLK cycle (R281, R283, R284, R289, R292, R293, R295). -/
def Obligations.ComputesDeliver : Prop :=
  ∀ (s : State) (t : Tick) (c : CtxIx), let d := s.dev.advance t
    let x := d.loop.ctx[c]
    (d.alive = true → x.flight = none ∨ (∃ f : Flight, x.flight = some f ∧ d.cycle < f.done) → exec (.ctxComputeDone t c) s = .next (s.after t d)) ∧
    ∀ f : Flight, d.alive = true → x.flight = some f → f.done ≤ d.cycle →
    ∃ d', exec (.ctxComputeDone t c) s = .next (s.after t d') ∧ d'.loop.ctx[c].flight = none ∧
      d'.loop.ended = d.loop.ended ++ [(c, d.cycle, !f.dead)] ∧
      (f.res = none → d'.loop.hist = d.loop.hist) ∧
      (f.res.isSome = true → d'.loop.hist = upd d.loop.hist (Fin.ofNat 12 (min 11 ((f.done - f.taken) / 8))) satInc) ∧
      (f.dead = true → d'.loop.ctx[c] = { x with flight := none } ∧ d'.pwm = d.pwm ∧ d'.fault = d.fault) ∧
      (f.dead = false → f.res = none →
        let named := x.inputRail.orElse fun _ => d.ctxRail c
        d'.loop.ctx[c] = { x with
          flight := none, invalidRun := satInc x.invalidRun, invalid := x.invalid + 1, inputRail := if 7 ≤ x.invalidRun.toNat then named else none } ∧
        d'.pwm = d.pwm ∧ ∀ r : RailIx, named = some r → d.railDefined r = true → 7 ≤ x.invalidRun.toNat → d'.causeOf (srcLoopInput r) 0 = true) ∧
      (∀ y : ComputeRes, f.dead = false → f.res = some y → x.slewLeft = 0 →
        d'.loop.ctx[c].meas = y.meas ∧ d'.loop.ctx[c].err = y.err ∧ d'.loop.ctx[c].out = y.out ∧ d'.loop.ctx[c].y1 = y.y ∧ d'.loop.ctx[c].y2 = x.y1 ∧
        d'.loop.ctx[c].y3 = x.y2 ∧ d'.loop.ctx[c].e1 = y.err ∧ d'.loop.ctx[c].e2 = x.e1 ∧ d'.loop.ctx[c].e3 = x.e2 ∧ d'.loop.ctx[c].invalidRun = 0 ∧
        d'.loop.ctx[c].computes = x.computes + 1 ∧ d'.loop.ctx[c].delayLast = satN 8 (f.done - f.taken) ∧
        (ctxPhase c = none → d'.pwm = d.pwm) ∧
        ∀ n : PhaseIx, ctxPhase c = some n → d.srcHost n = false → d.pwm[n].flareOn = false →
          d'.pwm[n].loopShadow = some { duty := satU 22 y.out.toInt, at_ := d.cycleTick }) ∧
      (∀ k : CtxIx, k ≠ c → d'.loop.ctx[k] = d.loop.ctx[k]) ∧ d.onlyIn d' [.pwm, .loop, .fault]

/-- A corrected code lies within its range, and ideal coefficients give the raw code back, for inputs other than ISNS offset by 8192
    (R235, R239). A compute is held exactly when its input has no valid conversion; its 64-bit sum saturates, its state lies in the Sector's
    integrator range and its output in the Sector's output range, wherever those ranges are not empty (R282, R284, R285, R286, R289). -/
def Obligations.ArithmeticStaysInRange : Prop :=
  (∀ raw os gs osI gsI : Int, -8192 ≤ (codeOf raw os gs osI gsI true).1 ∧ (codeOf raw os gs osI gsI true).1 ≤ 8191 ∧
    0 ≤ (codeOf raw os gs osI gsI false).1 ∧ (codeOf raw os gs osI gsI false).1 ≤ 16383) ∧
  (∀ raw : Int, -8192 ≤ raw → raw ≤ 8191 → codeOf raw 0 0 0 0 true = (raw, false) ∧ codeOf raw 0 0 0 0 false = (raw + 8192, false)) ∧
  (∀ (cs : List (Word × Byte)) (xs : List Int), -(2 ^ 63) ≤ (accNative cs xs).1 ∧ (accNative cs xs).1 ≤ 2 ^ 63 - 1) ∧
  ∀ (d : Dev) (c : CtxIx), (d.compute c = none ↔ (d.accOf c).valid = 0) ∧
    ∀ y : ComputeRes, d.compute c = some y → let e := d.sectorEnt c
      (e.outMin.toInt ≤ e.outMax.toInt → e.outMin.toInt ≤ y.out.toInt ∧ y.out.toInt ≤ e.outMax.toInt) ∧
      (e.intMin.toInt ≤ e.intMax.toInt → (d.topo c).compat = false → e.intMin.toInt ≤ y.y.toInt ∧ y.y.toInt ≤ e.intMax.toInt)

/-- A Sector matches when both keys lie in its ranges and its mask holds the code of the rail's mode. The winning Sector matches, no
    matching entry has a higher PRIORITY, and of those with its PRIORITY it is the first; there is a winner whenever an entry matches. When
    none does, the Sector in effect stays and NOMATCH is 1, and a context that has had no Sector takes Sector 0 (R308). -/
def Obligations.TheWinningSectorIsTheFirstOfHighestPriority : Prop :=
  ∀ (ss : List SectorEnt) (keyI keyV : Int) (m : RailMode), ss.length ≤ 8 →
    (∀ w : Fin 8, winner ss keyI keyV m = some w → ∃ e, ss[w.val]? = some e ∧ e.hit keyI keyV m = true ∧
      ∀ (i : Nat) (e' : SectorEnt), ss[i]? = some e' → e'.hit keyI keyV m = true → e'.priority.toNat < e.priority.toNat ∨ (e'.priority = e.priority ∧ w.val ≤ i)) ∧
    (winner ss keyI keyV m = none ↔ ∀ e ∈ ss, e.hit keyI keyV m = false) ∧
    (∀ e : SectorEnt, e.hit keyI keyV m = true ↔
      e.iLo.toInt ≤ keyI ∧ keyI ≤ e.iHi.toInt ∧ e.vLo.toInt ≤ keyV ∧ keyV ≤ e.vHi.toInt ∧ e.modeMask.getLsbD m.code.toNat = true) ∧
    [RailMode.off, .ramp, .regulate, .ember, .charge, .support, .hiccup, .hold].map RailMode.code = [0, 1, 2, 3, 4, 5, 6, 7] ∧
    ∀ (d : Dev) (c : CtxIx) (r : RailIx), d.ctxRail c = some r →
      d.winnerOf c = winner d.tile.cur.sectors[c] d.loop.rails[r].keyI.toInt d.loop.rails[r].keyV.toInt d.rails[r].mode ∧
      (d.winnerOf c = none → (d.topo c).enable = true → ∀ d' : Dev, d' = d.evalMark r c ∨ d' = d.evalNow c →
        d'.loop.ctx[c].noMatch = true ∧ d'.loop.ctx[c].sector = some (d.loop.ctx[c].sector.getD 0)) ∧
      ∀ w : Fin 8, d.winnerOf c = some w → (d.evalNow c).loop.ctx[c].sector = some w ∧ (d.evalNow c).loop.ctx[c].noMatch = false ∧
        (d.evalMark r c).loop.ctx[c].noMatch = false

/-! ## Rails and cards -/

/-- An update point of a rail reference, when it is due, forms the rail's voltage from the latest valid result of its outer context; a valley
    also begins the reference's new period, with a written one taken over, forms the keys and moves the target in effect. Every update
    point transfers IREF and takes the decisions of Ember and of a Flare; a mark takes those of shedding, adding and the way into EMBER, in
    the words of `Dev.KeysFormed` and the definitions after it. At any other tick nothing happens (R186, R201, R204 to R207, R304 to R307,
    R319, R323, R325, R326, R328 to R330, R333, R334, R370 to R373). What a Flare exit leaves to the decisions of its own mark is the
    model's order (assumption 12). -/
def Obligations.RailUpdatePointsFormTheVoltage : Prop :=
  ∀ (s : State) (t : Tick) (r : RailIx) (apex : Bool), let d := s.dev.advance t
    let ref := d.pwmg.refs[r]
    let a := d.accOf (outerIx r)
    d.alive = true →
    ((d.tile.cur.rails[r]).isSome = false ∨ ref.running = false ∨ ref.holding = true ∨ ref.due d.clk.now apex = false →
      exec (.railUpdatePoint t r apex) s = .next (s.after t d)) ∧
    ((d.tile.cur.rails[r]).isSome = true → ref.running = true → ref.holding = false → ref.due d.clk.now apex = true →
    ∃ d', exec (.railUpdatePoint t r apex) s = .next (s.after t d') ∧
      (∀ l : AccResult, a.latest = some l → let v := rhe (16 * l.sum.toInt * d.rails[r].vscale.toNat) (l.valid.toNat * 1000);
        -(2 ^ 31) ≤ v → v < 2 ^ 31 → d'.rails[r].vout = BitVec.ofInt 32 v ∧ d'.rails[r].vstale = (a.valid == 0)) ∧
      (a.latest = none → d'.rails[r].vout = d.rails[r].vout ∧ d'.rails[r].vstale = true) ∧
      (apex = true → d'.pwmg = { d.pwmg with refs := d.pwmg.refs.set r { ref.sync d.clk.now with down := true } }) ∧
      (apex = false → d'.pwmg.refs[r].valley = (if (ref.sync d.clk.now).first then (ref.sync d.clk.now).valley else d.clk.now) ∧
        d'.rails[r].markAt = d.clk.now ∧ d'.pwmg.refs[r].per = ref.pend.getD ref.per ∧ d'.pwmg.refs[r].wasPer = ref.per ∧ d'.pwmg.refs[r].pend = none ∧ d'.pwmg.refs[r].down = false ∧ d'.pwmg.dev = d.pwmg.dev) ∧
      (∀ k : RailIx, k ≠ r → d'.pwmg.refs[k] = d.pwmg.refs[k] ∧ d'.rails[k] = d.rails[k]) ∧
      d.onlyIn d' [.pwm, .pwmg, .loop, .rails, .prot, .sp, .ports, .fault, .lantern, .leave, .free] ∧
      (apex = false → d.KeysFormed d' r ∧ d.TargetSlewed d' r) ∧
      (d.portOf r = none → d.IrefTransferred d' r ∧ let x := d.rails[r]
        let calm := ref.pend = none ∧ ref.alignDue = false
        let settled := apex = true ∨ x.staysOut
        (x.flare = none → apex = false → (x.mode = .regulate → calm → d.ShedDecided d' r) ∧ (x.mode = .regulate ∨ x.mode = .ramp → d.AddDecided d' r) ∧
          (x.mode = .regulate → x.notice = none → d.EmberEntered d' r)) ∧
        (x.flare = none → x.mode = .ember → d.EmberDecided d' r settled) ∧
        ∀ f : Tick, x.flare = some f → x.mode = .regulate ∨ x.mode = .ember → d.FlareDecided d' r f settled))

/-- CMD 0 answers OK, but of a shared rail that takes no command REFUSED_STATE, and a reserved code REFUSED_STATE, without effect. A rail
    takes commands where it is not shared, or at the head of a WHOLE chain; elsewhere they are refused, but for the ON that arms a
    member's OFF rail (R500). ON of an OFF rail that nothing bars enters RAMP and makes STANDBY RUN; a fault that stands refuses it
    REFUSED_FAULT. OFF of a rail that is not OFF enters OFF, clears its retries and its members' trip counts, and makes RUN STANDBY with the
    last rail; OFF of an OFF rail answers OK; OFF is refused of an undefined rail and in BOOT, UNTILED and LATCHED. OFF in the LOOP_CLK cycle
    in which a fault's reaction, or another stop, has taken the rail to HOLD or HICCUP, and ON or OFF in the cycle in which one has taken the
    device to LATCHED, is dropped (R36, R40, R319 to R322, R347). The open-loop test enable is taken in STANDBY and RUN of an OFF rail, with
    the other bits of RAIL[r].CTRL; elsewhere setting it is refused and changes nothing; clearing it ends the host duty of the rail's
    members (R13, R199, R340). What code 0 answers of a shared rail, and the statuses of dropped commands, are the model's readings
    (assumption 22). -/
def Obligations.RailCommandsAndTestEnable : Prop :=
  (∀ (s : State) (t : Tick) (r : RailIx), let d := s.dev.advance t
    let live := d.sys.devState = .standby ∨ d.sys.devState = .run ∨ d.sys.devState = .maint
    let own := d.sharedAs r = none ∨ d.chord.head = true ∧ d.chord.st = 1
    let arms := d.sharedAs r ≠ none ∧ d.chord.head = false ∧ d.rails[r].mode = .off ∧ d.chord.armed.getLsbD r.val = false
    let on := d.takesHost (.railCmdOn t r)
    let off := d.takesHost (.railCmdOff t r)
    (d.takesHost (.railCmdNone t r) → (own → exec (.railCmdNone t r) s = .next (s.after t (d.reply stOk))) ∧
      (¬own → exec (.railCmdNone t r) s = .next (s.after t (d.reply stState)))) ∧
    (∀ code : Fin 3, d.takesHost (.railCmdReserved t r code) → exec (.railCmdReserved t r code) s = .next (s.after t (d.reply stState))) ∧
    (on → own → d.rails[r].mode = .off → d.railDefined r = true → (d.railEnt r).storage = false → d.rails[r].vscale ≠ 0 →
      d.latchedNow = false → d.deviceBars r = false → d.faultBars r = false →
      ∃ d', exec (.railCmdOn t r) s = .next (s.after t d') ∧ d'.link.lastStatus = stOk ∧ d'.rails[r].mode = .ramp ∧ d'.sys.devState = .run ∧
        (∀ k : RailIx, k ≠ r → d'.rails[k] = d.rails[k]) ∧
        d.onlyIn d' [.sys, .pwm, .loop, .rails, .prot, .sp, .ports, .fault, .lantern, .leave, .free, .link]) ∧
    (on → own → d.rails[r].mode ≠ .off ∨ d.railDefined r = false ∨ (d.railEnt r).storage = true ∨ d.rails[r].vscale = 0 ∨ d.latchedNow = false ∧ d.deviceBars r = true →
      exec (.railCmdOn t r) s = .next (s.after t (d.reply stState))) ∧
    (on → own → d.rails[r].mode = .off → d.railDefined r = true → (d.railEnt r).storage = false → d.rails[r].vscale ≠ 0 →
      d.latchedNow = true ∨ d.deviceBars r = false ∧ d.faultBars r = true → exec (.railCmdOn t r) s = .next (s.after t (d.reply stFault))) ∧
    (on → ¬own → ¬arms → exec (.railCmdOn t r) s = .next (s.after t (d.reply stState))) ∧
    (on → arms → (d.latchedNow = true ∨ d.takesOn = true ∧ d.faultBars r = true → exec (.railCmdOn t r) s = .next (s.after t (d.reply stFault))) ∧
      (d.latchedNow = false → d.takesOn = false → exec (.railCmdOn t r) s = .next (s.after t (d.reply stState))) ∧
      (d.latchedNow = false → d.takesOn = true → d.faultBars r = false → exec (.railCmdOn t r) s = .next (s.after t
        (Dev.reply { d with chord := { d.chord with armed := setBit d.chord.armed r true } } stOk)))) ∧
    (off → ¬own ∨ d.sys.devState = .boot ∨ d.sys.devState = .untiled ∨ d.railDefined r = false → exec (.railCmdOff t r) s = .next (s.after t (d.reply stState))) ∧
    (off → own → d.railDefined r = true → d.sys.devState = .latched →
      exec (.railCmdOff t r) s = .next (s.after t (d.reply (if d.latchedNow then stFault else stState)))) ∧
    (off → own → d.railDefined r = true → live → d.latchedNow = false → d.rails[r].mode ≠ .off →
      d.cyc.struck.getLsbD r.val = false → d.cyc.stopped.getLsbD r.val = false → ∃ d', exec (.railCmdOff t r) s = .next (s.after t d') ∧ d'.link.lastStatus = stOk ∧ d'.rails[r].mode = .off ∧ d'.rails[r].retries = 0 ∧
        d'.rails[r].demand = 0 ∧ d'.rails[r].notice = none ∧ d'.rails[r].flare = none ∧ (∀ k : RailIx, k ≠ r → d'.rails[k] = d.rails[k]) ∧
        (∀ n : PhaseIx, d.railOf n = some r → d'.prot.trips[n].latch = false ∧ d'.prot.trips[n].count = 0 ∧ (d.isLoop n = true → d'.pwm[n].mask.shed = true)) ∧
        d'.sys.devState = (if d.sys.devState = .run ∧ ∀ k : RailIx, k ≠ r → d.rails[k].mode = .off then .standby else d.sys.devState) ∧
        d.onlyIn d' [.sys, .pwm, .loop, .rails, .prot, .ports, .fault, .lantern, .chord, .leave, .link]) ∧
    (off → own → d.railDefined r = true → live → d.latchedNow = false → d.rails[r].mode = .off →
      exec (.railCmdOff t r) s = .next (s.after t (d.reply stOk))) ∧
    (off → own → d.railDefined r = true → live → d.latchedNow = false → d.rails[r].mode ≠ .off →
      (d.cyc.struck.getLsbD r.val = true → exec (.railCmdOff t r) s = .next (s.after t (d.reply stFault))) ∧
      (d.cyc.struck.getLsbD r.val = false → d.cyc.stopped.getLsbD r.val = true → exec (.railCmdOff t r) s = .next (s.after t (d.reply stState))))) ∧
  (∀ (s : State) (t : Tick) (r : RailIx) (v : Word), let d := s.dev.advance t
    let ok := d.rails[r].mode = .off ∧ (d.sys.devState = .standby ∨ d.sys.devState = .run)
    d.takesHost (.oltEnWrite t r v) →
    (v.getLsbD 3 = true → ¬ok → exec (.oltEnWrite t r v) s = .next (s.after t (d.reply stState))) ∧
    (v.getLsbD 3 = true ∧ ok ∨ v.getLsbD 3 = false ∧ d.rails[r].oltEn = false → exec (.oltEnWrite t r v) s = .next (s.after t (Dev.reply
      { d with rails := d.rails.set r { d.rails[r] with oltEn := v.getLsbD 3, flareEn := v.getLsbD 2, emberEn := v.getLsbD 1, shedEn := v.getLsbD 0 } } stOk))) ∧
    (v.getLsbD 3 = false → d.rails[r].oltEn = true → ∃ d', exec (.oltEnWrite t r v) s = .next (s.after t d') ∧ d'.link.lastStatus = stOk ∧
      d'.rails = d.rails.set r { d.rails[r] with oltEn := false, flareEn := v.getLsbD 2, emberEn := v.getLsbD 1, shedEn := v.getLsbD 0 } ∧
      (∀ n : PhaseIx, d.railOf n = some r → d'.pwm[n].hostOvr = false) ∧ (∀ n : PhaseIx, d.railOf n ≠ some r → d'.pwm[n] = d.pwm[n]) ∧
      d.onlyIn d' [.pwm, .rails, .leave, .link]))

/-- CHARGE and SUPPORT of a storage rail from OFF, and from each other's mode directly, enter their mode, take their phase and relight the
    Wick when the port's settings allow it and nothing bars the rail; from OFF they make STANDBY RUN. In their own mode they do nothing but
    answer OK, save in STOPPED: there CHARGE takes the phase anew, and SUPPORT returns to BOOST while VOUT is above V_CUTOFF. In any other
    mode, of a rail without a port and of a shared rail that takes no command they are refused, and REFUSED_FAULT where a fault stands or
    has taken the device to LATCHED in the cycle (R36, R40, R378, R379, R382, R395, R500; the order against R40's drop is the model's,
    assumption 22). -/
def Obligations.StorageCommandsEnterTheirModes : Prop :=
  ∀ (s : State) (t : Tick) (r : RailIx), let d := s.dev.advance t
    let charge := d.takesHost (.railCmdCharge t r)
    let support := d.takesHost (.railCmdSupport t r)
    let own := d.sharedAs r = none ∨ d.chord.head = true ∧ d.chord.st = 1
    let answers := fun (d' : Dev) => (charge → exec (.railCmdCharge t r) s = .next (s.after t d')) ∧ (support → exec (.railCmdSupport t r) s = .next (s.after t d'))
    (d.portOf r = none → answers (d.reply stState)) ∧
    ∀ p : PortIx, d.portOf r = some p →
      let x := d.ports[p]
      let m := d.rails[r].mode
      (¬own → answers (d.reply stState)) ∧
      (own → d.latchedNow = true ∨ d.deviceBars r = false ∧ d.faultBars r = true → answers (d.reply stFault)) ∧
      (own → d.latchedNow = false → d.deviceBars r = true → answers (d.reply stState)) ∧
      (own → d.latchedNow = false → d.deviceBars r = false → d.faultBars r = false →
      (m ≠ .off → m ≠ .charge → m ≠ .support → answers (d.reply stState)) ∧
      (charge → m = .off ∨ m = .support → d.chargeReady p r = false → exec (.railCmdCharge t r) s = .next (s.after t (d.reply stState))) ∧
      (charge → m = .off ∨ m = .support → d.chargeReady p r = true → ∃ d', exec (.railCmdCharge t r) s = .next (s.after t d') ∧ d'.link.lastStatus = stOk ∧
        d'.rails[r].mode = .charge ∧ d'.sys.devState = (if m = .off then .run else d.sys.devState) ∧ d'.ports[p].wickOut = false ∧
        ((m = .off → x.wickAt = none) → d'.ports[p].phase = (if d.rails[r].vstale then .none else d.phaseByVout p r)) ∧
        d'.ports[p].entered = d.cycleTick ∧ d'.ports[p].nextPoint = some (d.cycleTick + 480000) ∧
        (∀ q : PortIx, q ≠ p → d'.ports[q] = d.ports[q]) ∧ (∀ k : RailIx, k ≠ r → d'.rails[k] = d.rails[k]) ∧
        d.onlyIn d' [.sys, .pwm, .loop, .rails, .prot, .ports, .fault, .lantern, .leave, .free, .link]) ∧
      (support → m = .off ∨ m = .charge → d.supportReady p r = false → exec (.railCmdSupport t r) s = .next (s.after t (d.reply stState))) ∧
      (support → m = .off ∨ m = .charge → d.supportReady p r = true → ∃ d', exec (.railCmdSupport t r) s = .next (s.after t d') ∧ d'.link.lastStatus = stOk ∧
        d'.rails[r].mode = .support ∧ d'.sys.devState = (if m = .off then .run else d.sys.devState) ∧ d'.ports[p].wickOut = false ∧
        d'.ports[p].phase = .boost ∧ d'.ports[p].entered = d.cycleTick ∧ d'.ports[p].nextPoint = some (d.cycleTick + 480000) ∧
        (∀ q : PortIx, q ≠ p → d'.ports[q] = d.ports[q]) ∧ (∀ k : RailIx, k ≠ r → d'.rails[k] = d.rails[k]) ∧
        d.onlyIn d' [.sys, .pwm, .loop, .rails, .prot, .ports, .fault, .lantern, .leave, .free, .link]) ∧
      (charge → m = .charge → x.phase ≠ .stopped → exec (.railCmdCharge t r) s = .next (s.after t (d.reply stOk))) ∧
      (support → m = .support → x.phase ≠ .stopped → exec (.railCmdSupport t r) s = .next (s.after t (d.reply stOk))) ∧
      (charge → m = .charge → x.phase = .stopped → ∃ d', exec (.railCmdCharge t r) s = .next (s.after t d') ∧ d'.link.lastStatus = stOk ∧
        d'.rails[r].mode = .charge ∧ d'.ports[p].phase = (if d.rails[r].vstale then .none else d.phaseByVout p r) ∧ d'.ports[p].wickOut = false ∧
        (∀ q : PortIx, q ≠ p → d'.ports[q] = d.ports[q]) ∧ (∀ k : RailIx, k ≠ r → d'.rails[k] = d.rails[k]) ∧
        d.onlyIn d' [.pwm, .loop, .rails, .ports, .fault, .lantern, .leave, .free, .link]) ∧
      (support → m = .support → x.phase = .stopped → ((x.vCutoff.toNat : Int) < d.rails[r].vout.toInt → ∃ d', exec (.railCmdSupport t r) s = .next (s.after t d') ∧
        d'.link.lastStatus = stOk ∧ d'.rails[r].mode = .support ∧ d'.ports[p].phase = .boost ∧ d'.ports[p].wickOut = false ∧
        (∀ q : PortIx, q ≠ p → d'.ports[q] = d.ports[q]) ∧ (∀ k : RailIx, k ≠ r → d'.rails[k] = d.rails[k]) ∧
        d.onlyIn d' [.pwm, .loop, .rails, .ports, .fault, .lantern, .leave, .free, .link]) ∧
        (d.rails[r].vout.toInt ≤ (x.vCutoff.toNat : Int) → exec (.railCmdSupport t r) s = .next (s.after t (d.reply stState)))))

/-- The events in a rail's life that time or a comparator bring: the end of a notice sheds its phase; an undershoot begins a Flare where
    it was armed when the LOOP_CLK cycle began and is counted as blocked where it was not, and during settling does neither; Flare is armed again after its gap; a hiccup's off-time ends in a retry, or in
    HOLD with HICCUP_LIMIT when none is left; and the retries return to 0 (R325, R331, R335, R336, R344, R350). That an undershoot which
    stands when Flare is armed again starts none is the model's reading of R331 (assumption 12). -/
def Obligations.RailEventsTakeEffect : Prop :=
  ∀ (s : State) (t : Tick) (r : RailIx), let d := s.dev.advance t
    let x := d.rails[r]
    let armed := d.flareArmed r && x.flare.isNone && (x.mode == .regulate || x.mode == .ember)
    (∀ nt : Notice, x.notice = some nt → nt.until_ ≤ d.clk.now → ∃ d', exec (.shedNoticeExpire t r) s = .next (s.after t d') ∧
      d'.rails[r] = { x with notice := none, shedSince := none, spread := d'.rails[r].spread } ∧
      d'.pwm[nt.phase].mask = MaskBits.or { d.pwm[nt.phase].mask with shed := true } (d.setNow nt.phase) ∧
      (∀ k : RailIx, k ≠ r → d'.rails[k] = d.rails[k]) ∧ d.onlyIn d' [.pwm, .loop, .rails, .fault, .leave]) ∧
    ((∀ nt : Notice, x.notice = some nt → d.clk.now < nt.until_) → exec (.shedNoticeExpire t r) s = .next (s.after t d)) ∧
    exec (.undershootCrossing t r false) s = .next (s.after t { d with prot := { d.prot with wins := d.prot.wins.set r { d.prot.wins[r] with uv := false } } }) ∧
    (d.alive = true → d.prot.wins[r].uvCode ≠ 0 → d.prot.wins[r].uv = false → settling d.prot.wins[r].uvSettle d.clk.now = true →
      exec (.undershootCrossing t r true) s = .next (s.after t (Dev.event { d with prot := { d.prot with wins := d.prot.wins.set r { d.prot.wins[r] with uv := true } } } (192 + 4 * r.val)))) ∧
    (d.alive = true → d.prot.wins[r].uvCode ≠ 0 → d.prot.wins[r].uv = false → settling d.prot.wins[r].uvSettle d.clk.now = false →
      ∃ d', exec (.undershootCrossing t r true) s = .next (s.after t d') ∧ d'.prot.wins[r] = { d.prot.wins[r] with uv := true } ∧
        (armed = true → d'.rails[r].flare = some d.clk.now ∧ d'.rails[r].flares = x.flares + 1 ∧ d'.rails[r].notice = none ∧
          ∀ n : PhaseIx, d.railOf n = some r → d.isLoop n = true → d'.pwm[n].flareLift = true ∧ (d.joinsFlare n = true →
            d'.pwm[n].flareOn = true ∧ d'.pwm[n].flareCode = x.flareDuty ∧ (x.flareDuty ≠ 0 → d.pwm[n].perEff ≠ 0 → d'.pwm[n].cmd = true ∧
              d'.pwm[n].flarePulse = true ∧ (d.pwm[n].cmd = false → d.heldOff n = false → d'.pwm[n].hi = true)))) ∧
        (armed = false → d'.rails[r] = { x with blocked := if x.mode = .regulate ∨ x.mode = .ember then x.blocked + 1 else x.blocked } ∧ d'.pwm = d.pwm) ∧
        d.onlyIn d' [.pwm, .rails, .prot, .fault, .leave]) ∧
    (∀ e : Tick, x.flareLastExit = some e → e + x.flareGap.toNat * 4800 ≤ d.clk.now →
      exec (.flareRearm t r) s = .next (s.after t { d with rails := d.rails.set r { x with flareLastExit := none } })) ∧
    (∀ e : Tick, x.mode = .hiccup → x.toffAt = some e → e ≤ d.clk.now → d.sharedAs r = none → d.portOf r = none →
      ∃ d', exec (.hiccupToffExpire t r) s = .next (s.after t d') ∧
        (x.retries.toNat < x.retryMax.toNat → d'.rails[r].mode = .ramp ∧ d'.rails[r].retries = x.retries + 1) ∧
        (x.retryMax.toNat ≤ x.retries.toNat → d'.rails[r].mode = .hold ∧ d'.rails[r].retries = x.retries ∧
          (d.railDefined r = true → d'.causeOf (srcHiccupLimit r) 0 = true)) ∧
        (∀ k : RailIx, k ≠ r → d'.rails[k] = d.rails[k]) ∧ d.onlyIn d' [.sys, .pwm, .loop, .rails, .prot, .sp, .ports, .fault, .lantern, .chord, .leave, .free]) ∧
    ∀ e : Tick, x.regSince = some e → e + x.retryClr.toNat * 4800000 ≤ d.clk.now →
      exec (.retriesClear t r) s = .next (s.after t { d with rails := d.rails.set r { x with retries := 0 } })

/-- A card's life: a removal masks every phase of the slot, counts and raises CARD_REMOVED; an insertion is debounced for 50 ms before
    qualification (R337, R338). Qualification: CARD_FLT_N high, then an ID pulse of the expected ID, then high for 1 ms, then the offset check; it ends QUALIFIED with
    the slot's phases unmasked, or FAILED with the check's number, 4 after 100 ms, and CARD_QUAL raised (R339). That check 1 is judged at
    the entry to QUALIFYING, and that check 3 waits for sixteen results, are the model's readings (assumption 23). -/
def Obligations.CardsComeGoAndQualify : Prop :=
  (∀ (s : State) (t : Tick) (c : CardIx), let d := s.dev.advance t
    let x := d.cards[c]
    let level := fun (high : Bool) => { d.sys with cardPresLvl := setBit d.sys.cardPresLvl c high }
    d.sys.devState ≠ .boot →
    (x.state = .qualified ∨ x.state = .failed → ∃ d', exec (.cardRemoval t c) s = .next (s.after t d') ∧ d'.sys = level true ∧
      d'.cards = d.cards.set c { x with state := .absent, removals := satInc x.removals, since := d.clk.now, qual := .ready } ∧
      (∀ n : PhaseIx, cardOf n = c → d'.pwm[n].mask.card = true) ∧ d'.causeOf (srcCardRemoved c) 0 = true ∧
      d.onlyIn d' [.sys, .pwm, .loop, .rails, .cards, .prot, .fault, .leave]) ∧
    (x.state = .debounce ∨ x.state = .qualifying → exec (.cardRemoval t c) s = .next (s.after t { d with
      sys := level true, cards := d.cards.set c { x with state := .absent, since := d.clk.now, qual := .ready } })) ∧
    (x.state = .absent → exec (.cardRemoval t c) s = .next (s.after t { d with sys := level true })) ∧
    (x.state = .absent → exec (.cardInsert t c) s = .next (s.after t { d with
      sys := level false, cards := d.cards.set c { x with state := .debounce, since := d.clk.now, lowSeen := !d.sys.cardFltLvl.getLsbD c.val } })) ∧
    (x.state ≠ .absent → exec (.cardInsert t c) s = .next (s.after t { d with sys := level false })) ∧
    (x.state = .debounce → x.since + 24000000 ≤ d.clk.now → d.sys.cardFltLvl.getLsbD c.val = false ∨ x.lowSeen = true →
      exec (.cardDebounceDone t c) s = .next (s.after t { d with
        cards := d.cards.set c { x with state := .qualifying, since := d.clk.now, fail := 0, qual := if d.sys.cardFltLvl.getLsbD c.val then .idWait else .ready } })) ∧
    (x.state = .debounce → x.since + 24000000 ≤ d.clk.now → d.sys.cardFltLvl.getLsbD c.val = true → x.lowSeen = false →
      ∃ d', exec (.cardDebounceDone t c) s = .next (s.after t d') ∧
        d'.cards = d.cards.set c { x with state := .failed, since := d.clk.now, fail := 1, qual := .idWait } ∧ d'.causeOf (srcCardQual c) 0 = true ∧ d.onlyIn d' [.cards, .fault]) ∧
    (x.state ≠ .debounce ∨ d.clk.now < x.since + 24000000 → exec (.cardDebounceDone t c) s = .next (s.after t d))) ∧
  (∀ (s : State) (t : Tick) (c : CardIx), let d := s.dev.advance t
    let x := d.cards[c]
    let sys := fun (high : Bool) => { d.sys with cardFltLvl := setBit d.sys.cardFltLvl c high }
    let card := fun (y : Card) => d.cards.set c y
    let shown := fun (high : Bool) => Dev.showPin { d with sys := sys high } (pinBit (24 + c.val))
    d.sys.devState ≠ .boot → x.state = .qualifying →
    (x.qual = .ready → exec (.cardQualCheck t c true) s = .next (s.after t { shown true with cards := card { x with qual := .idWait } })) ∧
    (x.qual = .idWait → exec (.cardQualCheck t c false) s = .next (s.after t { shown false with cards := card { x with lowSeen := true, qual := .idPulse d.clk.now } })) ∧
    (∀ (since : Tick) (i : BitVec 4), x.qual = .idPulse since → idOfPulse (d.clk.now - since) = some i →
      (x.idExp = 0xF ∨ x.idExp = i → exec (.cardQualCheck t c true) s = .next (s.after t { shown true with cards := card { x with idRead := i, qual := .idHold d.clk.now } })) ∧
      (x.idExp ≠ 0xF → x.idExp ≠ i → ∃ d', exec (.cardQualCheck t c true) s = .next (s.after t d') ∧
        d'.cards[c] = { x with idRead := i, state := .failed, fail := 2, since := d.clk.now } ∧ d'.causeOf (srcCardQual c) 0 = true)) ∧
    (∀ since : Tick, x.qual = .idPulse since → idOfPulse (d.clk.now - since) = none → ∃ d', exec (.cardQualCheck t c true) s = .next (s.after t d') ∧
      d'.cards[c] = { x with idRead := 0xF, state := .failed, fail := 2, since := d.clk.now } ∧ d'.causeOf (srcCardQual c) 0 = true) ∧
    (∀ since : Tick, x.qual = .idHold since → ∃ d', exec (.cardQualCheck t c false) s = .next (s.after t d') ∧
      d'.cards[c] = { x with lowSeen := true, state := .failed, fail := 2, since := d.clk.now } ∧ d'.causeOf (srcCardQual c) 0 = true) ∧
    (∀ since : Tick, x.qual = .idHold since → since + 480000 ≤ d.clk.now → ∃ d', exec (.cardIdHoldDone t c) s = .next (s.after t d') ∧
      (d.offsetReady c = false → d'.cards[c] = { x with qual := .offset }) ∧
      (d.offsetReady c = true → d.offsetOk c = true → d'.cards[c] = { x with qual := .offset, state := .qualified, fail := 0, since := d.clk.now } ∧ d'.causeOf (srcCardRemoved c) 0 = (d.eventNow (srcCardRemoved c) 0 || d.fault.src[srcCardRemoved c].force) ∧
        ∀ n : PhaseIx, cardOf n = c → d'.pwm[n].mask.card = false) ∧
      (d.offsetReady c = true → d.offsetOk c = false → d'.cards[c] = { x with qual := .offset, state := .failed, fail := 3, since := d.clk.now } ∧ d'.causeOf (srcCardQual c) 0 = true) ∧
      d.onlyIn d' [.pwm, .rails, .cards, .fault]) ∧
    (x.since + 48000000 ≤ d.clk.now → ∃ d', exec (.cardQualTimeout t c) s = .next (s.after t d') ∧
      d'.cards[c] = { x with state := .failed, fail := 4, since := d.clk.now } ∧ d'.causeOf (srcCardQual c) 0 = true ∧ d.onlyIn d' [.cards, .fault]))


/-! ## Protection -/

/-- The fast path: a trip outside blanking and settling ends the phase's pulse and stays until the next rise of HI; a count that reaches N
    latches the phase and puts its switching rail into HICCUP; an overvoltage raises RAIL_OV and, where it acts, holds every member off,
    until its release; leaving the ramp-tracking window puts the rail into HICCUP. When a settling interval ends, a crossing that still
    stands takes the action that was withheld: the trip, the Flare or its count as blocked, the overvoltage hold, the ramp-tracking
    stop (R229, R344 to R347, R350 to R352). Whether an edge of the window is in effect is decided by the code last formed for it
    (assumption 16). -/
def Obligations.ComparatorsActOnTheFastPath : Prop :=
  (∀ (s : State) (t : Tick) (n : PhaseIx), let d := s.dev.advance t
    let x := d.prot.trips[n]
    (∀ crossed : Bool, crossed = false ∨ d.alive = false →
      exec (.trip t n crossed) s = .next (s.after t { d with prot := { d.prot with trips := d.prot.trips.set n { x with cmp := crossed } } })) ∧
    (d.alive = true → x.cmp = false → d.blanked n = false → settling x.settleUntil d.clk.now = false → ∃ d', exec (.trip t n true) s = .next (s.after t d') ∧
      d'.prot.trips[n].cmp = true ∧ d.TripTaken d' n) ∧
    (d.alive = true → x.cmp = false → d.blanked n = true ∨ settling x.settleUntil d.clk.now = true →
      exec (.trip t n true) s = .next (s.after t (Dev.event { d with prot := { d.prot with trips := d.prot.trips.set n { x with cmp := true } } } (128 + n.val)))) ∧
    (d.alive = true → x.latch = false → x.nNow.toNat ≤ x.count.toNat → ∃ d', exec (.tripCounterLatch t n) s = .next (s.after t d') ∧
      d'.prot.trips[n].latch = true ∧ d'.emitted n = (false, false) ∧
      ∀ r : RailIx, d.railOf n = some r → d'.rails[r].mode = (if (d.rails[r].mode).switching then .hiccup else d.rails[r].mode)) ∧
    (d.alive = true → x.latch = true ∨ x.count.toNat < x.nNow.toNat → exec (.tripCounterLatch t n) s = .next (s.after t d)) ∧
    ∀ u : Tick, d.alive = true → x.settleUntil = some u → u ≤ d.clk.now →
      (x.cmp = false ∨ d.blanked n = true →
        exec (.comparatorSettleEnd t (.trip n)) s = .next (s.after t { d with prot := { d.prot with trips := d.prot.trips.set n { x with settleUntil := none } } })) ∧
      (x.cmp = true → d.blanked n = false → ∃ d', exec (.comparatorSettleEnd t (.trip n)) s = .next (s.after t d') ∧
        d'.prot.trips[n].cmp = true ∧ (x.latch = true ∨ x.limited = true → d'.prot.trips[n].settleUntil = none) ∧ d.TripTaken d' n)) ∧
  ∀ (s : State) (t : Tick) (r : RailIx), let d := s.dev.advance t
    let w := d.prot.wins[r]
    let x := d.rails[r]
    let win := fun (y : Win) => { d with prot := { d.prot with wins := d.prot.wins.set r y } }
    let armed := d.flareArmed r && x.flare.isNone && (x.mode == .regulate || x.mode == .ember)
    (∀ u : Tick, d.alive = true → u ≤ d.clk.now →
      (w.uvSettle = some u → w.uv = false → exec (.comparatorSettleEnd t (.uv r)) s = .next (s.after t (win { w with uvSettle := none }))) ∧
      (w.ovSettle = some u → w.ov = false → exec (.comparatorSettleEnd t (.ov r)) s = .next (s.after t (win { w with ovSettle := none }))) ∧
      (w.uvSettle = some u → w.uv = true → ∃ d', exec (.comparatorSettleEnd t (.uv r)) s = .next (s.after t d') ∧ d'.prot.wins[r] = { w with uvSettle := none } ∧
        (armed = true → d'.rails[r].flare = some d.clk.now ∧ d'.rails[r].flares = x.flares + 1 ∧ ∀ n : PhaseIx, d.railOf n = some r → d.isLoop n = true →
          d'.pwm[n].flareLift = true ∧ (d.joinsFlare n = true → d'.pwm[n].flareOn = true ∧ d'.pwm[n].flareCode = x.flareDuty)) ∧
        (armed = false → d'.rails[r] = { x with blocked := if x.mode = .regulate ∨ x.mode = .ember then x.blocked + 1 else x.blocked } ∧ d'.pwm = d.pwm) ∧
        d.onlyIn d' [.pwm, .rails, .prot, .fault, .leave]) ∧
      (w.ovSettle = some u → w.ov = true → ∃ d', exec (.comparatorSettleEnd t (.ov r)) s = .next (s.after t d') ∧ d'.prot.wins[r] = { w with ovSettle := none } ∧
        (w.ovAct = true → x.mode.switching = true → x.mode ≠ .support → d.HeldHi d' r) ∧
        (w.ovAct = false ∨ x.mode.switching = false ∨ x.mode = .support → d' = win { w with ovSettle := none }) ∧ d.onlyIn d' [.pwm, .prot]) ∧
      (∀ v : Tick, w.rtHiSettle = some u → w.rtHi = false → w.rtLoSettle = some v → d.clk.now < v →
        exec (.comparatorSettleEnd t (.rt r)) s = .next (s.after t (win { w with rtHiSettle := none }))) ∧
      (∀ v : Tick, w.rtLoSettle = some u → w.rtLo = false → w.rtHiSettle = some v → d.clk.now < v →
        exec (.comparatorSettleEnd t (.rt r)) s = .next (s.after t (win { w with rtLoSettle := none }))) ∧
      (w.rtHiSettle = some u → w.rtHi = true → d.rtOn r true = true → ∃ d', exec (.comparatorSettleEnd t (.rt r)) s = .next (s.after t d') ∧
        d'.rails[r].mode = .hiccup ∧ d'.prot.wins[r].rtHi = false ∧ d'.prot.wins[r].rtHiCode = 1023 ∧ (x.flare = none → ∀ n : PhaseIx, d.railOf n = some r → d'.pwm[n].hi = false)) ∧
      (w.rtLoSettle = some u → w.rtLo = true → d.rtOn r false = true → ∃ d', exec (.comparatorSettleEnd t (.rt r)) s = .next (s.after t d') ∧
        d'.rails[r].mode = .hiccup ∧ d'.prot.wins[r].rtLo = false ∧ d'.prot.wins[r].rtLoCode = 0 ∧ (x.flare = none → ∀ n : PhaseIx, d.railOf n = some r → d'.pwm[n].hi = false))) ∧
    (d.alive = true → w.ovTh ≠ 0 → d.rails[r].vscale ≠ 0 → w.ov = false → settling w.ovSettle d.clk.now = false → ∃ d', exec (.ovCrossing t r) s = .next (s.after t d') ∧
      d'.prot.wins[r] = { w with ov := true, ovCount := w.ovCount + 1 } ∧ d'.causeOf (srcRailOv r) 0 = (d.railDefined r || d.eventNow (srcRailOv r) 0 || d.fault.src[srcRailOv r].force) ∧
      (w.ovAct = true → x.mode.switching = true → x.mode ≠ .support → d.HeldHi d' r) ∧
      (w.ovAct = false → d'.pwm = d.pwm ∧ d'.prot.trips = d.prot.trips) ∧ d.onlyIn d' [.pwm, .prot, .fault]) ∧
    (∃ d', exec (.ovRelease t r) s = .next (s.after t d') ∧ d'.prot = (win { w with ov := false }).prot ∧
      d'.causeOf (srcRailOv r) 0 = (d.eventNow (srcRailOv r) 0 || d.fault.src[srcRailOv r].force) ∧ d.onlyIn d' [.prot, .fault]) ∧
    exec (.rampTrackExit t r true false) s = .next (s.after t (win { w with rtHi := false })) ∧
    exec (.rampTrackExit t r false false) s = .next (s.after t (win { w with rtLo := false })) ∧
    ∀ high : Bool, d.alive = true → (if high then w.rtHi else w.rtLo) = false → d.rtOn r high = true → settling (if high then w.rtHiSettle else w.rtLoSettle) d.clk.now = false →
      ∃ d', exec (.rampTrackExit t r high true) s = .next (s.after t d') ∧ d'.prot.wins[r].rtCount = w.rtCount + 1 ∧ d'.rails[r].mode = .hiccup

/-- SAFE: the level taken of a channel decides what it demands, stop while low on A and while high on B; the first demand to stop counts
    and puts every rail that is not OFF into HOLD, and when neither channel demands it SAFE_STOP's cause ends. A disagreement that has
    lasted DISC_TIME raises SAFE_DISC, which keeps rails from leaving OFF (R354 to R358). -/
def Obligations.SafeStopsEveryRail : Prop :=
  ∀ (s : State) (t : Tick) (b level : Bool), let d := s.dev.advance t
    let a' := if b then d.prot.aStop else !level
    let b' := if b then level else d.prot.bStop
    (∃ d', exec (.safeLevelTaken t b level) s = .next (s.after t d') ∧ d'.prot.aStop = a' ∧ d'.prot.bStop = b' ∧
      d'.sys = (if b then { d.sys with safeBLvl := level } else { d.sys with safeALvl := level }) ∧
      ((a' || b') = true → d'.gatesOff) ∧
      ((a' || b') = true → d.prot.stop = false → d'.prot.stops = d.prot.stops + 1 ∧ (d.sys.devState ≠ .boot → d'.causeOf srcSafeStop 0 = true) ∧
        ∀ r : RailIx, d'.rails[r].mode = if d.rails[r].mode = .off then .off else .hold) ∧
      ((a' || b') = false → d'.rails = d.rails ∧ d'.causeOf srcSafeStop 0 = (d.eventNow srcSafeStop 0 || d.fault.src[srcSafeStop].force)) ∧
      (d.sys.devState ≠ .boot → d.prot.disSince = none → a' ≠ b' → d'.prot.disSince = some d.clk.now) ∧
      (a' = b' → d.sys.devState ≠ .boot → d'.prot.disSince = none)) ∧
    ∀ u : Tick, d.prot.disSince = some u → u + d.prot.discTime.toNat * 480000 ≤ d.clk.now → d.sys.devState ≠ .boot →
      ∃ d', exec (.safeDiscrepancyTimeout t) s = .next (s.after t d') ∧ d'.prot.restartOk = false ∧
        d'.prot = { d.prot with disc := true, cycled := false, dtime := BitVec.ofNat 32 (d.prot.discTime.toNat * 1000) } ∧
        d'.causeOf srcSafeDisc 0 = true ∧ d.onlyIn d' [.prot, .fault]

/-- A fault line that is evaluated is asserted while low or in chatter, and its causes follow it outside BOOT; the line of a slot whose card
    is not qualified only shows its level, but for the LOOP_CLK cycle in which its card is removed, when a fault still acts. Chatter ends 1 ms after its last edge, and a line asserted for STUCK_TIME is stuck (R359 to R362,
    R418). -/
def Obligations.FaultLinesRaiseTheirSources : Prop :=
  ∀ (s : State) (t : Tick) (x : LineIx), let d := s.dev.advance t
    let l := d.prot.lines[x]
    let live := x.val < 4 ∨ ∃ c : CardIx, x.val = c.val + 4 ∧ d.cards[c].state = .qualified
    let forced := fun (k : SrcIx) => d.eventNow k 0 || d.fault.src[k].force
    let recent := fun (c : CardIx) => x.val = c.val + 4 ∧ d.cards[c].state ≠ .qualified ∧ d.cyc.no = d.cycle ∧ d.cyc.cards[c].state = .qualified
    let acted := fun (c : CardIx) (d' : Dev) => d'.causeOf (srcCardFault c) 0 = forced (srcCardFault c) ∧ (d.causeOf (srcCardFault c) 0 = false →
      d.faultNow (srcCardFault c) 0 = false → ∃ f ∈ d'.fault.seen, f.src = srcCardFault c ∧ f.tick = d.clk.now)
    d.sys.devState ≠ .boot →
    (∀ low : Bool, live → ∃ d', exec (.faultLineTaken t x low) s = .next (s.after t d') ∧ d'.prot.lines[x].low = low ∧
      d'.prot.lines[x].assertSince = (if low ∨ l.chatter = true then some (l.assertSince.getD d.clk.now) else none) ∧
      d'.causeOf (lineSrc x) 0 = (low || l.chatter || forced (lineSrc x)) ∧
      (low = false → l.chatter = false → d'.prot.lines[x].stuck = false ∧ d'.causeOf (srcStuck x) 0 = forced (srcStuck x)) ∧ d.onlyIn d' [.sys, .prot, .fault]) ∧
    (¬live → (∀ c : CardIx, ¬recent c) → (∀ low : Bool, ∃ d', exec (.faultLineTaken t x low) s = .next (s.after t d') ∧ d.onlyIn d' [.sys]) ∧
      exec (.faultLineChatter t x) s = .next (s.after t d) ∧ exec (.faultLineStuck t x) s = .next (s.after t d)) ∧
    (∀ c : CardIx, recent c →
      (∃ d', exec (.faultLineTaken t x true) s = .next (s.after t d') ∧ d'.prot.lines[x].low = false ∧ acted c d' ∧ d.onlyIn d' [.sys, .prot, .fault]) ∧
      (∃ d', exec (.faultLineChatter t x) s = .next (s.after t d') ∧ d'.prot.lines[x].chatter = false ∧ acted c d' ∧ d.onlyIn d' [.prot, .fault])) ∧
    (live → ∃ d', exec (.faultLineChatter t x) s = .next (s.after t d') ∧ d'.prot.lines[x].chatter = true ∧ d'.prot.lines[x].chatterSince = some d.clk.now ∧
      d'.causeOf (srcChatter x) 0 = true ∧ d'.causeOf (lineSrc x) 0 = true ∧ d.onlyIn d' [.prot, .fault]) ∧
    (∀ u : Tick, l.chatterSince = some u → u + 480000 ≤ d.clk.now → ∃ d', exec (.faultLineChatterEnd t x) s = .next (s.after t d') ∧
      d'.prot.lines[x].chatter = false ∧ d'.causeOf (srcChatter x) 0 = forced (srcChatter x) ∧ d'.causeOf (lineSrc x) 0 = (l.low || forced (lineSrc x)) ∧
      d.onlyIn d' [.prot, .fault]) ∧
    ∀ u : Tick, live → l.assertSince = some u → u + d.prot.stuckTime.toNat * 48000000 ≤ d.clk.now → ∃ d', exec (.faultLineStuck t x) s = .next (s.after t d') ∧
      d'.prot.lines[x] = { l with stuck := true } ∧ d'.causeOf (srcStuck x) 0 = true ∧ d.onlyIn d' [.prot, .fault]

/-! ## Storage ports -/

/-- A decision point of a port, in the LOOP_CLK cycle of the rail's update point that makes it due, sets the next one a whole number of milliseconds after the rail's entry; in CC a voltage at V_CV leads to
    CV, the temperatures allowing it. RELIGHT sets the Wick timer anew and ends WICK_OUT's cause, of a time from 1 s to 600 s; the timer's
    end makes the port safe and raises WICK_OUT (R380, R381, R384, R395, R396, R399). That a RELIGHT while the rail is OFF sets the value
    and ends WICK_OUT's cause, and that a decision point falls in the cycle of the rail's update point, are the model's readings
    (assumption 21). -/
def Obligations.PortsDecideAndKeepTheWick : Prop :=
  (∀ (s : State) (t : Tick) (p : PortIx) (e : StoreEnt) (k : Tick), let d := s.dev.advance t
    let x := d.ports[p]
    d.alive = true → d.tile.cur.stores[p] = some e → x.nextPoint = some k → k ≤ d.rails[e.rail].markAt → d.clk.cycleAt d.rails[e.rail].markAt = d.cycle → d.rails[e.rail].mode = .charge →
    x.fallback = false → e.tempMask = 0 → x.hot = false → x.cold = false → x.tempHold = false → x.takePhase = false → x.phase = .cc →
    ∃ d', exec (.storeDecisionPoint t p) s = .next (s.after t d') ∧ d'.ports[p].nextPoint = some (x.entered + ((d.clk.now - x.entered) / 480000 + 1) * 480000) ∧
      d'.ports[p].tempHold = false ∧
      d'.ports[p].phase = (if (x.vCv.toNat : Int) ≤ d.rails[e.rail].vout.toInt then .cv else .cc) ∧
      (∀ q : PortIx, q ≠ p → d'.ports[q] = d.ports[q])) ∧
  (∀ (s : State) (t : Tick) (p : PortIx) (v : Word), let d := s.dev.advance t
    let wd := (v.setWidth 10).toNat
    d.takesHost (.wickRelight t p v) →
    (wd < 1 ∨ 600 < wd → exec (.wickRelight t p v) s = .next (s.after t (d.reply stState))) ∧
    (1 ≤ wd → wd ≤ 600 → v.getLsbD 31 = true → (d.tile.cur.stores[p]).isSome = true → ∃ d', exec (.wickRelight t p v) s = .next (s.after t d') ∧
      d'.link.lastStatus = stOk ∧ d'.ports[p].wdTime = v.setWidth 10 ∧ d'.ports[p].wickOut = false ∧
      d'.causeOf (srcWickOut p) 0 = (d.eventNow (srcWickOut p) 0 || d.fault.src[srcWickOut p].force) ∧
      (d.wickRuns p = true → d'.ports[p].wickAt = some (d.clk.now + wd * 480000000)) ∧ (d.wickRuns p = false → d'.ports[p].wickAt = none) ∧
      d.onlyIn d' [.ports, .fault, .link]) ∧
    (1 ≤ wd → wd ≤ 600 → v.getLsbD 31 = false →
      exec (.wickRelight t p v) s = .next (s.after t (Dev.reply { d with ports := d.ports.set p { d.ports[p] with wdTime := v.setWidth 10 } } stOk)))) ∧
  ∀ (s : State) (t : Tick) (p : PortIx) (e : Tick), let d := s.dev.advance t
    let x := d.ports[p]
    x.wickAt = some e → e ≤ d.clk.now → x.wickOut = false → ∃ d', exec (.wickTimeout t p) s = .next (s.after t d') ∧
      d'.ports = d.ports.set p { x with safe := true, safeGov := true, wickOut := true, fallback := true, wickOuts := x.wickOuts + 1 } ∧
      ((d.tile.cur.stores[p]).isSome = true → d'.causeOf (srcWickOut p) 0 = true) ∧ d.onlyIn d' [.ports, .fault]

/-! ## Faults, the journal and trust -/

/-- A source's cause follows what is said of it, BOOT apart and an undefined index or an undefined rail's, quad's or port's source apart; its rise is
    a fault to be taken, unless a force held it present or the instance has had its fault in this LOOP_CLK cycle; an event's cause is present in
    its cycle alone. A cause that ends before the cycle in
    which a start raises it anew is no fault (R128). A force bit takes its written value, and its rise is a fault of the phase FINST names unless the cause was present or the
    instance has had its fault in the cycle. An acknowledgement closes exactly the entries it names. A fault seen sets its status bit, is
    counted and, with the first one, fires FAULT_SET; its reaction starts in the next LOOP_CLK cycle, and what it comes to is said by
    `Dev.Reacted` (R400 to R402, R404 to R412, R418). That a force and a cause that already stands are one fault is the model's reading of
    R405 (assumption 40); that the reactions of a cycle run together, before the first command of a later cycle acts, is the model's too
    (assumptions 3, 39). -/
def Obligations.CausesForcesAndAcknowledgements : Prop :=
  (∀ (s : State) (t : Tick) (k : SrcIx) (inst : PhaseIx) (on : Bool), let d := s.dev.advance t
    let i := if srcPerPhase k then inst else 0
    let f := d.fault.src[k]
    let present := f.cause.getLsbD i.val || (f.force && (!srcPerPhase k || f.forcedInst == i))
    let fault : Seen := { src := k, inst := i, tick := d.clk.now, forced := false, detail := [], tbu := d.clk.tbUncertain }
    (d.sys.devState = .boot ∨ srcDefined k = false ∨ d.srcLives k = false → exec (.faultRaise t k inst on) s = .next (s.after t d)) ∧
    (srcEvent k = true → on = false → exec (.faultRaise t k inst on) s = .next (s.after t d)) ∧
    (d.sys.devState ≠ .boot → srcDefined k = true → d.srcLives k = true → srcEvent k = false ∨ on = true →
      ∃ d', exec (.faultRaise t k inst on) s = .next (s.after t d') ∧
        d'.fault.src[k] = { f with cause := setBit f.cause i.val (on && !srcEvent k) } ∧ (∀ k' : SrcIx, k' ≠ k → d'.fault.src[k'] = d.fault.src[k']) ∧
        (srcEvent k = true → d.cyc.no = d.cycle → d'.causeOf k i = true) ∧
        let past := d.fault.seen.filter fun x => !(x.src == k && x.inst == i && decide (d.clk.now < x.tick))
        let kept := if on = true ∧ srcEvent k = false then d.fault.seen else past
        d'.fault.seen = (if on = true ∧ present = false ∧ d.faultNow k i = false then kept ++ [fault] else kept) ∧
        d'.fault.events = d.fault.events ∧ d.onlyIn d' [.fault])) ∧
  (∀ (s : State) (t : Tick) (w : Fin 8) (v : Word), let d := s.dev.advance t
    d.takesHost (.faultForce t w v) → ∃ d', exec (.faultForce t w v) s = .next (s.after t d') ∧ d'.link.lastStatus = stOk ∧
      (∀ k : SrcIx, d'.fault.src[k].force = if k.val / 32 = w.val ∧ srcDefined k = true then v.getLsbD (k.val % 32) else d.fault.src[k].force) ∧
      (∀ k : SrcIx, k.val / 32 = w.val → srcDefined k = true → v.getLsbD (k.val % 32) = true → d.fault.src[k].force = false →
        d.causeOf k (d.fault.finst k) = false → d.faultNow k (d.fault.finst k) = false →
        ∃ f ∈ d'.fault.seen, f.src = k ∧ f.inst = d.fault.finst k ∧ f.forced = true ∧ f.tick = d.clk.now) ∧
      (∀ f ∈ d'.fault.seen, f ∉ d.fault.seen → f.forced = true ∧ f.src.val / 32 = w.val ∧ v.getLsbD (f.src.val % 32) = true ∧ d.causeOf f.src f.inst = false) ∧
      (∀ k : SrcIx, d'.fault.src[k].cause = d.fault.src[k].cause ∧ d'.fault.src[k].status = d.fault.src[k].status) ∧ d.onlyIn d' [.fault, .link]) ∧
  (∀ (s : State) (t : Tick) (r : RailIx) (v : Word), let d := s.dev.advance t
    d.takesHost (.faultAck t r v) → ∃ d', exec (.faultAck t r v) s = .next (s.after t d') ∧ d'.link.lastStatus = stOk ∧
      d'.fault.entries[r] = d.fault.entries[r].filter (fun e => !v.getLsbD e.1.toNat) ∧
      (∀ k : RailIx, k ≠ r → d'.fault.entries[k] = d.fault.entries[k]) ∧ d'.fault.src = d.fault.src ∧ d.onlyIn d' [.fault, .lantern, .link]) ∧
  (∀ (d : Dev) (x : Seen), d.sys.devState ≠ .boot → d.fault.seen = [x] → x.tick < d.nextCycle → let d' := d.takeSeen
    d'.fault.seen = [] ∧ d'.fault.due = d.fault.due ++ [x] ∧
      d'.fault.src[x.src] = { d.fault.src[x.src] with status := true, faults := d.fault.src[x.src].faults + 1 } ∧
      d'.fault.events.map (·.1) = d.fault.events.map (·.1) ++ (if d.fault.src[x.src].status = true then [] else [BitVec.ofNat 16 (0x600 + x.src.val)]) ∧ d.onlyIn d' [.fault]) ∧
  (∀ (d : Dev) (t : Tick), d.fault.due ≠ [] → d.loop.ended = [] → d.clk.backupFrom = none → d.nextCycle ≤ t → d.clk.cycleAt d.nextCycle ≠ d.cycle →
    let n := d.clockTo d.nextCycle
    d.advance t = (((Dev.finish n n.reactDue).turns t 7).passTo t).endRdyLow) ∧
  (∀ (xs : List Reaction) (k : SrcIx) (cls : Nat), WinsReaction xs k cls) ∧
  ∀ (d : Dev) (x : Seen), d.sys.devState ≠ .boot → d.tile.tiled = true → d.fault.due = [x] → x.tick < d.cycleTick → d.Reacted d.reactDue x

/-! ## The Lantern -/

/-- A journalled event folds, is suppressed or lost, or becomes the newest record under the next number; numbers never come back and stay
    below the reservation (R423, R435). A record closes with its LINK when its window ends; a refill, at a tick of the time base that is a multiple of its interval, gives every
    bucket a token up to its depth, and a suppressed count that has rested for an interval its record; the writer takes one record at a time into the slot found for it, a full ring dropping it; a fabric snapshot fills a staging slot
    and is recorded under the next serial, one start being taken in a LOOP_CLK cycle and further ones held. SNAPSHOT_START is a start at
    a task input in Count mode (assumption 107); at one in Latch mode the first event of a cycle takes the snapshot and further ones merge
    with it and set OVERRUN (R300 to R302, R424 to R430, R432). That a SUPPRESS record is written at a full bucket too is assumption 90
    (DEDUCED). -/
def Obligations.TheJournalNumbersAndKeepsRecords : Prop :=
  (∀ (d : Dev) (i : RecIn), let x := d.journal i
    let l := x.1.lantern
    (l.next = d.lantern.next ∨ l.next = d.lantern.next + 1 ∧ x.2 = some d.lantern.next ∧ ∃ r, l.newest = some r ∧ r.seq = d.lantern.next ∧
      r.code = BitVec.ofNat 16 i.code ∧ r.source = BitVec.ofNat 16 i.source ∧ r.level = i.level ∧ r.ts = d.clk.tbAt i.ts) ∧
    (d.lantern.next < d.lantern.resv → l.next < l.resv) ∧
    ((∀ r ∈ d.lantern.ram, r.seq < d.lantern.next) → ∀ r ∈ l.ram, r.seq < l.next) ∧ d.onlyIn x.1 [.lantern, .fault]) ∧
  ∀ (s : State) (t : Tick), let d := s.dev.advance t
    let l := d.lantern
    let quiet := ∀ r, l.newest = some r → r.isOpen = true → isFaultCode r.code = true
    (∃ d', exec (.recordCloseTimeout t) s = .next (s.after t d') ∧ (d.clk.now < l.openUntil → d' = d) ∧
      (∀ r, l.openUntil ≤ d.clk.now → l.newest = some r → d'.lantern.newest =
        some (if r.isOpen then { r with isOpen := false, link := linkOf l.chainP r } else r)) ∧
      d'.lantern.next = l.next ∧ d'.lantern.store = l.store ∧ d.onlyIn d' [.lantern]) ∧
    (d.logRuns = false ∨ d.tb % l.refillEvery ≠ 0 → exec (.logRefill t) s = .next (s.after t d)) ∧
    (d.logRuns = true → d.tb % l.refillEvery = 0 → exec (.logRefill t) s = .next (s.after t d.refill)) ∧
    (d.refill.lantern.fullTokens = min l.rlDepth.toNat (l.fullTokens + 1) ∧ d.onlyIn d.refill [.lantern, .fault] ∧
      ((l.buckets.map (·.code)).Nodup → (∀ b ∈ l.buckets, b.suppressed = 0 ∨ b.recent = true) → d.refill.lantern.ram = l.ram ∧
        ∀ b ∈ l.buckets, d.refill.lantern.bucket b.code =
          { b with tokens := if l.rlDepth.toNat ≤ b.tokens then b.tokens else b.tokens + 1, recent := false }) ∧
      ∀ (b : Bucket), l.buckets = [b] → b.suppressed ≠ 0 → b.recent = false → (l.closeDue d.clk.now).hasRoom 0 = true → quiet →
        d.cyc.no ≠ d.cycle ∨ d.cyc.notes = 0 → ∃ r, d.refill.lantern.newest = some r ∧ r.seq = l.next ∧ r.code = 0x0003 ∧ r.source = b.code ∧
          r.data = leBytes 4 b.suppressed.toNat ++ List.replicate 20 0 ∧ d.refill.lantern.bucket b.code = { b with suppressed := 0 }) ∧
    (d.logRuns = false → exec (.recordPersisted t) s = .next (s.after t d)) ∧
    (d.logRuns = true → exec (.recordPersisted t) s = .next (s.after t { d with lantern := l.persist })) ∧
    (l.persist.next = l.next ∧ (l.nextOut = none → l.persist = l) ∧ ∀ r : Record, l.nextOut = some r →
      (∀ p, l.findSlot r.level 32768 l.writePtr = some p → let r' := { r with persisted := true, lost := l.lostPend }
        l.persist.ram = l.ram.map (fun x => if x.seq = r.seq then r' else x) ∧
          l.persist.store = l.store.filter (fun x => x.1 != p) ++ [(p, r')] ∧ l.persist.torn = l.torn.filter (· != p) ∧
          l.persist.writePtr = (p + 1) % 32768 ∧ l.persist.lostPend = 0) ∧
      (l.findSlot r.level 32768 l.writePtr = none → l.persist.ram = l.ram ∧ l.persist.store = l.store ∧
        l.persist.drops[r.level] = satInc l.drops[r.level] ∧ l.persist.lostPend = satInc l.lostPend)) ∧
    (∀ i : Fin 8, d.alive = false → exec (.snapshotStart t i) s = .next (s.after t d)) ∧
    ∀ i : Fin 8, d.alive = true →
      let input : BitVec 16 := BitVec.ofNat 16 (0x200 + i.val)
      let held : Byte := d.loop.fab.snapHeld[i]
      let first := (d.reachInput input).1 = false
      let listed := (d.tile.cur.snaps[i]).isSome = true
      let d1 := (d.reachInput input).2.updFab fun f => { f with snapHeld := f.snapHeld.set i (held - if held = 0 then 0 else 1) }
      (first → exec (.snapshotStart t i) s = .next (s.after t (d1.fabricSnap i))) ∧
      (held ≠ 255 → d.latchInput (0x200 + i.val) d.clk.now false = d.fabricSnap i) ∧
      d.latchInput (0x200 + i.val) d.clk.now true = d.overrun (0x200 + i.val) ∧
      (d.overrun (0x200 + i.val)).loop.fab.ovrSnap = setBit d.loop.fab.ovrSnap i.val true ∧
      (first → d.cyc.no ≠ d.cycle ∨ d.cyc.notes = 0 → listed → d.canSnap = true → (l.closeDue d.clk.now).hasRoom 0 = true → (l.bucket 0x0004).tokens ≠ 0 → quiet →
        ∃ r slot, (d1.fabricSnap i).lantern.newest = some r ∧ l.freeStage = some slot ∧
          (d1.fabricSnap i).lantern.staging[slot] = some { seq := l.next, list := i, serial := l.serial, tick := d.clk.tbAt d.cycleTick, values := d1.snapValues i } ∧
          r.seq = l.next ∧ r.code = 0x0004 ∧ r.source = BitVec.ofNat 16 i.val ∧ r.snapRef = some l.serial ∧
          (d1.fabricSnap i).lantern.serial = l.serial + 1 ∧ (d1.fabricSnap i).banks.leaseSince = none ∧
          d.onlyIn (d1.fabricSnap i) [.lantern, .banks, .loop]) ∧
      (¬listed → d1.fabricSnap i = d1) ∧
      (listed → d.canSnap = false → d1.fabricSnap i = { d1 with lantern := { l with snapLost := l.snapLost + 1 } }) ∧
      (listed → d.canSnap = true → quiet → (l.bucket 0x0004).tokens = 0 → (d1.fabricSnap i).lantern.next = l.next ∧
        (d1.fabricSnap i).lantern.suppressed = l.suppressed + 1 ∧ (d1.fabricSnap i).lantern.snapLost = l.snapLost + 1) ∧
      (¬first → held.toNat < 254 → exec (.snapshotStart t i) s = .next (s.after t ((d.reachInput input).2.updFab fun f => { f with snapHeld := f.snapHeld.set i (held + 1) }))) ∧
      (¬first → 254 ≤ held.toNat → exec (.snapshotStart t i) s = .next (s.after t ((d.reachInput input).2.overrun (0x200 + i.val))))

/-! ## Host transactions on registers, the journal and the scratchpad -/

/-- A READ of a register answers its value, of an address that holds none BAD_ADDR; a READ_BURST answers its words in ascending order and
    TB_LO with TB_HI one whole time base; a word of banks 0 to 2 reads as it stands. A LOG_READ answers the readable records from START
    upward, ascending and none left out; RSEL_HI and SNAP_SEL select (R7, R113, R137, R433, R434, R474, R475). -/
def Obligations.ReadsAnswerWhatStands : Prop :=
  (∀ (s : State) (t : Tick) (a : Addr) (n : Byte), let d := s.dev.advance t
    let xs := burstAddrs a.toNat n.toNat
    let reads := fun (c : Instr) (d' : Dev) (bs : List Byte) => exec c s = .next (s.after t (d'.reply stOk bs))
    d.linkBlocked = false →
    (d.asked (.read t a) = true → d.sys.bootHold = true → heldRead a.toNat = false → exec (.read t a) s = .next (s.after t (d.reply stState))) ∧
    (d.asked (.read t a) = true → (d.sys.bootHold = true → heldRead a.toNat = true) → readable a.toNat = false →
      exec (.read t a) s = .next (s.after t (d.reply stBadAddr))) ∧
    (d.asked (.read t a) = true → (d.sys.bootHold = true → heldRead a.toNat = true) → readable a.toNat = true →
      (a.toNat < scratchBase → reads (.read t a) (d.readEffect a.toNat) (leBytes 4 ((d.readReg a).getD 0).toNat)) ∧
      (scratchBase ≤ a.toNat → a.toNat < bank3Base → reads (.read t a) d (leBytes 4 (Memory.word s.mem a.toNat).toNat)) ∧
      (bank3Base ≤ a.toNat → ∃ bs d', reads (.read t a) d' bs ∧ bs.length = 4 ∧ d.onlyIn d' [.free])) ∧
    (d.asked (.readBurst t a n) = true → n.toNat < 1 ∨ 64 < n.toNat → exec (.readBurst t a n) s = .next (s.after t (d.reply stState))) ∧
    (d.asked (.readBurst t a n) = true → 1 ≤ n.toNat → n.toNat ≤ 64 → (d.sys.bootHold = true → ∀ x ∈ xs, heldRead x = true) →
      ((oneRange xs && xs.all readable) = false → exec (.readBurst t a n) s = .next (s.after t (d.reply stBadAddr))) ∧
      ((oneRange xs && xs.all readable) = true →
        (∃ bs d', reads (.readBurst t a n) d' bs ∧ bs.length = 4 * n.toNat ∧ d.onlyIn d' [.clk, .free]) ∧
        ((∀ x ∈ xs, x < bank3Base ∧ d.readEffect x = d) → reads (.readBurst t a n) d
          (xs.flatMap fun x => leBytes 4 (if x < scratchBase then (d.readReg (BitVec.ofNat 24 x)).getD 0 else Memory.word s.mem x).toNat)))) ∧
    (d.asked (.readBurst t a n) = true → a = 0x001008 → n = 2 → ∃ d', reads (.readBurst t a n) d' (leBytes 8 d.tb) ∧ d.onlyIn d' [.clk])) ∧
  (∀ (l : Lantern) (n start : Nat), let rs := l.readFrom n start
    rs.length ≤ n ∧ (∀ r ∈ rs, start ≤ r.seq ∧ r.seq ∈ l.seqs) ∧ rs.Pairwise (fun a b => a.seq < b.seq) ∧
      ∀ q ∈ l.seqs, start ≤ q → (∃ r ∈ rs, r.seq = q) ∨ rs.length = n ∧ ∀ r ∈ rs, r.seq < q) ∧
  ∀ (s : State) (t : Tick) (start : Nat) (v : Word) (k : Byte), let d := s.dev.advance t
    (d.linkBlocked = false → d.asked (.logRead t start k) = true → (k.toNat < 1 ∨ 3 < k.toNat ∨ (d.sys.bootHold && d.lantern.storeBad) = true →
        exec (.logRead t start k) s = .next (s.after t (d.reply stState))) ∧
      (1 ≤ k.toNat → k.toNat ≤ 3 → (d.sys.bootHold && d.lantern.storeBad) = false → start < 2 ^ 48 →
        let l := d.lantern.closeDue d.clk.now
        let rs := l.readFrom k.toNat start
        exec (.logRead t start k) s = .next (s.after t (Dev.reply { d with lantern := l } stOk
          (leBytes 6 l.tail ++ leBytes 6 l.head ++ [BitVec.ofNat 8 rs.length, 0, 0, 0] ++ rs.flatMap Record.bytes))))) ∧
    (d.takesHost (.rselHiWrite t v) →
      exec (.rselHiWrite t v) s = .next (s.after t (Dev.reply { d with lantern := { d.lantern with rselHi := v.setWidth 16, selSeq := (v.setWidth 16).toNat * 2 ^ 32 + d.lantern.rselLo.toNat } } stOk))) ∧
    (d.takesHost (.snapSelWrite t v) → exec (.snapSelWrite t v) s = .next (s.after t (Dev.reply { d with lantern := { d.lantern with snapSel := some (v.setWidth 16) } } stOk)))

/-- A WRITE of a word of banks 0 to 2 changes that word alone, of bank 3 is REFUSED_LOCKED, of an address with no writable register
    BAD_ADDR; a refused WRITE changes nothing. A WRITE_BURST on the scratchpad writes every word; one of two registers applies the second to
    the device the first left, or, either being refused, neither, and names the refused word (R10, R13, R474, R476, R512). INDEX is 0 where
    a burst is refused before its words: the model's reading (assumption 49). -/
def Obligations.WritesApplyWholeOrNotAtAll : Prop :=
  ∀ (s : State) (t : Tick) (a : Addr) (v v' : Word), let d := s.dev.advance t
    let one := d.takesHost (.write t a v) ∧ d.sys.retryPending = false
    let two := d.takesHost (.writeBurst t a [v, v']) ∧ d.sys.retryPending = false
    (one → writable a.toNat = false → exec (.write t a v) s = .next { s.after t (d.reply stBadAddr) with mem := s.mem }) ∧
    (one → scratchBase ≤ a.toNat → writable a.toNat = true → exec (.write t a v) s = .next (if a.toNat < bank3Base then
      { s.after t (d.reply stOk) with mem := Memory.setWord s.mem a.toNat v } else s.after t (d.reply stLocked))) ∧
    (a.toNat < scratchBase → writable a.toNat = true →
      let x := d.writeReg a.toNat v
      (one → refusesWord a.toNat x.2 = true → exec (.write t a v) s = .next (s.after t (d.reply x.2))) ∧
      (one → refusesWord a.toNat x.2 = false → x.1.sys.retryPending = false → exec (.write t a v) s = .next (s.after t (x.1.reply x.2))) ∧
      (two → a.toNat + 4 < scratchBase → writable (a.toNat + 4) = true →
        let y := x.1.writeReg (a.toNat + 4) v'
        (refusesWord a.toNat x.2 = true → exec (.writeBurst t a [v, v']) s = .next (s.after t (d.reply x.2 [0, 0, 0, 0]))) ∧
        (refusesWord a.toNat x.2 = false → refusesWord (a.toNat + 4) y.2 = true →
          exec (.writeBurst t a [v, v']) s = .next (s.after t (d.reply y.2 [1, 0, 0, 0]))) ∧
        (x.2 = stOk → y.2 = stOk → y.1.sys.retryPending = false → exec (.writeBurst t a [v, v']) s = .next (s.after t (y.1.reply stOk))))) ∧
    ∀ ws : List Word, let n := ws.length
      d.takesHost (.writeBurst t a ws) → d.sys.retryPending = false →
      (n < 1 ∨ 62 < n → exec (.writeBurst t a ws) s = .next (s.after t (d.reply stState [0, 0, 0, 0]))) ∧
      (1 ≤ n → n ≤ 62 → scratchBase ≤ a.toNat → a.toNat % 4 = 0 → a.toNat + 4 * n ≤ bank3Base → Memory.wf s.mem = true →
        ∃ m, exec (.writeBurst t a ws) s = .next { s.after t (d.reply stOk) with mem := m } ∧ Memory.wf m = true ∧
          (∀ i : Fin ws.length, Memory.word m (a.toNat + 4 * i.val) = ws[i]) ∧
          ∀ b : Nat, b < a.toNat ∨ a.toNat + 4 * n ≤ b → Memory.read m b = Memory.read s.mem b)

/-- ATOMIC_ADD adds its operand to a word of banks 0 to 2 modulo 2^32 and ATOMIC_SWAP replaces the word; each answers the old value and
    changes no other byte. Any other address is BAD_ADDR, bank 3 REFUSED_LOCKED (R474, R477, R512). -/
def Obligations.AtomicsReadAndWriteAtOnce : Prop :=
  ∀ (s : State) (t : Tick) (a : Addr) (x : Word), let d := s.dev.advance t
    let old := Memory.word s.mem a.toNat
    let add := d.takesHost (.atomicAdd t a x)
    let swap := d.takesHost (.atomicSwap t a x)
    d.sys.retryPending = false → Memory.wf s.mem = true →
    (scratchBase ≤ a.toNat → a.toNat < bank3Base → a.toNat % 4 = 0 →
      ∀ c w, d.takesHost c → (c = Instr.atomicAdd t a x ∧ w = old + x) ∨ (c = Instr.atomicSwap t a x ∧ w = x) →
        ∃ m, exec c s = .next { s.after t (d.reply stOk (leBytes 4 old.toNat)) with mem := m } ∧ Memory.wf m = true ∧
          Memory.word m a.toNat = w ∧ ∀ b : Nat, b < a.toNat ∨ a.toNat + 4 ≤ b → Memory.read m b = Memory.read s.mem b) ∧
    (bank3Base ≤ a.toNat → a.toNat < scratchEnd → a.toNat % 4 = 0 →
      (add → exec (.atomicAdd t a x) s = .next (s.after t (d.reply stLocked))) ∧ (swap → exec (.atomicSwap t a x) s = .next (s.after t (d.reply stLocked)))) ∧
    (a.toNat < scratchBase ∨ scratchEnd ≤ a.toNat ∨ a.toNat % 4 ≠ 0 →
      (add → exec (.atomicAdd t a x) s = .next (s.after t (d.reply stBadAddr))) ∧ (swap → exec (.atomicSwap t a x) s = .next (s.after t (d.reply stBadAddr))))

/-! ## Trust -/

/-- A TOKEN stops at its first failing check with that check's status and reason and spends the challenge; one that passes checks 1 to 5
    asks leave and holds the link until its verification ends. Verified, it does what its kind says and is counted; not verified, it is
    refused for reason 6; CLEAR leaves the CLEAR record alone, persisted. One in BOOT is refused (R137, R436, R443, R447, R448, R451). The
    reason 0 and the new challenge of a TOKEN in BOOT, and the tick from which an unlock counts, are the model's readings (assumption
    30). -/
def Obligations.TokensAreCheckedThenTakeEffect : Prop :=
  (∀ (s : State) (t : Tick) (bs : List Byte) (c : Instr), let d := s.dev.advance t
    c = .tokenClear t bs ∨ c = .tokenClaim t bs ∨ c = .tokenInstall t bs ∨ c = .tokenRevoke t bs ∨ c = .tokenUnlock t bs →
    (d.linkBlocked = false → d.asked c = true → d.sys.devState = .boot → ∃ d', exec c s = .next (s.after t d') ∧ d'.link.lastStatus = stState ∧
      d'.trust = { d.trust with lastStatus := stState, lastReason := 0, lastSigner := (tokenOf bs).signer, lastKind := BitVec.ofNat 8 (tokenOf bs).kind, chalCount := d.trust.chalCount + 1 } ∧
      d.onlyIn d' [.trust, .link]) ∧
    (d.takesHost c → d.sys.devState ≠ .boot →
    (∀ reason status, d.trust.tokenCheck bs = some (reason, status) → ∃ d', exec c s = .next (s.after t d') ∧
      d'.link.lastStatus = status ∧ d'.trust.lastStatus = status ∧ d'.trust.lastReason = BitVec.ofNat 8 reason ∧
      d'.trust.chalCount = d.trust.chalCount + 1 ∧ d'.trust.refused = d.trust.refused + (if reason = 1 then 0 else 1) ∧ d'.trust.slots = d.trust.slots ∧
      d'.trust.claimOpen = d.trust.claimOpen ∧ d.onlyIn d' [.trust, .lantern, .fault, .link]) ∧
    (d.trust.tokenCheck bs = none → d.leave.queue.length < 32 → 300 ≤ d.leave.budget.toNat → exec c s = .next (s.after t
      { d with link := { d.link with holding := true }, trust := { d.trust with waiting := d.trust.waiting ++ [.token bs] }, leave := { d.leave with queue := d.joinQueue { kind := .signature, target := 0xFF, arrival := d.clk.now } } })))) ∧
  ∀ (s : State) (t : Tick) (bs : List Byte) (rest : List TrustJob), let d := s.dev.advance t
    let k := tokenOf bs
    let slot : Fin 4 := Fin.ofNat 4 k.slot
    d.clk.onBackup = false → d.trust.running = .token bs :: rest → ∃ d', exec (.trustOpDone t) s = .next (s.after t d') ∧
      d'.trust.running = rest ∧ d'.trust.chalCount = d.trust.chalCount + 1 ∧ d'.link.holding = false ∧
      d'.leave.grants = d.leave.grants.erase { kind := .signature, target := 0xFF } ∧
      (ecdsaVerify k.pub (bs.take 0xB0) k.sig = false → d'.link.lastStatus = stAuth ∧ d'.trust.lastReason = 6 ∧
        d'.trust.slots = d.trust.slots ∧ d'.trust.refused = d.trust.refused + 1 ∧ d.onlyIn d' [.trust, .lantern, .fault, .link, .leave, .tile]) ∧
      (ecdsaVerify k.pub (bs.take 0xB0) k.sig = true → d'.link.lastStatus = stOk ∧ d'.trust.lastReason = 0 ∧
        d'.trust.accepted = d.trust.accepted + 1 ∧ (∀ j : Fin 4, j ≠ slot → d'.trust.slots[j] = d.trust.slots[j]) ∧
        d.onlyIn d' [.trust, .lantern, .fault, .link, .leave, .tile, .sense] ∧
        (k.kind = 1 → (∀ r ∈ d.lantern.ram, r.seq < d.lantern.next) → d'.trust.slots = d.trust.slots ∧ d'.trust.claimOpen = d.trust.claimOpen ∧ d'.lantern.floor = d.lantern.next ∧
          d'.lantern.tail = d.lantern.next ∧ d'.lantern.clears = d.lantern.clears + 1 ∧ d'.lantern.next = d.lantern.next + 1 ∧
          ∃ r, d'.lantern.store = [(d.lantern.writePtr, r)] ∧ r.seq = d.lantern.next ∧ r.code = 0x0002 ∧ r.persisted = true) ∧
        (k.kind = 2 ∨ k.kind = 3 → d'.trust.slots[slot] = { st := .installed, key := k.key } ∧ d'.trust.claimOpen = false) ∧
        (k.kind = 4 → d'.trust.slots[slot] = { d.trust.slots[slot] with st := .revoked } ∧ d'.trust.claimOpen = d.trust.claimOpen) ∧
        (k.kind = 5 → d'.sense.unlockUntil = some (d.cycleTick + k.arg * 480000000) ∧ d'.trust.slots = d.trust.slots))

/-- An ATTEST that R456 bars is REFUSED_STATE; in boot hold one runs at once, else it asks leave. Its end answers the 224 bytes of R453, the
    body of its kind at 0x40 and the device's ECDSA signature of all before it at 0xA0; a range that holds nothing is
    refused, and so is one of which a record is readable no more (R444, R453 to R456). That what an ATTEST covers is taken at its execution
    and counted again at its end, and that LAST_ATTEST is written at its completion, are the model's readings (assumption 30). -/
def Obligations.AttestationsAnswerSigned : Prop :=
  (∀ (s : State) (t : Tick) (bs : List Byte) (c : Instr), let d := s.dev.advance t
    c = .attestIdentity t bs ∨ c = .attestRecords t bs ∨ c = .attestCalibration t bs → d.linkBlocked = false → d.asked c = true →
    (d.attestBars bs = true → exec c s = .next (s.after t (Dev.reply { d with trust := { d.trust with attStatus := stState, attKind := byteAt bs 0 } } stState))) ∧
    (d.attestBars bs = false → d.sys.bootHold = true → exec c s = .next (s.after t
      { d with link := { d.link with holding := true }, trust := { d.trust with running := d.trust.running ++ [.attest bs (d.attCover bs)] } })) ∧
    (d.attestBars bs = false → d.sys.bootHold = false → d.leave.queue.length < 32 → 300 ≤ d.leave.budget.toNat → exec c s = .next (s.after t
      { d with link := { d.link with holding := true }, trust := { d.trust with waiting := d.trust.waiting ++ [.attest bs (d.attCover bs)] }, leave := { d.leave with queue := d.joinQueue { kind := .signature, target := 0xFF, arrival := d.clk.now } } }))) ∧
  ∀ (s : State) (t : Tick) (bs : List Byte) (cover : Option (Nat × Nat × Nat)) (rest : List TrustJob), let d := s.dev.advance t
    let dc : Dev := { d with lantern := d.lantern.closeDue d.clk.now }
    d.clk.onBackup = false → d.trust.running = .attest bs cover :: rest → ∃ d', exec (.trustOpDone t) s = .next (s.after t d') ∧
      d'.trust.running = rest ∧ d'.link.holding = false ∧ d'.trust.attKind = byteAt bs 0 ∧ d.onlyIn d' [.trust, .lantern, .fault, .link, .leave, .free] ∧
      (numAt bs 0 1 = 1 → (∀ a b n, cover = some (a, b, n) → (dc.lantern.range a b).length ≠ n) → d'.link.lastStatus = stState ∧ d'.trust.attStatus = stState) ∧
      ∀ body : List Byte, (numAt bs 0 1 = 0 ∧ body = dc.attIdentity) ∨ (numAt bs 0 1 = 2 ∧ body = dc.attCal) ∨
          (numAt bs 0 1 = 1 ∧ ∃ a b, cover = some (a, b, (dc.lantern.range a b).length) ∧ body = dc.attRecords a b) →
        d'.link.lastStatus = stOk ∧ d'.trust.attStatus = stOk ∧ body.length = 96 ∧ d'.link.lastData.length = 224 ∧
          d'.link.lastData.take 160 = d.attHead bs ++ body ∧ d'.link.lastData.drop 160 = keyBytes (ecdsaSign deviceSecret (d.attHead bs ++ body))

/-! ## The link -/

/-- A frame numbered EXPECT is taken and moves EXPECT on, or is turned away with BUSY; one of the last eight that has been answered is
    answered again with the same response; anything else is dropped and counted, as is a frame that fails reception or loses symbol sync on its way, and answered by at most one NAK
    naming EXPECT that waits or was sent within 50 µs; a NAK overtakes the responses that wait and is counted as it leaves.
    SYNC sets the numbering of an idle window. Of a frame that began before the link ran nothing is taken, and one that began while the
    window was full is turned away. Symbol sync comes with the PLL's lock only. A frame is put out whole between SOF and EOF,
    at least four idle symbols after the one before it, and a response that has left ends its transaction; none leaves before the lock
    or while the link is stopped. A clear of the counters keeps the counts of its own LOOP_CLK cycle (R127, R459 to R469, R480, R481,
    R483). Where a NAK goes among what waits, when BUSY is told and what a stop of the link leaves are the model's readings (assumptions 31,
    79, 106). -/
def Obligations.FramesAreTakenOnceInOrder : Prop :=
  (∀ (s : State) (t : Tick) (seq : Byte) (payload : List Byte) (received : List (Option Machine.Symbol)) (v : Word), let d := s.dev.advance t
    let l := d.link
    let now := d.clk.now
    let link := fun (c : Instr) (l' : Link) => exec c s = .next (s.after t (d.lineEvent fun _ => l'))
    let naked := fun (c : Instr) (l1 : Link) (st : Byte) =>
      let quiet := (∃ f ∈ l.tx, f.names l.expect = true) ∨ ∃ u, l.nakHold = some (l.expect, u) ∧ now < u
      (quiet → link c l1) ∧ (¬quiet → link c { l1 with tx := l.pushNak (.nak st l.expect) now })
    let small := payload.length ≤ 256
    link (.rxSyncGain t) { l with rxSync := l.rxSync || d.locked } ∧
    (∀ inFrame : Bool, inFrame = false ∨ d.linkUp = false →
      link (.rxSyncLoss t inFrame) (if l.rxSync then { l with rxSync := false, syncLoss := l.syncLoss + 1 } else l)) ∧
    (∀ dur : Nat, d.hears dur = true ↔ d.linkUp = true ∧ l.upFrom + dur ≤ now) ∧
    (∀ (dur : Nat) (f : Tick), l.fullSince = some f → f ≤ now - dur → d.mayTake dur = false) ∧
    (∀ (dur : Nat) (x : Tick × Tick), x ∈ l.fulls → x.1 ≤ now - dur → now - dur < x.2 → d.mayTake dur = false) ∧
    (d.hears (40 * (payload.length + 14)) = false → link (.requestFrame t seq payload) l) ∧
    (d.hears (40 * received.length) = false → link (.frameRxFail t received) l) ∧ (d.hears 560 = false → link (.sync t seq) l) ∧
    (receptionFails received = false → link (.frameRxFail t received) l) ∧
    (d.locked = false → d.linkUp = false ∧ d.hlTx = .off) ∧
    (d.hears (40 * (payload.length + 14)) = true →
      (¬small → naked (.requestFrame t seq payload) { l with failed := l.failed + 1 } stNakCrc) ∧
      (small → seq = l.expect → d.mayTake (40 * (payload.length + 14)) = true → link (.requestFrame t seq payload)
        { l with expect := l.expect + 1, window := l.window ++ [{ seq := seq, payload := payload }], frames := l.frames + 1 }) ∧
      (small → seq = l.expect → d.mayTake (40 * (payload.length + 14)) = false →
        naked (.requestFrame t seq payload) { l with busy := l.busy + 1 } stBusy) ∧
      (∀ r, small → seq ≠ l.expect → (l.expect - seq).toNat ≤ 8 → l.replay.find? (fun x => x.seq == seq) = some r →
        link (.requestFrame t seq payload) { l with tx := l.tx ++ [.response r], replays := l.replays + 1 }) ∧
      (small → seq ≠ l.expect → (∀ x ∈ l.replay, x.seq ≠ seq) →
        ((l.expect - seq).toNat ≤ 8 → (∃ x ∈ l.window, x.seq = seq ∧ x.done = false) → link (.requestFrame t seq payload) l) ∧
        (8 < (l.expect - seq).toNat ∨ (∀ x ∈ l.window, x.seq = seq → x.done = true) →
          naked (.requestFrame t seq payload) { l with discard := l.discard + 1 } stNakCrc))) ∧
    (d.hears (40 * received.length) = true → receptionFails received = true → naked (.frameRxFail t received) { l with failed := l.failed + 1 } stNakCrc) ∧
    (d.linkUp = true → naked (.rxSyncLoss t true) { l with failed := l.failed + 1, rxSync := false, syncLoss := l.syncLoss + 1 } stNakCrc) ∧
    (d.hears 560 = true →
      (d.mayTake 560 = false → naked (.sync t seq) { l with busy := l.busy + 1 } stBusy) ∧
      (d.mayTake 560 = true → (∃ x ∈ l.window, x.done = false) → link (.sync t seq) { l with tx := l.tx ++ [.syncAck seq stState l.expect] }) ∧
      (d.mayTake 560 = true → (∀ x ∈ l.window, x.done = true) →
        link (.sync t seq) { l with expect := seq, replay := [], nakHold := none, tx := l.tx ++ [.syncAck seq stOk seq] })) ∧
    (∀ x u, l.nakHold = some (x, u) → link (.nakHoldoffExpire t) (if u ≤ now then { l with nakHold := none } else l)) ∧
    (d.hlTx = .off → link (.responseSent t) l) ∧
    (∀ f rest, d.hlTx ≠ .off → l.tx = f :: rest →
      (d.sys.retryPending = false → l.mayLeave f now = false → link (.responseSent t) l) ∧
      (d.sys.retryPending = false → l.mayLeave f now = true → link (.responseSent t) { l with
        tx := rest, line := f.symbols (l.epoch.setWidth 8), framed := true, lineFrom := now
        idles := (now - l.lineFrom) / 40 - (f.symbols (l.epoch.setWidth 8)).length
        rd := (lineCode l.rd (List.replicate ((now - l.lineFrom) / 40 - (f.symbols (l.epoch.setWidth 8)).length) .idle ++ f.symbols (l.epoch.setWidth 8))).2
        naks := (match f with
          | .nak _ _ => l.naks + 1
          | _ => l.naks)
        nakHold := (match f with
          | .nak _ x => some (x, now + 24000)
          | _ => l.nakHold)
        window := match f, l.window with
          | .response r, x :: xs => if x.done && x.seq == r.seq then xs else x :: xs
          | _, w => w }) ∧
      (l.mayLeave f now = true → l.framed = true → 4 ≤ (now - l.lineFrom) / 40 - (f.symbols (l.epoch.setWidth 8)).length) ∧
      (d.sys.retryPending = true → l.mayLeave f now = true → (∀ r, .response r ∉ rest) →
        ∃ d', exec (.responseSent t) s = .next (s.after t d') ∧ d.EnteredBoot d' true 7 0)) ∧
    (d.takesHost (.linkCtrlClr t v) → let n := fun (c : LinkCount) => BitVec.ofNat 16 (d.cyc.counts.count c)
      exec (.linkCtrlClr t v) s = .next (s.after t (Dev.reply { d with link := if v.getLsbD 0 then { l with
        frames := n .frames, failed := n .failed, discard := n .discard, busy := n .busy, naks := n .naks, replays := n .replays, syncLoss := n .syncLoss } else l } stOk)))) ∧
  (∀ (f : TxFrame) (epoch : Byte), ∃ bs : List Byte, f.symbols epoch = .sof :: bs.map .data ++ [.eof] ∧ 12 ≤ bs.length) ∧
  ∀ (l : Link) (f : TxFrame) (now : Tick), ∃ a b, l.tx = a ++ b ∧ l.pushNak f now = a ++ f :: b ∧ (∀ r, .response r ∉ a.tail) ∧
    (l.framed = true → (now - l.lineFrom) / 40 < 4 → ∀ r, .response r ∉ a)

/-! ## Chord -/

/-- A port gains and loses symbol sync; a PROBE goes out a millisecond after the last, is answered with an ECHO when it passes reception, and one of the device's own reports a loop; half of an
    ECHO's round trip beyond 48 ticks is the link delay. A device left without upstream sync 200 µs after BOOT is the head; one that has sync
    and no DOWN for 2 ms is unjoined, enters BROKEN and breaks its unshared rails (R484, R487, R488, R489, R506). What a short payload reads
    as, and that a PROBE which fails reception is not answered, are the model's readings (assumption 102). -/
def Obligations.ChainPortsFindTheirPositions : Prop :=
  ∀ (s : State) (t : Tick), let d := s.dev.advance t
    let c := d.chord
    let chord := fun (i : Instr) (c' : Chord) => exec i s = .next (s.after t { d with chord := c' })
    (d.chordRuns = false → ∀ up sync rx rt, chord (.chordPortSyncChange t up sync) c ∧ chord (.chordProbeSend t) c ∧ chord (.chordProbeRx t rx) c ∧
      chord (.chordEchoRx t rx rt) c ∧ chord (.chordHeadTimeout t) c ∧ chord (.chordUnjoined t) c) ∧
    (d.chordRuns = true →
      (∀ sync, chord (.chordPortSyncChange t false sync) { c with dnSync := sync } ∧
        chord (.chordPortSyncChange t true sync) { c with upSync := sync, upSyncAt := if sync && !c.upSync then some d.clk.now else c.upSyncAt }) ∧
      (c.loop = false → c.posOvf = false → (∀ u, c.probeSent = some u → u + 480000 ≤ d.clk.now) →
        chord (.chordProbeSend t) { c with txDn := some (.probe (deviceId ++ [0, 0, 0, 0])), probeSent := some d.clk.now }) ∧
      (∀ u, c.probeSent = some u → d.clk.now < u + 480000 → chord (.chordProbeSend t) c) ∧
      (∀ rx, c.head = false → c.upSync = true → chordIntact 0x10 rx = true →
        chord (.chordProbeRx t rx) { c with txUp := some (.echo ((chordBytes rx).drop 8)), loop := c.loop || chordId rx == deviceIdBits }) ∧
      (∀ rx, chordIntact 0x10 rx = false → chord (.chordProbeRx t rx) c) ∧
      (∀ rx (k : Nat), c.dnSync = true → chordIntact 0x11 rx = true → chordId rx = deviceIdBits → k < 65536 →
        chord (.chordEchoRx t rx (48 + 2 * k)) { c with linkDn := BitVec.ofNat 16 k }) ∧
      (∀ rx rt, chordIntact 0x11 rx = false ∨ chordId rx ≠ deviceIdBits → chord (.chordEchoRx t rx rt) c) ∧
      (∀ b, c.leftBoot = some b → b + 96000 ≤ d.clk.now → c.upSyncAt = none → c.enum = false →
        chord (.chordHeadTimeout t) { c with head := true, enum := true, position := 0 }) ∧
      (∀ b, c.leftBoot = some b → (d.clk.now < b + 96000 ∨ c.upSyncAt.isSome = true ∨ c.enum = true) → chord (.chordHeadTimeout t) c) ∧
      ∀ b u, c.leftBoot = some b → c.upSyncAt = some u →
        (d.clk.now < max b u + 960000 → chord (.chordUnjoined t) c) ∧
        (max b u + 960000 ≤ d.clk.now → c.upSync = true → c.enum = false → c.posOvf = false → c.unjoined = false → c.brokenSince = none →
          ∃ d', exec (.chordUnjoined t) s = .next (s.after t d') ∧ d'.chord = { c with unjoined := true, st := 2, brokenSince := some d.clk.now, stepDue := true, held := d.sharedMask } ∧
            (∀ r : RailIx, d.railDefined r = true → d.sharedAs r = none → d'.causeOf (srcChordBreak r) 0 = true) ∧
            d.onlyIn d' [.chord, .lantern, .fault]))

/-- The head sends a DOWN of the next sweep at each multiple of 4800 of its time base, and in a chain of one only counts it. A member passes a DOWN on, one hop and its delay
    further, spoilt when it arrived spoilt, and applies each sweep at most once; it inserts its report into the UP of the sweep it applied.
    The head applies an UP with every position's report. A member that has applied nothing for two periods is BROKEN; a shared rail follows
    once RIDE has passed (R26, R486, R488, R491 to R494, R505, R506). What the head of a chain of one counts, and what forming compares and
    remembers, are the model's readings (assumptions 32, 85). -/
def Obligations.SweepsAreAppliedOnceAndWhole : Prop :=
  ∀ (s : State) (t : Tick), let d := s.dev.advance t
    let c := d.chord
    let chord := fun (i : Instr) (c' : Chord) => exec i s = .next (s.after t { d with chord := c' })
    (d.chordRuns = false ∨ c.head = false ∨ d.tb % 4800 ≠ 0 → chord (.sweepMarkHead t) c) ∧
    (d.chordRuns = true → c.head = true → d.alone = true → d.tb % 4800 = 0 →
      chord (.sweepMarkHead t) { c with sent := c.sent + 1, awaiting := [], holdMarks := c.holdMarks - 1 }) ∧
    (d.chordRuns = true → c.head = true → d.alone = false → d.tb % 4800 = 0 → ∃ d' f, exec (.sweepMarkHead t) s = .next (s.after t d') ∧
      d'.chord.sent = c.sent + 1 ∧ d'.chord.awaiting = (c.sent + 1) :: c.awaiting.filter (fun x => x != c.sent - 1) ∧
      d'.chord.txDn = some (.down f false) ∧ f.hop = 1 ∧ f.sweep = c.sent + 1 ∧ f.headId = deviceIdBits ∧ f.tb = d.tb ∧ f.syncPer = d.pwmg.syncPer ∧
      f.syncIndex = BitVec.ofNat 32 ((d.clk.now - d.pwmg.dev.valley) % (2 * d.pwmg.syncPer.toNat)) ∧ f.delay = c.linkDn ∧ f.state = d'.chord.st ∧
      f.size = c.size.setWidth 8 ∧ f.step = 0x2 ∧ f.fwver = Config.fwver ∧ f.digest = d.chainDigest ∧ d'.chord.size = c.size ∧
      d.onlyIn d' [.chord, .fault, .lantern] ∧ (c.awaiting.contains (c.sent - 1) = false → d.onlyIn d' [.chord])) ∧
    (∀ (rx : List (Option Machine.Symbol)) (k : Nat), let f := DownFrame.read (chordBytes rx)
      let intact := chordIntact 0x12 rx
      (d.chordRuns = false ∨ c.head = true ∨ c.loop = true ∨ c.posOvf = true ∨ c.upSync = false → chord (.chordDownRx t rx k) c) ∧
      (d.chordRuns = true → c.head = false → c.loop = false → c.posOvf = false → c.upSync = true →
        let sent := ChordTx.down { f with hop := f.hop + 1, delay := f.delay + 48 + c.linkDn } (!intact)
        (c.enum = false → 8 ≤ f.hop.toNat → intact = true → chord (.chordDownRx t rx k) { c with posOvf := true }) ∧
        (intact = false → ∃ d', exec (.chordDownRx t rx k) s = .next (s.after t d') ∧ d'.chord = { c with txDn := some sent, bad := c.bad + 1 } ∧
          d.onlyIn d' [.chord, .fault]) ∧
        (intact = true → c.enum = true → c.headId.isSome = true → f.sweep.toNat ≤ c.sweep.toNat →
          chord (.chordDownRx t rx k) { c with txDn := some sent }) ∧
        (intact = true → c.enum = true ∨ f.hop.toNat < 8 → c.headId = none ∨ c.sweep.toNat < f.sweep.toNat →
          ∃ d', exec (.chordDownRx t rx k) s = .next (s.after t d') ∧ d'.chord.txDn = some sent ∧ d'.chord.sweep = f.sweep ∧
            d'.chord.applied = c.applied + 1 ∧ d'.chord.fromHead = f.delay ∧ d'.chord.lastDown = some d.clk.now ∧ d'.chord.enum = true ∧
            d'.chord.position = (if c.enum then c.position else f.hop.setWidth 3) ∧ d'.chord.size = f.size.setWidth 4 ∧
            d'.chord.headId = some (c.headId.getD f.headId) ∧ d'.chord.unjoined = false ∧ d'.chord.stepDue = false ∧
            ∀ r x, d.sharedAs r = some x → d'.chord.total[x] = f.rails[x].total ∧ d'.chord.held.getLsbD r.val = f.rails[x].held))) ∧
    (∀ rx : List (Option Machine.Symbol), let f := UpFrame.read (chordBytes rx)
      let intact := chordIntact 0x13 rx
      (d.chordRuns = false ∨ c.loop = true ∨ c.posOvf = true ∨ c.dnSync = false → chord (.chordUpRx t rx) c) ∧
      (d.chordRuns = true → c.loop = false → c.posOvf = false → c.dnSync = true →
        (c.head = false → c.enum = true → c.headId.isSome = true → f.sweep = c.sweep → ∃ d', exec (.chordUpRx t rx) s = .next (s.after t d') ∧
          d'.chord.txUp = some (.up { f with hop := f.hop + 1, reports := f.reports ++ [d.report] } (!intact)) ∧ d'.chord.sweep = c.sweep ∧ d.onlyIn d' [.chord]) ∧
        (c.head = false → (c.enum = false ∨ c.headId = none ∨ f.sweep ≠ c.sweep) → chord (.chordUpRx t rx) { c with txUp := some (.up f (!intact)) }) ∧
        (c.head = true → c.awaiting.contains f.sweep = false → chord (.chordUpRx t rx) c) ∧
        (c.head = true → c.awaiting.contains f.sweep = true → ∃ d', exec (.chordUpRx t rx) s = .next (s.after t d') ∧
          d'.chord.awaiting = c.awaiting.filter (fun x => x != f.sweep) ∧
          (intact = true → (∀ i : Fin 8, 1 ≤ i.val → i.val < c.size.toNat → (c.oos.getLsbD i.val = true ∧ c.lost.getLsbD i.val = false) ∨ ∃ x ∈ f.reports, x.pos.toNat = i.val) → c.size.toNat ≤ 8 →
            d'.chord.sweep = f.sweep ∧ d'.chord.applied = c.applied + 1 ∧ d'.chord.bad = c.bad) ∧
          (intact = false → d'.chord.sweep = c.sweep ∧ d'.chord.applied = c.applied ∧ d'.chord.bad = c.bad + 1 ∧ d'.chord.total = c.total ∧
            d.onlyIn d' [.chord, .fault, .lantern])))) ∧
    (∀ u, d.chordRuns = true → c.enum = true → c.head = false → c.lastDown = some u → c.brokenSince = none →
      (d.clk.now < u + 9600 → chord (.chordMemberBreak t) c) ∧
      (u + 9600 ≤ d.clk.now → ∃ d', exec (.chordMemberBreak t) s = .next (s.after t d') ∧
        d'.chord = { c with st := 2, brokenSince := some d.clk.now, stepDue := true, held := d.sharedMask } ∧ d.onlyIn d' [.chord, .lantern, .fault])) ∧
    ∀ b, d.alive = true → c.brokenSince = some b → ∃ d', exec (.chordRideExpire t) s = .next (s.after t d') ∧ d.onlyIn d' [.fault] ∧
      ∀ r : RailIx, d.railDefined r = true → (d'.fault.src[srcChordBreak r].cause.getLsbD 0 = true ↔ d.sharedAs r = none ∨ b + c.ride.toNat * 480000 ≤ d.clk.now)

/-! ## Leave, leases and tests -/

/-- The scan of the last LOOP_CLK cycle of an HK_CLK cycle grants in queue order, passing over requests whose resource is busy and stopping at the first that does not fit; what it grants
    fits the budget and its resources, and each grant starts its operation. A request that has waited MAXWAIT leaves the queue refused and
    is granted no more; none is granted in BOOT, on the backup oscillator or during a full BIST (R519 to R524). How a target names a phase,
    a quad or a bank is the model's encoding (assumption 25). -/
def Obligations.LeaveStaysWithinTheBudget : Prop :=
  (∀ l : Leave, let x := l.scan l.queue
    x.1.inUse ≤ max l.inUse l.budget.toNat ∧ x.1.grants = l.grants ++ x.2.map (fun q => { kind := q.kind, target := q.target }) ∧
      x.2.Sublist l.queue ∧ x.1.budget = l.budget ∧
      (∀ q ∈ x.2, l.busy q.kind q.target = false) ∧
      (x.2 = [] → ∀ q ∈ l.queue.head?, l.busy q.kind q.target = true ∨ l.budget.toNat < l.inUse + q.kind.cost)) ∧
  (∀ (s : State) (t : Tick), let d := s.dev.advance t
    (d.noGrants = true ∨ d.hkLast = false → exec (.leaveGrant t) s = .next (s.after t d)) ∧
    (d.noGrants = false → d.hkLast = true → let e := d.expireLeave
      exec (.leaveGrant t) s = .next (s.after t ((e.leave.scan e.leave.queue).2.foldl Dev.startGranted { e with leave := (e.leave.scan e.leave.queue).1 })))) ∧
  (∀ (s : State) (t : Tick) (q : LeaveReq), let d := s.dev.advance t
    d.noGrants = false → d.hkLast = true → d.leave.queue = [q] → d.leave.overdue d.clk.now q = true → ∃ d', exec (.leaveGrant t) s = .next (s.after t d') ∧
      d'.leave.queue = [] ∧ d'.leave.grants = d.leave.grants ∧ (d'.leave.cnt[q.kind.ix]).refused = (d.leave.cnt[q.kind.ix]).refused + 1) ∧
  (∀ (s : State) (t : Tick) (q : LeaveReq), let d := s.dev.advance t
    d.noGrants = false → d.hkLast = true → d.leave.queue = [q] → d.leave.overdue d.clk.now q = false → d.leave.busy q.kind q.target = false → d.leave.inUse + q.kind.cost ≤ d.leave.budget.toNat →
    ∃ d', exec (.leaveGrant t) s = .next (s.after t d') ∧ d'.leave.queue = [] ∧
      (d'.leave.cnt[q.kind.ix]).granted = (d.leave.cnt[q.kind.ix]).granted + 1 ∧
      (q.kind = .rotation ∨ q.kind = .fgcal ∨ q.kind = .mram → d'.leave.grants = d.leave.grants ++ [{ kind := q.kind, target := q.target }]) ∧
      (q.kind = .rotation → (d'.sense.quads[(Fin.ofNat 4 q.target.toNat : QuadIx)]).rotGranted = true ∧ d.onlyIn d' [.leave, .sense]) ∧
      (q.kind = .fgcal → d'.sense.stage = d.sense.stage.map (fun _ => .running d.clk.now) ∧ d.onlyIn d' [.leave, .sense]) ∧
      (q.kind = .mram → d'.tile.load = d.tile.load.map (fun l => { l with stage := some .mram }) ∧ d.onlyIn d' [.leave, .tile]) ∧
      (∀ j rest, q.kind = .signature → d.trust.waiting = j :: rest → d'.trust.waiting = rest ∧ d'.trust.running = d.trust.running ++ [j] ∧
        d'.leave.grants = d.leave.grants ++ [{ kind := q.kind, target := q.target }] ∧ d.onlyIn d' [.leave, .trust, .tile]) ∧
      (q.kind = .selftest → 0x50 ≤ q.target.toNat → d'.test.bank = d.test.bank.map (fun b => (b.1, .running d.clk.now)) ∧ d.onlyIn d' [.leave, .test]) ∧
      (q.kind = .selftest → q.target.toNat < 0x40 → d'.test.phase = d.test.phase.map (fun p => (p.1, .running d.clk.now)) ∧ d'.test.periods = 0 ∧
        d.onlyIn d' [.leave, .test]) ∧
      (∀ r, let n : PhaseIx := Fin.ofNat 64 q.target.toNat
        q.kind = .phaseStart → d.railOf n = some r → d.rails[r].addWait = some n → (d.setNow n).shed = false →
          d'.rails[r].addWait = none ∧ (d'.pwm[n]).mask.shed = false ∧ d'.leave.grants = d.leave.grants ++ [{ kind := q.kind, target := q.target }])) ∧
  ∀ (s : State) (t : Tick), let d := s.dev.advance t
    (d.alive = false → exec (.leaveMaxwaitExpire t) s = .next (s.after t d)) ∧
    (d.alive = true → ∃ d', exec (.leaveMaxwaitExpire t) s = .next (s.after t d') ∧ d'.leave.grants = d.leave.grants ∧
      d'.leave.queue = d.leave.queue.filter (fun q => !d.leave.overdue d.clk.now q) ∧
      ∀ q, d.leave.queue.filter (fun q => d.leave.overdue d.clk.now q) = [q] →
        (d'.leave.cnt[q.kind.ix]).refused = (d.leave.cnt[q.kind.ix]).refused + 1 ∧
        (q.kind = .fgcal → d'.sense.stage = none ∧ d'.sense.result = 7) ∧
        (∀ bs rest, q.kind = .signature → d.trust.waiting = .token bs :: rest → d'.link.lastStatus = stLeave ∧ d'.trust.chalCount = d.trust.chalCount) ∧
        (q.kind = .mram → d'.link.lastStatus = stLeave))

/-- A lease of bank 3 is taken when none is held, the pause is over and no BIST runs; after 1 µs, or released, it ends and the pause begins.
    Each test runs on the conditions of its rule, asks leave but for the full BIST, and reports how it ended; a shed-phase test is abandoned
    when its phase may no longer be tested or its rail has left the mode of its acceptance, and the bank test never names a word of the
    Lantern staging range; the full BIST leaves every word 0 (R516, R517, R525 to R530). The leave targets, the end of a lease by the full
    BIST, and what the housekeeping region reads once a lease has been taken are the model's choices (assumptions 25, 51, 101). -/
def Obligations.LeasesEndAndTestsReport : Prop :=
  ∀ (s : State) (t : Tick), let d := s.dev.advance t
    let b := d.banks
    let now := d.clk.now
    let banks := fun (i : Instr) (b' : Banks) => exec i s = .next (s.after t { d with banks := b' })
    let refused := fun (i : Instr) => exec i s = .next (s.after t (d.reply stState))
    let asks := fun (i : Instr) (t' : Test) (target : Byte) => exec i s = .next (s.after t (Dev.reply { d with test := t', leave := { d.leave with queue := d.joinQueue { kind := .selftest, target := target, arrival := now } } } stOk))
    (d.alive = true →
      (b.leaseSince = none → b.pauseUntil ≤ now → d.test.bist = none → banks (.hkLeaseTake t) { b with leaseSince := some now, redo := false, hkWrote := true }) ∧
      (b.leaseSince.isSome = true ∨ now < b.pauseUntil ∨ d.test.bist.isSome = true → banks (.hkLeaseTake t) b) ∧
      (∀ u, b.leaseSince = some u → (now < u + 480 → banks (.leaseExpire t) b) ∧
        (u + 480 ≤ now → banks (.leaseExpire t) { b with leaseSince := none, pauseUntil := now + 480, redo := true, expiries := upd b.expiries 3 (· + 1) }) ∧
        banks (.leaseRelease t) { b with leaseSince := none, pauseUntil := now + 480 }) ∧
      (∀ (n : PhaseIx) (u : Tick) (mismatch : Bool), d.test.phase = some (n, .running u) → ∃ d', exec (.phaseTestDone t mismatch) s = .next (s.after t d') ∧
        (mismatch = true → d'.test.phase = none ∧ d'.test.phaseRes = 2) ∧
        (mismatch = false → 65 ≤ d.test.periods → d'.test.phase = none ∧ d'.test.phaseRes = 1) ∧
        (mismatch = false → d.test.periods < 65 → d' = d) ∧ d.onlyIn d' [.test, .leave]) ∧
      ∀ (k : BitVec 2) (u : Tick) (w : Option (BitVec 14)), d.test.bank = some (k, .running u) →
        (k = 3 → b.leaseSince.isSome = true → exec (.bankTestDone t w) s = .next (s.after t d)) ∧
        (k = 3 → (∃ x, w = some x ∧ 0x3E00 ≤ x.toNat) → exec (.bankTestDone t w) s = .next (s.after t d)) ∧
        (k ≠ 3 ∨ b.leaseSince = none ∧ (∀ x, w = some x → x.toNat < 0x3E00) → exec (.bankTestDone t w) s = .next (s.after t
        { d with test := { d.test with bank := none, bankRes := if w.isSome then 2 else 1, failWord := w.getD d.test.failWord }, leave := { d.leave with grants := d.leave.grants.erase { kind := .selftest, target := bankTestTarget k } } }))) ∧
    (d.leave.queue.length < 32 → 60 ≤ d.leave.budget.toNat →
      (d.takesHost (.phaseTest t) → d.sys.devState = .run → d.phaseTestable d.test.selPhase = true → d.test.phase = none →
        asks (.phaseTest t) { d.test with phase := some (d.test.selPhase, .waiting), phaseIn := d.phaseMode d.test.selPhase, periods := 0 } (phaseTarget d.test.selPhase)) ∧
      (d.takesHost (.bankTest t) → d.sys.devState = .standby ∨ d.sys.devState = .run ∨ d.sys.devState = .maint → d.test.bank = none → d.test.selBank ≠ 3 ∨ b.leaseSince = none →
        asks (.bankTest t) { d.test with bank := some (d.test.selBank, .waiting) } (bankTestTarget d.test.selBank))) ∧
    ((d.takesHost (.phaseTest t) → d.sys.devState ≠ .run ∨ d.phaseTestable d.test.selPhase = false ∨ d.test.phase.isSome = true → refused (.phaseTest t)) ∧
      (d.takesHost (.bankTest t) → (d.sys.devState ≠ .standby ∧ d.sys.devState ≠ .run ∧ d.sys.devState ≠ .maint) ∨ d.test.bank.isSome = true ∨
        (d.test.selBank = 3 ∧ b.leaseSince.isSome = true) → refused (.bankTest t)) ∧
      (d.takesHost (.fullBist t) → d.sys.devState ≠ .maint ∨ d.test.bist.isSome = true ∨ d.test.phase.isSome = true ∨ d.test.bank.isSome = true → refused (.fullBist t)) ∧
      (d.takesHost (.fullBist t) → d.sys.devState = .maint → d.test.bist = none → d.test.phase = none → d.test.bank = none → (d.sense.op = .selftest → d.sense.stage = none) →
        d.lantern.staging = Vector.replicate 16 none → exec (.fullBist t) s = .next (s.after t
          (Dev.reply { d with test := { d.test with bist := some now }, sys := { d.sys with rdyLowBist := true } } stOk)))) ∧
    (∀ (n : PhaseIx) (x : OpStage), d.test.phase = some (n, x) → d.phaseTestable n = false ∨ d.phaseMode n ≠ d.test.phaseIn ∨ d.pwm[n].flareLift = true →
      d.checkPhaseTest.test = { d.test with phase := none, phaseRes := 3 } ∧ d.onlyIn d.checkPhaseTest [.test, .leave]) ∧
    ∀ failed : BitVec 4,
      (d.test.bist = none ∨ d.clk.onBackup = true → exec (.fullBistDone t failed) s = .next (s.after t d)) ∧
      (d.test.bist.isSome = true → d.clk.onBackup = false → exec (.fullBistDone t failed) s = .next { s.after t
        { d with test := { d.test with bist := none, bistDone := true, bistFailed := failed }, sys := { d.sys with rdyLowBist := false }, banks := { b with leaseSince := none, redo := false, hkWrote := false }, lantern := { d.lantern with staging := Vector.replicate 16 none, staged := Vector.replicate 16 [] } } with mem := [] })
end

