-- ==== Sys2Proof/Laws/Dispatch.lean ====
section
/-! SUPPORT. Each command's meaning by name: `exec` of it is that meaning, true by `rfl`. -/

namespace Sys2Proof.Machine

open Sys2Proof

theorem exec_powerOn {s : State} {t} : exec (.powerOn t) s = execPowerOn t s := rfl
theorem exec_supplyMonitorTrip {s : State} {t} {mask} : exec (.supplyMonitorTrip t mask) s = execSupplyMonitorTrip t mask s := rfl
theorem exec_vddlDip {s : State} {t} {len} : exec (.vddlDip t len) s = execVddlDip t len s := rfl
theorem exec_rstNAsserted {s : State} {t} : exec (.rstNAsserted t) s = execRstNAsserted t s := rfl
theorem exec_hkWatchdogReset {s : State} {t} : exec (.hkWatchdogReset t) s = execHkWatchdogReset t s := rfl
theorem exec_coldStart {s : State} {t} {o} : exec (.coldStart t o) s = execColdStart t o s := rfl
theorem exec_warmStart {s : State} {t} {o} : exec (.warmStart t o) s = execWarmStart t o s := rfl
theorem exec_bootWindowTick {s : State} {t} : exec (.bootWindowTick t) s = execBootWindowTick t s := rfl
theorem exec_retry {s : State} {t} {v} : exec (.retry t v) s = execRetry t v s := rfl
theorem exec_clockFailure {s : State} {t} {refLoss} : exec (.clockFailure t refLoss) s = execClockFailure t refLoss s := rfl
theorem exec_lockRetry {s : State} {t} : exec (.lockRetry t) s = execLockRetry t s := rfl
theorem exec_pllRelock {s : State} {t} {lockUs} : exec (.pllRelock t lockUs) s = execPllRelock t lockUs s := rfl
theorem exec_clockWatchdogReset {s : State} {t} : exec (.clockWatchdogReset t) s = execClockWatchdogReset t s := rfl
theorem exec_tbLoRead {s : State} {t} : exec (.tbLoRead t) s = execTbLoRead t s := rfl
theorem exec_epochHiWrite {s : State} {t} {v} : exec (.epochHiWrite t v) s = execEpochHiWrite t v s := rfl
theorem exec_dieTempReading {s : State} {t} {code} : exec (.dieTempReading t code) s = execDieTempReading t code s := rfl
theorem exec_dieTempDwell {s : State} {t} : exec (.dieTempDwell t) s = execDieTempDwell t s := rfl
theorem exec_jtagExtestClamp {s : State} {t} {on} : exec (.jtagExtestClamp t on) s = execJtagExtestClamp t on s := rfl
theorem exec_maintEnter {s : State} {t} : exec (.maintEnter t) s = execMaintEnter t s := rfl
theorem exec_maintExit {s : State} {t} : exec (.maintExit t) s = execMaintExit t s := rfl
theorem exec_latchRelease {s : State} {t} : exec (.latchRelease t) s = execLatchRelease t s := rfl
theorem exec_tileBlock {s : State} {t} {offset} {data} : exec (.tileBlock t offset data) s = execTileBlock t offset data s := rfl
theorem exec_mramBurstDone {s : State} {t} {ok} : exec (.mramBurstDone t ok) s = execMramBurstDone t ok s := rfl
theorem exec_tileAbort {s : State} {t} : exec (.tileAbort t) s = execTileAbort t s := rfl
theorem exec_tileVerify {s : State} {t} : exec (.tileVerify t) s = execTileVerify t s := rfl
theorem exec_tileCommit {s : State} {t} : exec (.tileCommit t) s = execTileCommit t s := rfl
theorem exec_directCommitDone {s : State} {t} : exec (.directCommitDone t) s = execDirectCommitDone t s := rfl
theorem exec_retilePlanDone {s : State} {t} : exec (.retilePlanDone t) s = execRetilePlanDone t s := rfl
theorem exec_retileDrainRequest {s : State} {t} : exec (.retileDrainRequest t) s = execRetileDrainRequest t s := rfl
theorem exec_retileStep {s : State} {t} : exec (.retileStep t) s = execRetileStep t s := rfl
theorem exec_retileCapacityRecheck {s : State} {t} : exec (.retileCapacityRecheck t) s = execRetileCapacityRecheck t s := rfl
theorem exec_retileWaitLimit {s : State} {t} : exec (.retileWaitLimit t) s = execRetileWaitLimit t s := rfl
theorem exec_retileStop {s : State} {t} : exec (.retileStop t) s = execRetileStop t s := rfl
theorem exec_rtStop {s : State} {t} : exec (.rtStop t) s = execRtStop t s := rfl
theorem exec_rtContinue {s : State} {t} : exec (.rtContinue t) s = execRtContinue t s := rfl
theorem exec_rtResume {s : State} {t} : exec (.rtResume t) s = execRtResume t s := rfl
theorem exec_rtRevert {s : State} {t} : exec (.rtRevert t) s = execRtRevert t s := rfl
theorem exec_phaseUpdatePoint {s : State} {t} {n} {apex} : exec (.phaseUpdatePoint t n apex) s = execPhaseUpdatePoint t n apex s := rfl
theorem exec_dlineBgMeasure {s : State} {t} {m} : exec (.dlineBgMeasure t m) s = execDlineBgMeasure t m s := rfl
theorem exec_loadAll {s : State} {t} {mask} : exec (.loadAll t mask) s = execLoadAll t mask s := rfl
theorem exec_hostOvrWrite {s : State} {t} {n} {v} : exec (.hostOvrWrite t n v) s = execHostOvrWrite t n v s := rfl
theorem exec_rperWrite {s : State} {t} {r} {v} : exec (.rperWrite t r v) s = execRperWrite t r v s := rfl
theorem exec_syncPerWrite {s : State} {t} {v} : exec (.syncPerWrite t v) s = execSyncPerWrite t v s := rfl
theorem exec_trigHit {s : State} {t} {n} {b} : exec (.trigHit t n b) s = execTrigHit t n b s := rfl
theorem exec_interlockLatch {s : State} {t} {n} : exec (.interlockLatch t n) s = execInterlockLatch t n s := rfl
theorem exec_blankWindowClose {s : State} {t} {n} : exec (.blankWindowClose t n) s = execBlankWindowClose t n s := rfl
theorem exec_sliceRotation {s : State} {t} {q} : exec (.sliceRotation t q) s = execSliceRotation t q s := rfl
theorem exec_sliceMeasureDone {s : State} {t} {q} {m} : exec (.sliceMeasureDone t q m) s = execSliceMeasureDone t q m s := rfl
theorem exec_sliceStale {s : State} {t} {q} : exec (.sliceStale t q) s = execSliceStale t q s := rfl
theorem exec_sliceInlineFail {s : State} {t} {q} {slot} : exec (.sliceInlineFail t q slot) s = execSliceInlineFail t q slot s := rfl
theorem exec_lowpowerEnter {s : State} {t} {q} : exec (.lowpowerEnter t q) s = execLowpowerEnter t q s := rfl
theorem exec_fgcal {s : State} {t} : exec (.fgcal t) s = execFgcal t s := rfl
theorem exec_fgcalDone {s : State} {t} {ms} : exec (.fgcalDone t ms) s = execFgcalDone t ms s := rfl
theorem exec_selftest {s : State} {t} : exec (.selftest t) s = execSelftest t s := rfl
theorem exec_selftestDone {s : State} {t} {pass} : exec (.selftestDone t pass) s = execSelftestDone t pass s := rfl
theorem exec_calZero {s : State} {t} : exec (.calZero t) s = execCalZero t s := rfl
theorem exec_calFs {s : State} {t} : exec (.calFs t) s = execCalFs t s := rfl
theorem exec_calAbort {s : State} {t} : exec (.calAbort t) s = execCalAbort t s := rfl
theorem exec_calDone {s : State} {t} {slices} {ats} {raws} {cms} : exec (.calDone t slices ats raws cms) s = execCalDone t slices ats raws cms s := rfl
theorem exec_calValueWrite {s : State} {t} {e} {v} : exec (.calValueWrite t e v) s = execCalValueWrite t e v s := rfl
theorem exec_calUnlockExpire {s : State} {t} : exec (.calUnlockExpire t) s = execCalUnlockExpire t s := rfl
theorem exec_seqRegStart {s : State} {t} {q} : exec (.seqRegStart t q) s = execSeqRegStart t q s := rfl
theorem exec_seqInjStart {s : State} {t} {q} : exec (.seqInjStart t q) s = execSeqInjStart t q s := rfl
theorem exec_seqEntStart {s : State} {t} {q} {e} : exec (.seqEntStart t q e) s = execSeqEntStart t q e s := rfl
theorem exec_seqTimer {s : State} {t} {q} : exec (.seqTimer t q) s = execSeqTimer t q s := rfl
theorem exec_conversionStart {s : State} {t} {q} : exec (.conversionStart t q) s = execConversionStart t q s := rfl
theorem exec_conversionReady {s : State} {t} {q} {xs} : exec (.conversionReady t q xs) s = execConversionReady t q xs s := rfl
theorem exec_requestLateDiscard {s : State} {t} {q} : exec (.requestLateDiscard t q) s = execRequestLateDiscard t q s := rfl
theorem exec_trkReset {s : State} {t} {k} {v} : exec (.trkReset t k v) s = execTrkReset t k v s := rfl
theorem exec_trkWindowClose {s : State} {t} {k} : exec (.trkWindowClose t k) s = execTrkWindowClose t k s := rfl
theorem exec_ctxStart {s : State} {t} {c} : exec (.ctxStart t c) s = execCtxStart t c s := rfl
theorem exec_ctxComputeIssue {s : State} {t} : exec (.ctxComputeIssue t) s = execCtxComputeIssue t s := rfl
theorem exec_ctxComputeDone {s : State} {t} {c} : exec (.ctxComputeDone t c) s = execCtxComputeDone t c s := rfl
theorem exec_ctxDelayClr {s : State} {t} {c} {v} : exec (.ctxDelayClr t c v) s = execCtxDelayClr t c v s := rfl
theorem exec_loopHistClr {s : State} {t} {v} : exec (.loopHistClr t v) s = execLoopHistClr t v s := rfl
theorem exec_railUpdatePoint {s : State} {t} {r} {apex} : exec (.railUpdatePoint t r apex) s = execRailUpdatePoint t r apex s := rfl
theorem exec_railCmdNone {s : State} {t} {r} : exec (.railCmdNone t r) s = execRailCmdNone t r s := rfl
theorem exec_railCmdOff {s : State} {t} {r} : exec (.railCmdOff t r) s = execRailCmdOff t r s := rfl
theorem exec_railCmdOn {s : State} {t} {r} : exec (.railCmdOn t r) s = execRailCmdOn t r s := rfl
theorem exec_railCmdCharge {s : State} {t} {r} : exec (.railCmdCharge t r) s = execRailCmdCharge t r s := rfl
theorem exec_railCmdSupport {s : State} {t} {r} : exec (.railCmdSupport t r) s = execRailCmdSupport t r s := rfl
theorem exec_railCmdReserved {s : State} {t} {r} {code} : exec (.railCmdReserved t r code) s = execRailCmdReserved t r code s := rfl
theorem exec_shedNoticeExpire {s : State} {t} {r} : exec (.shedNoticeExpire t r) s = execShedNoticeExpire t r s := rfl
theorem exec_undershootCrossing {s : State} {t} {r} {crossed} : exec (.undershootCrossing t r crossed) s = execUndershootCrossing t r crossed s := rfl
theorem exec_flareRearm {s : State} {t} {r} : exec (.flareRearm t r) s = execFlareRearm t r s := rfl
theorem exec_hiccupToffExpire {s : State} {t} {r} : exec (.hiccupToffExpire t r) s = execHiccupToffExpire t r s := rfl
theorem exec_retriesClear {s : State} {t} {r} : exec (.retriesClear t r) s = execRetriesClear t r s := rfl
theorem exec_cardRemoval {s : State} {t} {c} : exec (.cardRemoval t c) s = execCardRemoval t c s := rfl
theorem exec_cardInsert {s : State} {t} {c} : exec (.cardInsert t c) s = execCardInsert t c s := rfl
theorem exec_cardDebounceDone {s : State} {t} {c} : exec (.cardDebounceDone t c) s = execCardDebounceDone t c s := rfl
theorem exec_cardQualCheck {s : State} {t} {c} {high} : exec (.cardQualCheck t c high) s = execCardQualCheck t c high s := rfl
theorem exec_cardQualTimeout {s : State} {t} {c} : exec (.cardQualTimeout t c) s = execCardQualTimeout t c s := rfl
theorem exec_oltEnWrite {s : State} {t} {r} {v} : exec (.oltEnWrite t r v) s = execOltEnWrite t r v s := rfl
theorem exec_trip {s : State} {t} {n} {crossed} : exec (.trip t n crossed) s = execTrip t n crossed s := rfl
theorem exec_tripCounterLatch {s : State} {t} {n} : exec (.tripCounterLatch t n) s = execTripCounterLatch t n s := rfl
theorem exec_comparatorSettleEnd {s : State} {t} {which} : exec (.comparatorSettleEnd t which) s = execComparatorSettleEnd t which s := rfl
theorem exec_ovCrossing {s : State} {t} {r} : exec (.ovCrossing t r) s = execOvCrossing t r s := rfl
theorem exec_ovRelease {s : State} {t} {r} : exec (.ovRelease t r) s = execOvRelease t r s := rfl
theorem exec_rampTrackExit {s : State} {t} {r} {high} {crossed} : exec (.rampTrackExit t r high crossed) s = execRampTrackExit t r high crossed s := rfl
theorem exec_safeLevelTaken {s : State} {t} {b} {level} : exec (.safeLevelTaken t b level) s = execSafeLevelTaken t b level s := rfl
theorem exec_safeDiscrepancyTimeout {s : State} {t} : exec (.safeDiscrepancyTimeout t) s = execSafeDiscrepancyTimeout t s := rfl
theorem exec_faultLineTaken {s : State} {t} {line} {low} : exec (.faultLineTaken t line low) s = execFaultLineTaken t line low s := rfl
theorem exec_faultLineChatter {s : State} {t} {line} : exec (.faultLineChatter t line) s = execFaultLineChatter t line s := rfl
theorem exec_faultLineChatterEnd {s : State} {t} {line} : exec (.faultLineChatterEnd t line) s = execFaultLineChatterEnd t line s := rfl
theorem exec_faultLineStuck {s : State} {t} {line} : exec (.faultLineStuck t line) s = execFaultLineStuck t line s := rfl
theorem exec_vselCodeTaken {s : State} {t} {code} : exec (.vselCodeTaken t code) s = execVselCodeTaken t code s := rfl
theorem exec_storeDecisionPoint {s : State} {t} {p} : exec (.storeDecisionPoint t p) s = execStoreDecisionPoint t p s := rfl
theorem exec_wickRelight {s : State} {t} {p} {v} : exec (.wickRelight t p v) s = execWickRelight t p v s := rfl
theorem exec_wickTimeout {s : State} {t} {p} : exec (.wickTimeout t p) s = execWickTimeout t p s := rfl
theorem exec_faultRaise {s : State} {t} {k} {inst} {present} : exec (.faultRaise t k inst present) s = execFaultRaise t k inst present s := rfl
theorem exec_faultForce {s : State} {t} {word} {v} : exec (.faultForce t word v) s = execFaultForce t word v s := rfl
theorem exec_faultAck {s : State} {t} {r} {v} : exec (.faultAck t r v) s = execFaultAck t r v s := rfl
theorem exec_recordCloseTimeout {s : State} {t} : exec (.recordCloseTimeout t) s = execRecordCloseTimeout t s := rfl
theorem exec_logRefill {s : State} {t} : exec (.logRefill t) s = execLogRefill t s := rfl
theorem exec_recordPersisted {s : State} {t} : exec (.recordPersisted t) s = execRecordPersisted t s := rfl
theorem exec_snapshotStart {s : State} {t} {k} : exec (.snapshotStart t k) s = execSnapshotStart t k s := rfl
theorem exec_logRead {s : State} {t} {start} {max} : exec (.logRead t start max) s = execLogRead t start max s := rfl
theorem exec_rselHiWrite {s : State} {t} {v} : exec (.rselHiWrite t v) s = execRselHiWrite t v s := rfl
theorem exec_snapSelWrite {s : State} {t} {v} : exec (.snapSelWrite t v) s = execSnapSelWrite t v s := rfl
theorem exec_tokenClear {s : State} {t} {bytes} : exec (.tokenClear t bytes) s = execTokenClear t bytes s := rfl
theorem exec_tokenClaim {s : State} {t} {bytes} : exec (.tokenClaim t bytes) s = execTokenClaim t bytes s := rfl
theorem exec_tokenInstall {s : State} {t} {bytes} : exec (.tokenInstall t bytes) s = execTokenInstall t bytes s := rfl
theorem exec_tokenRevoke {s : State} {t} {bytes} : exec (.tokenRevoke t bytes) s = execTokenRevoke t bytes s := rfl
theorem exec_tokenUnlock {s : State} {t} {bytes} : exec (.tokenUnlock t bytes) s = execTokenUnlock t bytes s := rfl
theorem exec_trustOpDone {s : State} {t} : exec (.trustOpDone t) s = execTrustOpDone t s := rfl
theorem exec_attestIdentity {s : State} {t} {bytes} : exec (.attestIdentity t bytes) s = execAttestIdentity t bytes s := rfl
theorem exec_attestRecords {s : State} {t} {bytes} : exec (.attestRecords t bytes) s = execAttestRecords t bytes s := rfl
theorem exec_attestCalibration {s : State} {t} {bytes} : exec (.attestCalibration t bytes) s = execAttestCalibration t bytes s := rfl
theorem exec_rxSyncGain {s : State} {t} : exec (.rxSyncGain t) s = execRxSyncGain t s := rfl
theorem exec_rxSyncLoss {s : State} {t} {inFrame} : exec (.rxSyncLoss t inFrame) s = execRxSyncLoss t inFrame s := rfl
theorem exec_requestFrame {s : State} {t} {seq} {payload} : exec (.requestFrame t seq payload) s = execRequestFrame t seq payload s := rfl
theorem exec_frameRxFail {s : State} {t} {received} : exec (.frameRxFail t received) s = execFrameRxFail t received s := rfl
theorem exec_nakHoldoffExpire {s : State} {t} : exec (.nakHoldoffExpire t) s = execNakHoldoffExpire t s := rfl
theorem exec_sync {s : State} {t} {seq} : exec (.sync t seq) s = execSync t seq s := rfl
theorem exec_read {s : State} {t} {addr} : exec (.read t addr) s = execRead t addr s := rfl
theorem exec_write {s : State} {t} {addr} {data} : exec (.write t addr data) s = execWrite t addr data s := rfl
theorem exec_readBurst {s : State} {t} {addr} {count} : exec (.readBurst t addr count) s = execReadBurst t addr count s := rfl
theorem exec_writeBurst {s : State} {t} {addr} {words} : exec (.writeBurst t addr words) s = execWriteBurst t addr words s := rfl
theorem exec_atomicAdd {s : State} {t} {addr} {operand} : exec (.atomicAdd t addr operand) s = execAtomicAdd t addr operand s := rfl
theorem exec_atomicSwap {s : State} {t} {addr} {operand} : exec (.atomicSwap t addr operand) s = execAtomicSwap t addr operand s := rfl
theorem exec_linkCtrlClr {s : State} {t} {v} : exec (.linkCtrlClr t v) s = execLinkCtrlClr t v s := rfl
theorem exec_chordPortSyncChange {s : State} {t} {up} {sync} : exec (.chordPortSyncChange t up sync) s = execChordPortSyncChange t up sync s := rfl
theorem exec_chordProbeSend {s : State} {t} : exec (.chordProbeSend t) s = execChordProbeSend t s := rfl
theorem exec_chordProbeRx {s : State} {t} {received} : exec (.chordProbeRx t received) s = execChordProbeRx t received s := rfl
theorem exec_chordEchoRx {s : State} {t} {received} {rt} : exec (.chordEchoRx t received rt) s = execChordEchoRx t received rt s := rfl
theorem exec_chordHeadTimeout {s : State} {t} : exec (.chordHeadTimeout t) s = execChordHeadTimeout t s := rfl
theorem exec_chordUnjoined {s : State} {t} : exec (.chordUnjoined t) s = execChordUnjoined t s := rfl
theorem exec_sweepMarkHead {s : State} {t} : exec (.sweepMarkHead t) s = execSweepMarkHead t s := rfl
theorem exec_chordDownRx {s : State} {t} {received} {sinceSof} : exec (.chordDownRx t received sinceSof) s = execChordDownRx t received sinceSof s := rfl
theorem exec_chordUpRx {s : State} {t} {received} : exec (.chordUpRx t received) s = execChordUpRx t received s := rfl
theorem exec_chordMemberBreak {s : State} {t} : exec (.chordMemberBreak t) s = execChordMemberBreak t s := rfl
theorem exec_chordRideExpire {s : State} {t} : exec (.chordRideExpire t) s = execChordRideExpire t s := rfl
theorem exec_leaveGrant {s : State} {t} : exec (.leaveGrant t) s = execLeaveGrant t s := rfl
theorem exec_leaveMaxwaitExpire {s : State} {t} : exec (.leaveMaxwaitExpire t) s = execLeaveMaxwaitExpire t s := rfl
theorem exec_phaseStartRelease {s : State} {t} {n} : exec (.phaseStartRelease t n) s = execPhaseStartRelease t n s := rfl
theorem exec_hkLeaseTake {s : State} {t} : exec (.hkLeaseTake t) s = execHkLeaseTake t s := rfl
theorem exec_leaseExpire {s : State} {t} : exec (.leaseExpire t) s = execLeaseExpire t s := rfl
theorem exec_fullBist {s : State} {t} : exec (.fullBist t) s = execFullBist t s := rfl
theorem exec_fullBistDone {s : State} {t} {failed} : exec (.fullBistDone t failed) s = execFullBistDone t failed s := rfl
theorem exec_phaseTest {s : State} {t} : exec (.phaseTest t) s = execPhaseTest t s := rfl
theorem exec_phaseTestDone {s : State} {t} {mismatch} : exec (.phaseTestDone t mismatch) s = execPhaseTestDone t mismatch s := rfl
theorem exec_bankTest {s : State} {t} : exec (.bankTest t) s = execBankTest t s := rfl
theorem exec_bankTestDone {s : State} {t} {failWord} : exec (.bankTestDone t failWord) s = execBankTestDone t failWord s := rfl
theorem exec_emittedEdge {s : State} {t} {n} {edge} : exec (.emittedEdge t n edge) s = execEmittedEdge t n edge s := rfl
theorem exec_deviceReferenceValley {s : State} {t} : exec (.deviceReferenceValley t) s = execDeviceReferenceValley t s := rfl
theorem exec_responseSent {s : State} {t} : exec (.responseSent t) s = execResponseSent t s := rfl
theorem exec_leaseRelease {s : State} {t} : exec (.leaseRelease t) s = execLeaseRelease t s := rfl
theorem exec_cardIdHoldDone {s : State} {t} {c} : exec (.cardIdHoldDone t c) s = execCardIdHoldDone t c s := rfl

end Sys2Proof.Machine
end

