-- ==== Sys2Proof/Laws/Exec.lean ====
section
/-! SUPPORT. What the shapes of a meaning answer: a command that acts on the device, one that acts only while the PLL clock runs, and a
    transaction of the host link. -/

namespace Sys2Proof.Machine

open Sys2Proof

/-- With nothing that a next cycle brings, no compute just completed and RDY not low for an operation, time passes and nothing else
    happens (R128, R292, R409, R468, R478). -/
theorem Dev.advance_idle {d : Dev} (h : d.stirs = false) (he : d.loop.ended = []) (hr : d.link.rdyFell = none) (t : Tick) :
    d.advance t = d.clockTo t := by
  have hl : (d.clockTo t).link = d.link := by unfold Dev.clockTo; dsimp only; split <;> rfl
  have hk : ∀ k, d.turns t k = d := fun k => by cases k <;> simp [Dev.turns, h]
  simp [Dev.advance, hk, Dev.passTo, Dev.endRdyLow, he, hl, hr]

/-- No fault is to be seen or reacted to, and the transaction whose turn it is, if one waits, is well formed. -/
theorem Dev.stirs_idle {d : Dev} (h : d.fault.due = []) (hs : d.fault.seen = []) (hm : d.malformed = none) : d.stirs = false := by
  simp [Dev.stirs, h, hs, hm]

theorem State.run_next {s : State} {t : Tick} {f : Dev → Dev} {d : Dev} (h : f (s.dev.advance t) = d) : s.run t f = .next (s.after t d) := by
  subst h; rfl

theorem State.runLive_next {s : State} {t : Tick} {f : Dev → Dev} {d : Dev} (ha : (s.dev.advance t).alive = true)
    (h : f (s.dev.advance t) = d) : s.runLive t f = .next (s.after t d) :=
  State.run_next (by simp only [ha, if_true]; exact h)

/-- While the PLL clock stands still only time passes (R108). -/
theorem State.runLive_still {s : State} {t : Tick} {f : Dev → Dev} (ha : (s.dev.advance t).alive = false) :
    s.runLive t f = .next (s.after t (s.dev.advance t)) :=
  State.run_next (by simp [ha])

theorem Dev.host_runs {d : Dev} {i : Instr} {b : Bool} {f : Dev → Dev} (h : d.takesHost i) : d.host i b f = f d := by
  simp [Dev.host, h.1, h.2.1, h.2.2]

theorem Dev.host_blocked {d : Dev} {i : Instr} {b : Bool} {f : Dev → Dev} (h : d.linkBlocked = true) : d.host i b f = d := by
  simp [Dev.host, h]

/-- The window asks for another transaction, or for none. -/
theorem Dev.host_unasked {d : Dev} {i : Instr} {b : Bool} {f : Dev → Dev} (h : d.asked i = false) : d.host i b f = d := by
  simp [Dev.host, h]

theorem Dev.host_refused {d : Dev} {i : Instr} {f : Dev → Dev} (h : d.linkBlocked = false) (ha : d.asked i = true) (hb : d.sys.bootHold = true) :
    d.host i false f = d.reply stState := by
  simp [Dev.host, h, ha, hb]

theorem Dev.host_inHold {d : Dev} {i : Instr} {f : Dev → Dev} (h : d.linkBlocked = false) (ha : d.asked i = true) : d.host i true f = f d := by
  simp [Dev.host, h, ha]

/-- A transaction that executes: its effect. -/
theorem State.host_next {s : State} {t : Tick} {i : Instr} {b : Bool} {f : Dev → Dev} {d : Dev} (hh : (s.dev.advance t).takesHost i)
    (h : f (s.dev.advance t) = d) : s.run t (fun d => d.host i b f) = .next (s.after t d) :=
  State.run_next ((Dev.host_runs hh).trans h)

/-- A register WRITE that executes: its effect, then its response. -/
theorem State.hostWrite_next {s : State} {t : Tick} {i : Instr} {f : Dev → Dev × Byte} {d : Dev} {st : Byte} (hh : (s.dev.advance t).takesHost i)
    (h : f (s.dev.advance t) = (d, st)) : s.hostWrite t i f = .next (s.after t (d.reply st)) :=
  State.host_next hh (by simp [h])

end Sys2Proof.Machine
end

