-- ==== Sys2Proof/Laws/Link.lean ====
section
/-! SUPPORT. Frames of the links: one that is put together by the rules passes reception, and its bytes come back. -/

namespace Sys2Proof.Machine

open Sys2Proof

/-! ## What one device sends, another receives (R461, R462, R485) -/

theorem takeData_frame (bs : List Byte) : takeData (bs.map (fun b => some (Symbol.data b)) ++ [some .eof]) = (bs, [some .eof]) := by
  induction bs with
  | nil => rfl
  | cons b bs ih => simp [takeData, ih]

theorem receivedData_frame (b : List Byte) : receivedData ((frameSymbols b 0).map some) = (b ++ leBytes 4 (crc32 b).toNat, true) := by
  have h := takeData_frame (b ++ leBytes 4 (crc32 b).toNat)
  rw [List.map_append, List.append_assoc] at h
  simp [frameSymbols, receivedData, Function.comp_def, h]

theorem leBytes_length (n x : Nat) : (leBytes n x).length = n := by simp [leBytes]

theorem slice_append (a b c : List Byte) : slice (a ++ b ++ c) a.length b.length = b := by
  simp [slice, List.append_assoc]

theorem leNat_leBytes2 (x : Nat) (h : x < 65536) : leNat (leBytes 2 x) = x := by
  simp [leBytes, List.range_succ, leNat, Nat.shiftRight_eq_div_pow]
  omega

theorem chordFrame_len (type hop : Byte) (sweep : Word) (p c : List Byte) (h : p.length < 65536) : numAt (chordFrame type hop sweep p ++ c) 2 2 = p.length := by
  have e : chordFrame type hop sweep p ++ c = [type, hop] ++ leBytes 2 p.length ++ (leBytes 4 sweep.toNat ++ p ++ c) := by simp [chordFrame]
  have s := slice_append [type, hop] (leBytes 2 p.length) (leBytes 4 sweep.toNat ++ p ++ c)
  rw [leBytes_length] at s
  rw [numAt, e]
  exact (congrArg leNat s).trans (leNat_leBytes2 _ h)

theorem chordFrame_length (type hop : Byte) (sweep : Word) (p : List Byte) : (chordFrame type hop sweep p).length = 8 + p.length := by
  simp [chordFrame, leBytes_length]; omega

theorem bytesHold_chordFrame (max : Nat) (type hop : Byte) (sweep : Word) (p : List Byte) (h : p.length ≤ max) (h16 : p.length < 65536) :
    bytesHold max (chordFrame type hop sweep p ++ leBytes 4 (crc32 (chordFrame type hop sweep p)).toNat) = true := by
  have hl := chordFrame_length type hop sweep p
  have hn := chordFrame_len type hop sweep p (leBytes 4 (crc32 (chordFrame type hop sweep p)).toNat) h16
  have hs := slice_append (chordFrame type hop sweep p) (leBytes 4 (crc32 (chordFrame type hop sweep p)).toNat) []
  rw [List.append_nil, leBytes_length] at hs
  have hc : (chordFrame type hop sweep p ++ leBytes 4 (crc32 (chordFrame type hop sweep p)).toNat).length = 12 + p.length := by
    rw [List.length_append, leBytes_length, hl]; omega
  have h4 : 12 + p.length - 4 = (chordFrame type hop sweep p).length := by omega
  simp only [bytesHold, hn, hc, h4, hs, List.take_left', beq_self_eq_true, Bool.and_true]
  simp; omega

/-- A frame put together by R485's rules passes reception as a frame of its type, and its bytes come back. -/
theorem chordIntact_frame (type hop : Byte) (sweep : Word) (p : List Byte) (h : p.length ≤ 512) :
    let rx := (frameSymbols (chordFrame type hop sweep p) 0).map some
    chordIntact type rx = true ∧ chordBytes rx = chordFrame type hop sweep p := by
  have hn := chordFrame_len type hop sweep p (leBytes 4 (crc32 (chordFrame type hop sweep p)).toNat) (by omega)
  have hb := bytesHold_chordFrame 512 type hop sweep p h (by omega)
  have ht : byteAt (chordFrame type hop sweep p ++ leBytes 4 (crc32 (chordFrame type hop sweep p)).toNat) 0 = type := rfl
  refine ⟨?_, ?_⟩
  · simp only [chordIntact, receivedData_frame, hb, ht]; simp
  · simp only [chordBytes, receivedData_frame, hn]
    exact List.take_left' (chordFrame_length type hop sweep p)

end Sys2Proof.Machine
end

