-- ==== Sys2Proof/Laws/Memory.lean ====
section
/-! SUPPORT. The scratchpad operations: each keeps the canonical form, a byte written reads back, every other byte reads as before. -/

namespace Sys2Proof.Machine

open Sys2Proof

/-- A list above a bound is above every lower one. -/
theorem Memory.above_mono : ∀ (m : List Host.Cell) (lo lo' : Nat), lo' ≤ lo → Memory.above lo m = true → Memory.above lo' m = true
  | [], _, _, _, _ => rfl
  | c :: m, lo, lo', h, hm => by
    simp [Memory.above] at hm ⊢
    exact ⟨⟨⟨by omega, hm.1.1.2⟩, hm.1.2⟩, hm.2⟩

/-- A byte written within banks 0 to 2 keeps the form. -/
theorem Memory.write_above : ∀ (m : List Host.Cell) (lo a : Nat) (v : Byte), Memory.above lo m = true → lo ≤ a → a < bank3Base →
    Memory.above lo (Memory.write m a v) = true
  | [], lo, a, v, _, h1, h2 => by
    unfold Memory.write; split
    · rfl
    · simp_all [Memory.above]
  | c :: m, lo, a, v, hm, h1, h2 => by
    have hm' := hm
    simp [Memory.above] at hm
    unfold Memory.write
    split
    · split
      · exact hm'
      · simp [Memory.above] at *
        refine ⟨⟨⟨h1, h2⟩, by assumption⟩, ⟨⟨by omega, hm.1.1.2⟩, hm.1.2⟩, hm.2⟩
    · split
      · split
        · exact Memory.above_mono m _ _ (by omega) hm.2
        · simp_all [Memory.above]
      · have := Memory.write_above m (c.1+1) a v hm.2 (by omega) h2
        simp [Memory.above]
        exact ⟨⟨⟨by omega, hm.1.1.2⟩, hm.1.2⟩, this⟩

/-- Below the lowest listed address every byte is 0. -/
theorem Memory.read_below : ∀ (m : List Host.Cell) (lo b : Nat), Memory.above lo m = true → b < lo → Memory.read m b = 0
  | [], _, _, _, _ => rfl
  | c :: m, lo, b, hm, h => by
    simp [Memory.above] at hm
    unfold Memory.read
    split
    · omega
    · exact Memory.read_below m (c.1+1) b hm.2 (by omega)

/-- What a read gives after a write. -/
theorem Memory.read_write : ∀ (m : List Host.Cell) (lo a b : Nat) (v : Byte), Memory.above lo m = true →
    Memory.read (Memory.write m a v) b = if b = a then v else Memory.read m b
  | [], lo, a, b, v, _ => by
    unfold Memory.write
    split
    · simp_all [Memory.read]
    · simp [Memory.read]; split <;> split <;> first | rfl | omega
  | c :: m, lo, a, b, v, hm => by
    have hm' := hm
    simp [Memory.above] at hm
    have hb := Memory.read_below m (c.1+1) 
    unfold Memory.write
    split
    · have hz : Memory.read (c :: m) a = 0 := Memory.read_below (c :: m) c.1 a (by simp [Memory.above]; exact ⟨⟨hm.1.1.2, hm.1.2⟩, hm.2⟩) (by assumption)
      split
      · split
        · subst b; rw [hz]; symm; assumption
        · rfl
      · by_cases e : b = a
        · subst e; simp [Memory.read]
        · have : ¬ a = b := fun h => e h.symm
          simp [Memory.read, e, this]
    · split
      · rename_i h1 h2
        subst h2
        split
        · by_cases e : b = c.1
          · subst e; simp; rw [hb _ hm.2 (by omega)]; symm; assumption
          · have : ¬ c.1 = b := fun h => e h.symm
            simp [Memory.read, e, this]
        · by_cases e : b = c.1
          · subst e; simp [Memory.read]
          · have : ¬ c.1 = b := fun h => e h.symm
            simp [Memory.read, e, this]
      · rename_i h1 h2
        have ih := Memory.read_write m (c.1+1) a b v hm.2
        simp only [Memory.read]
        split
        · split
          · omega
          · rfl
        · exact ih

/-- A word written within banks 0 to 2 keeps the canonical form. -/
theorem Memory.setWord_wf (m : List Host.Cell) (a : Nat) (v : Word) (h : Memory.wf m = true) (lo : scratchBase ≤ a) (hi : a + 4 ≤ bank3Base) :
    Memory.wf (Memory.setWord m a v) = true := by
  have e : bank3Base = 0x130000 := rfl
  have e' : scratchBase = 0x100000 := rfl
  unfold Memory.wf Memory.setWord
  exact Memory.write_above _ _ _ _ (Memory.write_above _ _ _ _ (Memory.write_above _ _ _ _ (Memory.write_above _ _ _ _ h lo (by omega)) (by omega) (by omega)) (by omega) (by omega)) (by omega) (by omega)

/-- What a byte reads after a word was written. -/
theorem Memory.read_setWord (m : List Host.Cell) (a b : Nat) (v : Word) (h : Memory.wf m = true) (lo : scratchBase ≤ a) (hi : a + 4 ≤ bank3Base) :
    Memory.read (Memory.setWord m a v) b =
      if b = a + 3 then v.extractLsb' 24 8 else if b = a + 2 then v.extractLsb' 16 8 else if b = a + 1 then v.extractLsb' 8 8
      else if b = a then v.extractLsb' 0 8 else Memory.read m b := by
  have e : bank3Base = 0x130000 := rfl
  have e' : scratchBase = 0x100000 := rfl
  have h0 := Memory.write_above _ _ a (v.extractLsb' 0 8) h lo (by omega)
  have h1 := Memory.write_above _ _ (a + 1) (v.extractLsb' 8 8) h0 (by omega) (by omega)
  have h2 := Memory.write_above _ _ (a + 2) (v.extractLsb' 16 8) h1 (by omega) (by omega)
  unfold Memory.setWord
  rw [Memory.read_write _ _ _ _ _ h2, Memory.read_write _ _ _ _ _ h1, Memory.read_write _ _ _ _ _ h0, Memory.read_write _ _ _ _ _ h]

end Sys2Proof.Machine
end

