-- ==== Sys2Proof/Laws/State.lean ====
section
/-! SUPPORT. One lemma per field and update function of the device, true by `rfl`: no proof unfolds a record update. -/

namespace Sys2Proof.Machine

open Sys2Proof

/-! ## One component of a vector -/

@[simp] theorem upd_get_same {α : Type} {n : Nat} (v : Vector α n) (i : Fin n) (f : α → α) : (upd v i f)[i.val] = f v[i.val] := by
  simp [upd]

@[simp] theorem upd_get_ne {α : Type} {n : Nat} (v : Vector α n) (i j : Fin n) (f : α → α) (h : j ≠ i) : (upd v i f)[j.val] = v[j.val] := by
  have : i.val ≠ j.val := fun e => h (Fin.ext e.symm)
  simp [upd, this]

@[simp] theorem mapV_get {α : Type} {n : Nat} (v : Vector α n) (f : Fin n → α → α) (i : Fin n) : (mapV v f)[i.val] = f i v[i.val] := by
  simp [mapV]

/-! ## `Dev.updChord` -/

@[simp] theorem Dev.updChord_sys (d : Dev) (f : Chord → Chord) : (d.updChord f).sys = d.sys := rfl
@[simp] theorem Dev.updChord_clk (d : Dev) (f : Chord → Chord) : (d.updChord f).clk = d.clk := rfl
@[simp] theorem Dev.updChord_tile (d : Dev) (f : Chord → Chord) : (d.updChord f).tile = d.tile := rfl
@[simp] theorem Dev.updChord_pwm (d : Dev) (f : Chord → Chord) : (d.updChord f).pwm = d.pwm := rfl
@[simp] theorem Dev.updChord_pwmg (d : Dev) (f : Chord → Chord) : (d.updChord f).pwmg = d.pwmg := rfl
@[simp] theorem Dev.updChord_sense (d : Dev) (f : Chord → Chord) : (d.updChord f).sense = d.sense := rfl
@[simp] theorem Dev.updChord_loop (d : Dev) (f : Chord → Chord) : (d.updChord f).loop = d.loop := rfl
@[simp] theorem Dev.updChord_rails (d : Dev) (f : Chord → Chord) : (d.updChord f).rails = d.rails := rfl
@[simp] theorem Dev.updChord_cards (d : Dev) (f : Chord → Chord) : (d.updChord f).cards = d.cards := rfl
@[simp] theorem Dev.updChord_prot (d : Dev) (f : Chord → Chord) : (d.updChord f).prot = d.prot := rfl
@[simp] theorem Dev.updChord_sp (d : Dev) (f : Chord → Chord) : (d.updChord f).sp = d.sp := rfl
@[simp] theorem Dev.updChord_ports (d : Dev) (f : Chord → Chord) : (d.updChord f).ports = d.ports := rfl
@[simp] theorem Dev.updChord_fault (d : Dev) (f : Chord → Chord) : (d.updChord f).fault = d.fault := rfl
@[simp] theorem Dev.updChord_lantern (d : Dev) (f : Chord → Chord) : (d.updChord f).lantern = d.lantern := rfl
@[simp] theorem Dev.updChord_trust (d : Dev) (f : Chord → Chord) : (d.updChord f).trust = d.trust := rfl
@[simp] theorem Dev.updChord_link (d : Dev) (f : Chord → Chord) : (d.updChord f).link = d.link := rfl
@[simp] theorem Dev.updChord_chord (d : Dev) (f : Chord → Chord) : (d.updChord f).chord = f d.chord := rfl
@[simp] theorem Dev.updChord_leave (d : Dev) (f : Chord → Chord) : (d.updChord f).leave = d.leave := rfl
@[simp] theorem Dev.updChord_banks (d : Dev) (f : Chord → Chord) : (d.updChord f).banks = d.banks := rfl
@[simp] theorem Dev.updChord_test (d : Dev) (f : Chord → Chord) : (d.updChord f).test = d.test := rfl
@[simp] theorem Dev.updChord_free (d : Dev) (f : Chord → Chord) : (d.updChord f).free = d.free := rfl
@[simp] theorem Dev.updChord_cyc (d : Dev) (f : Chord → Chord) : (d.updChord f).cyc = d.cyc := rfl

/-! ## `Dev.updFab` -/

@[simp] theorem Dev.updFab_sys (d : Dev) (f : Fabric → Fabric) : (d.updFab f).sys = d.sys := rfl
@[simp] theorem Dev.updFab_clk (d : Dev) (f : Fabric → Fabric) : (d.updFab f).clk = d.clk := rfl
@[simp] theorem Dev.updFab_tile (d : Dev) (f : Fabric → Fabric) : (d.updFab f).tile = d.tile := rfl
@[simp] theorem Dev.updFab_pwm (d : Dev) (f : Fabric → Fabric) : (d.updFab f).pwm = d.pwm := rfl
@[simp] theorem Dev.updFab_pwmg (d : Dev) (f : Fabric → Fabric) : (d.updFab f).pwmg = d.pwmg := rfl
@[simp] theorem Dev.updFab_sense (d : Dev) (f : Fabric → Fabric) : (d.updFab f).sense = d.sense := rfl
@[simp] theorem Dev.updFab_loop (d : Dev) (f : Fabric → Fabric) : (d.updFab f).loop = { d.loop with fab := f d.loop.fab } := rfl
@[simp] theorem Dev.updFab_rails (d : Dev) (f : Fabric → Fabric) : (d.updFab f).rails = d.rails := rfl
@[simp] theorem Dev.updFab_cards (d : Dev) (f : Fabric → Fabric) : (d.updFab f).cards = d.cards := rfl
@[simp] theorem Dev.updFab_prot (d : Dev) (f : Fabric → Fabric) : (d.updFab f).prot = d.prot := rfl
@[simp] theorem Dev.updFab_sp (d : Dev) (f : Fabric → Fabric) : (d.updFab f).sp = d.sp := rfl
@[simp] theorem Dev.updFab_ports (d : Dev) (f : Fabric → Fabric) : (d.updFab f).ports = d.ports := rfl
@[simp] theorem Dev.updFab_fault (d : Dev) (f : Fabric → Fabric) : (d.updFab f).fault = d.fault := rfl
@[simp] theorem Dev.updFab_lantern (d : Dev) (f : Fabric → Fabric) : (d.updFab f).lantern = d.lantern := rfl
@[simp] theorem Dev.updFab_trust (d : Dev) (f : Fabric → Fabric) : (d.updFab f).trust = d.trust := rfl
@[simp] theorem Dev.updFab_link (d : Dev) (f : Fabric → Fabric) : (d.updFab f).link = d.link := rfl
@[simp] theorem Dev.updFab_chord (d : Dev) (f : Fabric → Fabric) : (d.updFab f).chord = d.chord := rfl
@[simp] theorem Dev.updFab_leave (d : Dev) (f : Fabric → Fabric) : (d.updFab f).leave = d.leave := rfl
@[simp] theorem Dev.updFab_banks (d : Dev) (f : Fabric → Fabric) : (d.updFab f).banks = d.banks := rfl
@[simp] theorem Dev.updFab_test (d : Dev) (f : Fabric → Fabric) : (d.updFab f).test = d.test := rfl
@[simp] theorem Dev.updFab_free (d : Dev) (f : Fabric → Fabric) : (d.updFab f).free = d.free := rfl
@[simp] theorem Dev.updFab_cyc (d : Dev) (f : Fabric → Fabric) : (d.updFab f).cyc = d.cyc := rfl

/-! ## `Dev.updTest` -/

@[simp] theorem Dev.updTest_sys (d : Dev) (f : Test → Test) : (d.updTest f).sys = d.sys := rfl
@[simp] theorem Dev.updTest_clk (d : Dev) (f : Test → Test) : (d.updTest f).clk = d.clk := rfl
@[simp] theorem Dev.updTest_tile (d : Dev) (f : Test → Test) : (d.updTest f).tile = d.tile := rfl
@[simp] theorem Dev.updTest_pwm (d : Dev) (f : Test → Test) : (d.updTest f).pwm = d.pwm := rfl
@[simp] theorem Dev.updTest_pwmg (d : Dev) (f : Test → Test) : (d.updTest f).pwmg = d.pwmg := rfl
@[simp] theorem Dev.updTest_sense (d : Dev) (f : Test → Test) : (d.updTest f).sense = d.sense := rfl
@[simp] theorem Dev.updTest_loop (d : Dev) (f : Test → Test) : (d.updTest f).loop = d.loop := rfl
@[simp] theorem Dev.updTest_rails (d : Dev) (f : Test → Test) : (d.updTest f).rails = d.rails := rfl
@[simp] theorem Dev.updTest_cards (d : Dev) (f : Test → Test) : (d.updTest f).cards = d.cards := rfl
@[simp] theorem Dev.updTest_prot (d : Dev) (f : Test → Test) : (d.updTest f).prot = d.prot := rfl
@[simp] theorem Dev.updTest_sp (d : Dev) (f : Test → Test) : (d.updTest f).sp = d.sp := rfl
@[simp] theorem Dev.updTest_ports (d : Dev) (f : Test → Test) : (d.updTest f).ports = d.ports := rfl
@[simp] theorem Dev.updTest_fault (d : Dev) (f : Test → Test) : (d.updTest f).fault = d.fault := rfl
@[simp] theorem Dev.updTest_lantern (d : Dev) (f : Test → Test) : (d.updTest f).lantern = d.lantern := rfl
@[simp] theorem Dev.updTest_trust (d : Dev) (f : Test → Test) : (d.updTest f).trust = d.trust := rfl
@[simp] theorem Dev.updTest_link (d : Dev) (f : Test → Test) : (d.updTest f).link = d.link := rfl
@[simp] theorem Dev.updTest_chord (d : Dev) (f : Test → Test) : (d.updTest f).chord = d.chord := rfl
@[simp] theorem Dev.updTest_leave (d : Dev) (f : Test → Test) : (d.updTest f).leave = d.leave := rfl
@[simp] theorem Dev.updTest_banks (d : Dev) (f : Test → Test) : (d.updTest f).banks = d.banks := rfl
@[simp] theorem Dev.updTest_test (d : Dev) (f : Test → Test) : (d.updTest f).test = f d.test := rfl
@[simp] theorem Dev.updTest_free (d : Dev) (f : Test → Test) : (d.updTest f).free = d.free := rfl
@[simp] theorem Dev.updTest_cyc (d : Dev) (f : Test → Test) : (d.updTest f).cyc = d.cyc := rfl

/-! ## `Dev.updLink` -/

@[simp] theorem Dev.updLink_sys (d : Dev) (f : Link → Link) : (d.updLink f).sys = d.sys := rfl
@[simp] theorem Dev.updLink_clk (d : Dev) (f : Link → Link) : (d.updLink f).clk = d.clk := rfl
@[simp] theorem Dev.updLink_tile (d : Dev) (f : Link → Link) : (d.updLink f).tile = d.tile := rfl
@[simp] theorem Dev.updLink_pwm (d : Dev) (f : Link → Link) : (d.updLink f).pwm = d.pwm := rfl
@[simp] theorem Dev.updLink_pwmg (d : Dev) (f : Link → Link) : (d.updLink f).pwmg = d.pwmg := rfl
@[simp] theorem Dev.updLink_sense (d : Dev) (f : Link → Link) : (d.updLink f).sense = d.sense := rfl
@[simp] theorem Dev.updLink_loop (d : Dev) (f : Link → Link) : (d.updLink f).loop = d.loop := rfl
@[simp] theorem Dev.updLink_rails (d : Dev) (f : Link → Link) : (d.updLink f).rails = d.rails := rfl
@[simp] theorem Dev.updLink_cards (d : Dev) (f : Link → Link) : (d.updLink f).cards = d.cards := rfl
@[simp] theorem Dev.updLink_prot (d : Dev) (f : Link → Link) : (d.updLink f).prot = d.prot := rfl
@[simp] theorem Dev.updLink_sp (d : Dev) (f : Link → Link) : (d.updLink f).sp = d.sp := rfl
@[simp] theorem Dev.updLink_ports (d : Dev) (f : Link → Link) : (d.updLink f).ports = d.ports := rfl
@[simp] theorem Dev.updLink_fault (d : Dev) (f : Link → Link) : (d.updLink f).fault = d.fault := rfl
@[simp] theorem Dev.updLink_lantern (d : Dev) (f : Link → Link) : (d.updLink f).lantern = d.lantern := rfl
@[simp] theorem Dev.updLink_trust (d : Dev) (f : Link → Link) : (d.updLink f).trust = d.trust := rfl
@[simp] theorem Dev.updLink_link (d : Dev) (f : Link → Link) : (d.updLink f).link = f d.link := rfl
@[simp] theorem Dev.updLink_chord (d : Dev) (f : Link → Link) : (d.updLink f).chord = d.chord := rfl
@[simp] theorem Dev.updLink_leave (d : Dev) (f : Link → Link) : (d.updLink f).leave = d.leave := rfl
@[simp] theorem Dev.updLink_banks (d : Dev) (f : Link → Link) : (d.updLink f).banks = d.banks := rfl
@[simp] theorem Dev.updLink_test (d : Dev) (f : Link → Link) : (d.updLink f).test = d.test := rfl
@[simp] theorem Dev.updLink_free (d : Dev) (f : Link → Link) : (d.updLink f).free = d.free := rfl
@[simp] theorem Dev.updLink_cyc (d : Dev) (f : Link → Link) : (d.updLink f).cyc = d.cyc := rfl

/-! ## `Dev.updPwm` -/

@[simp] theorem Dev.updPwm_sys (d : Dev) (n : PhaseIx) (f : Pwm → Pwm) : (d.updPwm n f).sys = d.sys := rfl
@[simp] theorem Dev.updPwm_clk (d : Dev) (n : PhaseIx) (f : Pwm → Pwm) : (d.updPwm n f).clk = d.clk := rfl
@[simp] theorem Dev.updPwm_tile (d : Dev) (n : PhaseIx) (f : Pwm → Pwm) : (d.updPwm n f).tile = d.tile := rfl
@[simp] theorem Dev.updPwm_pwm (d : Dev) (n : PhaseIx) (f : Pwm → Pwm) : (d.updPwm n f).pwm = upd d.pwm n f := rfl
@[simp] theorem Dev.updPwm_pwmg (d : Dev) (n : PhaseIx) (f : Pwm → Pwm) : (d.updPwm n f).pwmg = d.pwmg := rfl
@[simp] theorem Dev.updPwm_sense (d : Dev) (n : PhaseIx) (f : Pwm → Pwm) : (d.updPwm n f).sense = d.sense := rfl
@[simp] theorem Dev.updPwm_loop (d : Dev) (n : PhaseIx) (f : Pwm → Pwm) : (d.updPwm n f).loop = d.loop := rfl
@[simp] theorem Dev.updPwm_rails (d : Dev) (n : PhaseIx) (f : Pwm → Pwm) : (d.updPwm n f).rails = d.rails := rfl
@[simp] theorem Dev.updPwm_cards (d : Dev) (n : PhaseIx) (f : Pwm → Pwm) : (d.updPwm n f).cards = d.cards := rfl
@[simp] theorem Dev.updPwm_prot (d : Dev) (n : PhaseIx) (f : Pwm → Pwm) : (d.updPwm n f).prot = d.prot := rfl
@[simp] theorem Dev.updPwm_sp (d : Dev) (n : PhaseIx) (f : Pwm → Pwm) : (d.updPwm n f).sp = d.sp := rfl
@[simp] theorem Dev.updPwm_ports (d : Dev) (n : PhaseIx) (f : Pwm → Pwm) : (d.updPwm n f).ports = d.ports := rfl
@[simp] theorem Dev.updPwm_fault (d : Dev) (n : PhaseIx) (f : Pwm → Pwm) : (d.updPwm n f).fault = d.fault := rfl
@[simp] theorem Dev.updPwm_lantern (d : Dev) (n : PhaseIx) (f : Pwm → Pwm) : (d.updPwm n f).lantern = d.lantern := rfl
@[simp] theorem Dev.updPwm_trust (d : Dev) (n : PhaseIx) (f : Pwm → Pwm) : (d.updPwm n f).trust = d.trust := rfl
@[simp] theorem Dev.updPwm_link (d : Dev) (n : PhaseIx) (f : Pwm → Pwm) : (d.updPwm n f).link = d.link := rfl
@[simp] theorem Dev.updPwm_chord (d : Dev) (n : PhaseIx) (f : Pwm → Pwm) : (d.updPwm n f).chord = d.chord := rfl
@[simp] theorem Dev.updPwm_leave (d : Dev) (n : PhaseIx) (f : Pwm → Pwm) : (d.updPwm n f).leave = d.leave := rfl
@[simp] theorem Dev.updPwm_banks (d : Dev) (n : PhaseIx) (f : Pwm → Pwm) : (d.updPwm n f).banks = d.banks := rfl
@[simp] theorem Dev.updPwm_test (d : Dev) (n : PhaseIx) (f : Pwm → Pwm) : (d.updPwm n f).test = d.test := rfl
@[simp] theorem Dev.updPwm_free (d : Dev) (n : PhaseIx) (f : Pwm → Pwm) : (d.updPwm n f).free = d.free := rfl
@[simp] theorem Dev.updPwm_cyc (d : Dev) (n : PhaseIx) (f : Pwm → Pwm) : (d.updPwm n f).cyc = d.cyc := rfl

/-! ## `Dev.updRail` -/

@[simp] theorem Dev.updRail_sys (d : Dev) (r : RailIx) (f : Rail → Rail) : (d.updRail r f).sys = d.sys := rfl
@[simp] theorem Dev.updRail_clk (d : Dev) (r : RailIx) (f : Rail → Rail) : (d.updRail r f).clk = d.clk := rfl
@[simp] theorem Dev.updRail_tile (d : Dev) (r : RailIx) (f : Rail → Rail) : (d.updRail r f).tile = d.tile := rfl
@[simp] theorem Dev.updRail_pwm (d : Dev) (r : RailIx) (f : Rail → Rail) : (d.updRail r f).pwm = d.pwm := rfl
@[simp] theorem Dev.updRail_pwmg (d : Dev) (r : RailIx) (f : Rail → Rail) : (d.updRail r f).pwmg = d.pwmg := rfl
@[simp] theorem Dev.updRail_sense (d : Dev) (r : RailIx) (f : Rail → Rail) : (d.updRail r f).sense = d.sense := rfl
@[simp] theorem Dev.updRail_loop (d : Dev) (r : RailIx) (f : Rail → Rail) : (d.updRail r f).loop = d.loop := rfl
@[simp] theorem Dev.updRail_rails (d : Dev) (r : RailIx) (f : Rail → Rail) : (d.updRail r f).rails = upd d.rails r f := rfl
@[simp] theorem Dev.updRail_cards (d : Dev) (r : RailIx) (f : Rail → Rail) : (d.updRail r f).cards = d.cards := rfl
@[simp] theorem Dev.updRail_prot (d : Dev) (r : RailIx) (f : Rail → Rail) : (d.updRail r f).prot = d.prot := rfl
@[simp] theorem Dev.updRail_sp (d : Dev) (r : RailIx) (f : Rail → Rail) : (d.updRail r f).sp = d.sp := rfl
@[simp] theorem Dev.updRail_ports (d : Dev) (r : RailIx) (f : Rail → Rail) : (d.updRail r f).ports = d.ports := rfl
@[simp] theorem Dev.updRail_fault (d : Dev) (r : RailIx) (f : Rail → Rail) : (d.updRail r f).fault = d.fault := rfl
@[simp] theorem Dev.updRail_lantern (d : Dev) (r : RailIx) (f : Rail → Rail) : (d.updRail r f).lantern = d.lantern := rfl
@[simp] theorem Dev.updRail_trust (d : Dev) (r : RailIx) (f : Rail → Rail) : (d.updRail r f).trust = d.trust := rfl
@[simp] theorem Dev.updRail_link (d : Dev) (r : RailIx) (f : Rail → Rail) : (d.updRail r f).link = d.link := rfl
@[simp] theorem Dev.updRail_chord (d : Dev) (r : RailIx) (f : Rail → Rail) : (d.updRail r f).chord = d.chord := rfl
@[simp] theorem Dev.updRail_leave (d : Dev) (r : RailIx) (f : Rail → Rail) : (d.updRail r f).leave = d.leave := rfl
@[simp] theorem Dev.updRail_banks (d : Dev) (r : RailIx) (f : Rail → Rail) : (d.updRail r f).banks = d.banks := rfl
@[simp] theorem Dev.updRail_test (d : Dev) (r : RailIx) (f : Rail → Rail) : (d.updRail r f).test = d.test := rfl
@[simp] theorem Dev.updRail_free (d : Dev) (r : RailIx) (f : Rail → Rail) : (d.updRail r f).free = d.free := rfl
@[simp] theorem Dev.updRail_cyc (d : Dev) (r : RailIx) (f : Rail → Rail) : (d.updRail r f).cyc = d.cyc := rfl

/-! ## `Dev.updCard` -/

@[simp] theorem Dev.updCard_sys (d : Dev) (s : CardIx) (f : Card → Card) : (d.updCard s f).sys = d.sys := rfl
@[simp] theorem Dev.updCard_clk (d : Dev) (s : CardIx) (f : Card → Card) : (d.updCard s f).clk = d.clk := rfl
@[simp] theorem Dev.updCard_tile (d : Dev) (s : CardIx) (f : Card → Card) : (d.updCard s f).tile = d.tile := rfl
@[simp] theorem Dev.updCard_pwm (d : Dev) (s : CardIx) (f : Card → Card) : (d.updCard s f).pwm = d.pwm := rfl
@[simp] theorem Dev.updCard_pwmg (d : Dev) (s : CardIx) (f : Card → Card) : (d.updCard s f).pwmg = d.pwmg := rfl
@[simp] theorem Dev.updCard_sense (d : Dev) (s : CardIx) (f : Card → Card) : (d.updCard s f).sense = d.sense := rfl
@[simp] theorem Dev.updCard_loop (d : Dev) (s : CardIx) (f : Card → Card) : (d.updCard s f).loop = d.loop := rfl
@[simp] theorem Dev.updCard_rails (d : Dev) (s : CardIx) (f : Card → Card) : (d.updCard s f).rails = d.rails := rfl
@[simp] theorem Dev.updCard_cards (d : Dev) (s : CardIx) (f : Card → Card) : (d.updCard s f).cards = upd d.cards s f := rfl
@[simp] theorem Dev.updCard_prot (d : Dev) (s : CardIx) (f : Card → Card) : (d.updCard s f).prot = d.prot := rfl
@[simp] theorem Dev.updCard_sp (d : Dev) (s : CardIx) (f : Card → Card) : (d.updCard s f).sp = d.sp := rfl
@[simp] theorem Dev.updCard_ports (d : Dev) (s : CardIx) (f : Card → Card) : (d.updCard s f).ports = d.ports := rfl
@[simp] theorem Dev.updCard_fault (d : Dev) (s : CardIx) (f : Card → Card) : (d.updCard s f).fault = d.fault := rfl
@[simp] theorem Dev.updCard_lantern (d : Dev) (s : CardIx) (f : Card → Card) : (d.updCard s f).lantern = d.lantern := rfl
@[simp] theorem Dev.updCard_trust (d : Dev) (s : CardIx) (f : Card → Card) : (d.updCard s f).trust = d.trust := rfl
@[simp] theorem Dev.updCard_link (d : Dev) (s : CardIx) (f : Card → Card) : (d.updCard s f).link = d.link := rfl
@[simp] theorem Dev.updCard_chord (d : Dev) (s : CardIx) (f : Card → Card) : (d.updCard s f).chord = d.chord := rfl
@[simp] theorem Dev.updCard_leave (d : Dev) (s : CardIx) (f : Card → Card) : (d.updCard s f).leave = d.leave := rfl
@[simp] theorem Dev.updCard_banks (d : Dev) (s : CardIx) (f : Card → Card) : (d.updCard s f).banks = d.banks := rfl
@[simp] theorem Dev.updCard_test (d : Dev) (s : CardIx) (f : Card → Card) : (d.updCard s f).test = d.test := rfl
@[simp] theorem Dev.updCard_free (d : Dev) (s : CardIx) (f : Card → Card) : (d.updCard s f).free = d.free := rfl
@[simp] theorem Dev.updCard_cyc (d : Dev) (s : CardIx) (f : Card → Card) : (d.updCard s f).cyc = d.cyc := rfl

/-! ## `Dev.updQuad` -/

@[simp] theorem Dev.updQuad_sys (d : Dev) (q : QuadIx) (f : Quad → Quad) : (d.updQuad q f).sys = d.sys := rfl
@[simp] theorem Dev.updQuad_clk (d : Dev) (q : QuadIx) (f : Quad → Quad) : (d.updQuad q f).clk = d.clk := rfl
@[simp] theorem Dev.updQuad_tile (d : Dev) (q : QuadIx) (f : Quad → Quad) : (d.updQuad q f).tile = d.tile := rfl
@[simp] theorem Dev.updQuad_pwm (d : Dev) (q : QuadIx) (f : Quad → Quad) : (d.updQuad q f).pwm = d.pwm := rfl
@[simp] theorem Dev.updQuad_pwmg (d : Dev) (q : QuadIx) (f : Quad → Quad) : (d.updQuad q f).pwmg = d.pwmg := rfl
@[simp] theorem Dev.updQuad_sense (d : Dev) (q : QuadIx) (f : Quad → Quad) : (d.updQuad q f).sense = { d.sense with quads := upd d.sense.quads q f } := rfl
@[simp] theorem Dev.updQuad_loop (d : Dev) (q : QuadIx) (f : Quad → Quad) : (d.updQuad q f).loop = d.loop := rfl
@[simp] theorem Dev.updQuad_rails (d : Dev) (q : QuadIx) (f : Quad → Quad) : (d.updQuad q f).rails = d.rails := rfl
@[simp] theorem Dev.updQuad_cards (d : Dev) (q : QuadIx) (f : Quad → Quad) : (d.updQuad q f).cards = d.cards := rfl
@[simp] theorem Dev.updQuad_prot (d : Dev) (q : QuadIx) (f : Quad → Quad) : (d.updQuad q f).prot = d.prot := rfl
@[simp] theorem Dev.updQuad_sp (d : Dev) (q : QuadIx) (f : Quad → Quad) : (d.updQuad q f).sp = d.sp := rfl
@[simp] theorem Dev.updQuad_ports (d : Dev) (q : QuadIx) (f : Quad → Quad) : (d.updQuad q f).ports = d.ports := rfl
@[simp] theorem Dev.updQuad_fault (d : Dev) (q : QuadIx) (f : Quad → Quad) : (d.updQuad q f).fault = d.fault := rfl
@[simp] theorem Dev.updQuad_lantern (d : Dev) (q : QuadIx) (f : Quad → Quad) : (d.updQuad q f).lantern = d.lantern := rfl
@[simp] theorem Dev.updQuad_trust (d : Dev) (q : QuadIx) (f : Quad → Quad) : (d.updQuad q f).trust = d.trust := rfl
@[simp] theorem Dev.updQuad_link (d : Dev) (q : QuadIx) (f : Quad → Quad) : (d.updQuad q f).link = d.link := rfl
@[simp] theorem Dev.updQuad_chord (d : Dev) (q : QuadIx) (f : Quad → Quad) : (d.updQuad q f).chord = d.chord := rfl
@[simp] theorem Dev.updQuad_leave (d : Dev) (q : QuadIx) (f : Quad → Quad) : (d.updQuad q f).leave = d.leave := rfl
@[simp] theorem Dev.updQuad_banks (d : Dev) (q : QuadIx) (f : Quad → Quad) : (d.updQuad q f).banks = d.banks := rfl
@[simp] theorem Dev.updQuad_test (d : Dev) (q : QuadIx) (f : Quad → Quad) : (d.updQuad q f).test = d.test := rfl
@[simp] theorem Dev.updQuad_free (d : Dev) (q : QuadIx) (f : Quad → Quad) : (d.updQuad q f).free = d.free := rfl
@[simp] theorem Dev.updQuad_cyc (d : Dev) (q : QuadIx) (f : Quad → Quad) : (d.updQuad q f).cyc = d.cyc := rfl

/-! ## `Dev.updCtx` -/

@[simp] theorem Dev.updCtx_sys (d : Dev) (c : CtxIx) (f : Ctx → Ctx) : (d.updCtx c f).sys = d.sys := rfl
@[simp] theorem Dev.updCtx_clk (d : Dev) (c : CtxIx) (f : Ctx → Ctx) : (d.updCtx c f).clk = d.clk := rfl
@[simp] theorem Dev.updCtx_tile (d : Dev) (c : CtxIx) (f : Ctx → Ctx) : (d.updCtx c f).tile = d.tile := rfl
@[simp] theorem Dev.updCtx_pwm (d : Dev) (c : CtxIx) (f : Ctx → Ctx) : (d.updCtx c f).pwm = d.pwm := rfl
@[simp] theorem Dev.updCtx_pwmg (d : Dev) (c : CtxIx) (f : Ctx → Ctx) : (d.updCtx c f).pwmg = d.pwmg := rfl
@[simp] theorem Dev.updCtx_sense (d : Dev) (c : CtxIx) (f : Ctx → Ctx) : (d.updCtx c f).sense = d.sense := rfl
@[simp] theorem Dev.updCtx_loop (d : Dev) (c : CtxIx) (f : Ctx → Ctx) : (d.updCtx c f).loop = { d.loop with ctx := upd d.loop.ctx c f } := rfl
@[simp] theorem Dev.updCtx_rails (d : Dev) (c : CtxIx) (f : Ctx → Ctx) : (d.updCtx c f).rails = d.rails := rfl
@[simp] theorem Dev.updCtx_cards (d : Dev) (c : CtxIx) (f : Ctx → Ctx) : (d.updCtx c f).cards = d.cards := rfl
@[simp] theorem Dev.updCtx_prot (d : Dev) (c : CtxIx) (f : Ctx → Ctx) : (d.updCtx c f).prot = d.prot := rfl
@[simp] theorem Dev.updCtx_sp (d : Dev) (c : CtxIx) (f : Ctx → Ctx) : (d.updCtx c f).sp = d.sp := rfl
@[simp] theorem Dev.updCtx_ports (d : Dev) (c : CtxIx) (f : Ctx → Ctx) : (d.updCtx c f).ports = d.ports := rfl
@[simp] theorem Dev.updCtx_fault (d : Dev) (c : CtxIx) (f : Ctx → Ctx) : (d.updCtx c f).fault = d.fault := rfl
@[simp] theorem Dev.updCtx_lantern (d : Dev) (c : CtxIx) (f : Ctx → Ctx) : (d.updCtx c f).lantern = d.lantern := rfl
@[simp] theorem Dev.updCtx_trust (d : Dev) (c : CtxIx) (f : Ctx → Ctx) : (d.updCtx c f).trust = d.trust := rfl
@[simp] theorem Dev.updCtx_link (d : Dev) (c : CtxIx) (f : Ctx → Ctx) : (d.updCtx c f).link = d.link := rfl
@[simp] theorem Dev.updCtx_chord (d : Dev) (c : CtxIx) (f : Ctx → Ctx) : (d.updCtx c f).chord = d.chord := rfl
@[simp] theorem Dev.updCtx_leave (d : Dev) (c : CtxIx) (f : Ctx → Ctx) : (d.updCtx c f).leave = d.leave := rfl
@[simp] theorem Dev.updCtx_banks (d : Dev) (c : CtxIx) (f : Ctx → Ctx) : (d.updCtx c f).banks = d.banks := rfl
@[simp] theorem Dev.updCtx_test (d : Dev) (c : CtxIx) (f : Ctx → Ctx) : (d.updCtx c f).test = d.test := rfl
@[simp] theorem Dev.updCtx_free (d : Dev) (c : CtxIx) (f : Ctx → Ctx) : (d.updCtx c f).free = d.free := rfl
@[simp] theorem Dev.updCtx_cyc (d : Dev) (c : CtxIx) (f : Ctx → Ctx) : (d.updCtx c f).cyc = d.cyc := rfl

/-! ## `Dev.updRailLoop` -/

@[simp] theorem Dev.updRailLoop_sys (d : Dev) (r : RailIx) (f : RailLoop → RailLoop) : (d.updRailLoop r f).sys = d.sys := rfl
@[simp] theorem Dev.updRailLoop_clk (d : Dev) (r : RailIx) (f : RailLoop → RailLoop) : (d.updRailLoop r f).clk = d.clk := rfl
@[simp] theorem Dev.updRailLoop_tile (d : Dev) (r : RailIx) (f : RailLoop → RailLoop) : (d.updRailLoop r f).tile = d.tile := rfl
@[simp] theorem Dev.updRailLoop_pwm (d : Dev) (r : RailIx) (f : RailLoop → RailLoop) : (d.updRailLoop r f).pwm = d.pwm := rfl
@[simp] theorem Dev.updRailLoop_pwmg (d : Dev) (r : RailIx) (f : RailLoop → RailLoop) : (d.updRailLoop r f).pwmg = d.pwmg := rfl
@[simp] theorem Dev.updRailLoop_sense (d : Dev) (r : RailIx) (f : RailLoop → RailLoop) : (d.updRailLoop r f).sense = d.sense := rfl
@[simp] theorem Dev.updRailLoop_loop (d : Dev) (r : RailIx) (f : RailLoop → RailLoop) : (d.updRailLoop r f).loop = { d.loop with rails := upd d.loop.rails r f } := rfl
@[simp] theorem Dev.updRailLoop_rails (d : Dev) (r : RailIx) (f : RailLoop → RailLoop) : (d.updRailLoop r f).rails = d.rails := rfl
@[simp] theorem Dev.updRailLoop_cards (d : Dev) (r : RailIx) (f : RailLoop → RailLoop) : (d.updRailLoop r f).cards = d.cards := rfl
@[simp] theorem Dev.updRailLoop_prot (d : Dev) (r : RailIx) (f : RailLoop → RailLoop) : (d.updRailLoop r f).prot = d.prot := rfl
@[simp] theorem Dev.updRailLoop_sp (d : Dev) (r : RailIx) (f : RailLoop → RailLoop) : (d.updRailLoop r f).sp = d.sp := rfl
@[simp] theorem Dev.updRailLoop_ports (d : Dev) (r : RailIx) (f : RailLoop → RailLoop) : (d.updRailLoop r f).ports = d.ports := rfl
@[simp] theorem Dev.updRailLoop_fault (d : Dev) (r : RailIx) (f : RailLoop → RailLoop) : (d.updRailLoop r f).fault = d.fault := rfl
@[simp] theorem Dev.updRailLoop_lantern (d : Dev) (r : RailIx) (f : RailLoop → RailLoop) : (d.updRailLoop r f).lantern = d.lantern := rfl
@[simp] theorem Dev.updRailLoop_trust (d : Dev) (r : RailIx) (f : RailLoop → RailLoop) : (d.updRailLoop r f).trust = d.trust := rfl
@[simp] theorem Dev.updRailLoop_link (d : Dev) (r : RailIx) (f : RailLoop → RailLoop) : (d.updRailLoop r f).link = d.link := rfl
@[simp] theorem Dev.updRailLoop_chord (d : Dev) (r : RailIx) (f : RailLoop → RailLoop) : (d.updRailLoop r f).chord = d.chord := rfl
@[simp] theorem Dev.updRailLoop_leave (d : Dev) (r : RailIx) (f : RailLoop → RailLoop) : (d.updRailLoop r f).leave = d.leave := rfl
@[simp] theorem Dev.updRailLoop_banks (d : Dev) (r : RailIx) (f : RailLoop → RailLoop) : (d.updRailLoop r f).banks = d.banks := rfl
@[simp] theorem Dev.updRailLoop_test (d : Dev) (r : RailIx) (f : RailLoop → RailLoop) : (d.updRailLoop r f).test = d.test := rfl
@[simp] theorem Dev.updRailLoop_free (d : Dev) (r : RailIx) (f : RailLoop → RailLoop) : (d.updRailLoop r f).free = d.free := rfl
@[simp] theorem Dev.updRailLoop_cyc (d : Dev) (r : RailIx) (f : RailLoop → RailLoop) : (d.updRailLoop r f).cyc = d.cyc := rfl

/-! ## `Dev.updTrip` -/

@[simp] theorem Dev.updTrip_sys (d : Dev) (n : PhaseIx) (f : Trip → Trip) : (d.updTrip n f).sys = d.sys := rfl
@[simp] theorem Dev.updTrip_clk (d : Dev) (n : PhaseIx) (f : Trip → Trip) : (d.updTrip n f).clk = d.clk := rfl
@[simp] theorem Dev.updTrip_tile (d : Dev) (n : PhaseIx) (f : Trip → Trip) : (d.updTrip n f).tile = d.tile := rfl
@[simp] theorem Dev.updTrip_pwm (d : Dev) (n : PhaseIx) (f : Trip → Trip) : (d.updTrip n f).pwm = d.pwm := rfl
@[simp] theorem Dev.updTrip_pwmg (d : Dev) (n : PhaseIx) (f : Trip → Trip) : (d.updTrip n f).pwmg = d.pwmg := rfl
@[simp] theorem Dev.updTrip_sense (d : Dev) (n : PhaseIx) (f : Trip → Trip) : (d.updTrip n f).sense = d.sense := rfl
@[simp] theorem Dev.updTrip_loop (d : Dev) (n : PhaseIx) (f : Trip → Trip) : (d.updTrip n f).loop = d.loop := rfl
@[simp] theorem Dev.updTrip_rails (d : Dev) (n : PhaseIx) (f : Trip → Trip) : (d.updTrip n f).rails = d.rails := rfl
@[simp] theorem Dev.updTrip_cards (d : Dev) (n : PhaseIx) (f : Trip → Trip) : (d.updTrip n f).cards = d.cards := rfl
@[simp] theorem Dev.updTrip_prot (d : Dev) (n : PhaseIx) (f : Trip → Trip) : (d.updTrip n f).prot = { d.prot with trips := upd d.prot.trips n f } := rfl
@[simp] theorem Dev.updTrip_sp (d : Dev) (n : PhaseIx) (f : Trip → Trip) : (d.updTrip n f).sp = d.sp := rfl
@[simp] theorem Dev.updTrip_ports (d : Dev) (n : PhaseIx) (f : Trip → Trip) : (d.updTrip n f).ports = d.ports := rfl
@[simp] theorem Dev.updTrip_fault (d : Dev) (n : PhaseIx) (f : Trip → Trip) : (d.updTrip n f).fault = d.fault := rfl
@[simp] theorem Dev.updTrip_lantern (d : Dev) (n : PhaseIx) (f : Trip → Trip) : (d.updTrip n f).lantern = d.lantern := rfl
@[simp] theorem Dev.updTrip_trust (d : Dev) (n : PhaseIx) (f : Trip → Trip) : (d.updTrip n f).trust = d.trust := rfl
@[simp] theorem Dev.updTrip_link (d : Dev) (n : PhaseIx) (f : Trip → Trip) : (d.updTrip n f).link = d.link := rfl
@[simp] theorem Dev.updTrip_chord (d : Dev) (n : PhaseIx) (f : Trip → Trip) : (d.updTrip n f).chord = d.chord := rfl
@[simp] theorem Dev.updTrip_leave (d : Dev) (n : PhaseIx) (f : Trip → Trip) : (d.updTrip n f).leave = d.leave := rfl
@[simp] theorem Dev.updTrip_banks (d : Dev) (n : PhaseIx) (f : Trip → Trip) : (d.updTrip n f).banks = d.banks := rfl
@[simp] theorem Dev.updTrip_test (d : Dev) (n : PhaseIx) (f : Trip → Trip) : (d.updTrip n f).test = d.test := rfl
@[simp] theorem Dev.updTrip_free (d : Dev) (n : PhaseIx) (f : Trip → Trip) : (d.updTrip n f).free = d.free := rfl
@[simp] theorem Dev.updTrip_cyc (d : Dev) (n : PhaseIx) (f : Trip → Trip) : (d.updTrip n f).cyc = d.cyc := rfl

/-! ## `Dev.updWin` -/

@[simp] theorem Dev.updWin_sys (d : Dev) (r : RailIx) (f : Win → Win) : (d.updWin r f).sys = d.sys := rfl
@[simp] theorem Dev.updWin_clk (d : Dev) (r : RailIx) (f : Win → Win) : (d.updWin r f).clk = d.clk := rfl
@[simp] theorem Dev.updWin_tile (d : Dev) (r : RailIx) (f : Win → Win) : (d.updWin r f).tile = d.tile := rfl
@[simp] theorem Dev.updWin_pwm (d : Dev) (r : RailIx) (f : Win → Win) : (d.updWin r f).pwm = d.pwm := rfl
@[simp] theorem Dev.updWin_pwmg (d : Dev) (r : RailIx) (f : Win → Win) : (d.updWin r f).pwmg = d.pwmg := rfl
@[simp] theorem Dev.updWin_sense (d : Dev) (r : RailIx) (f : Win → Win) : (d.updWin r f).sense = d.sense := rfl
@[simp] theorem Dev.updWin_loop (d : Dev) (r : RailIx) (f : Win → Win) : (d.updWin r f).loop = d.loop := rfl
@[simp] theorem Dev.updWin_rails (d : Dev) (r : RailIx) (f : Win → Win) : (d.updWin r f).rails = d.rails := rfl
@[simp] theorem Dev.updWin_cards (d : Dev) (r : RailIx) (f : Win → Win) : (d.updWin r f).cards = d.cards := rfl
@[simp] theorem Dev.updWin_prot (d : Dev) (r : RailIx) (f : Win → Win) : (d.updWin r f).prot = { d.prot with wins := upd d.prot.wins r f } := rfl
@[simp] theorem Dev.updWin_sp (d : Dev) (r : RailIx) (f : Win → Win) : (d.updWin r f).sp = d.sp := rfl
@[simp] theorem Dev.updWin_ports (d : Dev) (r : RailIx) (f : Win → Win) : (d.updWin r f).ports = d.ports := rfl
@[simp] theorem Dev.updWin_fault (d : Dev) (r : RailIx) (f : Win → Win) : (d.updWin r f).fault = d.fault := rfl
@[simp] theorem Dev.updWin_lantern (d : Dev) (r : RailIx) (f : Win → Win) : (d.updWin r f).lantern = d.lantern := rfl
@[simp] theorem Dev.updWin_trust (d : Dev) (r : RailIx) (f : Win → Win) : (d.updWin r f).trust = d.trust := rfl
@[simp] theorem Dev.updWin_link (d : Dev) (r : RailIx) (f : Win → Win) : (d.updWin r f).link = d.link := rfl
@[simp] theorem Dev.updWin_chord (d : Dev) (r : RailIx) (f : Win → Win) : (d.updWin r f).chord = d.chord := rfl
@[simp] theorem Dev.updWin_leave (d : Dev) (r : RailIx) (f : Win → Win) : (d.updWin r f).leave = d.leave := rfl
@[simp] theorem Dev.updWin_banks (d : Dev) (r : RailIx) (f : Win → Win) : (d.updWin r f).banks = d.banks := rfl
@[simp] theorem Dev.updWin_test (d : Dev) (r : RailIx) (f : Win → Win) : (d.updWin r f).test = d.test := rfl
@[simp] theorem Dev.updWin_free (d : Dev) (r : RailIx) (f : Win → Win) : (d.updWin r f).free = d.free := rfl
@[simp] theorem Dev.updWin_cyc (d : Dev) (r : RailIx) (f : Win → Win) : (d.updWin r f).cyc = d.cyc := rfl

/-! ## `Dev.updLine` -/

@[simp] theorem Dev.updLine_sys (d : Dev) (x : LineIx) (f : FLine → FLine) : (d.updLine x f).sys = d.sys := rfl
@[simp] theorem Dev.updLine_clk (d : Dev) (x : LineIx) (f : FLine → FLine) : (d.updLine x f).clk = d.clk := rfl
@[simp] theorem Dev.updLine_tile (d : Dev) (x : LineIx) (f : FLine → FLine) : (d.updLine x f).tile = d.tile := rfl
@[simp] theorem Dev.updLine_pwm (d : Dev) (x : LineIx) (f : FLine → FLine) : (d.updLine x f).pwm = d.pwm := rfl
@[simp] theorem Dev.updLine_pwmg (d : Dev) (x : LineIx) (f : FLine → FLine) : (d.updLine x f).pwmg = d.pwmg := rfl
@[simp] theorem Dev.updLine_sense (d : Dev) (x : LineIx) (f : FLine → FLine) : (d.updLine x f).sense = d.sense := rfl
@[simp] theorem Dev.updLine_loop (d : Dev) (x : LineIx) (f : FLine → FLine) : (d.updLine x f).loop = d.loop := rfl
@[simp] theorem Dev.updLine_rails (d : Dev) (x : LineIx) (f : FLine → FLine) : (d.updLine x f).rails = d.rails := rfl
@[simp] theorem Dev.updLine_cards (d : Dev) (x : LineIx) (f : FLine → FLine) : (d.updLine x f).cards = d.cards := rfl
@[simp] theorem Dev.updLine_prot (d : Dev) (x : LineIx) (f : FLine → FLine) : (d.updLine x f).prot = { d.prot with lines := upd d.prot.lines x f } := rfl
@[simp] theorem Dev.updLine_sp (d : Dev) (x : LineIx) (f : FLine → FLine) : (d.updLine x f).sp = d.sp := rfl
@[simp] theorem Dev.updLine_ports (d : Dev) (x : LineIx) (f : FLine → FLine) : (d.updLine x f).ports = d.ports := rfl
@[simp] theorem Dev.updLine_fault (d : Dev) (x : LineIx) (f : FLine → FLine) : (d.updLine x f).fault = d.fault := rfl
@[simp] theorem Dev.updLine_lantern (d : Dev) (x : LineIx) (f : FLine → FLine) : (d.updLine x f).lantern = d.lantern := rfl
@[simp] theorem Dev.updLine_trust (d : Dev) (x : LineIx) (f : FLine → FLine) : (d.updLine x f).trust = d.trust := rfl
@[simp] theorem Dev.updLine_link (d : Dev) (x : LineIx) (f : FLine → FLine) : (d.updLine x f).link = d.link := rfl
@[simp] theorem Dev.updLine_chord (d : Dev) (x : LineIx) (f : FLine → FLine) : (d.updLine x f).chord = d.chord := rfl
@[simp] theorem Dev.updLine_leave (d : Dev) (x : LineIx) (f : FLine → FLine) : (d.updLine x f).leave = d.leave := rfl
@[simp] theorem Dev.updLine_banks (d : Dev) (x : LineIx) (f : FLine → FLine) : (d.updLine x f).banks = d.banks := rfl
@[simp] theorem Dev.updLine_test (d : Dev) (x : LineIx) (f : FLine → FLine) : (d.updLine x f).test = d.test := rfl
@[simp] theorem Dev.updLine_free (d : Dev) (x : LineIx) (f : FLine → FLine) : (d.updLine x f).free = d.free := rfl
@[simp] theorem Dev.updLine_cyc (d : Dev) (x : LineIx) (f : FLine → FLine) : (d.updLine x f).cyc = d.cyc := rfl

/-! ## `Dev.updSp` -/

@[simp] theorem Dev.updSp_sys (d : Dev) (r : RailIx) (f : Sp → Sp) : (d.updSp r f).sys = d.sys := rfl
@[simp] theorem Dev.updSp_clk (d : Dev) (r : RailIx) (f : Sp → Sp) : (d.updSp r f).clk = d.clk := rfl
@[simp] theorem Dev.updSp_tile (d : Dev) (r : RailIx) (f : Sp → Sp) : (d.updSp r f).tile = d.tile := rfl
@[simp] theorem Dev.updSp_pwm (d : Dev) (r : RailIx) (f : Sp → Sp) : (d.updSp r f).pwm = d.pwm := rfl
@[simp] theorem Dev.updSp_pwmg (d : Dev) (r : RailIx) (f : Sp → Sp) : (d.updSp r f).pwmg = d.pwmg := rfl
@[simp] theorem Dev.updSp_sense (d : Dev) (r : RailIx) (f : Sp → Sp) : (d.updSp r f).sense = d.sense := rfl
@[simp] theorem Dev.updSp_loop (d : Dev) (r : RailIx) (f : Sp → Sp) : (d.updSp r f).loop = d.loop := rfl
@[simp] theorem Dev.updSp_rails (d : Dev) (r : RailIx) (f : Sp → Sp) : (d.updSp r f).rails = d.rails := rfl
@[simp] theorem Dev.updSp_cards (d : Dev) (r : RailIx) (f : Sp → Sp) : (d.updSp r f).cards = d.cards := rfl
@[simp] theorem Dev.updSp_prot (d : Dev) (r : RailIx) (f : Sp → Sp) : (d.updSp r f).prot = d.prot := rfl
@[simp] theorem Dev.updSp_sp (d : Dev) (r : RailIx) (f : Sp → Sp) : (d.updSp r f).sp = { d.sp with sp := upd d.sp.sp r f } := rfl
@[simp] theorem Dev.updSp_ports (d : Dev) (r : RailIx) (f : Sp → Sp) : (d.updSp r f).ports = d.ports := rfl
@[simp] theorem Dev.updSp_fault (d : Dev) (r : RailIx) (f : Sp → Sp) : (d.updSp r f).fault = d.fault := rfl
@[simp] theorem Dev.updSp_lantern (d : Dev) (r : RailIx) (f : Sp → Sp) : (d.updSp r f).lantern = d.lantern := rfl
@[simp] theorem Dev.updSp_trust (d : Dev) (r : RailIx) (f : Sp → Sp) : (d.updSp r f).trust = d.trust := rfl
@[simp] theorem Dev.updSp_link (d : Dev) (r : RailIx) (f : Sp → Sp) : (d.updSp r f).link = d.link := rfl
@[simp] theorem Dev.updSp_chord (d : Dev) (r : RailIx) (f : Sp → Sp) : (d.updSp r f).chord = d.chord := rfl
@[simp] theorem Dev.updSp_leave (d : Dev) (r : RailIx) (f : Sp → Sp) : (d.updSp r f).leave = d.leave := rfl
@[simp] theorem Dev.updSp_banks (d : Dev) (r : RailIx) (f : Sp → Sp) : (d.updSp r f).banks = d.banks := rfl
@[simp] theorem Dev.updSp_test (d : Dev) (r : RailIx) (f : Sp → Sp) : (d.updSp r f).test = d.test := rfl
@[simp] theorem Dev.updSp_free (d : Dev) (r : RailIx) (f : Sp → Sp) : (d.updSp r f).free = d.free := rfl
@[simp] theorem Dev.updSp_cyc (d : Dev) (r : RailIx) (f : Sp → Sp) : (d.updSp r f).cyc = d.cyc := rfl

/-! ## `Dev.updPort` -/

@[simp] theorem Dev.updPort_sys (d : Dev) (p : PortIx) (f : Port → Port) : (d.updPort p f).sys = d.sys := rfl
@[simp] theorem Dev.updPort_clk (d : Dev) (p : PortIx) (f : Port → Port) : (d.updPort p f).clk = d.clk := rfl
@[simp] theorem Dev.updPort_tile (d : Dev) (p : PortIx) (f : Port → Port) : (d.updPort p f).tile = d.tile := rfl
@[simp] theorem Dev.updPort_pwm (d : Dev) (p : PortIx) (f : Port → Port) : (d.updPort p f).pwm = d.pwm := rfl
@[simp] theorem Dev.updPort_pwmg (d : Dev) (p : PortIx) (f : Port → Port) : (d.updPort p f).pwmg = d.pwmg := rfl
@[simp] theorem Dev.updPort_sense (d : Dev) (p : PortIx) (f : Port → Port) : (d.updPort p f).sense = d.sense := rfl
@[simp] theorem Dev.updPort_loop (d : Dev) (p : PortIx) (f : Port → Port) : (d.updPort p f).loop = d.loop := rfl
@[simp] theorem Dev.updPort_rails (d : Dev) (p : PortIx) (f : Port → Port) : (d.updPort p f).rails = d.rails := rfl
@[simp] theorem Dev.updPort_cards (d : Dev) (p : PortIx) (f : Port → Port) : (d.updPort p f).cards = d.cards := rfl
@[simp] theorem Dev.updPort_prot (d : Dev) (p : PortIx) (f : Port → Port) : (d.updPort p f).prot = d.prot := rfl
@[simp] theorem Dev.updPort_sp (d : Dev) (p : PortIx) (f : Port → Port) : (d.updPort p f).sp = d.sp := rfl
@[simp] theorem Dev.updPort_ports (d : Dev) (p : PortIx) (f : Port → Port) : (d.updPort p f).ports = upd d.ports p f := rfl
@[simp] theorem Dev.updPort_fault (d : Dev) (p : PortIx) (f : Port → Port) : (d.updPort p f).fault = d.fault := rfl
@[simp] theorem Dev.updPort_lantern (d : Dev) (p : PortIx) (f : Port → Port) : (d.updPort p f).lantern = d.lantern := rfl
@[simp] theorem Dev.updPort_trust (d : Dev) (p : PortIx) (f : Port → Port) : (d.updPort p f).trust = d.trust := rfl
@[simp] theorem Dev.updPort_link (d : Dev) (p : PortIx) (f : Port → Port) : (d.updPort p f).link = d.link := rfl
@[simp] theorem Dev.updPort_chord (d : Dev) (p : PortIx) (f : Port → Port) : (d.updPort p f).chord = d.chord := rfl
@[simp] theorem Dev.updPort_leave (d : Dev) (p : PortIx) (f : Port → Port) : (d.updPort p f).leave = d.leave := rfl
@[simp] theorem Dev.updPort_banks (d : Dev) (p : PortIx) (f : Port → Port) : (d.updPort p f).banks = d.banks := rfl
@[simp] theorem Dev.updPort_test (d : Dev) (p : PortIx) (f : Port → Port) : (d.updPort p f).test = d.test := rfl
@[simp] theorem Dev.updPort_free (d : Dev) (p : PortIx) (f : Port → Port) : (d.updPort p f).free = d.free := rfl
@[simp] theorem Dev.updPort_cyc (d : Dev) (p : PortIx) (f : Port → Port) : (d.updPort p f).cyc = d.cyc := rfl

/-! ## `Dev.updRt` -/

@[simp] theorem Dev.updRt_sys (d : Dev) (f : Retile → Retile) : (d.updRt f).sys = d.sys := rfl
@[simp] theorem Dev.updRt_clk (d : Dev) (f : Retile → Retile) : (d.updRt f).clk = d.clk := rfl
@[simp] theorem Dev.updRt_tile (d : Dev) (f : Retile → Retile) : (d.updRt f).tile = { d.tile with rt := f d.tile.rt } := rfl
@[simp] theorem Dev.updRt_pwm (d : Dev) (f : Retile → Retile) : (d.updRt f).pwm = d.pwm := rfl
@[simp] theorem Dev.updRt_pwmg (d : Dev) (f : Retile → Retile) : (d.updRt f).pwmg = d.pwmg := rfl
@[simp] theorem Dev.updRt_sense (d : Dev) (f : Retile → Retile) : (d.updRt f).sense = d.sense := rfl
@[simp] theorem Dev.updRt_loop (d : Dev) (f : Retile → Retile) : (d.updRt f).loop = d.loop := rfl
@[simp] theorem Dev.updRt_rails (d : Dev) (f : Retile → Retile) : (d.updRt f).rails = d.rails := rfl
@[simp] theorem Dev.updRt_cards (d : Dev) (f : Retile → Retile) : (d.updRt f).cards = d.cards := rfl
@[simp] theorem Dev.updRt_prot (d : Dev) (f : Retile → Retile) : (d.updRt f).prot = d.prot := rfl
@[simp] theorem Dev.updRt_sp (d : Dev) (f : Retile → Retile) : (d.updRt f).sp = d.sp := rfl
@[simp] theorem Dev.updRt_ports (d : Dev) (f : Retile → Retile) : (d.updRt f).ports = d.ports := rfl
@[simp] theorem Dev.updRt_fault (d : Dev) (f : Retile → Retile) : (d.updRt f).fault = d.fault := rfl
@[simp] theorem Dev.updRt_lantern (d : Dev) (f : Retile → Retile) : (d.updRt f).lantern = d.lantern := rfl
@[simp] theorem Dev.updRt_trust (d : Dev) (f : Retile → Retile) : (d.updRt f).trust = d.trust := rfl
@[simp] theorem Dev.updRt_link (d : Dev) (f : Retile → Retile) : (d.updRt f).link = d.link := rfl
@[simp] theorem Dev.updRt_chord (d : Dev) (f : Retile → Retile) : (d.updRt f).chord = d.chord := rfl
@[simp] theorem Dev.updRt_leave (d : Dev) (f : Retile → Retile) : (d.updRt f).leave = d.leave := rfl
@[simp] theorem Dev.updRt_banks (d : Dev) (f : Retile → Retile) : (d.updRt f).banks = d.banks := rfl
@[simp] theorem Dev.updRt_test (d : Dev) (f : Retile → Retile) : (d.updRt f).test = d.test := rfl
@[simp] theorem Dev.updRt_free (d : Dev) (f : Retile → Retile) : (d.updRt f).free = d.free := rfl
@[simp] theorem Dev.updRt_cyc (d : Dev) (f : Retile → Retile) : (d.updRt f).cyc = d.cyc := rfl

/-! ## `Dev.updCur` -/

@[simp] theorem Dev.updCur_sys (d : Dev) (f : Tiling → Tiling) : (d.updCur f).sys = d.sys := rfl
@[simp] theorem Dev.updCur_clk (d : Dev) (f : Tiling → Tiling) : (d.updCur f).clk = d.clk := rfl
@[simp] theorem Dev.updCur_tile (d : Dev) (f : Tiling → Tiling) : (d.updCur f).tile = { d.tile with cur := f d.tile.cur } := rfl
@[simp] theorem Dev.updCur_pwm (d : Dev) (f : Tiling → Tiling) : (d.updCur f).pwm = d.pwm := rfl
@[simp] theorem Dev.updCur_pwmg (d : Dev) (f : Tiling → Tiling) : (d.updCur f).pwmg = d.pwmg := rfl
@[simp] theorem Dev.updCur_sense (d : Dev) (f : Tiling → Tiling) : (d.updCur f).sense = d.sense := rfl
@[simp] theorem Dev.updCur_loop (d : Dev) (f : Tiling → Tiling) : (d.updCur f).loop = d.loop := rfl
@[simp] theorem Dev.updCur_rails (d : Dev) (f : Tiling → Tiling) : (d.updCur f).rails = d.rails := rfl
@[simp] theorem Dev.updCur_cards (d : Dev) (f : Tiling → Tiling) : (d.updCur f).cards = d.cards := rfl
@[simp] theorem Dev.updCur_prot (d : Dev) (f : Tiling → Tiling) : (d.updCur f).prot = d.prot := rfl
@[simp] theorem Dev.updCur_sp (d : Dev) (f : Tiling → Tiling) : (d.updCur f).sp = d.sp := rfl
@[simp] theorem Dev.updCur_ports (d : Dev) (f : Tiling → Tiling) : (d.updCur f).ports = d.ports := rfl
@[simp] theorem Dev.updCur_fault (d : Dev) (f : Tiling → Tiling) : (d.updCur f).fault = d.fault := rfl
@[simp] theorem Dev.updCur_lantern (d : Dev) (f : Tiling → Tiling) : (d.updCur f).lantern = d.lantern := rfl
@[simp] theorem Dev.updCur_trust (d : Dev) (f : Tiling → Tiling) : (d.updCur f).trust = d.trust := rfl
@[simp] theorem Dev.updCur_link (d : Dev) (f : Tiling → Tiling) : (d.updCur f).link = d.link := rfl
@[simp] theorem Dev.updCur_chord (d : Dev) (f : Tiling → Tiling) : (d.updCur f).chord = d.chord := rfl
@[simp] theorem Dev.updCur_leave (d : Dev) (f : Tiling → Tiling) : (d.updCur f).leave = d.leave := rfl
@[simp] theorem Dev.updCur_banks (d : Dev) (f : Tiling → Tiling) : (d.updCur f).banks = d.banks := rfl
@[simp] theorem Dev.updCur_test (d : Dev) (f : Tiling → Tiling) : (d.updCur f).test = d.test := rfl
@[simp] theorem Dev.updCur_free (d : Dev) (f : Tiling → Tiling) : (d.updCur f).free = d.free := rfl
@[simp] theorem Dev.updCur_cyc (d : Dev) (f : Tiling → Tiling) : (d.updCur f).cyc = d.cyc := rfl

/-! ## `Dev.updSense` -/

@[simp] theorem Dev.updSense_sys (d : Dev) (f : Sense → Sense) : (d.updSense f).sys = d.sys := rfl
@[simp] theorem Dev.updSense_clk (d : Dev) (f : Sense → Sense) : (d.updSense f).clk = d.clk := rfl
@[simp] theorem Dev.updSense_tile (d : Dev) (f : Sense → Sense) : (d.updSense f).tile = d.tile := rfl
@[simp] theorem Dev.updSense_pwm (d : Dev) (f : Sense → Sense) : (d.updSense f).pwm = d.pwm := rfl
@[simp] theorem Dev.updSense_pwmg (d : Dev) (f : Sense → Sense) : (d.updSense f).pwmg = d.pwmg := rfl
@[simp] theorem Dev.updSense_sense (d : Dev) (f : Sense → Sense) : (d.updSense f).sense = f d.sense := rfl
@[simp] theorem Dev.updSense_loop (d : Dev) (f : Sense → Sense) : (d.updSense f).loop = d.loop := rfl
@[simp] theorem Dev.updSense_rails (d : Dev) (f : Sense → Sense) : (d.updSense f).rails = d.rails := rfl
@[simp] theorem Dev.updSense_cards (d : Dev) (f : Sense → Sense) : (d.updSense f).cards = d.cards := rfl
@[simp] theorem Dev.updSense_prot (d : Dev) (f : Sense → Sense) : (d.updSense f).prot = d.prot := rfl
@[simp] theorem Dev.updSense_sp (d : Dev) (f : Sense → Sense) : (d.updSense f).sp = d.sp := rfl
@[simp] theorem Dev.updSense_ports (d : Dev) (f : Sense → Sense) : (d.updSense f).ports = d.ports := rfl
@[simp] theorem Dev.updSense_fault (d : Dev) (f : Sense → Sense) : (d.updSense f).fault = d.fault := rfl
@[simp] theorem Dev.updSense_lantern (d : Dev) (f : Sense → Sense) : (d.updSense f).lantern = d.lantern := rfl
@[simp] theorem Dev.updSense_trust (d : Dev) (f : Sense → Sense) : (d.updSense f).trust = d.trust := rfl
@[simp] theorem Dev.updSense_link (d : Dev) (f : Sense → Sense) : (d.updSense f).link = d.link := rfl
@[simp] theorem Dev.updSense_chord (d : Dev) (f : Sense → Sense) : (d.updSense f).chord = d.chord := rfl
@[simp] theorem Dev.updSense_leave (d : Dev) (f : Sense → Sense) : (d.updSense f).leave = d.leave := rfl
@[simp] theorem Dev.updSense_banks (d : Dev) (f : Sense → Sense) : (d.updSense f).banks = d.banks := rfl
@[simp] theorem Dev.updSense_test (d : Dev) (f : Sense → Sense) : (d.updSense f).test = d.test := rfl
@[simp] theorem Dev.updSense_free (d : Dev) (f : Sense → Sense) : (d.updSense f).free = d.free := rfl
@[simp] theorem Dev.updSense_cyc (d : Dev) (f : Sense → Sense) : (d.updSense f).cyc = d.cyc := rfl

/-! ## `Dev.updAcc` -/

@[simp] theorem Dev.updAcc_sys (d : Dev) (k : AccIx) (f : Acc → Acc) : (d.updAcc k f).sys = d.sys := rfl
@[simp] theorem Dev.updAcc_clk (d : Dev) (k : AccIx) (f : Acc → Acc) : (d.updAcc k f).clk = d.clk := rfl
@[simp] theorem Dev.updAcc_tile (d : Dev) (k : AccIx) (f : Acc → Acc) : (d.updAcc k f).tile = d.tile := rfl
@[simp] theorem Dev.updAcc_pwm (d : Dev) (k : AccIx) (f : Acc → Acc) : (d.updAcc k f).pwm = d.pwm := rfl
@[simp] theorem Dev.updAcc_pwmg (d : Dev) (k : AccIx) (f : Acc → Acc) : (d.updAcc k f).pwmg = d.pwmg := rfl
@[simp] theorem Dev.updAcc_sense (d : Dev) (k : AccIx) (f : Acc → Acc) : (d.updAcc k f).sense = { d.sense with accs := upd d.sense.accs k f } := rfl
@[simp] theorem Dev.updAcc_loop (d : Dev) (k : AccIx) (f : Acc → Acc) : (d.updAcc k f).loop = d.loop := rfl
@[simp] theorem Dev.updAcc_rails (d : Dev) (k : AccIx) (f : Acc → Acc) : (d.updAcc k f).rails = d.rails := rfl
@[simp] theorem Dev.updAcc_cards (d : Dev) (k : AccIx) (f : Acc → Acc) : (d.updAcc k f).cards = d.cards := rfl
@[simp] theorem Dev.updAcc_prot (d : Dev) (k : AccIx) (f : Acc → Acc) : (d.updAcc k f).prot = d.prot := rfl
@[simp] theorem Dev.updAcc_sp (d : Dev) (k : AccIx) (f : Acc → Acc) : (d.updAcc k f).sp = d.sp := rfl
@[simp] theorem Dev.updAcc_ports (d : Dev) (k : AccIx) (f : Acc → Acc) : (d.updAcc k f).ports = d.ports := rfl
@[simp] theorem Dev.updAcc_fault (d : Dev) (k : AccIx) (f : Acc → Acc) : (d.updAcc k f).fault = d.fault := rfl
@[simp] theorem Dev.updAcc_lantern (d : Dev) (k : AccIx) (f : Acc → Acc) : (d.updAcc k f).lantern = d.lantern := rfl
@[simp] theorem Dev.updAcc_trust (d : Dev) (k : AccIx) (f : Acc → Acc) : (d.updAcc k f).trust = d.trust := rfl
@[simp] theorem Dev.updAcc_link (d : Dev) (k : AccIx) (f : Acc → Acc) : (d.updAcc k f).link = d.link := rfl
@[simp] theorem Dev.updAcc_chord (d : Dev) (k : AccIx) (f : Acc → Acc) : (d.updAcc k f).chord = d.chord := rfl
@[simp] theorem Dev.updAcc_leave (d : Dev) (k : AccIx) (f : Acc → Acc) : (d.updAcc k f).leave = d.leave := rfl
@[simp] theorem Dev.updAcc_banks (d : Dev) (k : AccIx) (f : Acc → Acc) : (d.updAcc k f).banks = d.banks := rfl
@[simp] theorem Dev.updAcc_test (d : Dev) (k : AccIx) (f : Acc → Acc) : (d.updAcc k f).test = d.test := rfl
@[simp] theorem Dev.updAcc_free (d : Dev) (k : AccIx) (f : Acc → Acc) : (d.updAcc k f).free = d.free := rfl
@[simp] theorem Dev.updAcc_cyc (d : Dev) (k : AccIx) (f : Acc → Acc) : (d.updAcc k f).cyc = d.cyc := rfl

/-! ## `Dev.updTrk` -/

@[simp] theorem Dev.updTrk_sys (d : Dev) (k : TrkIx) (f : Trk → Trk) : (d.updTrk k f).sys = d.sys := rfl
@[simp] theorem Dev.updTrk_clk (d : Dev) (k : TrkIx) (f : Trk → Trk) : (d.updTrk k f).clk = d.clk := rfl
@[simp] theorem Dev.updTrk_tile (d : Dev) (k : TrkIx) (f : Trk → Trk) : (d.updTrk k f).tile = d.tile := rfl
@[simp] theorem Dev.updTrk_pwm (d : Dev) (k : TrkIx) (f : Trk → Trk) : (d.updTrk k f).pwm = d.pwm := rfl
@[simp] theorem Dev.updTrk_pwmg (d : Dev) (k : TrkIx) (f : Trk → Trk) : (d.updTrk k f).pwmg = d.pwmg := rfl
@[simp] theorem Dev.updTrk_sense (d : Dev) (k : TrkIx) (f : Trk → Trk) : (d.updTrk k f).sense = { d.sense with trks := upd d.sense.trks k f } := rfl
@[simp] theorem Dev.updTrk_loop (d : Dev) (k : TrkIx) (f : Trk → Trk) : (d.updTrk k f).loop = d.loop := rfl
@[simp] theorem Dev.updTrk_rails (d : Dev) (k : TrkIx) (f : Trk → Trk) : (d.updTrk k f).rails = d.rails := rfl
@[simp] theorem Dev.updTrk_cards (d : Dev) (k : TrkIx) (f : Trk → Trk) : (d.updTrk k f).cards = d.cards := rfl
@[simp] theorem Dev.updTrk_prot (d : Dev) (k : TrkIx) (f : Trk → Trk) : (d.updTrk k f).prot = d.prot := rfl
@[simp] theorem Dev.updTrk_sp (d : Dev) (k : TrkIx) (f : Trk → Trk) : (d.updTrk k f).sp = d.sp := rfl
@[simp] theorem Dev.updTrk_ports (d : Dev) (k : TrkIx) (f : Trk → Trk) : (d.updTrk k f).ports = d.ports := rfl
@[simp] theorem Dev.updTrk_fault (d : Dev) (k : TrkIx) (f : Trk → Trk) : (d.updTrk k f).fault = d.fault := rfl
@[simp] theorem Dev.updTrk_lantern (d : Dev) (k : TrkIx) (f : Trk → Trk) : (d.updTrk k f).lantern = d.lantern := rfl
@[simp] theorem Dev.updTrk_trust (d : Dev) (k : TrkIx) (f : Trk → Trk) : (d.updTrk k f).trust = d.trust := rfl
@[simp] theorem Dev.updTrk_link (d : Dev) (k : TrkIx) (f : Trk → Trk) : (d.updTrk k f).link = d.link := rfl
@[simp] theorem Dev.updTrk_chord (d : Dev) (k : TrkIx) (f : Trk → Trk) : (d.updTrk k f).chord = d.chord := rfl
@[simp] theorem Dev.updTrk_leave (d : Dev) (k : TrkIx) (f : Trk → Trk) : (d.updTrk k f).leave = d.leave := rfl
@[simp] theorem Dev.updTrk_banks (d : Dev) (k : TrkIx) (f : Trk → Trk) : (d.updTrk k f).banks = d.banks := rfl
@[simp] theorem Dev.updTrk_test (d : Dev) (k : TrkIx) (f : Trk → Trk) : (d.updTrk k f).test = d.test := rfl
@[simp] theorem Dev.updTrk_free (d : Dev) (k : TrkIx) (f : Trk → Trk) : (d.updTrk k f).free = d.free := rfl
@[simp] theorem Dev.updTrk_cyc (d : Dev) (k : TrkIx) (f : Trk → Trk) : (d.updTrk k f).cyc = d.cyc := rfl

/-! ## `Dev.updSys` -/

@[simp] theorem Dev.updSys_sys (d : Dev) (f : Sys → Sys) : (d.updSys f).sys = f d.sys := rfl
@[simp] theorem Dev.updSys_clk (d : Dev) (f : Sys → Sys) : (d.updSys f).clk = d.clk := rfl
@[simp] theorem Dev.updSys_tile (d : Dev) (f : Sys → Sys) : (d.updSys f).tile = d.tile := rfl
@[simp] theorem Dev.updSys_pwm (d : Dev) (f : Sys → Sys) : (d.updSys f).pwm = d.pwm := rfl
@[simp] theorem Dev.updSys_pwmg (d : Dev) (f : Sys → Sys) : (d.updSys f).pwmg = d.pwmg := rfl
@[simp] theorem Dev.updSys_sense (d : Dev) (f : Sys → Sys) : (d.updSys f).sense = d.sense := rfl
@[simp] theorem Dev.updSys_loop (d : Dev) (f : Sys → Sys) : (d.updSys f).loop = d.loop := rfl
@[simp] theorem Dev.updSys_rails (d : Dev) (f : Sys → Sys) : (d.updSys f).rails = d.rails := rfl
@[simp] theorem Dev.updSys_cards (d : Dev) (f : Sys → Sys) : (d.updSys f).cards = d.cards := rfl
@[simp] theorem Dev.updSys_prot (d : Dev) (f : Sys → Sys) : (d.updSys f).prot = d.prot := rfl
@[simp] theorem Dev.updSys_sp (d : Dev) (f : Sys → Sys) : (d.updSys f).sp = d.sp := rfl
@[simp] theorem Dev.updSys_ports (d : Dev) (f : Sys → Sys) : (d.updSys f).ports = d.ports := rfl
@[simp] theorem Dev.updSys_fault (d : Dev) (f : Sys → Sys) : (d.updSys f).fault = d.fault := rfl
@[simp] theorem Dev.updSys_lantern (d : Dev) (f : Sys → Sys) : (d.updSys f).lantern = d.lantern := rfl
@[simp] theorem Dev.updSys_trust (d : Dev) (f : Sys → Sys) : (d.updSys f).trust = d.trust := rfl
@[simp] theorem Dev.updSys_link (d : Dev) (f : Sys → Sys) : (d.updSys f).link = d.link := rfl
@[simp] theorem Dev.updSys_chord (d : Dev) (f : Sys → Sys) : (d.updSys f).chord = d.chord := rfl
@[simp] theorem Dev.updSys_leave (d : Dev) (f : Sys → Sys) : (d.updSys f).leave = d.leave := rfl
@[simp] theorem Dev.updSys_banks (d : Dev) (f : Sys → Sys) : (d.updSys f).banks = d.banks := rfl
@[simp] theorem Dev.updSys_test (d : Dev) (f : Sys → Sys) : (d.updSys f).test = d.test := rfl
@[simp] theorem Dev.updSys_free (d : Dev) (f : Sys → Sys) : (d.updSys f).free = d.free := rfl
@[simp] theorem Dev.updSys_cyc (d : Dev) (f : Sys → Sys) : (d.updSys f).cyc = d.cyc := rfl

/-! ## `Dev.updClk` -/

@[simp] theorem Dev.updClk_sys (d : Dev) (f : Clk → Clk) : (d.updClk f).sys = d.sys := rfl
@[simp] theorem Dev.updClk_clk (d : Dev) (f : Clk → Clk) : (d.updClk f).clk = f d.clk := rfl
@[simp] theorem Dev.updClk_tile (d : Dev) (f : Clk → Clk) : (d.updClk f).tile = d.tile := rfl
@[simp] theorem Dev.updClk_pwm (d : Dev) (f : Clk → Clk) : (d.updClk f).pwm = d.pwm := rfl
@[simp] theorem Dev.updClk_pwmg (d : Dev) (f : Clk → Clk) : (d.updClk f).pwmg = d.pwmg := rfl
@[simp] theorem Dev.updClk_sense (d : Dev) (f : Clk → Clk) : (d.updClk f).sense = d.sense := rfl
@[simp] theorem Dev.updClk_loop (d : Dev) (f : Clk → Clk) : (d.updClk f).loop = d.loop := rfl
@[simp] theorem Dev.updClk_rails (d : Dev) (f : Clk → Clk) : (d.updClk f).rails = d.rails := rfl
@[simp] theorem Dev.updClk_cards (d : Dev) (f : Clk → Clk) : (d.updClk f).cards = d.cards := rfl
@[simp] theorem Dev.updClk_prot (d : Dev) (f : Clk → Clk) : (d.updClk f).prot = d.prot := rfl
@[simp] theorem Dev.updClk_sp (d : Dev) (f : Clk → Clk) : (d.updClk f).sp = d.sp := rfl
@[simp] theorem Dev.updClk_ports (d : Dev) (f : Clk → Clk) : (d.updClk f).ports = d.ports := rfl
@[simp] theorem Dev.updClk_fault (d : Dev) (f : Clk → Clk) : (d.updClk f).fault = d.fault := rfl
@[simp] theorem Dev.updClk_lantern (d : Dev) (f : Clk → Clk) : (d.updClk f).lantern = d.lantern := rfl
@[simp] theorem Dev.updClk_trust (d : Dev) (f : Clk → Clk) : (d.updClk f).trust = d.trust := rfl
@[simp] theorem Dev.updClk_link (d : Dev) (f : Clk → Clk) : (d.updClk f).link = d.link := rfl
@[simp] theorem Dev.updClk_chord (d : Dev) (f : Clk → Clk) : (d.updClk f).chord = d.chord := rfl
@[simp] theorem Dev.updClk_leave (d : Dev) (f : Clk → Clk) : (d.updClk f).leave = d.leave := rfl
@[simp] theorem Dev.updClk_banks (d : Dev) (f : Clk → Clk) : (d.updClk f).banks = d.banks := rfl
@[simp] theorem Dev.updClk_test (d : Dev) (f : Clk → Clk) : (d.updClk f).test = d.test := rfl
@[simp] theorem Dev.updClk_free (d : Dev) (f : Clk → Clk) : (d.updClk f).free = d.free := rfl
@[simp] theorem Dev.updClk_cyc (d : Dev) (f : Clk → Clk) : (d.updClk f).cyc = d.cyc := rfl

/-! ## `Dev.updTile` -/

@[simp] theorem Dev.updTile_sys (d : Dev) (f : Tile → Tile) : (d.updTile f).sys = d.sys := rfl
@[simp] theorem Dev.updTile_clk (d : Dev) (f : Tile → Tile) : (d.updTile f).clk = d.clk := rfl
@[simp] theorem Dev.updTile_tile (d : Dev) (f : Tile → Tile) : (d.updTile f).tile = f d.tile := rfl
@[simp] theorem Dev.updTile_pwm (d : Dev) (f : Tile → Tile) : (d.updTile f).pwm = d.pwm := rfl
@[simp] theorem Dev.updTile_pwmg (d : Dev) (f : Tile → Tile) : (d.updTile f).pwmg = d.pwmg := rfl
@[simp] theorem Dev.updTile_sense (d : Dev) (f : Tile → Tile) : (d.updTile f).sense = d.sense := rfl
@[simp] theorem Dev.updTile_loop (d : Dev) (f : Tile → Tile) : (d.updTile f).loop = d.loop := rfl
@[simp] theorem Dev.updTile_rails (d : Dev) (f : Tile → Tile) : (d.updTile f).rails = d.rails := rfl
@[simp] theorem Dev.updTile_cards (d : Dev) (f : Tile → Tile) : (d.updTile f).cards = d.cards := rfl
@[simp] theorem Dev.updTile_prot (d : Dev) (f : Tile → Tile) : (d.updTile f).prot = d.prot := rfl
@[simp] theorem Dev.updTile_sp (d : Dev) (f : Tile → Tile) : (d.updTile f).sp = d.sp := rfl
@[simp] theorem Dev.updTile_ports (d : Dev) (f : Tile → Tile) : (d.updTile f).ports = d.ports := rfl
@[simp] theorem Dev.updTile_fault (d : Dev) (f : Tile → Tile) : (d.updTile f).fault = d.fault := rfl
@[simp] theorem Dev.updTile_lantern (d : Dev) (f : Tile → Tile) : (d.updTile f).lantern = d.lantern := rfl
@[simp] theorem Dev.updTile_trust (d : Dev) (f : Tile → Tile) : (d.updTile f).trust = d.trust := rfl
@[simp] theorem Dev.updTile_link (d : Dev) (f : Tile → Tile) : (d.updTile f).link = d.link := rfl
@[simp] theorem Dev.updTile_chord (d : Dev) (f : Tile → Tile) : (d.updTile f).chord = d.chord := rfl
@[simp] theorem Dev.updTile_leave (d : Dev) (f : Tile → Tile) : (d.updTile f).leave = d.leave := rfl
@[simp] theorem Dev.updTile_banks (d : Dev) (f : Tile → Tile) : (d.updTile f).banks = d.banks := rfl
@[simp] theorem Dev.updTile_test (d : Dev) (f : Tile → Tile) : (d.updTile f).test = d.test := rfl
@[simp] theorem Dev.updTile_free (d : Dev) (f : Tile → Tile) : (d.updTile f).free = d.free := rfl
@[simp] theorem Dev.updTile_cyc (d : Dev) (f : Tile → Tile) : (d.updTile f).cyc = d.cyc := rfl

/-! ## `Dev.updLantern` -/

@[simp] theorem Dev.updLantern_sys (d : Dev) (f : Lantern → Lantern) : (d.updLantern f).sys = d.sys := rfl
@[simp] theorem Dev.updLantern_clk (d : Dev) (f : Lantern → Lantern) : (d.updLantern f).clk = d.clk := rfl
@[simp] theorem Dev.updLantern_tile (d : Dev) (f : Lantern → Lantern) : (d.updLantern f).tile = d.tile := rfl
@[simp] theorem Dev.updLantern_pwm (d : Dev) (f : Lantern → Lantern) : (d.updLantern f).pwm = d.pwm := rfl
@[simp] theorem Dev.updLantern_pwmg (d : Dev) (f : Lantern → Lantern) : (d.updLantern f).pwmg = d.pwmg := rfl
@[simp] theorem Dev.updLantern_sense (d : Dev) (f : Lantern → Lantern) : (d.updLantern f).sense = d.sense := rfl
@[simp] theorem Dev.updLantern_loop (d : Dev) (f : Lantern → Lantern) : (d.updLantern f).loop = d.loop := rfl
@[simp] theorem Dev.updLantern_rails (d : Dev) (f : Lantern → Lantern) : (d.updLantern f).rails = d.rails := rfl
@[simp] theorem Dev.updLantern_cards (d : Dev) (f : Lantern → Lantern) : (d.updLantern f).cards = d.cards := rfl
@[simp] theorem Dev.updLantern_prot (d : Dev) (f : Lantern → Lantern) : (d.updLantern f).prot = d.prot := rfl
@[simp] theorem Dev.updLantern_sp (d : Dev) (f : Lantern → Lantern) : (d.updLantern f).sp = d.sp := rfl
@[simp] theorem Dev.updLantern_ports (d : Dev) (f : Lantern → Lantern) : (d.updLantern f).ports = d.ports := rfl
@[simp] theorem Dev.updLantern_fault (d : Dev) (f : Lantern → Lantern) : (d.updLantern f).fault = d.fault := rfl
@[simp] theorem Dev.updLantern_lantern (d : Dev) (f : Lantern → Lantern) : (d.updLantern f).lantern = f d.lantern := rfl
@[simp] theorem Dev.updLantern_trust (d : Dev) (f : Lantern → Lantern) : (d.updLantern f).trust = d.trust := rfl
@[simp] theorem Dev.updLantern_link (d : Dev) (f : Lantern → Lantern) : (d.updLantern f).link = d.link := rfl
@[simp] theorem Dev.updLantern_chord (d : Dev) (f : Lantern → Lantern) : (d.updLantern f).chord = d.chord := rfl
@[simp] theorem Dev.updLantern_leave (d : Dev) (f : Lantern → Lantern) : (d.updLantern f).leave = d.leave := rfl
@[simp] theorem Dev.updLantern_banks (d : Dev) (f : Lantern → Lantern) : (d.updLantern f).banks = d.banks := rfl
@[simp] theorem Dev.updLantern_test (d : Dev) (f : Lantern → Lantern) : (d.updLantern f).test = d.test := rfl
@[simp] theorem Dev.updLantern_free (d : Dev) (f : Lantern → Lantern) : (d.updLantern f).free = d.free := rfl
@[simp] theorem Dev.updLantern_cyc (d : Dev) (f : Lantern → Lantern) : (d.updLantern f).cyc = d.cyc := rfl

/-! ## `Dev.updTrust` -/

@[simp] theorem Dev.updTrust_sys (d : Dev) (f : Trust → Trust) : (d.updTrust f).sys = d.sys := rfl
@[simp] theorem Dev.updTrust_clk (d : Dev) (f : Trust → Trust) : (d.updTrust f).clk = d.clk := rfl
@[simp] theorem Dev.updTrust_tile (d : Dev) (f : Trust → Trust) : (d.updTrust f).tile = d.tile := rfl
@[simp] theorem Dev.updTrust_pwm (d : Dev) (f : Trust → Trust) : (d.updTrust f).pwm = d.pwm := rfl
@[simp] theorem Dev.updTrust_pwmg (d : Dev) (f : Trust → Trust) : (d.updTrust f).pwmg = d.pwmg := rfl
@[simp] theorem Dev.updTrust_sense (d : Dev) (f : Trust → Trust) : (d.updTrust f).sense = d.sense := rfl
@[simp] theorem Dev.updTrust_loop (d : Dev) (f : Trust → Trust) : (d.updTrust f).loop = d.loop := rfl
@[simp] theorem Dev.updTrust_rails (d : Dev) (f : Trust → Trust) : (d.updTrust f).rails = d.rails := rfl
@[simp] theorem Dev.updTrust_cards (d : Dev) (f : Trust → Trust) : (d.updTrust f).cards = d.cards := rfl
@[simp] theorem Dev.updTrust_prot (d : Dev) (f : Trust → Trust) : (d.updTrust f).prot = d.prot := rfl
@[simp] theorem Dev.updTrust_sp (d : Dev) (f : Trust → Trust) : (d.updTrust f).sp = d.sp := rfl
@[simp] theorem Dev.updTrust_ports (d : Dev) (f : Trust → Trust) : (d.updTrust f).ports = d.ports := rfl
@[simp] theorem Dev.updTrust_fault (d : Dev) (f : Trust → Trust) : (d.updTrust f).fault = d.fault := rfl
@[simp] theorem Dev.updTrust_lantern (d : Dev) (f : Trust → Trust) : (d.updTrust f).lantern = d.lantern := rfl
@[simp] theorem Dev.updTrust_trust (d : Dev) (f : Trust → Trust) : (d.updTrust f).trust = f d.trust := rfl
@[simp] theorem Dev.updTrust_link (d : Dev) (f : Trust → Trust) : (d.updTrust f).link = d.link := rfl
@[simp] theorem Dev.updTrust_chord (d : Dev) (f : Trust → Trust) : (d.updTrust f).chord = d.chord := rfl
@[simp] theorem Dev.updTrust_leave (d : Dev) (f : Trust → Trust) : (d.updTrust f).leave = d.leave := rfl
@[simp] theorem Dev.updTrust_banks (d : Dev) (f : Trust → Trust) : (d.updTrust f).banks = d.banks := rfl
@[simp] theorem Dev.updTrust_test (d : Dev) (f : Trust → Trust) : (d.updTrust f).test = d.test := rfl
@[simp] theorem Dev.updTrust_free (d : Dev) (f : Trust → Trust) : (d.updTrust f).free = d.free := rfl
@[simp] theorem Dev.updTrust_cyc (d : Dev) (f : Trust → Trust) : (d.updTrust f).cyc = d.cyc := rfl

/-! ## The present LOOP_CLK cycle -/

@[simp] theorem Dev.openCycle_sys (d : Dev) : d.openCycle.sys = d.sys := rfl
@[simp] theorem Dev.openCycle_clk (d : Dev) : d.openCycle.clk = d.clk := rfl
@[simp] theorem Dev.openCycle_tile (d : Dev) : d.openCycle.tile = d.tile := rfl
@[simp] theorem Dev.openCycle_pwm (d : Dev) : d.openCycle.pwm = d.pwm := rfl
@[simp] theorem Dev.openCycle_pwmg (d : Dev) : d.openCycle.pwmg = d.pwmg := rfl
@[simp] theorem Dev.openCycle_sense (d : Dev) : d.openCycle.sense = d.sense := rfl
@[simp] theorem Dev.openCycle_loop (d : Dev) : d.openCycle.loop = d.loop := rfl
@[simp] theorem Dev.openCycle_rails (d : Dev) : d.openCycle.rails = d.rails := rfl
@[simp] theorem Dev.openCycle_cards (d : Dev) : d.openCycle.cards = d.cards := rfl
@[simp] theorem Dev.openCycle_prot (d : Dev) : d.openCycle.prot = d.prot := rfl
@[simp] theorem Dev.openCycle_sp (d : Dev) : d.openCycle.sp = d.sp := rfl
@[simp] theorem Dev.openCycle_ports (d : Dev) : d.openCycle.ports = d.ports := rfl
@[simp] theorem Dev.openCycle_fault (d : Dev) : d.openCycle.fault = d.fault := rfl
@[simp] theorem Dev.openCycle_lantern (d : Dev) : d.openCycle.lantern = d.lantern := rfl
@[simp] theorem Dev.openCycle_trust (d : Dev) : d.openCycle.trust = d.trust := rfl
@[simp] theorem Dev.openCycle_link (d : Dev) : d.openCycle.link = d.link := rfl
@[simp] theorem Dev.openCycle_chord (d : Dev) : d.openCycle.chord = d.chord := rfl
@[simp] theorem Dev.openCycle_leave (d : Dev) : d.openCycle.leave = d.leave := rfl
@[simp] theorem Dev.openCycle_banks (d : Dev) : d.openCycle.banks = d.banks := rfl
@[simp] theorem Dev.openCycle_test (d : Dev) : d.openCycle.test = d.test := rfl
@[simp] theorem Dev.openCycle_free (d : Dev) : d.openCycle.free = d.free := rfl
@[simp] theorem Dev.openCycle_cyc (d : Dev) : d.openCycle.cyc = { no := d.cycle, cur := d.tile.cur, rails := d.rails, cards := d.cards, ctx := d.loop.ctx, lines := d.prot.lines, state := d.sys.devState } := rfl

@[simp] theorem Dev.setsBit_sys (d : Dev) (x : W1cBit) : (d.setsBit x).sys = d.sys := rfl
@[simp] theorem Dev.setsBit_clk (d : Dev) (x : W1cBit) : (d.setsBit x).clk = d.clk := rfl
@[simp] theorem Dev.setsBit_tile (d : Dev) (x : W1cBit) : (d.setsBit x).tile = d.tile := rfl
@[simp] theorem Dev.setsBit_pwm (d : Dev) (x : W1cBit) : (d.setsBit x).pwm = d.pwm := rfl
@[simp] theorem Dev.setsBit_pwmg (d : Dev) (x : W1cBit) : (d.setsBit x).pwmg = d.pwmg := rfl
@[simp] theorem Dev.setsBit_sense (d : Dev) (x : W1cBit) : (d.setsBit x).sense = d.sense := rfl
@[simp] theorem Dev.setsBit_loop (d : Dev) (x : W1cBit) : (d.setsBit x).loop = d.loop := rfl
@[simp] theorem Dev.setsBit_rails (d : Dev) (x : W1cBit) : (d.setsBit x).rails = d.rails := rfl
@[simp] theorem Dev.setsBit_cards (d : Dev) (x : W1cBit) : (d.setsBit x).cards = d.cards := rfl
@[simp] theorem Dev.setsBit_prot (d : Dev) (x : W1cBit) : (d.setsBit x).prot = d.prot := rfl
@[simp] theorem Dev.setsBit_sp (d : Dev) (x : W1cBit) : (d.setsBit x).sp = d.sp := rfl
@[simp] theorem Dev.setsBit_ports (d : Dev) (x : W1cBit) : (d.setsBit x).ports = d.ports := rfl
@[simp] theorem Dev.setsBit_fault (d : Dev) (x : W1cBit) : (d.setsBit x).fault = d.fault := rfl
@[simp] theorem Dev.setsBit_lantern (d : Dev) (x : W1cBit) : (d.setsBit x).lantern = d.lantern := rfl
@[simp] theorem Dev.setsBit_trust (d : Dev) (x : W1cBit) : (d.setsBit x).trust = d.trust := rfl
@[simp] theorem Dev.setsBit_link (d : Dev) (x : W1cBit) : (d.setsBit x).link = d.link := rfl
@[simp] theorem Dev.setsBit_chord (d : Dev) (x : W1cBit) : (d.setsBit x).chord = d.chord := rfl
@[simp] theorem Dev.setsBit_leave (d : Dev) (x : W1cBit) : (d.setsBit x).leave = d.leave := rfl
@[simp] theorem Dev.setsBit_banks (d : Dev) (x : W1cBit) : (d.setsBit x).banks = d.banks := rfl
@[simp] theorem Dev.setsBit_test (d : Dev) (x : W1cBit) : (d.setsBit x).test = d.test := rfl
@[simp] theorem Dev.setsBit_free (d : Dev) (x : W1cBit) : (d.setsBit x).free = d.free := rfl
@[simp] theorem Dev.setsBit_cyc (d : Dev) (x : W1cBit) : (d.setsBit x).cyc = { d.cyc with sets := x :: d.cyc.sets } := rfl

@[simp] theorem Dev.lineEvent_sys (d : Dev) (f : Link → Link) : (d.lineEvent f).sys = d.sys := rfl
@[simp] theorem Dev.lineEvent_clk (d : Dev) (f : Link → Link) : (d.lineEvent f).clk = d.clk := rfl
@[simp] theorem Dev.lineEvent_tile (d : Dev) (f : Link → Link) : (d.lineEvent f).tile = d.tile := rfl
@[simp] theorem Dev.lineEvent_pwm (d : Dev) (f : Link → Link) : (d.lineEvent f).pwm = d.pwm := rfl
@[simp] theorem Dev.lineEvent_pwmg (d : Dev) (f : Link → Link) : (d.lineEvent f).pwmg = d.pwmg := rfl
@[simp] theorem Dev.lineEvent_sense (d : Dev) (f : Link → Link) : (d.lineEvent f).sense = d.sense := rfl
@[simp] theorem Dev.lineEvent_loop (d : Dev) (f : Link → Link) : (d.lineEvent f).loop = d.loop := rfl
@[simp] theorem Dev.lineEvent_rails (d : Dev) (f : Link → Link) : (d.lineEvent f).rails = d.rails := rfl
@[simp] theorem Dev.lineEvent_cards (d : Dev) (f : Link → Link) : (d.lineEvent f).cards = d.cards := rfl
@[simp] theorem Dev.lineEvent_prot (d : Dev) (f : Link → Link) : (d.lineEvent f).prot = d.prot := rfl
@[simp] theorem Dev.lineEvent_sp (d : Dev) (f : Link → Link) : (d.lineEvent f).sp = d.sp := rfl
@[simp] theorem Dev.lineEvent_ports (d : Dev) (f : Link → Link) : (d.lineEvent f).ports = d.ports := rfl
@[simp] theorem Dev.lineEvent_fault (d : Dev) (f : Link → Link) : (d.lineEvent f).fault = d.fault := rfl
@[simp] theorem Dev.lineEvent_lantern (d : Dev) (f : Link → Link) : (d.lineEvent f).lantern = d.lantern := rfl
@[simp] theorem Dev.lineEvent_trust (d : Dev) (f : Link → Link) : (d.lineEvent f).trust = d.trust := rfl
@[simp] theorem Dev.lineEvent_link (d : Dev) (f : Link → Link) : (d.lineEvent f).link = f d.link := rfl
@[simp] theorem Dev.lineEvent_chord (d : Dev) (f : Link → Link) : (d.lineEvent f).chord = d.chord := rfl
@[simp] theorem Dev.lineEvent_leave (d : Dev) (f : Link → Link) : (d.lineEvent f).leave = d.leave := rfl
@[simp] theorem Dev.lineEvent_banks (d : Dev) (f : Link → Link) : (d.lineEvent f).banks = d.banks := rfl
@[simp] theorem Dev.lineEvent_test (d : Dev) (f : Link → Link) : (d.lineEvent f).test = d.test := rfl
@[simp] theorem Dev.lineEvent_free (d : Dev) (f : Link → Link) : (d.lineEvent f).free = d.free := rfl
@[simp] theorem Dev.lineEvent_cyc (d : Dev) (f : Link → Link) : (d.lineEvent f).cyc = { d.cyc with counts := d.cyc.counts ++ d.link.counted (f d.link) } := rfl

/-! ## Time -/

@[simp] theorem Dev.clockTo_sys (d : Dev) (t : Tick) : (d.clockTo t).sys = d.sys := by unfold Dev.clockTo; dsimp only; split <;> rfl
@[simp] theorem Dev.clockTo_clk (d : Dev) (t : Tick) : (d.clockTo t).clk = { d.clk with now := d.clk.reach t } := by unfold Dev.clockTo; dsimp only; split <;> rfl
@[simp] theorem Dev.clockTo_tile (d : Dev) (t : Tick) : (d.clockTo t).tile = d.tile := by unfold Dev.clockTo; dsimp only; split <;> rfl
@[simp] theorem Dev.clockTo_pwm (d : Dev) (t : Tick) : (d.clockTo t).pwm = d.pwm := by unfold Dev.clockTo; dsimp only; split <;> rfl
@[simp] theorem Dev.clockTo_pwmg (d : Dev) (t : Tick) : (d.clockTo t).pwmg = d.pwmg := by unfold Dev.clockTo; dsimp only; split <;> rfl
@[simp] theorem Dev.clockTo_sense (d : Dev) (t : Tick) : (d.clockTo t).sense = d.sense := by unfold Dev.clockTo; dsimp only; split <;> rfl
@[simp] theorem Dev.clockTo_loop (d : Dev) (t : Tick) : (d.clockTo t).loop = d.loop := by unfold Dev.clockTo; dsimp only; split <;> rfl
@[simp] theorem Dev.clockTo_rails (d : Dev) (t : Tick) : (d.clockTo t).rails = d.rails := by unfold Dev.clockTo; dsimp only; split <;> rfl
@[simp] theorem Dev.clockTo_cards (d : Dev) (t : Tick) : (d.clockTo t).cards = d.cards := by unfold Dev.clockTo; dsimp only; split <;> rfl
@[simp] theorem Dev.clockTo_prot (d : Dev) (t : Tick) : (d.clockTo t).prot = d.prot := by unfold Dev.clockTo; dsimp only; split <;> rfl
@[simp] theorem Dev.clockTo_sp (d : Dev) (t : Tick) : (d.clockTo t).sp = d.sp := by unfold Dev.clockTo; dsimp only; split <;> rfl
@[simp] theorem Dev.clockTo_ports (d : Dev) (t : Tick) : (d.clockTo t).ports = d.ports := by unfold Dev.clockTo; dsimp only; split <;> rfl
@[simp] theorem Dev.clockTo_fault (d : Dev) (t : Tick) : (d.clockTo t).fault = d.fault := by unfold Dev.clockTo; dsimp only; split <;> rfl
@[simp] theorem Dev.clockTo_lantern (d : Dev) (t : Tick) : (d.clockTo t).lantern = d.lantern := by unfold Dev.clockTo; dsimp only; split <;> rfl
@[simp] theorem Dev.clockTo_trust (d : Dev) (t : Tick) : (d.clockTo t).trust = d.trust := by unfold Dev.clockTo; dsimp only; split <;> rfl
@[simp] theorem Dev.clockTo_link (d : Dev) (t : Tick) : (d.clockTo t).link = d.link := by unfold Dev.clockTo; dsimp only; split <;> rfl
@[simp] theorem Dev.clockTo_chord (d : Dev) (t : Tick) : (d.clockTo t).chord = d.chord := by unfold Dev.clockTo; dsimp only; split <;> rfl
@[simp] theorem Dev.clockTo_leave (d : Dev) (t : Tick) : (d.clockTo t).leave = d.leave := by unfold Dev.clockTo; dsimp only; split <;> rfl
@[simp] theorem Dev.clockTo_banks (d : Dev) (t : Tick) : (d.clockTo t).banks = d.banks := by unfold Dev.clockTo; dsimp only; split <;> rfl
@[simp] theorem Dev.clockTo_test (d : Dev) (t : Tick) : (d.clockTo t).test = d.test := by unfold Dev.clockTo; dsimp only; split <;> rfl
@[simp] theorem Dev.clockTo_free (d : Dev) (t : Tick) : (d.clockTo t).free = d.free := by unfold Dev.clockTo; dsimp only; split <;> rfl

/-! ## The state after a command -/

@[simp] theorem State.after_dev (s : State) (t : Tick) (d : Dev) : (s.after t d).dev = Dev.finish (s.dev.advance t) d := rfl
@[simp] theorem State.after_mem (s : State) (t : Tick) (d : Dev) : (s.after t d).mem = s.mem := rfl
@[simp] theorem State.after_pending (s : State) (t : Tick) (d : Dev) : (s.after t d).pending = s.pending := rfl

end Sys2Proof.Machine
end

