-- ==== Sys2Proof/Laws/Ops.lean ====
section
/-! SUPPORT. The shared operations: for each, what it can do and the blocks it leaves alone. -/

namespace Sys2Proof.Machine

open Sys2Proof

/-! ## Frames -/

theorem Dev.onlyIn_refl (d : Dev) (bs : List Block) : d.onlyIn d bs := by
  intro b _; cases b <;> rfl

theorem Dev.onlyIn_trans {a b c : Dev} {bs cs : List Block} (h : a.onlyIn b bs) (k : b.onlyIn c cs) : a.onlyIn c (bs ++ cs) := by
  intro x hx
  have h1 := h x fun m => hx (List.mem_append_left _ m)
  have h2 := k x fun m => hx (List.mem_append_right _ m)
  cases x <;> exact h2.trans h1

theorem Dev.onlyIn_mono {a b : Dev} {bs cs : List Block} (h : a.onlyIn b bs) (hs : ∀ x ∈ bs, x ∈ cs) : a.onlyIn b cs :=
  fun x hx => h x fun m => hx (hs x m)

/-- What each step of a loop leaves alone the loop leaves alone. -/
theorem Dev.onlyIn_foldl {α : Type} {bs : List Block} (f : Dev → α → Dev) (h : ∀ (d : Dev) (x : α), d.onlyIn (f d x) bs) :
    ∀ (xs : List α) (d : Dev), d.onlyIn (xs.foldl f d) bs
  | [], d => Dev.onlyIn_refl d bs
  | x :: xs, d => Dev.onlyIn_mono (Dev.onlyIn_trans (h d x) (Dev.onlyIn_foldl f h xs (f d x))) (by simp)

/-! ## Responses (R461, R467) -/

@[simp] theorem Dev.reply_lastStatus (d : Dev) (st : Byte) (data : List Byte) : (d.reply st data).link.lastStatus = st := by
  unfold Dev.reply; dsimp only; split <;> rfl

@[simp] theorem Dev.reply_lastData (d : Dev) (st : Byte) (data : List Byte) : (d.reply st data).link.lastData = data := by
  unfold Dev.reply; dsimp only; split <;> rfl

@[simp] theorem Dev.reply_holding (d : Dev) (st : Byte) (data : List Byte) : (d.reply st data).link.holding = false := by
  unfold Dev.reply; dsimp only; split <;> rfl

/-- A response changes the link alone. -/
theorem Dev.reply_eq (d : Dev) (st : Byte) (data : List Byte) : d.reply st data = { d with link := (d.reply st data).link } := by
  unfold Dev.reply; dsimp only; split <;> rfl

theorem Dev.reply_onlyIn (d : Dev) (st : Byte) (data : List Byte) : d.onlyIn (d.reply st data) [.link] := by
  rw [Dev.reply_eq]; intro b hb; cases b <;> first | rfl | (simp at hb)

/-- While a transaction of the window waits, the first of them is the one answered. -/
theorem takeFirst_some : ∀ w : List Taken, (∃ x ∈ w, x.done = false) → ∃ w' x, takeFirst w = (w', some x) ∧ x ∈ w ∧ x.done = false
  | [], h => by simp at h
  | y :: w, h => by
    unfold takeFirst
    by_cases hy : y.done = true
    · have : ∃ x ∈ w, x.done = false := by
        obtain ⟨x, hx, hd⟩ := h
        rcases List.mem_cons.1 hx with rfl | hx
        · simp [hy] at hd
        · exact ⟨x, hx, hd⟩
      obtain ⟨w', x, e, hx, hd⟩ := takeFirst_some w this
      exact ⟨y :: w', x, by simp [hy, e], List.mem_cons_of_mem _ hx, hd⟩
    · exact ⟨{ y with done := true } :: w, y, by simp [hy], by simp, by simpa using hy⟩

theorem takeFirst_none : ∀ w : List Taken, (∀ x ∈ w, x.done = true) → takeFirst w = (w, none)
  | [], _ => rfl
  | y :: w, h => by
    simp [takeFirst, h y (by simp), takeFirst_none w fun x hx => h x (List.mem_cons_of_mem _ hx)]

/-! ## Leave (R519 to R522) -/

/-- A request joins at the end of the queue, when no request of its own HK_CLK cycle waits. -/
theorem Dev.joinQueue_end (d : Dev) (q : LeaveReq) (h : ∀ x ∈ d.leave.queue, d.clk.hkCycle x.arrival ≠ d.clk.hkCycle q.arrival) :
    d.joinQueue q = d.leave.queue ++ [q] := by
  have hp : ∀ x ∈ d.leave.queue, (!(d.clk.hkCycle x.arrival == d.clk.hkCycle q.arrival && x.behind q)) = true := by
    intro x hx; simp [h x hx]
  have ht := List.takeWhile_eq_self_iff.2 hp
  have hd := List.dropWhile_eq_nil_iff.2 hp
  unfold Dev.joinQueue
  dsimp only
  rw [ht, hd]

/-- A request that finds room in the queue and in the budget joins it. -/
theorem Dev.askLeave_joins (d : Dev) (k : LeaveKind) (x : Byte) (hq : d.leave.queue.length < 32) (hb : k.cost ≤ d.leave.budget.toNat) :
    d.askLeave k x = ({ d with leave := { d.leave with queue := d.joinQueue { kind := k, target := x, arrival := d.clk.now } } }, true) := by
  unfold Dev.askLeave
  rw [if_neg (by omega)]

/-- A request that finds 32 waiting, or that costs more than the whole budget, is refused at once. -/
theorem Dev.askLeave_refused (d : Dev) (k : LeaveKind) (x : Byte) (h : 32 ≤ d.leave.queue.length ∨ d.leave.budget.toNat < k.cost) :
    d.askLeave k x = ({ d with leave := { d.leave with cnt := upd d.leave.cnt k.ix fun c => { c with refused := c.refused + 1 } } }, false) := by
  unfold Dev.askLeave
  rw [if_pos h]

theorem Dev.askTrust_joins (d : Dev) (j : TrustJob) (hq : d.leave.queue.length < 32) (hb : 300 ≤ d.leave.budget.toNat) :
    d.askTrust j = ({ d with
      leave := { d.leave with queue := d.joinQueue { kind := .signature, target := leaveAll, arrival := d.clk.now } }
      trust := { d.trust with waiting := d.trust.waiting ++ [j] } }, true) := by
  unfold Dev.askTrust
  rw [Dev.askLeave_joins d .signature leaveAll hq hb]
  rfl

/-! ## Causes (R400, R404, R405) -/

theorem setBit_get {w : Nat} (x : BitVec w) (i : Fin w) (b : Bool) : (setBit x i.val b)[i.val] = b := by
  unfold setBit; cases b <;> simp

theorem Dev.setCause_src (d : Dev) (k k' : SrcIx) (i : PhaseIx) (b : Bool) (l : List Byte) :
    (d.setCause k i b l).fault.src[k'.val] =
      if k' = k then { d.fault.src[k.val] with cause := setBit d.fault.src[k.val].cause i.val (b && d.srcLives k) } else d.fault.src[k'.val] := by
  simp only [Dev.setCause]
  by_cases h : k' = k
  · subst h; simp
  · have : k.val ≠ k'.val := fun e => h (Fin.ext e.symm)
    simp [h, this]

@[simp] theorem Dev.eventNow_setCause (d : Dev) (k k' : SrcIx) (i j : PhaseIx) (b : Bool) (l : List Byte) :
    (d.setCause k i b l).eventNow k' j = d.eventNow k' j := rfl

/-- The cause of the instance follows what was said of it where the source has one, unless an event of the cycle or a force holds it
    present. -/
@[simp] theorem Dev.causeOf_setCause (d : Dev) (k : SrcIx) (i : PhaseIx) (b : Bool) (l : List Byte) : (d.setCause k i b l).causeOf k i =
    (b && d.srcLives k || d.eventNow k i || (d.fault.src[k.val].force && (!srcPerPhase k || d.fault.src[k.val].forcedInst == i))) := by
  simp [Dev.causeOf, Dev.setCause_src, setBit_get]

/-- Every other source stands as it stood. -/
@[simp] theorem Dev.causeOf_setCause_ne (d : Dev) (k k' : SrcIx) (i j : PhaseIx) (b : Bool) (l : List Byte) (h : k' ≠ k) :
    (d.setCause k i b l).causeOf k' j = d.causeOf k' j := by
  simp [Dev.causeOf, Dev.setCause_src, h]

@[simp] theorem Dev.setCause_force (d : Dev) (k k' : SrcIx) (i : PhaseIx) (b : Bool) (l : List Byte) :
    (d.setCause k i b l).fault.src[k'.val].force = d.fault.src[k'.val].force := by
  rw [Dev.setCause_src]; split
  · rename_i h; subst h; rfl
  · rfl

@[simp] theorem Dev.setCause_forcedInst (d : Dev) (k k' : SrcIx) (i : PhaseIx) (b : Bool) (l : List Byte) :
    (d.setCause k i b l).fault.src[k'.val].forcedInst = d.fault.src[k'.val].forcedInst := by
  rw [Dev.setCause_src]; split
  · rename_i h; subst h; rfl
  · rfl

theorem Dev.setCause_onlyIn (d : Dev) (k : SrcIx) (i : PhaseIx) (b : Bool) (l : List Byte) : d.onlyIn (d.setCause k i b l) [.fault] := by
  intro x hx; cases x <;> first | rfl | (simp at hx)

theorem Dev.raiseEvent_onlyIn (d : Dev) (k : SrcIx) (i : PhaseIx) (l : List Byte) : d.onlyIn (d.raiseEvent k i l) [.fault] := by
  have h : d.onlyIn ((d.setCause k i true l).setCause k i false) [.fault] :=
    Dev.onlyIn_mono (Dev.onlyIn_trans (Dev.setCause_onlyIn d k i true l) (Dev.setCause_onlyIn _ k i false [])) (by simp)
  unfold Dev.raiseEvent
  dsimp only
  split
  · intro x hx; have := h x hx; cases x <;> exact this
  · exact h

theorem Dev.event_onlyIn (d : Dev) (c : Nat) : d.onlyIn (d.event c) [.fault] := by
  intro x hx; cases x <;> first | rfl | (simp at hx)

/-! ## The journal (R423 to R430) -/

/-- A record changes the journal and, through the alert, the fault manager. -/
theorem Dev.journal_onlyIn (d : Dev) (i : RecIn) : d.onlyIn (d.journal i).1 [.lantern, .fault] := by
  unfold Dev.journal
  dsimp only
  intro b hb
  split
  · cases b <;> first | rfl | (simp at hb)
  · split
    · cases b <;> first | rfl | (simp at hb)
    · split
      · cases b <;> first | rfl | (simp at hb)
      · unfold Dev.alert
        dsimp only
        split <;> cases b <;> first | rfl | (simp at hb)

theorem Dev.noteNext_onlyIn (d : Dev) (code : Nat) (level : Fin 5) (source : Nat) (data : List Byte) :
    d.onlyIn (d.noteNext code level source data) [.lantern, .fault] := Dev.journal_onlyIn _ _

theorem Dev.realert_onlyIn (d : Dev) (k : Nat) : d.onlyIn (d.realert k) [.fault] := by
  unfold Dev.realert
  intro b hb
  split <;> cases b <;> first | rfl | (simp at hb)

/-- A record that takes its place moves only in the journal, and the alert latch with it (R416, R423). -/
theorem Dev.placed_onlyIn (d x : Dev) : x.onlyIn (d.placed x) [.lantern, .fault] := by
  unfold Dev.placed
  generalize (if d.cyc.no == d.cycle then d.cyc.notes else 0) = k
  dsimp only
  have put : ∀ (l : Lantern) (c : Cyc), x.onlyIn { x with lantern := l, cyc := c } [.lantern, .fault] := fun l c b hb => by
    cases b <;> first | rfl | (simp at hb)
  split
  · exact Dev.onlyIn_refl x _
  · split
    · exact Dev.onlyIn_mono (Dev.onlyIn_trans (put _ _) (Dev.realert_onlyIn _ _)) (by simp)
    · exact put _ _

/-- A record in its order of the cycle (R423): what a record changes, and no more. -/
theorem Dev.note_onlyIn (d : Dev) (code : Nat) (level : Fin 5) (source : Nat) (data : List Byte) :
    d.onlyIn (d.note code level source data) [.lantern, .fault] := by
  exact Dev.onlyIn_mono (Dev.onlyIn_trans (Dev.noteNext_onlyIn d code level source data) (Dev.placed_onlyIn d _)) (by simp)

/-- The device state changes to the one named, and a record says so: all else is what the record changes. -/
theorem Dev.setState_parts (d : Dev) (st : DevState) : (d.setState st).sys = { d.sys with devState := st } ∧
    d.onlyIn (d.setState st) [.sys, .lantern, .fault] := by
  have h := Dev.note_onlyIn { d with sys := { d.sys with devState := st } } 0x0015 0 0xFFFF [(d.stateFrom st).code.setWidth 8, st.code.setWidth 8]
  unfold Dev.setState Dev.changeTo
  dsimp only
  split
  · exact ⟨rfl, fun b hb => by cases b <;> first | rfl | (simp at hb)⟩
  · refine ⟨h .sys (by simp), fun b hb => ?_⟩
    have := h b (fun m => hb (by simp only [List.mem_cons] at m ⊢; exact Or.inr m))
    cases b <;> first | exact this | (simp at hb)

theorem Dev.setState_sys (d : Dev) (st : DevState) : (d.setState st).sys = { d.sys with devState := st } := (d.setState_parts st).1

theorem Dev.setState_onlyIn (d : Dev) (st : DevState) : d.onlyIn (d.setState st) [.sys, .lantern, .fault] := (d.setState_parts st).2

end Sys2Proof.Machine
end

