-- ==== Sys2Proof/WellFormed.lean ====
section
/-! DEFINITION. Which commands can reach the device: the lengths the link and the chapters fix (R160, R433, R445,
    R452, R461, R475, R476, R485). -/

namespace Sys2Proof

/-- Length between two bounds. -/
def lenIn {α : Type} (xs : List α) (lo hi : Nat) : Bool := decide (lo ≤ xs.length) && decide (xs.length ≤ hi)

/-- A command is well formed when its byte strings and lists have a length the hardware can carry. -/
def Instr.wellFormed : Instr → Bool
  | .tileBlock _ _ d => lenIn d 4 128 && d.length % 4 == 0
  | .tokenClear _ b | .tokenClaim _ b | .tokenInstall _ b | .tokenRevoke _ b | .tokenUnlock _ b => lenIn b 240 240
  | .attestIdentity _ b | .attestRecords _ b | .attestCalibration _ b => lenIn b 52 52
  | .requestFrame _ _ p => lenIn p 0 256
  | .writeBurst _ _ ws => lenIn ws 1 62
  | .fgcalDone _ ms => lenIn ms 0 20
  | .calDone _ slices ats raws cms => slices.length == raws.length && ats.length == raws.length && cms.length == raws.length
  | .coldStart _ o => lenIn o.slices 0 20 && lenIn o.lines 0 64
  | .warmStart _ o => lenIn o.cold.slices 0 20 && lenIn o.lines 0 64
  | .frameRxFail _ r => lenIn r 0 270
  | .chordProbeRx _ r | .chordEchoRx _ r _ | .chordDownRx _ r _ | .chordUpRx _ r => lenIn r 0 526
  | _ => true

end Sys2Proof
end

