-- ==== Sys2Proof/Tests/Slice0.lean ====
section
/-! SUPPORT. Tests: ill-formed commands are refused by `Instr.wellFormed`; worked values of the spec; and for the statements that have
    hypotheses, states and operands that meet them (`hyps_…`), clause by clause. -/

namespace Sys2Proof.Tests

open Sys2Proof Sys2Proof.Machine

set_option Elab.async false

/-! ## States to test with -/

/-- A device in STANDBY, untiled structure, nothing under way. -/
def idle : Dev :=
  { sys := { devState := .standby, start := none, rdyLowStart := false }, clk := { now := 960000000, pllLock := true }, prot := { aStop := false, bStop := false } }

/-- Rail 0 with LOOP phase 0 and HOST phase 1; storage rail 1 of port 0 without phases. -/
def map1 : Tiling :=
  { phases := ((Vector.replicate 64 {}).set 0 { rail := some 0 }).set 1 { rail := some 0, host := true, group := 1 }, rails := ((Vector.replicate 8 none).set 0 (some { rating := 1000 })).set 1 (some { storage := true }), seqs := (Vector.replicate 4 none).set 0 (some { reg := [{}], inj := [{}], timer := 4800 }), accs := (Vector.replicate 256 none).set 0 (some { n := 4 }), trks := (Vector.replicate 64 none).set 0 (some {}), topo := (Vector.replicate 80 {}).set 0 { enable := true }, stores := (Vector.replicate 4 none).set 0 (some { rail := 1, inreg := some 72 }), snaps := (Vector.replicate 8 none).set 0 (some [0x004000]) }

/-- The same device tiled with it, its cards present and qualified. -/
def tiled : Dev := { idle with tile := { cur := map1, committed := map1, tiled := true }, cards := Vector.replicate 8 ({ state := .qualified } : Card) }

/-- Rail 0 regulates, its phase 0 active, and the device is in RUN. -/
def run : Dev :=
  { tiled with sys := { tiled.sys with devState := .run }, rails := tiled.rails.set 0 { mode := .regulate, vscale := 1000, iscale := 1000 }, pwm := tiled.pwm.set 0 ({ mask := { unused := false } } : Pwm) }

/-- In boot hold, its link in sync. -/
def held : Dev :=
  { idle with sys := { idle.sys with devState := .boot, bootHold := true }, link := { rxSync := true } }

/-- A host transaction executes: `Dev.takesHost`, decidable. -/
abbrev host (d : Dev) (i : Instr) : Prop := d.linkBlocked = false ∧ d.sys.bootHold = false ∧ d.asked i = true

/-- `d` with one transaction in its window. -/
def asks (p : List Byte) (d : Dev) : Dev := { d with link := { d.link with window := [{ seq := 0, payload := p }] } }

/-- A device whose window holds a payload takes the command that it spells. -/
abbrev takes (d : Dev) (x : List Byte × Instr) : Prop := host ((asks x.1 d).advance 0) x.2

/-- `d` with what its LOOP_CLK cycle has seen. -/
def inCycle (d : Dev) (c : Cyc) : Dev := { d with cyc := { c with no := 480000000 } }

/-- Room for a request of a cost in the leave queue. -/
abbrev room (d : Dev) (cost : Nat) : Prop := d.leave.queue.length < 32 ∧ cost ≤ d.leave.budget.toNat

/-! ## Ill-formed commands -/

theorem test_illformed_tileBlock : (Instr.tileBlock 0 0 [1, 2, 3]).wellFormed = false ∧ (Instr.tileBlock 0 0 [1, 2, 3, 4]).wellFormed = true := by decide
theorem test_illformed_tokens : (Instr.tokenClear 0 []).wellFormed = false ∧ (Instr.tokenClaim 0 []).wellFormed = false ∧
    (Instr.tokenInstall 0 []).wellFormed = false ∧ (Instr.tokenRevoke 0 []).wellFormed = false ∧ (Instr.tokenUnlock 0 [0]).wellFormed = false := by decide
theorem test_illformed_attest : (Instr.attestIdentity 0 []).wellFormed = false ∧ (Instr.attestRecords 0 []).wellFormed = false ∧
    (Instr.attestCalibration 0 []).wellFormed = false := by decide
theorem test_illformed_frame : (Instr.requestFrame 0 0 (List.replicate 257 0)).wellFormed = false := by decide +kernel
theorem test_illformed_burst : (Instr.writeBurst 0 0x100000 []).wellFormed = false ∧ (Instr.writeBurst 0 0x100000 (List.replicate 63 0)).wellFormed = false := by
  decide +kernel
theorem test_illformed_calDone : (Instr.calDone 0 [0] [0] [5] []).wellFormed = false ∧ (Instr.calDone 0 [0] [] [5] [true]).wellFormed = false ∧
    (Instr.calDone 0 [0] [0] [5] [true]).wellFormed = true := by decide
theorem test_illformed_results : (Instr.fgcalDone 0 (List.replicate 21 {})).wellFormed = false ∧
    (Instr.coldStart 0 { lines := List.replicate 65 {} }).wellFormed = false ∧ (Instr.warmStart 0 { lines := List.replicate 65 {} }).wellFormed = false ∧
    (Instr.chordUpRx 0 (List.replicate 527 none)).wellFormed = false ∧ (Instr.frameRxFail 0 (List.replicate 271 none)).wellFormed = false := by decide +kernel

/-! ## Worked values -/

/-- FIPS 180-4: SHA-256 of "abc". -/
theorem test_sha256 : sha256 [0x61, 0x62, 0x63] = beBytes 32 0xba7816bf8f01cfea414140de5dae2223b00361a396177a9cb410ff61f20015ad := by decide +kernel
/-- RFC 6979, A.2.5: the nonce for "sample" with SHA-256. -/
theorem test_rfc6979 : let seed := beBytes 32 0xC9AFA9D845BA75166B5C215767B1D6934E50C3DB36E89B127B8A622B120F6721 ++ sha256 [0x73, 0x61, 0x6D, 0x70, 0x6C, 0x65]
    let v := List.replicate 32 1
    let key := hmac (List.replicate 32 0) (v ++ 0 :: seed)
    let v := hmac key v
    let key := hmac key (v ++ 1 :: seed)
    let v := hmac key v
    beNat (hmac key v) = 0xA6E3C57DD01ABE90086538398355DD4C3B17AA873382B0F24D6129493D8AAD60 := by decide +kernel
/-- CRC-32C of "123456789". -/
theorem test_crc32c : crc32c [0x31, 0x32, 0x33, 0x34, 0x35, 0x36, 0x37, 0x38, 0x39] = 0xE3069283 := by decide +kernel
/-- R518's example: with a 500 mW budget, a burst behind a verification and a rotation waits and the phase start behind it with it. -/
theorem test_leave_example : let l : Leave := { budget := 500, grants := [{ kind := .rotation, target := 1 }], queue := [{ kind := .mram, target := 0xFF, arrival := 0 }, { kind := .phaseStart, target := 62, arrival := 1 }] }
    (l.scan l.queue).2 = [] ∧ ({ l with grants := [] }.scan l.queue).2.length = 1 := by decide +kernel
/-- The command at the front runs, and an empty queue idles. -/
theorem test_step : (match step { State.reset with pending := [.vselCodeTaken 5 3, .lockRetry 9] } with
    | .next s => s.dev.sys.vselLvl == 3 && s.dev.clk.now == 5 && s.pending == [.lockRetry 9]
    | _ => false) = true := by decide +kernel
theorem test_power_on_gates : State.reset.dev.emitted 0 = (false, false) ∧ State.reset.dev.rdy = false := by decide +kernel

/-! ## Hypotheses met: the machine as a whole, resets, starts, clocks -/

theorem hyps_StepExecutes : ({ pending := [.powerOn 0] } : State).pending = .powerOn 0 :: [] ∧ State.reset.pending = [] := by decide
theorem hyps_Transactions : (Instr.maintEnter 0).transaction = some (0, false, []) ∧ (State.reset.dev.advance 0).linkBlocked = true ∧
    (held.advance 0).asked (.maintEnter 0) = false ∧ ((asks (reqWrite 0x8 2) held).advance 0).asked (.maintEnter 0) = false ∧
    (let d := (asks (reqWrite 0x8 1) held).advance 0
     d.linkBlocked = false ∧ d.asked (.maintEnter 0) = true ∧ d.sys.bootHold = true) := by decide +kernel
/-- R471, R478: a payload spells the row it names, and the WRITE of that register; only the first entry not executed counts. -/
theorem test_asked : let d := asks (reqWrite 0x8 1) idle
    d.asked (.maintEnter 0) = true ∧ d.asked (.write 0 0x8 1) = true ∧ d.asked (.write 0 0x8 2) = false ∧ d.asked (.maintExit 0) = false ∧
    ({ d with link := { d.link with window := { seq := 0, payload := reqRead 0x1008, done := false } :: d.link.window } } : Dev).asked (.maintEnter 0) = false := by decide +kernel
theorem hyps_Transactions_window : let w : List Taken := [{ seq := 0, payload := [], done := true }] ++ { seq := 1, payload := [] } :: []
    (∀ y ∈ [({ seq := 0, payload := [], done := true } : Taken)], y.done = true) ∧ w.length = 2 ∧ ∀ x ∈ ([] : List Taken), x.done = true := by decide
theorem hyps_EveryStepKeeps : Memory.wf State.reset.mem = true ∧ ∃ s', step State.reset = .next s' := ⟨by decide, _, rfl⟩
theorem hyps_Scratchpad : Memory.wf [] = true ∧ scratchBase ≤ scratchBase ∧ scratchBase + 4 ≤ bank3Base ∧ bank3Base - 4 + 4 ≤ bank3Base := by decide
theorem hyps_OtherCommands : (∃ s', exec (.lockRetry 0) State.reset = .next s') ∧ (Instr.lockRetry 0).keepsScratch = true := ⟨⟨_, rfl⟩, rfl⟩
theorem hyps_StageD : idle.prot.stop = false ∧ State.reset.dev.prot.stop = true ∧ ({ idle with clk := { idle.clk with onBackup := true } }).clk.onBackup = true ∧
    ({ idle with sys := { idle.sys with jtag := true } }).sys.jtag = true ∧ State.reset.dev.sys.devState = .boot := by decide +kernel
theorem hyps_ResetsEnterBoot : (5 : BitVec 5) ≠ 0 ∧ 960 ≤ 960 ∧ 959 < 960 ∧ (idle.advance 0).sys.bootHold = false ∧ (held.advance 0).sys.bootHold = true ∧
    (let d := ({ idle with clk := { idle.clk with failAt := some 950400000 } } : Dev).advance 0
     d.clk.failAt = some 950400000 ∧ 950400000 + 9600000 ≤ d.clk.now) := by decide +kernel

/-- The outcome of a cold start in which nothing fails. -/
def good : ColdOutcome := { sinceLock := 9600000 }

theorem hyps_ColdStart : let d := State.reset.dev.advance 0
    d.sys.start = some { cold := true } ∧ good.failStep = 0 ∧ good.cut = false ∧ (good.badBoot1 && good.badBoot2) = false ∧ d.sys.boot.hold = false ∧
      d.sys.boot.failCount.toNat < 2 ∧ ({ failStep := 2 } : ColdOutcome).failStep = 2 ∧
      (let d := ({ sys := { boot := { hold := true } } } : Dev).advance 0
       d.sys.start = some { cold := true } ∧ d.sys.boot.hold = true) := by decide +kernel
theorem hyps_WarmStart : let d := ({ tiled with sys := { tiled.sys with devState := .boot, start := some { cold := false } } } : Dev).advance 0
    let o : WarmOutcome := {}
    d.sys.start = some { cold := false } ∧ o.cut = false ∧ o.noLock = false ∧ o.w4Fails = false ∧ d.sys.boot.hold = false ∧ d.sys.boot.failCount.toNat < 2 := by
  decide +kernel
theorem hyps_BootWindow : (idle.advance 4800000000).tb % 4800000000 = 0 := by decide +kernel
theorem hyps_Retry : let d := (asks (reqWrite 0x20 1) held).advance 0
    d.linkBlocked = false ∧ d.asked (.retry 0 1) = true ∧ d.sys.bootHold = true ∧ (1 : Word).getLsbD 0 = true := by decide +kernel
theorem hyps_Clock : (idle.advance 0).clk.pllLock = true ∧ idle.sys.devState ≠ .boot ∧ State.reset.dev.sys.devState = .boot ∧ (idle.advance 0).link.holding = false ∧
    (let d := ({ idle with link := { idle.link with holding := true }, trust := { idle.trust with running := [.token []] } } : Dev).advance 0
     d.clk.pllLock = true ∧ d.link.holding = true ∧ d.trust.running.any TrustJob.hosted = true) ∧
    (({ idle with clk := { idle.clk with failAt := some 5, pllLock := false, onBackup := true } } : Dev).advance 0).clk.failAt = some 5 ∧
    (let d := State.reset.dev.advance 0
     d.clk.failAt = none ∧ d.sys.start = some { cold := true } ∧ d.locked = false) := by decide +kernel
theorem hyps_TimeBase : takes idle (reqRead 0x1008, .tbLoRead 0) ∧ takes idle (reqWrite 0x1014 7, .epochHiWrite 0 7) := by decide +kernel
theorem hyps_Maintenance : (∀ d ∈ [idle, run], takes d (reqWrite 0x8 1, .maintEnter 0) ∧ takes d (reqWrite 0x8 2, .maintExit 0) ∧ takes d (reqWrite 0x8 4, .latchRelease 0)) ∧
    idle.sys.devState = .standby ∧ (idle.advance 0).latchedNow = false ∧ run.sys.devState ≠ .standby ∧ run.sys.devState ≠ .latched ∧ run.sys.devState ≠ .maint ∧
    (let d := (inCycle run { state := .standby }).advance 0
     d.sys.devState = .run ∧ d.cyc.no = d.cycle ∧ d.cyc.state = .standby ∧ d.latchedNow = false ∧ (run.advance 0).cyc.state ≠ .standby) ∧
    takes idle (reqWrite 0x8 3, .write 0 0x8 3) ∧ takes idle (reqWrite 0x8 8, .write 0 0x8 8) ∧ idle.sys.retryPending = false ∧
    1 < ((List.finRange 3).filter fun i => (3 : Word).getLsbD i.val).length ∧ ((List.finRange 3).all fun i => !(8 : Word).getLsbD i.val) = true := by
  decide +kernel
/-- `tiled` in a device state. -/
def inState (st : DevState) : Dev := { tiled with sys := { idle.sys with devState := st } }
theorem hyps_Maintenance_released : takes (inState .maint) (reqWrite 0x8 2, .maintExit 0) ∧ takes (inState .latched) (reqWrite 0x8 4, .latchRelease 0) ∧ (inState .maint).hasSevere = false ∧
    (inState .latched).hasSevere = (inState .maint).hasSevere := by
  decide +kernel
theorem hyps_Maintenance_latched : (run.advance 0).latchedNow = false ∧
    ∀ x ∈ [(reqWrite 0x8 1, Instr.maintEnter 0), (reqWrite 0x8 4, .latchRelease 0)], let d := (asks x.1 (inCycle (inState .latched) { latched := true })).advance 0
      host d x.2 ∧ d.latchedNow = true := by decide +kernel
theorem hyps_Maintenance_severe : let d := inState .latched
    ({ d with tile := { d.tile with cur := { classes := (Vector.replicate 256 {}).set 5 { level := 3 } } }, fault := { src := (Vector.replicate 256 {}).set 5 { status := true } } } : Dev).hasSevere = true := by
  decide +kernel

/-! ## An image -/

/-- One rail, one HOST phase, one conversion, one accumulator and context 0: the eight sections of R144 an image needs, with the
    CRC-32C of each body. -/
def sects1 : List Sect :=
  let sect := fun (type : Nat) (crc : Word) (body : List Byte) => ({ type := type, inst := 0, flags := 0, resv := 0, crc := crc, body := body } : Sect)
  [sect 1 2336831643 ([0, 1, 0, 0, 0, 0, 0, 0] ++ (List.replicate 63 [0xFF, 0, 0, 0, 0, 0, 0, 0]).flatten),
   sect 2 2879253442 ([0, 0, 0, 1, 0, 0, 0, 0] ++ leBytes 4 1000 ++ leBytes 4 0),
   sect 3 2018352909 ([1, 0, 0, 0] ++ leBytes 4 4800 ++ [0, 0, 0, 0]),
   sect 4 1015316927 ([0, 0, 4, 0] ++ (List.replicate 319 [0xFF, 0, 0, 0]).flatten),
   sect 5 2866582445 ([1, 0, 0, 1, 0, 0, 0xFF, 0] ++ (List.replicate 79 [0, 0, 0, 0, 0, 0, 0xFF, 0]).flatten),
   sect 6 2815854249 ([1, 0, 0, 0] ++ List.replicate 0x38 0 ++ leBytes 4 1 ++ leBytes 4 0 ++ leBytes 4 1 ++ leBytes 4 0 ++ List.replicate 8 0),
   sect 7 1214729159 [0, 0, 0, 0],
   sect 8 2396915452 ((List.replicate 256 [0, 3, 0, 0]).flatten ++ [0, 0, 0, 0])]

/-- R141: a base image of generation 7 with eight sections, bound to no device: what its signature covers. -/
def signed1 : List Byte :=
  [0x54, 0x49, 0x4C, 0x45, 1, 0, 0, 0] ++ leBytes 4 7 ++ leBytes 4 3904 ++ [0x80, 0x64, 4, 0, 8, 0, 0, 0] ++ leBytes 4 3768 ++ List.replicate 32 0 ++ leBytes 4 299519966 ++
    sects1.flatMap Sect.bytes

/-- A P-256 key and its signature over `signed1`. -/
def key1 : BitVec 512 := 0x7a2616e19ec4d7d48aa61daefe21775f3adb8eb3a7458e29f45ecdb8b15b1a7232ca6856896fc8affde1ae093e469dda25cddb75971c663d5cc28c72ecd117a0#512
def sig1 : BitVec 512 := 0x9c3e3f9339201442aca13067708a1f8ff3552b495a69d9ec48e594cd90d1c0f84e1f1fc99c900a2156509833b8450fc7f9aa95a4ad34ecf62472ca66c868e07c#512
def image1 : List Byte := signed1 ++ [0x53, 0x49, 0x47, 0x42, 0, 1, 0, 0] ++ beBytes 64 key1.toNat ++ beBytes 64 sig1.toNat
def keys1 : Vector OwnerSlot 4 := (Vector.replicate 4 {}).set 0 { st := .installed, key := key1 }
def slot1 : Slot := { bytes := image1, recLen := some 3904 }

/-- The structure the sections give, one check after another. -/
def built1 : Tiling :=
  { phases := Vector.ofFn fun n => if n.val = 0 then { rail := some 0, host := true } else {}
    rails := (Vector.replicate 8 none).set 0 (some { minPhases := 1, rating := 1000 }) }
def built2 : Tiling :=
  { built1 with seqs := (Vector.replicate 4 none).set 0 (some { reg := [{}], timer := 4800 })
                accs := Vector.ofFn fun k => if k.val = 0 then some { n := 4 } else none
                trks := Vector.ofFn fun _ => none }
def sector1 : SectorEnt :=
  { iLo := 0, iHi := 0, vLo := 0, vHi := 0, modeMask := 0, priority := 0, coef := List.replicate 7 0, shift := List.replicate 7 0, intMax := 1, intMin := 0, outMax := 1, outMin := 0 }
def topo1 : Vector TopoEnt 80 := Vector.ofFn fun c => if c.val = 0 then { enable := true, div := 1 } else {}
def built3 : Tiling :=
  { built2 with topo := topo1
                sectors := Vector.ofFn fun c => if c.val = 0 then [sector1] else [] }
def built4 : Tiling := { built3 with classes := Vector.ofFn fun _ => { level := 3 } }

theorem parseAll_eq {α : Type} {n : Nat} (f : Fin n → Option α) (g : Fin n → α) (dflt : α) (h : ∀ i, f i = some (g i)) : parseAll f dflt = some (Vector.ofFn g) := by
  simp [parseAll, h]
theorem quarters {n : Nat} {p : Fin (4 * n) → Prop} (h0 : ∀ i : Fin (4 * n), i.val / n = 0 → p i) (h1 : ∀ i : Fin (4 * n), i.val / n = 1 → p i)
    (h2 : ∀ i : Fin (4 * n), i.val / n = 2 → p i) (h3 : ∀ i : Fin (4 * n), i.val / n = 3 → p i) : ∀ i, p i := fun i => by
  have h : i.val / n < 4 := Nat.div_lt_of_lt_mul (by have := i.isLt; omega)
  match hq : i.val / n with
  | 0 => exact h0 i hq
  | 1 => exact h1 i hq
  | 2 => exact h2 i hq
  | 3 => exact h3 i hq
  | k + 4 => omega

theorem image_sections : imgSects image1 = some sects1 ∧ numAt image1 0x14 2 = sects1.length ∧ imgDelta image1 = false := by decide +kernel
theorem image_crcs : (sects1.any fun s => crc32c s.body != s.crc) = false := by decide +kernel
theorem image_presence : sectsOk sects1 false = true := by decide +kernel

theorem phases_ok : ∀ n : PhaseIx, parsePhase (slice (bodyOf sects1 1 0) (8 * n.val) 8) = some (if n.val = 0 then { rail := some 0, host := true } else {}) := by decide +kernel
theorem rails_ok : (Vector.ofFn fun r : RailIx => ((findSect sects1 2 r.val).map fun s => parseRail s.body).getD none) = built1.rails ∧
    ((List.finRange 8).any fun r => (findSect sects1 2 r.val).map (fun s => parseRail s.body) == some none) = false ∧
    (((List.finRange 8).all (railPhasesOk built1)) && decide (((List.finRange 8).filter fun r => match built1.rails[r] with
          | some e => e.storage
          | none => false).length ≤ 4)) = true := by decide +kernel
theorem image_phases : parsePhases sects1 {} = some built1 := by
  delta parsePhases
  simp only [parseAll_eq _ _ _ phases_ok, rails_ok.1, rails_ok.2.1]
  rw [if_neg Bool.false_ne_true]
  exact if_pos (e := none) rails_ok.2.2

/-- `built1` with the sequence of quad 0. -/
def built1s : Tiling := { built1 with seqs := (Vector.replicate 4 none).set 0 (some { reg := [{}], timer := 4800 }) }
theorem seqs_ok : (Vector.ofFn fun q : QuadIx => ((findSect sects1 3 q.val).map fun s => parseSeq built1 q s.body).getD none) = built1s.seqs ∧
    (((List.finRange 4).any fun q => decide (2 < ((List.finRange 8).filter fun r => match built1.rails[r] with
      | some e => e.homeQuad == q
      | none => false).length)) || (List.finRange 4).any fun q => (findSect sects1 3 q.val).map (fun s => parseSeq built1 q s.body) == some none) = false := by decide +kernel
def bind1 : List Byte := bodyOf sects1 4 0
abbrev AccOk (k : Fin (4 * 64)) : Prop := parseBind built1s false (slice bind1 (4 * k.val) 4) = some (if k.val = 0 then some { n := 4 } else none)
theorem accs_0 : ∀ k : Fin (4 * 64), k.val / 64 = 0 → AccOk k := by decide +kernel
theorem accs_1 : ∀ k : Fin (4 * 64), k.val / 64 = 1 → AccOk k := by decide +kernel
theorem accs_2 : ∀ k : Fin (4 * 64), k.val / 64 = 2 → AccOk k := by decide +kernel
theorem accs_3 : ∀ k : Fin (4 * 64), k.val / 64 = 3 → AccOk k := by decide +kernel
theorem trks_ok : ∀ k : TrkIx, parseBind built1s true (slice bind1 (1024 + 4 * k.val) 4) = some none := by decide +kernel
theorem image_sensing : parseSensing sects1 built1 = some built2 := by
  have hs : ({ built1 with seqs := Vector.ofFn fun q : QuadIx => ((findSect sects1 3 q.val).map fun s => parseSeq built1 q s.body).getD none } : Tiling) = built1s := by
    rw [seqs_ok.1]; rfl
  have ha := parseAll_eq (fun k : AccIx => parseBind built1s false (slice bind1 (4 * k.val) 4)) _ none (quarters accs_0 accs_1 accs_2 accs_3)
  have ht := parseAll_eq (fun k : TrkIx => parseBind built1s true (slice bind1 (1024 + 4 * k.val) 4)) _ none trks_ok
  delta parseSensing
  simp only [hs, show bodyOf sects1 4 0 = bind1 from rfl, ha, ht]
  rfl

def topoBody : List Byte := bodyOf sects1 5 0
theorem topo_ok : ∀ c : CtxIx, parseTopo built2 c (slice topoBody (8 * c.val) 8) = some (if c.val = 0 then { enable := true, div := 1 } else {}) := by decide +kernel
theorem sectors_ok : ∀ c : CtxIx, (match findSect sects1 6 c.val with
    | some s => parseSectors topo1[c] s.body
    | none => some []) = some (if c.val = 0 then [sector1] else []) := by decide +kernel
theorem topoOk_ok : topoOk { built2 with topo := topo1 } = true := by decide +kernel
theorem image_loops : parseLoops sects1 built2 = some built3 := by
  have ha : parseAll (fun c : CtxIx => parseTopo built2 c (slice topoBody (8 * c.val) 8)) {} = some topo1 := parseAll_eq _ _ _ topo_ok
  have hb := parseAll_eq _ _ [] sectors_ok
  delta parseLoops
  simp only [show bodyOf sects1 5 0 = topoBody from rfl, ha]
  erw [hb]
  exact if_pos (e := none) topoOk_ok

theorem image_fabric : parseFabric sects1 built3 = some built3 := by
  delta parseFabric
  simp only [show numAt (bodyOf sects1 7 0) 0 2 = 0 by decide +kernel]
  rfl
def matrixBody : List Byte := bodyOf sects1 8 0
abbrev classOf (k : Fin (4 * 64)) : Option ClassEnt :=
  let e := slice matrixBody (4 * k.val) 4
  if decide (31 < numAt e 0 1) || decide (4 < numAt e 1 1) || numAt e 2 2 != 0 || decide (numAt e 1 1 < srcFloor k.val (byteAt (bodyOf sects1 10 0) 0x22)) then none
  else some { cls := BitVec.ofNat 5 (numAt e 0 1), level := Fin.ofNat 5 (numAt e 1 1) }
theorem classes_0 : ∀ k : Fin (4 * 64), k.val / 64 = 0 → classOf k = some { level := 3 } := by decide +kernel
theorem classes_1 : ∀ k : Fin (4 * 64), k.val / 64 = 1 → classOf k = some { level := 3 } := by decide +kernel
theorem classes_2 : ∀ k : Fin (4 * 64), k.val / 64 = 2 → classOf k = some { level := 3 } := by decide +kernel
theorem classes_3 : ∀ k : Fin (4 * 64), k.val / 64 = 3 → classOf k = some { level := 3 } := by decide +kernel
theorem matrix_end : numAt matrixBody 1024 2 = 0 ∧ (decide (256 < 0) || numAt matrixBody 1026 2 != 0) = false := by decide +kernel
theorem image_matrix : parseMatrix sects1 built3 = some built4 := by
  have ha := parseAll_eq (fun k : SrcIx => classOf k) _ {} (quarters classes_0 classes_1 classes_2 classes_3)
  delta parseMatrix
  simp only [show bodyOf sects1 8 0 = matrixBody from rfl, matrix_end.1, matrix_end.2]
  simp only [classOf] at ha
  simp only [ha]
  rfl
theorem others_ok : (∀ p : PortIx, findSect sects1 9 p.val = none) ∧ (∀ i : Fin 8, findSect sects1 11 i.val = none) ∧ findSect sects1 10 0 = none := by decide +kernel
theorem others_none : distinct ((List.finRange 4).filterMap fun p => (Vector.ofFn fun _ : PortIx => (none : Option StoreEnt))[p].map (·.rail)) = true ∧
    (((List.finRange 4).any fun _ : PortIx => (none : Option (Option StoreEnt)) == some none) || (List.finRange 8).any fun _ : Fin 8 => (none : Option (Option (List Word))) == some none) = false ∧
    (Vector.ofFn fun _ : PortIx => (none : Option StoreEnt)) = built4.stores ∧ (Vector.ofFn fun _ : Fin 8 => (none : Option (List Word))) = built4.snaps := by decide +kernel
theorem image_others : parseOthers sects1 built4 = some built4 := by
  obtain ⟨hd, hn, hs, hp⟩ := others_none
  delta parseOthers
  simp only [others_ok.1, others_ok.2.1, others_ok.2.2, Option.map_none, Option.getD_none, hn]
  rw [if_neg (by simp)]
  refine (if_pos hd).trans ?_
  rw [hs, hp]
  rfl

theorem sectionCheck_ok {bs : List Byte} {ss : List Sect} (h1 : imgSects bs = some ss) (h2 : numAt bs 0x14 2 = ss.length) (h3 : imgDelta bs = false)
    (h4 : (ss.any fun s => crc32c s.body != s.crc) = false) (h5 : sectsOk ss false = true) : sectionCheck bs = .ok ss := by
  delta sectionCheck
  simp only [h1, h2, h3, h4, h5, bne_self_eq_false, Bool.not_true, Bool.false_eq_true, if_false]
theorem structureCheck_ok {bs : List Byte} {ss : List Sect} {a b c d e f : Tiling} (hs : sectionCheck bs = .ok ss) (h1 : parsePhases ss {} = some a)
    (h2 : parseSensing ss a = some b) (h3 : parseLoops ss b = some c) (h4 : parseFabric ss c = some d) (h5 : parseMatrix ss d = some e)
    (h6 : parseOthers ss e = some f) : structureCheck bs = .ok f := by
  delta structureCheck contentCheck
  simp only [hs, chain, h1, h2, h3, h4, h5, h6]
/-- Checks 6 to 15 of the image pass, with the structure its sections say (R158). -/
theorem test_image_structure : structureCheck image1 = .ok built4 :=
  structureCheck_ok (sectionCheck_ok image_sections.1 image_sections.2.1 image_sections.2.2 image_crcs image_presence)
    image_phases image_sensing image_loops image_fabric image_matrix image_others

/-! ## The image's signature, its hash fifteen blocks at a time -/

theorem shaBlocks_add (m n : Nat) (h : List Nat) (bs : List Byte) : shaBlocks (m + n) h bs = shaBlocks n (shaBlocks m h bs) (bs.drop (64 * m)) := by
  induction m generalizing h bs with
  | zero => simp [shaBlocks]
  | succ m ih => rw [Nat.succ_add]; simp only [shaBlocks, ih, List.drop_drop]; congr 2; omega

theorem ecdsa_ok {key sig : BitVec 512} {msg : List Byte} {P Q : Option (Nat × Nat)} (z w u v : Nat) (hz : beNat (sha256 msg) = z)
    (hk : keyValid key = true)
    (hw : let r := sig.toNat / 2 ^ 256; let s := sig.toNat % 2 ^ 256
      decide (0 < r ∧ r < p256n ∧ 0 < s ∧ s < p256n) = true ∧ invMod p256n s = w ∧ z * w % p256n = u ∧ r * w % p256n = v ∧
      (match p256Add P Q with | some (x, _) => decide (x % p256n = r) | none => false) = true)
    (hP : p256Mul 256 u (some p256g) = P) (hQ : p256Mul 256 v (some (key.toNat / 2 ^ 256, key.toNat % 2 ^ 256)) = Q) : ecdsaVerify key msg sig = true := by
  obtain ⟨h1, h2, h3, h4, h5⟩ := hw
  delta ecdsaVerify
  simp only [hz, h1, h2, h3, h4, hk, hP, hQ, Bool.true_and]
  exact h5

def pad1 : List Byte := shaPad (image1.take 3768)
theorem hash_1 : shaBlocks 15 shaInit pad1 = [2754351203, 3467396929, 2215537729, 1071924639, 3871305238, 3599443005, 423600756, 2081826809] := by decide +kernel
theorem hash_2 : shaBlocks 15 [2754351203, 3467396929, 2215537729, 1071924639, 3871305238, 3599443005, 423600756, 2081826809] (pad1.drop 960) =
    [2387466131, 2623222433, 180938711, 3273805314, 474188697, 259245468, 479510967, 2161900481] := by decide +kernel
theorem hash_3 : shaBlocks 15 [2387466131, 2623222433, 180938711, 3273805314, 474188697, 259245468, 479510967, 2161900481] (pad1.drop 1920) =
    [2928261519, 2226775441, 4087837520, 2381004340, 3482513125, 1767663436, 3719361101, 517994552] := by decide +kernel
theorem hash_4 : pad1.length / 64 = 60 ∧ beNat ((shaBlocks 15 [2928261519, 2226775441, 4087837520, 2381004340, 3482513125, 1767663436, 3719361101, 517994552] (pad1.drop 2880)).flatMap fun w => beBytes 4 w) =
    35335393838076910755092093610391484577541176066800982016275743758709124817020 := by decide +kernel
theorem sha256_blocks (bs : List Byte) : sha256 bs = (shaBlocks ((shaPad bs).length / 64) shaInit (shaPad bs)).flatMap fun w => beBytes 4 w := rfl
theorem image_hash : beNat (sha256 (image1.take 3768)) = 35335393838076910755092093610391484577541176066800982016275743758709124817020 := by
  rw [sha256_blocks, show shaPad (image1.take 3768) = pad1 from rfl, hash_4.1, show 60 = 15 + (15 + (15 + 15)) from rfl, shaBlocks_add, shaBlocks_add, shaBlocks_add, hash_1, List.drop_drop, List.drop_drop, hash_2, hash_3]
  exact hash_4.2
theorem image_block : imgSigned image1 = 3768 ∧ (let b := slice image1 3768 136
    BitVec.ofNat 512 (beNat (slice b 8 64)) = key1 ∧ BitVec.ofNat 512 (beNat (slice b 0x48 64)) = sig1 ∧
      (slice b 0 4 == [0x53, 0x49, 0x47, 0x42] && numAt b 5 1 == 1 && numAt b 6 2 == 0 && signerOk (Trust.keys { slots := keys1 }) (byteAt b 4) key1) = true) := by decide +kernel
theorem image_ecdsa : ecdsaVerify key1 (image1.take 3768) sig1 = true :=
  ecdsa_ok (P := some p256g) (Q := some (48985501191506100504322623595068637888765204350035199152499859747730161289864, 88714680498683807854347911592883865197621164763300148009089472193322259134183))
    _ 90730519996611549243615314647091898087520885073756695715393597459472351505665 1 2 image_hash (by decide +kernel) (by decide +kernel) (by decide +kernel) (by decide +kernel)
/-- Check 16 passes: the signature of an owner key that is INSTALLED (R156). -/
theorem test_image_signature : sigOk (Trust.keys { slots := keys1 }) image1 = true := by
  obtain ⟨h0, h1, h2, h3⟩ := image_block
  delta sigOk
  simp only [h0, h1, h2, image_ecdsa, Bool.and_true]
  exact h3
theorem test_image_header : headerCheck image1 (some 3904) = 0 ∧ image1.length = 3904 ∧ imgDelta image1 = false ∧ slot1.content = image1 := by decide +kernel
theorem verify_ok (s : Slot) (keys : Keys) (n : Nat) (bs : List Byte) (x : Tiling) (hn : s.recLen = some n) (h0 : n ≠ 0) (hb : s.badWord = false)
    (hc : s.content = bs) (hh : headerCheck bs (some n) = 0) (hx : structureCheck bs = .ok x) (hg : sigOk keys bs = true) :
    s.verify keys = .ok x := by
  simp [Slot.verify, hc, hn, h0, hb, hh, hx, hg]
theorem loadCheck_ok (bs : List Byte) (x : Tiling) (hd : imgDelta bs = false) (hx : structureCheck bs = .ok x) : loadCheck bs none = .ok bs := by
  delta loadCheck
  delta structureCheck at hx
  cases hs : sectionCheck bs with
  | error e => rw [hs] at hx; cases hx
  | ok ss =>
    rw [hs] at hx
    have hx : contentCheck ss = .ok x := hx
    simp only [hd, Bool.false_eq_true, if_false]
    delta structureCheck
    simp only [hs, hx]
theorem test_image_verifies : ∃ x, slot1.verify (Trust.keys { slots := keys1 }) = .ok x := by
  have hx := test_image_structure
  obtain ⟨hh, -, -, hc⟩ := test_image_header
  exact ⟨_, verify_ok slot1 _ 3904 image1 _ rfl (by decide) rfl hc hh hx test_image_signature⟩
theorem test_image_loads : loadCheck image1 none = .ok image1 := by
  have hx := test_image_structure
  exact loadCheck_ok image1 _ test_image_header.2.2.1 hx

/-! ## Hypotheses met: images and retiling -/

theorem hyps_ImageLoads : idle.sys.devState ≠ .boot ∧ idle.tile.loading = none ∧ idle.tile.verify = none ∧ idle.tile.rt.active = false ∧ idle.tile.completing = false ∧
    takes idle (request 8 0 0 (leBytes 4 0 ++ image1.take 128), .tileBlock 0 0 (image1.take 128)) ∧ (image1.take 128).length = 128 ∧ headerCheck (image1.take 128) none = 0 ∧
    (let last := image1.drop 3840
     takes idle (request 8 0 0 (leBytes 4 3840 ++ last), .tileBlock 0 3840 last) ∧ last.length % 4 = 0 ∧ last.length ≠ 0 ∧ last.length ≤ 128 ∧
      (3840 : Word).toNat = (image1.take 3840).length ∧ (image1.take 3840).length + last.length = imgLen image1) := by decide +kernel
/-! ## Hypotheses met: starts with an image -/

/-- A device about to start cold with the image in slot A, or in slot B with A EMPTY; its owner key installed. -/
def withImage (inB : Bool) : Dev :=
  { trust := { slots := keys1 }, tile := if inB then { slotB := slot1 } else { slotA := slot1 } }
theorem image_keys : Trust.keys { (withImage false).trust with slots := mapV (withImage false).trust.slots fun i x => if (good.badOwner).getLsbD i.val then { x with st := .damaged } else x } =
    Trust.keys { slots := keys1 } := by decide +kernel
theorem hyps_ColdStart_image (inB : Bool) : let d := (withImage inB).advance 0
    let marks := d.tile.fresh good.badSlotA good.badSlotB
    let keys := Trust.keys { d.trust with slots := mapV d.trust.slots fun i x => if good.badOwner.getLsbD i.val then { x with st := .damaged } else x }
    d.sys.start = some { cold := true } ∧ d.tile.mark.slotB = false ∧ (∃ x, (marks.slot inB).recLen.isSome = true ∧ (marks.slot inB).verify keys = .ok x) ∧ (marks.slot (!inB)).recLen.isSome = false := by
  have hx := test_image_structure
  obtain ⟨hh, -, -, hc⟩ := test_image_header
  cases inB
  · exact ⟨rfl, rfl, ⟨_, rfl, verify_ok _ _ 3904 image1 _ rfl (by decide) rfl hc hh hx (image_keys ▸ test_image_signature)⟩, rfl⟩
  · exact ⟨rfl, rfl, ⟨_, rfl, verify_ok _ _ 3904 image1 _ rfl (by decide) rfl hc hh hx (image_keys ▸ test_image_signature)⟩, rfl⟩
theorem hyps_WarmStart_digest : let t : Tile := { tiled := true, slotA := { bytes := List.replicate 264 0, recLen := some 264 }, keptDigest := digestBits (sha256 []) }
    (t.fresh false false).digestHolds t.runningSlot = true := by decide +kernel
/-- `run` with its retile sequencer as given. -/
def retiling (rt : Retile) : Dev := { run with tile := { run.tile with rt := rt } }
/-- `map1` with one more route and one class changed: two steps. -/
def goal1 : Tiling := { map1 with routes := [{ src := 0, dst := 0, latch := false }], classes := (Vector.replicate 256 {}).set 5 { level := 3 } }
/-- `map1` without phase 0. -/
def goal2 : Tiling := { map1 with phases := map1.phases.set 0 {} }
def stepSet : RtStep := { kind := .set, target := 0xFE }
def stepFabric : RtStep := { kind := .fabric, target := 0xFF }
def stepPark : RtStep := { kind := .park, target := 0, fromRail := some 0 }

theorem hyps_ImageWrite : (let d := ({ run with tile := { run.tile with load := some { bytes := [], total := 264, stage := some .mram } } } : Dev).advance 0
     ∃ l, d.tile.load = some l ∧ l.stage = some .mram ∧ l.silent = false) ∧ takes run (reqWrite 0x4004 4, .tileAbort 0) := ⟨⟨_, rfl, rfl, rfl⟩, by decide +kernel⟩
theorem hyps_Verify : let d := (asks (reqWrite 0x4004 2) { run with tile := { run.tile with slotB := { recLen := some 264 } }, leave := { run.leave with budget := 300 } }).advance 0
    host d (.tileVerify 0) ∧ d.sys.devState ≠ .boot ∧ d.tile.loading = none ∧ d.tile.verify = none ∧ d.tile.completing = false ∧ d.tile.loadSlot.recLen.isSome = true ∧ room d 300 := by decide +kernel
theorem hyps_Commits : let f := fun (d : Dev) => (asks (reqWrite 0x4004 1) { d with tile := { d.tile with slotB := { state := .valid } } }).advance 0
    let busy := fun (d : Dev) => d.tile.loading.isSome || d.tile.verify.isSome || d.tile.rt.active
    (host (f idle) (.tileCommit 0) ∧ (f idle).tile.loadSlot.state = .valid ∧ busy (f idle) = false ∧ (f idle).sys.devState = .standby) ∧
    (host (f run) (.tileCommit 0) ∧ (f run).tile.loadSlot.state = .valid ∧ busy (f run) = false ∧ (f run).tile.rt.state ≠ .stopped ∧ (f run).tile.rt.isPartial = false ∧ (f run).sys.devState = .run) ∧
    (run.tile.loadSlot.state ≠ .valid ∧ busy (retiling { state := .running }) = true) ∧
    (let d := ({ idle with tile := { idle.tile with loading := some .commit } } : Dev).advance 0
     d.alive = true ∧ d.tile.loading = some .commit) := by decide +kernel
/-- `run` as its retile towards `g` is planned, with the demand of rail 0. -/
def planning (g : Tiling) (need : Word) : Dev :=
  ({ retiling { state := .planning, goal := g } with rails := run.rails.set 0 { run.rails[0] with demand := need } } : Dev).advance 0
theorem hyps_Planning : (planning goal2 2000).alive = true ∧ (planning goal2 2000).tile.rt.state = .planning ∧ (planning goal2 2000).tile.rt.stopAsked = none := ⟨rfl, rfl, rfl⟩
theorem candSeq_same (d : Dev) (g : Tiling) (k : StepKind) (hs : d.tile.cur.seqs = g.seqs) (ha : d.tile.cur.accs = g.accs) (ht : d.tile.cur.trks = g.trks) :
    d.candSeq g k = [] := by
  simp [Dev.candSeq, seqChanges, hs, ha, ht]
theorem planning_park : (planning goal2 2000).candidates goal2 = [(stepPark, 0)] := by
  simp only [Dev.candidates, candSeq_same _ goal2 _ (rfl : (planning goal2 2000).tile.cur.seqs = _) rfl rfl]
  decide +kernel
theorem hyps_Planning_refused : (planning goal2 2000).planFault goal2 ((planning goal2 2000).candidates goal2) map1 1 = some (stepPark, 1, 3, 2000, 1000) := by
  rw [planning_park]; decide +kernel
theorem planning_two : (planning goal1 0).candidates goal1 = [(stepSet, 0), (stepFabric, 0)] := by
  simp only [Dev.candidates, candSeq_same _ goal1 _ (rfl : (planning goal1 0).tile.cur.seqs = _) rfl rfl]
  decide +kernel
theorem hyps_Planning_accepted : (planning goal1 0).planFault goal1 ((planning goal1 0).candidates goal1) map1 1 = none := by
  rw [planning_two]; decide +kernel
theorem hyps_RetileSteps : ∀ x ∈ [(stepSet, [stepFabric]), (stepFabric, [])], let d := (retiling { state := .running, goal := goal1, plan := x.1 :: x.2 }).advance 0
    d.alive = true ∧ d.tile.tiled = true ∧ d.tile.rt.plan = x.1 :: x.2 ∧ d.tile.rt.state = .running ∧ d.tile.rt.stopAsked = none ∧
    d.stepReady x.1 = true ∧ d.clk.cycleAt d.tile.rt.stepAt ≠ d.cycle ∧ d.shortRail d.tile.cur (d.tile.cur.after d.tile.rt.goal x.1) = none ∧
    contextsOk (d.tile.cur.after d.tile.rt.goal x.1) d.tile.rt.goal x.2 = true ∧ ∀ r : RailIx, d.interleaveOk r none = true := by decide +kernel
theorem hyps_RetileWaits :
    (let d := (retiling { state := .running, goal := goal2, plan := [stepPark] }).advance 0
     d.alive = true ∧ d.tile.rt.state = .running ∧ d.tile.rt.stopAsked = none ∧ d.mustDrain = some (0, 0) ∧ d.respreadBusy 0 = false ∧ d.rails[0].notice = none ∧ d.rails[0].flare = none ∧
      d.stepShort = none ∧ (∀ x : RailIx, d.interleaveOk x (some 0) = true) ∧ contextsOk d.tile.cur d.tile.rt.goal d.tile.rt.plan = true) ∧
    (let d := (retiling { state := .waiting, goal := goal2, plan := [stepPark], waitSince := some 480000000 }).advance 0
     d.alive = true ∧ d.tile.rt.state = .waiting ∧ d.tile.rt.stopAsked = none ∧ d.stepShort = none ∧ d.tile.rt.waitSince = some 480000000 ∧
      480000000 + d.tile.rt.waitLimit.toNat * 48000000 ≤ d.clk.now) ∧
    (let d := (retiling { state := .running, stopAsked := some 1 }).advance 0
     d.tile.rt.stopAsked = some 1 ∧ d.tile.rt.active = true) := by decide +kernel
theorem hyps_RetileRequests : let halted := fun (d : Dev) => (d.tile.rt.state = .stopped ∨ d.tile.rt.state = .refused ∧ d.tile.rt.isPartial = true) ∧
      (d.sys.devState = .run ∨ d.sys.devState = .standby) ∧ d.tile.loading = none
    let stopped : Dev := { retiling { state := .stopped } with tile := { run.tile with rt := { state := .stopped }, slotB := { state := .valid } } }
    let stoppedIdle : Dev := { idle with tile := { idle.tile with rt := { state := .stopped } } }
    (∀ x ∈ [(1, Instr.rtStop 0), (2, .rtResume 0), (4, .rtRevert 0), (8, .rtContinue 0)], takes run (reqWrite 0x4040 x.1, x.2)) ∧ ¬halted run ∧
    (takes stopped (reqWrite 0x4040 2, .rtResume 0) ∧ takes stopped (reqWrite 0x4040 4, .rtRevert 0) ∧ halted stopped ∧ stopped.tile.loadSlot.state = .valid ∧ stopped.sys.devState = .run) ∧
    halted (retiling { state := .refused, isPartial := true }) ∧ (takes stoppedIdle (reqWrite 0x4040 4, .rtRevert 0) ∧ halted stoppedIdle ∧ stoppedIdle.sys.devState = .standby) := by decide +kernel
/-! ## Hypotheses met: phases -/

/-- `d` with a change of one phase. -/
def phase (d : Dev) (n : PhaseIx) (f : Pwm → Pwm) : Dev := { d with pwm := d.pwm.set n (f d.pwm[n]) }

/-- A carrier of 120 ticks a half period, its last valley at a tick. -/
def carrierAt (p : Pwm) (valley : Tick) : Pwm := { p with perEff := 120, upLen := 120, downLen := 120, valley := valley }

theorem hyps_UpdatePoints :
    ((run.advance 0).alive = true ∧ (run.advance 0).carrierRail 0 = some 0 ∧ run.carrierRail 2 = none ∧ run.pwm[0].due 960000000 false = false) ∧
    (∀ x ∈ [(false, 959999760), (true, 959999880)], let d := (phase run 0 fun p => { carrierAt p x.2 with loopShadow := some { duty := 5, at_ := 959999998 }, maskChanges := [{ bits := {}, lift := false, at_ := 959999998 }], lineHi := { p.lineHi with meas := 64 }, lineLo := { p.lineLo with meas := 96 } }).advance 0
     let p := d.pwm[0].sync d.clk.now
     d.carrierRail 0 = some 0 ∧ d.railOf 0 = some 0 ∧ d.pwm[0].due d.clk.now x.1 = true ∧ p.dlFail = false ∧ (d.prot.trips[0].latch = false ∧ 0 < d.prot.trips[0].n.toNat) ∧
      d.srcHost 0 = false ∧ p.flareOn = false ∧ p.zeroDue = false ∧ p.flarePulse = false ∧ p.loopShadow = some { duty := 5, at_ := 959999998 } ∧ 959999998 + 2 ≤ d.clk.now ∧
      d.clk.now < 959999999 + 2 ∧ (p.maskChanges.filter fun c => c.at_ + 2 ≤ d.clk.now).getLast? = some { bits := {}, lift := false, at_ := 959999998 } ∧
      64 ≤ p.lineHi.meas.toNat ∧ p.lineLo.meas.toNat ≤ 96) ∧
    (let d := (phase { run with rails := run.rails.set 0 { mode := .regulate, flare := some 0 } } 0 fun p => { carrierAt p 959999760 with flareOn := true }).advance 0
     d.pwm[0].due d.clk.now false = true ∧ d.srcHost 0 = false ∧ d.pwm[0].flareOn = true ∧ d.rails[0].flare.isSome = true) ∧
    (let d := (phase run 1 fun p => { carrierAt p 959999760 with loadShadow := some { per := 120, duty := 5, at_ := 959999998 } }).advance 0
     d.railOf 1 = some 0 ∧ d.carrierRail 1 = some 0 ∧ d.pwm[1].due d.clk.now false = true ∧ d.srcHost 1 = true ∧ d.pwm[1].hostStartWait = false ∧ d.pwm[1].zeroDue = false ∧
      d.pwm[1].dlFail = false ∧ (120 : BitVec 16) = d.pwm[1].perEff) := by decide +kernel

theorem hyps_ArcMoves : arcErr 0x8000 0 = 32768 ∧ arcErr 0x8001 0 = -32767 ∧ 0 ≤ arcErr 0 0 ∧ arcErr 0 0 ≤ 0 := by decide
/-- R205: by the shorter way, past position 0 where it lies there. -/
theorem test_arc_shorter_way : arcErr 100 65436 = 200 ∧ arcErr 65436 100 = -200 := by decide
theorem hyps_Edges :
    (∀ f ∈ [fun p : Pwm => { p with edgeAt := some 61440000000 }, fun p => { p with cmd := true, hi := true, edgeAt := some 61440000063 }, fun p => { p with cmd := true, flarePulse := true, hi := true, edgeAt := some 61440000000 }, fun p => { p with cmd := true, hi := true, ghAt := some 61440000000, edgeAt := some 61440000245 }, fun p => { p with cmd := true, hi := true, ghAt := some 61440000000, edgeAt := some 61440000246 }, fun p => { p with glAt := some 61440000000, edgeAt := some 61440000246 }, fun p => { p with glAt := some 61440000000, edgeAt := some 61440000245 }],
     let d := (phase run 0 f).advance 0
     let p := d.pwm[0]
     d.alive = true ∧ (d.carrierRail 0).isSome = true ∧ d.heldOff 0 = false ∧ (p.gh = true → p.hi = true) ∧ (p.hi = true → p.gl = false) ∧ (p.ghAt.isSome = true → p.hi = true) ∧ (p.glAt.isSome = true → p.hi = false)) ∧
    ((61440000000 : Int) / 64 = 960000000 ∧ (61440000063 : Int) / 64 = 960000000 ∧ tooShort 61440000000 (some 61440000245) = true ∧ tooShort 61440000000 (some 61440000246) = false) ∧
    ({ run with prot := { run.prot with trips := run.prot.trips.set 0 { hold := true }, wins := run.prot.wins.set 0 { ov := true } } } : Dev).heldOff 0 = true := by decide +kernel
theorem hyps_Triggers :
    (let d := (phase run 0 fun p => { carrierAt p 959999990 with trigA := { enEff := true, posEff := 10 }, trigB := { enEff := true, posEff := 10 }, blankUntil := some 960000000, startEdge := some 959952000 }).advance 0
     d.alive = true ∧ (d.carrierRail 0).isSome = true ∧ d.pwm[0].sync d.clk.now = d.pwm[0] ∧ d.pwm[0].trigA.posEff.toNat < d.pwm[0].upLen + d.pwm[0].downLen ∧ d.pwmg.bgAt ≤ d.clk.now ∧ d.pwm[0].trigA.enEff = true ∧ d.pwm[0].trigA.count = 0 ∧ d.pwm[0].trigA.fired = false ∧
      d.pwm[0].valley + d.pwm[0].trigA.posEff.toNat = d.clk.now ∧ d.pwm[0].trigB.enEff = true ∧ d.pwm[0].trigB.count = 0 ∧ d.pwm[0].trigB.fired = false ∧
      d.pwm[0].valley + d.pwm[0].trigB.posEff.toNat = d.clk.now ∧ d.gateForce 0 = false ∧ d.pwm[0].blankUntil = some 960000000 ∧ 960000000 ≤ d.clk.now ∧
      d.prot.trips[0].cmp = false ∧ d.pwm[0].startEdge = some 959952000 ∧ 959952000 + 48000 ≤ d.clk.now) ∧
    (tiled.advance 0).gateForce 0 = true ∧ tiled.alive = true ∧
    ((63 : Byte).toNat < 64 ∧ ¬((64 : Byte).toNat < 64 ∨ 96 < (64 : Byte).toNat) ∧ ¬((96 : Byte).toNat < 64 ∨ 96 < (96 : Byte).toNat) ∧ 96 < (97 : Byte).toNat) := by decide +kernel
theorem hyps_HostDuty :
    (let d := run.advance 0
     takes run (request 7 0 1 [], .loadAll 0 1) ∧ d.covered 0 1 = false ∧ d.covered 2 1 = true ∧ d.pwm[1].hostOvr = false ∧
      (∀ n : PhaseIx, d.pwm[n].hostOvr = false) ∧ (∀ n : PhaseIx, d.pwm[n].hostStartWait = false) ∧ d.tile.cur.phases[(1 : PhaseIx)].host = true ∧ d.railOf 2 = none) ∧
    (∀ x ∈ [(false, (1 : Nat)), (true, 0)], let d := (asks (request 7 0 1 []) (phase run 0 fun p => { p with hostOvr := true, hostStartWait := x.1, dutyStaged := BitVec.ofNat 22 x.2 })).advance 0
     host d (.loadAll 0 1) ∧ d.covered 1 0 = true ∧ d.pwm[0].hostOvr = true ∧ d.pwm[0].hostStarted = false ∧ d.pwm[0].hostStartWait = x.1 ∧ (d.pwm[0].dutyStaged = 0 ↔ x.2 = 0)) := by decide +kernel
theorem hyps_HostDuty_override :
    (let d := (asks (reqWrite 0x10000 1) { tiled with rails := tiled.rails.set 0 { oltEn := true } }).advance 0
     host d (.hostOvrWrite 0 0 1) ∧ (1 : Word).getLsbD 0 = true ∧ d.railOf 0 = some 0 ∧ d.tile.cur.phases[(0 : PhaseIx)].host = false ∧ d.pwm[0].hostOvr = false ∧ d.mode 0 = .off ∧
      d.rails[0].oltEn = true ∧ d.sys.devState = .standby) ∧
    takes run (reqWrite 0x10200 1, .hostOvrWrite 0 2 1) ∧ run.railOf 2 = none ∧ takes run (reqWrite 0x10000 0, .hostOvrWrite 0 0 0) ∧
    (∀ x ∈ [(0 : Nat), 1], let v := BitVec.ofNat 32 x
     let d := (asks (reqWrite 0x10000 v) (phase (inState .maint) 0 fun p => { p with hostOvr := true })).advance 0
     host d (.hostOvrWrite 0 0 v) ∧ d.railOf 0 = some 0 ∧ d.sys.devState = .maint ∧ d.pwm[0].hostOvr = true) := by decide +kernel
theorem hyps_ReferencePeriods :
    (∀ x ∈ [(run, (0 : RailIx), (120 : Word)), (run, 1, 119), (run, 1, 120)], takes x.1 (reqWrite (0x14000 + 4 * x.2.1.val) x.2.2, .rperWrite 0 x.2.1 x.2.2)) ∧
    run.rails[0].mode ≠ .off ∧ run.rails[1].mode = .off ∧ ((119 : Word).setWidth 16).toNat < 120 ∧ 120 ≤ ((120 : Word).setWidth 16).toNat ∧
    (∀ x ∈ [(run, (120 : Word)), (idle, 119), (idle, 120)], takes x.1 (reqWrite 0x14020 x.2, .syncPerWrite 0 x.2)) ∧
    run.sys.devState = .run ∧ idle.sys.devState ≠ .run ∧ (run.advance 0).alive = true ∧
    (let d := ({ run with pwmg := { run.pwmg with dev := { running := true, per := 120, pend := some 240, valley := 959999760 }, refs := ((run.pwmg.refs.set 0 { startDue := true }).set 1 { running := true, holding := true }).set 2 { running := true, per := 240 } } } : Dev).advance 0
     d.pwmg.dev.running = true ∧ d.pwmg.dev.due d.clk.now false = true ∧ d.pwmg.refs[0].startDue = true ∧ d.pwmg.refs[1].holding = true ∧ d.pwmg.refs[2].per = 240 ∧
      d.chord.free = false ∧ d.chord.corr = 0) ∧
    ({ run.pwmg.dev with running := true } : RefCarrier).due 5 false = false := by decide +kernel
/-! ## Hypotheses met: sensing -/

/-- `run` with a quad 0 of four slices in service and slice 4 the spare, and a leave budget. -/
def sensing (f : Quad → Quad) : Dev :=
  let q : Quad := { slots := Vector.ofFn fun i => some (Fin.ofNat 5 i.val), slices := (Vector.replicate 5 ({ st := .service } : Slice)).set 4 {}, outOfLine := some 4 }
  { run with sense := { run.sense with quads := run.sense.quads.set 0 (f q) }, leave := { run.leave with budget := 500 } }
/-- `sensing` with other calibration registers and state. -/
def calibrating (st : DevState) (f : Sense → Sense) : Dev :=
  let d := sensing id
  { d with sys := { d.sys with devState := st }, sense := f d.sense }
def req0 : Req := { entry := 0, inj := false, kind := .ent, tick := 959999520, waitFrom := 959999520 }
def conversion : Conv := { req := req0, slots := [0], slices := [0], sampleAt := 959999982, slotsFree := 959999988, ready := 960000000, count := 1, interleaved := false, ent := { input := 0x20 } }

theorem hyps_Slices :
    (let d := (sensing fun q => { q with rotAt := 960000000 }).advance 0
     d.alive = true ∧ d.sense.quads[0].rotAt ≤ d.clk.now ∧ d.sense.quads[0].outOfLine = some 4 ∧ d.sense.quads[0].slices[4].st = .spare ∧ d.sense.rotEn = true ∧
      d.sense.quads[0].rotGranted = false ∧ d.testing 0 = false ∧ d.waitsLeave .rotation (rotTarget 0) = false ∧ room d 40) ∧
    (let d := ((sensing fun q => { q with measEnd := some 960000000 }).advance 0).quadEdges 0
     d.sense.quads[0].outOfLine = some 4 ∧ d.sense.quads[0].measEnd = some 960000000 ∧ 960000000 ≤ d.clk.now) ∧
    SliceMeas.result {} = .ok (0, 0) ∧ SliceMeas.result { span0 := 32, span1 := 32 } = .ok (0, 0) ∧ SliceMeas.result { span0 := 33 } = .error 2 ∧
    SliceMeas.result { sum1 := 0 } = .error 1 ∧ (sensing id).staleNow 0 = true ∧
    (let d := (calibrating .run fun x => { x with lpForce := true }).advance 0
     d.alive = true ∧ d.sliceEdge = true ∧ d.wantsLow 0 = true ∧ d.sense.quads[0].lowPower = false ∧ d.sense.quads[0].convs = []) ∧
    ((calibrating .run fun x => { x with lpForce := true }).advance 960000001).sliceEdge = false := by decide +kernel
theorem hyps_InlineFail :
    (let d := ((sensing id).advance 0).quadEdges 0
     (sensing id).alive = true ∧ d.sense.quads[0].entering 2 d.clk.now = none ∧ d.sense.quads[0].slots[(2 : Fin 4)] = some 2 ∧ d.sense.quads[0].outOfLine = some 4 ∧ d.sense.stage = none) ∧
    (let d := ((sensing fun q => { q with outOfLine := none }).advance 0).quadEdges 0
     d.sense.quads[0].entering 2 d.clk.now = none ∧ d.sense.quads[0].slots[(2 : Fin 4)] = some 2 ∧ d.sense.quads[0].outOfLine = none ∧ d.srcLives (srcDegraded 0) = true) ∧
    (let d := ((sensing fun q => { q with outOfLine := none, slots := q.slots.set 2 none }).advance 0).quadEdges 0
     d.sense.quads[0].outOfLine = none ∧ d.sense.quads[0].slots[(2 : Fin 4)] = none ∧ d.sense.quads[0].entering 2 d.clk.now = none) ∧
    (let d := ((sensing fun q => { q with rotGranted := true, rotFrom := 959999995 }).advance 0).quadEdges 0
     d.sense.quads[0].entering 0 d.clk.now = some 960000000 ∧ d.sense.quads[0].outOfLine = some 0) ∧
    ({ refill := some (2, 4, 960000000) } : Quad).refill = some (2, 4, 960000000) := by decide +kernel
theorem hyps_CalibrationsAsk :
    (∀ x ∈ [(1, Instr.calZero 0), (2, .calFs 0), (4, .fgcal 0)], let d := (asks (reqWrite 0x20400 x.1) (calibrating .standby fun x => { x with entry := 87 })).advance 0
     host d x.2 ∧ d.sys.devState = .standby ∧ d.sense.stage = none ∧ d.sense.entry.toNat ≤ 87 ∧ room d 450 ∧
      takes (sensing id) (reqWrite 0x20400 x.1, x.2)) ∧
    (let d : Dev := { idle with leave := { idle.leave with budget := 449 } }
     takes d (reqWrite 0x20400 4, .fgcal 0) ∧ d.sys.devState = .standby ∧ d.sense.stage = none ∧ ¬room d 450) ∧
    (let d := (asks (reqWrite 0x20400 8) (sensing id)).advance 0
     host d (.selftest 0) ∧ d.sys.devState = .run ∧ d.sense.stage = none ∧ d.spareReady (Fin.ofNat 4 d.sense.stQuad.toNat) = true ∧ room d 60) ∧
    (let d := (asks (reqWrite 0x20400 16) (calibrating .maint fun x => { x with stage := some .waiting, op := .zero })).advance 0
     host d (.calAbort 0) ∧ d.sense.stage.isSome = true ∧ d.sense.op = .zero) ∧
    takes idle (reqWrite 0x20400 16, .calAbort 0) := by decide +kernel
theorem hyps_CalValues : takes run (reqWrite 0xC0000 5, .calValueWrite 0 0 5) ∧ run.sys.devState = .run ∧ takes idle (reqWrite 0xC02B8 5, .calValueWrite 0 87 5) ∧ takes idle (reqWrite 0xC02C0 5, .calValueWrite 0 88 5) ∧
    idle.sys.devState = .standby ∧ idle.sense.stage = none ∧ idle.unlocked = false ∧ (87 : CalIx).val < 88 ∧ 88 ≤ (88 : CalIx).val ∧
    (let d : Dev := { idle with sense := { idle.sense with unlockUntil := some 960000002 } }
     takes d (reqWrite 0xC02C0 5, .calValueWrite 0 88 5) ∧ d.unlocked = true) ∧
    (let d := ({ idle with sense := { idle.sense with unlockUntil := some 960000000 } } : Dev).advance 0
     d.sense.unlockUntil = some 960000000 ∧ d.sys.devState ≠ .boot ∧ 960000000 ≤ d.clk.now ∧ d.unlocked = false) := by decide +kernel
theorem hyps_CalibrationsEnd :
    (let d := (calibrating .standby fun x => { x with stage := some (.running 0), op := .fgcal, cal := x.cal.set 93 { valid := false } }).advance 0
     d.alive = true ∧ d.sense.stage = some (.running 0) ∧ d.sense.op = .fgcal ∧ d.fgSlice 0 0 [{}] = some (0, 0) ∧ d.fgSlice 0 1 [] = none ∧ d.sense.quads[0].lowPower = false) ∧
    (let d := (calibrating .run fun x => { x with stage := some (.running 0), op := .selftest }).advance 0
     d.sense.op = .selftest ∧ d.sense.quads[0].outOfLine = some 4) ∧
    ((calibrating .standby fun x => { x with stage := some (.running 0), op := .zero }).sense.op = .zero ∧ rhe (-32768 * 4096) 4096 = -32768 ∧ rhe (32767 * 4096) 4096 = 32767 ∧ 4096 ≤ 4096 ∧
      64 ≤ 64 ∧ 64 < 65 ∧ 4095 < 4096) ∧
    (let d := calibrating .standby fun x => { x with stage := some (.running 0), op := .fs, target := 2047 }
     d.sense.op = .fs ∧ d.sense.target.toInt.natAbs < 2048) := by decide +kernel
theorem calSamples_replicate (n : Nat) (i : Fin 5) (at_ : Tick) (x : Int) (c : Bool) :
    calSamples (List.replicate n i) (List.replicate n at_) (List.replicate n x) (List.replicate n c) = List.replicate n (i, at_, { raw := x, cmOk := c }) := by
  simp [calSamples]
theorem test_calSamples : calSamples [0, 1] [7, 8] [5, 70] [true, false] = [(0, 7, { raw := 5 }), (1, 8, { raw := 70, cmOk := false })] := by decide +kernel
theorem calUs_replicate (d : Dev) (n : Nat) (i : Fin 5) (at_ : Tick) (x : Sample) (h : x.cmOk = true) : ∃ u, d.calUs (List.replicate n (i, at_, x)) = List.replicate (min 4096 n) u :=
  ⟨_, by simp [Dev.calUs, h]; exact .inr rfl⟩
theorem hyps_CalibrationsEnd_values :
    (∃ u, (calibrating .standby id).calUs (List.replicate 4096 (0, 7, { raw := 5 })) = List.replicate 4096 u) ∧ ((calibrating .standby id).calUs []).length = 0 ∧
    (calibrating .standby id).calUs [(0, 7, { raw := 5 }), (0, 8, { raw := 70 })] = [5 * 2 ^ 24, 70 * 2 ^ 24] ∧ ¬((70 : Int) * 2 ^ 24 - 5 * 2 ^ 24 ≤ 64 * 2 ^ 24) ∧
    rhe (4096 * (5 * 2 ^ 24)) (2 ^ 20 * 4096) = 80 :=
  ⟨calUs_replicate _ 4096 0 7 _ rfl, by decide +kernel⟩
/-- R239, R250: a conversion has the coefficients that stood at its tick, also where its slice has been measured anew since. -/
theorem test_calCoef : let d := (calibrating .standby fun x => { x with calCoefs := [(0, 100, 1, 2)] })
    d.calCoef 0 100 = (1, 2) ∧ d.calCoef 0 101 = (0, 0) := by decide +kernel
/-- R249: a ramp that hits every code alike passes, one that misses a code does not. -/
theorem test_ramp : rampOk (List.replicate 15360 1) = true ∧ rampOk (0 :: List.replicate 15359 1) = false := by decide +kernel
theorem hyps_Passes :
    (let d := (sensing fun q => { q with timerNext := some 960000000 }).advance 0
     d.alive = true ∧ d.sense.quads[0].regPass = none ∧ d.sense.quads[0].injPrio = false ∧ (d.seqOf 0).reg ≠ [] ∧ (d.seqOf 0).inj ≠ [] ∧ d.sense.quads[0].injPass = none ∧
      d.sense.quads[0].queue.length < 16 ∧ ((d.seqOf 0).entry (0 : Fin 32).val).isSome = true ∧ d.sense.quads[0].timerNext = some 960000000 ∧ 960000000 ≤ d.clk.now) ∧
    (sensing fun q => { q with regPass := some 0, injPass := some 32 }).sense.quads[0].regPass.isSome = true ∧
    (sensing fun q => { q with regPass := some 0, injPass := some 32 }).sense.quads[0].injPass.isSome = true ∧
    16 ≤ (sensing fun q => { q with queue := List.replicate 16 req0 }).sense.quads[0].queue.length := by decide +kernel
theorem hyps_Conversions :
    (let d := ((sensing fun q => { q with queue := [req0] }).advance 0).quadEdges 0
     (sensing id).alive = true ∧ ((sensing id).advance 0).sliceEdge = true ∧ d.sense.quads[0].queue = [req0] ∧ req0.kind = .ent ∧ (d.seqOf 0).entry req0.entry.val = some {} ∧
      req0.tick + 2 ≤ d.clk.now ∧ d.converting = true ∧ d.noPort 0 0 = false ∧ d.sense.quads[0].convs = [] ∧ d.sense.quads[0].slots[(0 : Fin 4)] = some 0) ∧
    ((sensing id).advance 960000001).sliceEdge = false ∧
    (let d := (sensing fun q => { q with queue := [req0] }).advance 0
     d.alive = true ∧ d.sense.quads[0].queue = [req0] ∧ (d.seqOf 0).entry req0.entry.val = some {} ∧ req0.waitHeld = false ∧ req0.waitFrom + 480 ≤ d.clk.now) ∧
    (∀ c ∈ [conversion, { conversion with cals := [(959999990, 5, 6)] }], let d := ((sensing fun q => { q with convs := [c] }).advance 0).quadEdges 0
     d.sense.quads[0].convs = [c] ∧ c.ready ≤ d.clk.now ∧ c.req.kind = .ent ∧ c.lost = false ∧ c.interleaved = false ∧ c.count = 1 ∧
      c.slices = [0] ∧ sourceOf 0 c.ent.input = .vsns 0) := by decide +kernel
theorem hyps_Accumulators : ({} : Acc).pCount = 0 ∧ ({} : Acc).pSum = 0 ∧ ({} : Acc).pValid = 0 ∧ [some (-8192 : Int), none, some 5] ≠ [] ∧
    ([none] : List (Option Int)).filterMap id = [] := by decide
/-- R267, R268: the sum of the valid codes, and their number. -/
theorem test_accumulator : let b := [some (100 : Int), none, some (-30)].foldl (fun b x => b.offerOne 3 x 0 0) ({} : Acc)
    b.sum = 70 ∧ b.valid = 2 ∧ b.results = 1 := by decide
theorem hyps_Trackers : (∀ x ∈ [((-8192 : Int), (0 : Tick)), (16383, 1)], -8192 ≤ x.1 ∧ x.1 ≤ 16383) ∧
    (let closes := fun (d : Dev) (v : Word) => v.getLsbD 31 = true ∨ v.setWidth 16 ≠ (0 : BitVec 16) ∧ d.sense.trks[0].opened + (v.setWidth 16 : BitVec 16).toNat * 4800 ≤ d.clk.now
     ∀ x ∈ [((0x8000000B : Nat), true), (10, true), (11, false)], let v := BitVec.ofNat 32 x.1
       let d := (asks (reqWrite 0x23004 v) { run with sense := { run.sense with trks := run.sense.trks.set 0 { win := 10, opened := 959952000 } } }).advance 0
       host d (.trkReset 0 0 v) ∧ d.alive = true ∧ d.cyc.trkClosed.getLsbD 0 = false ∧ d.tile.cur.trks[(0 : TrkIx)].isSome = true ∧ (closes d v ↔ x.2 = true) ∧
        d.sense.trks[0].win ≠ 0 ∧ d.sense.trks[0].opened + d.sense.trks[0].win.toNat * 4800 ≤ d.clk.now) ∧
    takes run (reqWrite 0x23024 1, .trkReset 0 1 1) ∧ run.tile.cur.trks[(1 : TrkIx)].isSome = false ∧
    ((inCycle run { trkClosed := 1 }).advance 0).cyc.trkClosed.getLsbD 0 = true := by decide +kernel
/-! ## Hypotheses met: loop engine, rails, cards -/

/-- `run` with context 0 as given. -/
def ctx0 (x : Ctx) (queue : List CtxIx) : Dev := { run with loop := { run.loop with ctx := run.loop.ctx.set 0 x, queue := queue } }
def result1 : ComputeRes := { meas := 0, err := 0, y := 0, out := 0, sector := 0, accSat := false, intClamp := false, outLim := false }
/-- `run` with rail 0 or its comparators as given. -/
def rail0 (f : Rail → Rail) : Dev := { run with rails := run.rails.set 0 (f run.rails[0]) }
/-- An untroubled device with storage rail 1 ready to charge and to support. -/
def storage : Dev :=
  { tiled with rails := tiled.rails.set 1 { vscale := 1, iscale := 1, vout := 2 }, loop := { tiled.loop with rails := tiled.loop.rails.set 1 { vkScale := 1 } }, ports := tiled.ports.set 0 { vPre := 1, vCv := 2, iCc := 1, iSlew := 1, safeIcc := 1, safeVcv := 1, vSup := 1, iSup := 1, vCutoff := 1 } }
def card0 (x : Card) : Dev := { run with cards := run.cards.set 0 x }

theorem hyps_Contexts :
    (let d := (ctx0 { active := true } []).advance 0
     d.alive = true ∧ d.loop.ctx[0].active = true ∧ d.loop.ctx[0].pending = none ∧ d.loop.ctx[0].flight = none ∧ d.loop.ended = [] ∧ d.loop.fab.ctxHeld[(0 : CtxIx)] = 0 ∧ d.loop.queue = []) ∧
    (run.loop.ctx[0].active = false) ∧
    (let d := (ctx0 { active := true, pending := some 479999998 } [0]).advance 0
     d.loop.ctx[0].pending = some 479999998 ∧ d.loop.queue = [0] ∧ 479999998 + 2 ≤ d.cycle ∧ d.loop.ctx[0].flight = none ∧ d.loop.lanes[0] ≤ d.cycle ∧ d.cyc.handed = []) ∧
    (∃ x : Byte, x ≠ 255 ∧ x + 1 = 255) ∧
    (let d := ctx0 { active := true, pending := some 479999998 } [0]
     ({ d with loop := { d.loop with fab := { d.loop.fab with ctxHeld := d.loop.fab.ctxHeld.set 0 255 } } } : Dev).loop.fab.ctxHeld[(0 : CtxIx)] = 255) ∧
    takes run (reqWrite 0x30040 0x80000000, .ctxDelayClr 0 0 0x80000000) ∧ takes run (reqWrite 0x35040 0, .loopHistClr 0 0) ∧ (0x80000000 : Word).getLsbD 31 = true := by decide +kernel
/-- In the cycle of a completion a start waits at its input: it is taken in the next one (R292). -/
theorem hyps_Contexts_ended : let d := ctx0 { active := true } []
    let e := (inCycle { d with loop := { d.loop with ended := [(0, 480000000, true)] } } {}).advance 0
    e.alive = true ∧ e.loop.ctx[0].active = true ∧ e.loop.ctx[0].flight = none ∧ (∃ y ∈ e.loop.ended, y.1 = 0) ∧ e.loop.fab.ctxHeld[(0 : CtxIx)] = 0 := by decide +kernel
theorem hyps_Computes :
    (∀ x ∈ [({ taken := 479999900, done := 480000000, res := none, dead := true } : Flight), { taken := 479999900, done := 480000000, res := none }, { taken := 479999900, done := 480000000, res := some result1 }],
      let d := (ctx0 { active := true, flight := some x, invalidRun := 7 } []).advance 0
      d.alive = true ∧ d.loop.ctx[0].flight = some x ∧ x.done ≤ d.cycle ∧ 479999999 < x.done ∧ d.loop.ctx[0].slewLeft = 0 ∧
      d.ctxRail 0 = some 0 ∧ d.loop.ctx[0].inputRail = none ∧ d.railDefined 0 = true ∧ 7 ≤ d.loop.ctx[0].invalidRun.toNat) ∧
    ctxPhase 0 = none ∧ ctxPhase 8 = some 0 ∧ run.srcHost 0 = false ∧ run.pwm[0].flareOn = false := by decide +kernel
theorem hyps_Arithmetic : (-8192 : Int) ≤ -8192 ∧ (8191 : Int) ≤ 8191 ∧ codeOf (-8192) 0 0 0 0 true = (-8192, false) ∧ codeOf 8191 0 0 0 0 false = (16383, false) ∧
    (let s : SectorEnt := { iLo := 0, iHi := 0, vLo := 0, vHi := 0, modeMask := 0, priority := 0, coef := [], shift := [], intMax := 1, intMin := 0, outMax := 1, outMin := 0 }
     s.outMin.toInt ≤ s.outMax.toInt ∧ s.intMin.toInt ≤ s.intMax.toInt) ∧
    (({ run with sense := { run.sense with accs := run.sense.accs.set 0 { valid := 1 } } } : Dev).compute 0).isSome = true ∧ (run.topo 0).compat = false := by decide +kernel
/-- Two Sectors that match everything, the second of higher PRIORITY. -/
theorem hyps_Winner : let e : SectorEnt := { iLo := 0x80000000, iHi := 0x7FFFFFFF, vLo := 0x80000000, vHi := 0x7FFFFFFF, modeMask := 0xFF, priority := 1, coef := [], shift := [], intMax := 1, intMin := 0, outMax := 1, outMin := 0 }
    winner [e, { e with priority := 2 }, { e with priority := 2 }] 0 0 .regulate = some 1 ∧ winner [e, e] 0 0 .regulate = some 0 ∧
    winner [{ e with modeMask := 0 }] 0 0 .regulate = none ∧ (List.replicate 8 e).length ≤ 8 := by decide +kernel
theorem hyps_RailUpdatePoints : run.tile.cur.rails[(2 : RailIx)].isSome = false ∧ run.pwmg.refs[0].running = false ∧ ∀ x ∈ [(false, 959999760), (true, 959999880)], let d := ({ run with pwmg := { run.pwmg with refs := run.pwmg.refs.set 0 { running := true, per := 120, valley := x.2 } }, sense := { run.sense with accs := run.sense.accs.set 0 { sum := 40, valid := 4, history := [{ sum := 40, valid := 4, at_ := 0 }] } } } : Dev).advance 0
    d.alive = true ∧ d.tile.cur.rails[(0 : RailIx)].isSome = true ∧ d.pwmg.refs[0].running = true ∧ d.pwmg.refs[0].holding = false ∧ d.pwmg.refs[0].due d.clk.now x.1 = true ∧ d.pwmg.refs[0].due 960000001 x.1 = false ∧
    (d.accOf (outerIx 0)).latest = some { sum := 40, valid := 4, at_ := 0 } ∧ rhe (16 * 40 * 1000) (4 * 1000) = 160 ∧ (run.accOf (outerIx 0)).latest = none := by decide +kernel
theorem hyps_RailCommands :
    (∀ r ∈ [(0 : RailIx), 1, 2], let a := 0x40000 + 0x200 * r.val
     ∀ d ∈ [tiled, run], ∀ x ∈ [(0, Instr.railCmdNone 0 r), (1, .railCmdOff 0 r), (2, .railCmdOn 0 r), (5, .railCmdReserved 0 r 0), (7, .railCmdReserved 0 r 2)], takes d (reqWrite a x.1, x.2)) ∧
    (let d := (asks (reqWrite 0x40000 2) { tiled with rails := tiled.rails.set 0 { vscale := 1 } }).advance 0
     host d (.railCmdOn 0 0) ∧ d.sharedAs 0 = none ∧ d.rails[0].mode = .off ∧ d.railDefined 0 = true ∧ (d.railEnt 0).storage = false ∧ d.rails[0].vscale ≠ 0 ∧ d.latchedNow = false ∧
      d.deviceBars 0 = false ∧ d.faultBars 0 = false ∧ d.sys.devState = .standby) ∧
    (let d := (asks (reqWrite 0x40000 1) run).advance 0
     host d (.railCmdOff 0 0) ∧ d.sharedAs 0 = none ∧ d.railDefined 0 = true ∧ d.sys.devState = .run ∧ d.latchedNow = false ∧ d.rails[0].mode ≠ .off ∧ d.cyc.struck.getLsbD 0 = false ∧
      d.cyc.stopped.getLsbD 0 = false ∧ ∀ k : RailIx, k ≠ 0 → d.rails[k].mode = .off) ∧
    (((inCycle run { struck := 1, stopped := 2 }).advance 0).cyc.struck.getLsbD 0 = true ∧ ((inCycle run { stopped := 1 }).advance 0).cyc.stopped.getLsbD 0 = true ∧
      ((inCycle run { latched := true }).advance 0).latchedNow = true) ∧
    (run.railDefined 2 = false ∧ (run.railEnt 1).storage = true ∧ tiled.rails[0].vscale = 0) := by decide +kernel
/-- A fault that stands on the rail's rearming bars its ON (R322). -/
theorem hyps_RailCommands_fault : let x : Dev := { tiled with rails := tiled.rails.set 0 { vscale := 1 } }
    let d := (asks (reqWrite 0x40000 2) { x with fault := { x.fault with src := x.fault.src.set (srcRailOv 0) { cause := 1, status := true, reach := 1 } } }).advance 0
    host d (.railCmdOn 0 0) ∧ d.rails[0].mode = .off ∧ d.railDefined 0 = true ∧ d.rails[0].vscale ≠ 0 ∧ d.deviceBars 0 = false ∧ d.faultBars 0 = true := by decide +kernel
theorem hyps_TestEnable : (∀ x ∈ [(tiled, 8), (tiled, 7), (run, 8)], let v := BitVec.ofNat 32 x.2
     takes x.1 (reqWrite 0x40008 v, .oltEnWrite 0 0 v)) ∧
    (8 : Word).getLsbD 3 = true ∧ (7 : Word).getLsbD 3 = false ∧ run.rails[0].oltEn = false ∧ tiled.rails[0].mode = .off ∧ tiled.sys.devState = .standby ∧ run.rails[0].mode ≠ .off ∧
    takes (rail0 fun x => { x with oltEn := true }) (reqWrite 0x40008 7, .oltEnWrite 0 0 7) := by decide +kernel
theorem hyps_StorageCommands : let d := storage.advance 0
    (takes storage (reqWrite 0x40200 3, .railCmdCharge 0 1) ∧ takes storage (reqWrite 0x40200 4, .railCmdSupport 0 1) ∧ takes storage (reqWrite 0x40000 3, .railCmdCharge 0 0) ∧
      takes storage (reqWrite 0x40000 4, .railCmdSupport 0 0) ∧ takes tiled (reqWrite 0x40200 3, .railCmdCharge 0 1) ∧ takes tiled (reqWrite 0x40200 4, .railCmdSupport 0 1)) ∧
    d.portOf 0 = none ∧ d.portOf 1 = some 0 ∧ d.sharedAs 1 = none ∧ d.rails[1].mode = .off ∧ d.latchedNow = false ∧ d.deviceBars 1 = false ∧ d.faultBars 1 = false ∧ d.chargeReady 0 1 = true ∧
    d.supportReady 0 1 = true ∧ tiled.chargeReady 0 1 = false ∧ tiled.supportReady 0 1 = false ∧ ((inCycle storage { latched := true }).advance 0).latchedNow = true := by decide +kernel
theorem hyps_RailEvents :
    (let d := (rail0 fun x => { x with notice := some { phase := 0, began := 912000000, until_ := 960000000, drain := false } }).advance 0
     ∃ nt, d.rails[0].notice = some nt ∧ nt.until_ ≤ d.clk.now) ∧
    (let d := ({ run with prot := { run.prot with wins := run.prot.wins.set 0 { uvCode := 1 } } } : Dev).advance 0
     d.alive = true ∧ d.prot.wins[0].uvCode ≠ 0 ∧ d.prot.wins[0].uv = false ∧ settling d.prot.wins[0].uvSettle d.clk.now = false ∧ d.flareArmed 0 = true ∧ d.rails[0].flare = none ∧ d.rails[0].mode = .regulate ∧ d.railOf 0 = some 0 ∧ d.isLoop 0 = true ∧
      (phase d 0 fun p => { p with perEff := 120 }).joinsFlare 0 = true ∧ d.heldOff 0 = false ∧ d.pwm[0].cmd = false) ∧
    settling (some 960000001) 960000000 = true ∧
    (let d := (rail0 fun x => { x with flareLastExit := some 959520002, flareGap := 100 }).advance 0
     d.flareArmed 0 = false ∧ d.rails[0].flareLastExit = some 959520002) ∧
    (let d := (rail0 fun x => { x with flareLastExit := some 959520000, flareGap := 100 }).advance 0
     959520000 + d.rails[0].flareGap.toNat * 4800 ≤ d.clk.now) ∧
    (let d := (rail0 fun x => { x with mode := .hiccup, toffAt := some 960000000 }).advance 0
     d.rails[0].mode = .hiccup ∧ d.rails[0].toffAt = some 960000000 ∧ 960000000 ≤ d.clk.now ∧ d.sharedAs 0 = none ∧ d.portOf 0 = none ∧ d.rails[0].retries.toNat < d.rails[0].retryMax.toNat) ∧
    ((rail0 fun x => { x with retryMax := 0 }).rails[0].retryMax.toNat ≤ (rail0 fun x => { x with retryMax := 0 }).rails[0].retries.toNat) ∧
    (let d := (rail0 fun x => { x with regSince := some 480000000, retryClr := 100 }).advance 0
     d.rails[0].regSince = some 480000000 ∧ 480000000 + d.rails[0].retryClr.toNat * 4800000 ≤ d.clk.now) := by
  refine ⟨⟨_, rfl, by decide⟩, ?_⟩
  decide +kernel
theorem hyps_Cards :
    run.sys.devState ≠ .boot ∧ run.cards[0].state = .qualified ∧ (card0 {}).cards[0].state = .absent ∧
    (let d := (card0 { state := .debounce, since := 936000000, lowSeen := true }).advance 0
     d.cards[0].state = .debounce ∧ 936000000 + 24000000 ≤ d.clk.now ∧ d.cards[0].lowSeen = true ∧ d.sys.cardFltLvl.getLsbD 0 = run.sys.cardFltLvl.getLsbD 0) ∧
    (let d := ({ card0 { state := .debounce, since := 936000000 } with sys := { run.sys with cardFltLvl := 1 } } : Dev).advance 0
     d.cards[0].lowSeen = false ∧ d.sys.cardFltLvl.getLsbD 0 = true) ∧
    (let d := (card0 { state := .qualifying, since := 912000000, qual := .idPulse 959904000, idExp := 0 }).advance 0
     d.sys.devState ≠ .boot ∧ d.cards[0].state = .qualifying ∧ d.cards[0].qual = .idPulse 959904000 ∧ idOfPulse (d.clk.now - 959960000) = none ∧ idOfPulse (d.clk.now - 959904000) = some 0 ∧ d.cards[0].idExp = 0 ∧ (1 : BitVec 4) ≠ 0xF ∧ (1 : BitVec 4) ≠ 0 ∧
      d.cards[0].since + 48000000 ≤ d.clk.now) ∧
    (let d := (card0 { state := .qualifying, qual := .idHold 959520000 }).advance 0
     d.cards[0].state = .qualifying ∧ d.cards[0].qual = .idHold 959520000 ∧ 959520000 + 480000 ≤ d.clk.now ∧ d.offsetReady 0 = true ∧ d.offsetOk 0 = true) := by decide +kernel
/-- A card with one checked phase, before its 16 results and with 16 too large ones. -/
theorem hyps_Cards_offset : let f := fun (h : List AccResult) => ({ card0 {} with tile := { run.tile with cur := { map1 with topo := map1.topo.set 8 { enable := true } } }, sense := { run.sense with accs := run.sense.accs.set 0 { history := h } } } : Dev)
    (f []).offsetReady 0 = false ∧ (let d := f (List.replicate 16 { sum := 32000, valid := 4, at_ := 0 })
     d.offsetReady 0 = true ∧ d.offsetOk 0 = false) := by decide +kernel
/-- R339: pulses of 2 units of 100 µs and of 15, and their tolerance of 30 µs. -/
theorem test_card_id : idOfPulse 96000 = some 0 ∧ idOfPulse 720000 = some 13 ∧ idOfPulse (96000 + 14400) = some 0 ∧ idOfPulse (96000 + 14401) = none := by decide
/-! ## Hypotheses met: protection, ports, faults -/

/-- `run` with the trip block of phase 0, the comparators of rail 0 or fault line 4 as given. -/
def trip0 (x : Trip) : Dev := { run with prot := { run.prot with trips := run.prot.trips.set 0 x } }
def win0 (x : Win) : Dev := { run with prot := { run.prot with wins := run.prot.wins.set 0 x } }
def line4 (x : FLine) : Dev := { run with prot := { run.prot with lines := run.prot.lines.set 4 x } }

theorem hyps_Comparators :
    (let d := (trip0 { settleUntil := some 960000000, count := 8, n := 8, nNow := 8 }).advance 0
     d.alive = true ∧ d.prot.trips[0].cmp = false ∧ d.blanked 0 = false ∧ settling d.prot.trips[0].settleUntil d.clk.now = false ∧ d.prot.trips[0].settleUntil = some 960000000 ∧ d.prot.trips[0].latch = false ∧
      d.prot.trips[0].nNow.toNat ≤ d.prot.trips[0].count.toNat ∧ d.railOf 0 = some 0 ∧ (run.prot.trips[0].settleUntil = none ∧ run.prot.trips[0].count.toNat < run.prot.trips[0].nNow.toNat)) ∧
    ((phase run 0 fun p => { p with blankUntil := some 960000001 }).advance 0).blanked 0 = true ∧
    (let d := (win0 { uvSettle := some 960000000, ovSettle := some 960000000, rtHiSettle := some 960000000, rtLoSettle := some 960000001, ovTh := 1 }).advance 0
     d.alive = true ∧ d.prot.wins[0].uvSettle = some 960000000 ∧ d.prot.wins[0].uv = false ∧ d.prot.wins[0].ovSettle = some 960000000 ∧ d.prot.wins[0].ov = false ∧
      d.prot.wins[0].rtHiSettle = some 960000000 ∧ d.prot.wins[0].rtHi = false ∧ d.prot.wins[0].rtLoSettle = some 960000001 ∧ d.clk.now < 960000001) ∧
    (let d := (win0 { rtLoSettle := some 960000000, rtHiSettle := some 960000001 }).advance 0
     d.prot.wins[0].rtLoSettle = some 960000000 ∧ d.prot.wins[0].rtLo = false ∧ d.prot.wins[0].rtHiSettle = some 960000001 ∧ d.clk.now < 960000001) ∧
    (let d := (win0 { ovTh := 1 }).advance 0
     d.prot.wins[0].ovTh ≠ 0 ∧ d.rails[0].vscale ≠ 0 ∧ d.prot.wins[0].ov = false ∧ settling d.prot.wins[0].ovSettle d.clk.now = false ∧ d.prot.wins[0].ovAct = true ∧ d.rails[0].mode.switching = true ∧ d.rails[0].mode ≠ .support ∧
      (win0 { ovTh := 1, ovAct := false }).prot.wins[0].ovAct = false) ∧
    (∀ x ∈ [false, true], let d := { win0 { rtAbove := 1, rtLoCode := 1, rtHiOn := true, rtLoOn := true, rtHiSettle := some 960000000, rtHi := x } with rails := run.rails.set 0 { mode := .ramp, vscale := 1 } }
     d.rtOn 0 true = true ∧ d.rtOn 0 false = true ∧ settling d.prot.wins[0].rtHiSettle d.clk.now = false ∧ settling d.prot.wins[0].rtLoSettle d.clk.now = false ∧
      d.prot.wins[0].rtHiSettle = some 960000000 ∧ d.prot.wins[0].rtHi = x ∧ d.prot.wins[0].rtLo = false) := by decide +kernel
theorem hyps_Safe :
    run.prot.stop = false ∧ run.sys.devState ≠ .boot ∧ run.prot.disSince = none ∧
    (let d := ({ run with prot := { run.prot with disSince := some 959520000, discTime := 1 } } : Dev).advance 0
     d.prot.disSince = some 959520000 ∧ 959520000 + d.prot.discTime.toNat * 480000 ≤ d.clk.now ∧ d.sys.devState ≠ .boot) := by decide +kernel
theorem hyps_FaultLines : run.sys.devState ≠ .boot ∧ (∃ c : CardIx, (4 : LineIx).val = c.val + 4 ∧ run.cards[c].state = .qualified) ∧
    (∀ c : CardIx, (4 : LineIx).val = c.val + 4 → (card0 {}).cards[c].state ≠ .qualified) ∧ (3 : LineIx).val < 4 ∧
    ((card0 {}).advance 0).cyc.cards[0].state ≠ .qualified ∧
    (let d := (inCycle (card0 {}) { cards := Vector.replicate 8 { state := .qualified } }).advance 0
     (4 : LineIx).val = (0 : CardIx).val + 4 ∧ d.cards[0].state ≠ .qualified ∧ d.cyc.no = d.cycle ∧ d.cyc.cards[0].state = .qualified ∧ d.causeOf (srcCardFault 0) 0 = false ∧ d.faultNow (srcCardFault 0) 0 = false) ∧
    (let d := (line4 { chatter := true, chatterSince := some 959520000, assertSince := some 912000000 }).advance 0
     d.prot.lines[4].chatterSince = some 959520000 ∧ 959520000 + 480000 ≤ d.clk.now ∧ d.prot.lines[4].assertSince = some 912000000) ∧
    (let d := ({ line4 { assertSince := some 912000000 } with prot := { (line4 { assertSince := some 912000000 }).prot with stuckTime := 1 } } : Dev).advance 0
     912000000 + d.prot.stuckTime.toNat * 48000000 ≤ d.clk.now) := by decide +kernel
theorem hyps_Ports :
    (let d := ({ storage with sys := { storage.sys with devState := .run }, rails := storage.rails.set 1 { mode := .charge, vscale := 1, iscale := 1, vout := 2, markAt := 960000000 }, ports := storage.ports.set 0 { phase := .cc, entered := 959520000, nextPoint := some 960000000, vCv := 2 } } : Dev).advance 0
     d.alive = true ∧ d.tile.cur.stores[(0 : PortIx)] = some { rail := 1, inreg := some 72 } ∧ ({ rail := 1, inreg := some 72 } : StoreEnt).tempMask = 0 ∧ d.ports[0].nextPoint = some 960000000 ∧ 960000000 ≤ d.rails[1].markAt ∧ d.clk.cycleAt d.rails[1].markAt = d.cycle ∧ d.rails[1].mode = .charge ∧
      d.ports[0].fallback = false ∧ d.ports[0].hot = false ∧ d.ports[0].cold = false ∧ d.ports[0].tempHold = false ∧ d.ports[0].takePhase = false ∧ d.ports[0].phase = .cc ∧
      (d.ports[0].vCv.toNat : Int) ≤ d.rails[1].vout.toInt ∧ d.wickRuns 0 = true) ∧
    ((∀ x ∈ [0, 0x80000001, 600, 601], takes tiled (reqWrite 0x50004 (BitVec.ofNat 32 x), .wickRelight 0 0 (BitVec.ofNat 32 x))) ∧ (tiled.advance 0).wickRuns 0 = false ∧ tiled.tile.cur.stores[(0 : PortIx)].isSome = true) ∧
    (((0 : Word).setWidth 10).toNat < 1 ∧ ((0x80000001 : Word).setWidth 10).toNat = 1 ∧ (0x80000001 : Word).getLsbD 31 = true ∧ ((600 : Word).setWidth 10).toNat = 600 ∧
      (600 : Word).getLsbD 31 = false ∧ 600 < ((601 : Word).setWidth 10).toNat) ∧
    (let d := ({ run with ports := run.ports.set 0 { wickAt := some 960000000 } } : Dev).advance 0
     d.ports[0].wickAt = some 960000000 ∧ 960000000 ≤ d.clk.now ∧ d.ports[0].wickOut = false) := by decide +kernel
theorem hyps_Causes : srcDefined 0xFF = false ∧ run.srcLives (srcRailOv 7) = false ∧ run.sys.devState ≠ .boot ∧
    (∀ x ∈ [(srcSafeStop, false), (srcRampTrack 0, true)], let d := run.advance 0
     srcDefined x.1 = true ∧ srcEvent x.1 = x.2 ∧ d.srcLives x.1 = true ∧ d.causeOf x.1 0 = false ∧ d.faultNow x.1 0 = false ∧ d.cyc.no = d.cycle) ∧
    (let v : Word := 1 <<< (srcSafeStop.val % 32)
     takes run (reqWrite (0x70020 + 4 * (srcSafeStop.val / 32)) v, .faultForce 0 (Fin.ofNat 8 (srcSafeStop.val / 32)) v) ∧ v.getLsbD (srcSafeStop.val % 32) = true ∧
      run.fault.src[srcSafeStop].force = false ∧ run.causeOf srcSafeStop (run.fault.finst srcSafeStop) = false) ∧
    takes run (reqWrite 0x70080 3, .faultAck 0 0 3) := by decide +kernel
/-- R409: a fault seen in cycle m reacts in cycle m + 1, not before. -/
theorem test_reactionStartsNextCycle :
    let t : Tiling := { map1 with classes := map1.classes.set (srcLoopInput 0) { map1.classes[srcLoopInput 0] with level := 2 } }
    let d : Dev := { run with tile := { run.tile with cur := t }, fault := { run.fault with due := [{ src := srcLoopInput 0, inst := 0, tick := 960000000, forced := false, detail := [] }] } }
    (d.advance 960000001).fault.due = d.fault.due ∧ (d.advance 960000001).rails[0].mode = run.rails[0].mode ∧
    (d.advance 960000002).fault.due = [] ∧ (d.advance 960000002).rails[0].mode = .hiccup := by decide +kernel
/-! ## Hypotheses met: the Lantern and the host's transactions -/

def rec0 (seq : Nat) (level : Fin 5) : Record := { seq := seq, level := level, ts := 0, code := 0x0101, source := 0 }
/-- `run` with the Lantern as given; what is journalled has room in the reservation. -/
def log (l : Lantern) : Dev := { run with lantern := { l with resv := 65536 } }

theorem findSlot_none (l : Lantern) (level : Fin 5) (h : ∀ p < 32768, ∃ x ∈ l.store, x.1 = p) (hl : ∀ x ∈ l.store, level < x.2.level) :
    ∀ fuel p, p < 32768 → l.findSlot level fuel p = none := by
  intro fuel
  induction fuel with
  | zero => intro p _; rfl
  | succ n ih =>
    intro p hp
    obtain ⟨x, hx, hxp⟩ := h p hp
    obtain ⟨y, hy⟩ := Option.isSome_iff_exists.mp ((List.find?_isSome (p := fun z => z.1 == p) (xs := l.store)).mpr ⟨x, hx, by simp [hxp]⟩)
    have hm := hl y (List.mem_of_find?_eq_some hy)
    simp only [Lantern.findSlot, hy]
    rw [if_neg (by omega)]
    exact ih _ (Nat.mod_lt _ (by decide))
theorem findSlot_full (n : Nat) (l : Lantern) (hs : l.store = (List.range 32768).map fun p => (p, rec0 p 4)) (hw : l.writePtr = 0) : l.findSlot 0 n l.writePtr = none := by
  refine findSlot_none l 0 (fun p hp => ⟨(p, rec0 p 4), ?_, rfl⟩) ?_ _ _ ?_
  · rw [hs]; exact List.mem_map.mpr ⟨p, List.mem_range.mpr hp, rfl⟩
  · intro x hx
    rw [hs] at hx
    obtain ⟨p, -, rfl⟩ := List.mem_map.mp hx
    show (0 : Fin 5) < 4
    decide
  · omega
/-- A ring full of records above a level has no slot for it (R430). -/
theorem hyps_RingFull : ∃ l : Lantern, l.findSlot 0 32768 l.writePtr = none := by
  refine ⟨{ store := (List.range 32768).map fun p => (p, rec0 p 4) }, ?_⟩
  exact findSlot_full _ _ (by dsimp only) (by dsimp only)
theorem hyps_Journal :
    (let b : Bucket := { code := 0x0101, tokens := 15, suppressed := 1 }
     let d := (log { ram := [{ rec0 1 0 with isOpen := true }], next := 2, openUntil := 960000000, buckets := [b] }).advance 0
     d.lantern.next < d.lantern.resv ∧ (∀ r ∈ d.lantern.ram, r.seq < d.lantern.next) ∧ d.lantern.newest = some { rec0 1 0 with isOpen := true } ∧
      d.lantern.openUntil ≤ d.clk.now ∧ d.logRuns = true ∧ d.lantern.buckets = [b] ∧ b.suppressed ≠ 0 ∧ b.recent = false ∧ d.tb % d.lantern.refillEvery = 0 ∧
      (d.lantern.closeDue d.clk.now).hasRoom 0 = true ∧ isFaultCode 0x0101 = true ∧ d.cyc.notes = 0) ∧
    (let d := (log { buckets := [{ code := 0x0101, tokens := 16 }, { code := 0x0102, tokens := 0, suppressed := 1, recent := true }] }).advance 0
     (d.lantern.buckets.map (·.code)).Nodup ∧ ∀ b ∈ d.lantern.buckets, b.suppressed = 0 ∨ b.recent = true) ∧
    (let d := (log {}).advance 960000001
     d.tb % d.lantern.refillEvery ≠ 0 ∧ d.lantern.openUntil ≤ d.clk.now) ∧
    ((log { openUntil := 960000001 }).advance 0).clk.now < 960000001 ∧ (State.reset.dev.advance 0).logRuns = false := by decide +kernel
theorem hyps_Persist : let d := (log { ram := [rec0 1 0], next := 2 }).advance 0
    d.logRuns = true ∧ d.lantern.nextOut = some (rec0 1 0) ∧ d.lantern.findSlot 0 32768 d.lantern.writePtr = some 0 ∧ (log {}).lantern.nextOut = none := by decide +kernel
theorem hyps_Snapshots :
    (let d := (log {}).advance 0
     d.alive = true ∧ (d.reachInput 0x200).1 = false ∧ (d.reachInput 0x201).1 = false ∧ d.loop.fab.snapHeld[(0 : Fin 8)] = 0 ∧ d.tile.cur.snaps[(1 : Fin 8)] = none ∧ d.tile.cur.snaps[(0 : Fin 8)].isSome = true ∧
      d.canSnap = true ∧ (d.lantern.closeDue d.clk.now).hasRoom 0 = true ∧ (d.lantern.bucket 0x0004).tokens ≠ 0 ∧ d.lantern.newest = none) ∧
    (let d := (log { buckets := [{ code := 0x0004, tokens := 0 }] }).advance 0
     d.canSnap = true ∧ (d.lantern.bucket 0x0004).tokens = 0 ∧ d.lantern.newest = none) ∧
    (log { staging := Vector.replicate 16 (some { seq := 0, list := 0, serial := 0, tick := 0, values := [] }) }).canSnap = false ∧
    (let d := ((log {}).advance 0).reachInput 0x200
     (d.2.reachInput 0x200).1 = true ∧ d.2.alive = true) ∧
    (run.updFab fun f => { f with snapHeld := f.snapHeld.set 0 255 }).loop.fab.snapHeld[(0 : Fin 8)] = 255 := by decide +kernel
theorem hyps_Reads :
    (∀ x ∈ [(held, 0x002000), (held, 0x001FFC), (idle, 0x000000), (idle, 0x000001), (idle, 0x100000), (idle, 0x12FFFC), (idle, 0x130000), (idle, 0x13FFFC), (idle, 0x140000)],
      let d := (asks (reqRead x.2) x.1).advance 0
      d.linkBlocked = false ∧ d.asked (.read 0 (BitVec.ofNat 24 x.2)) = true) ∧
    (∀ x ∈ [(0x100000, 0), (0x100000, 65), (0x0FFFFC, 2), (0x100000, 64), (0x001008, 2)],
      let d := (asks (request 3 x.2 0 (leBytes 4 x.1)) idle).advance 0
      d.linkBlocked = false ∧ d.asked (.readBurst 0 (BitVec.ofNat 24 x.1) (BitVec.ofNat 8 x.2)) = true) ∧
    held.sys.bootHold = true ∧ heldRead 0x002000 = false ∧ heldRead 0x001FFC = true ∧ readable 0x000000 = true ∧ readable 0x000001 = false ∧
    readable 0x100000 = true ∧ readable 0x12FFFC = true ∧ 0x12FFFC < bank3Base ∧ readable 0x130000 = true ∧ readable 0x13FFFC = true ∧ readable 0x140000 = false ∧
    (oneRange (burstAddrs 0x0FFFFC 2) && (burstAddrs 0x0FFFFC 2).all readable) = false ∧ (oneRange (burstAddrs 0x100000 64) && (burstAddrs 0x100000 64).all readable) = true := by decide +kernel
theorem hyps_Reads_burst : ∀ x ∈ burstAddrs 0x100000 64, x < bank3Base ∧ idle.readEffect x = idle := by
  intro x hx
  obtain ⟨i, hi, rfl⟩ := List.mem_map.mp hx
  have hi := List.mem_range.mp hi
  refine ⟨show 0x100000 + 4 * i < 1245184 by omega, ?_⟩
  have h1 : ¬0x100000 + 4 * i = 0x001008 := by omega
  have h2 : ¬0x100000 + 4 * i = 0x004000 := by omega
  simp [Dev.readEffect, h1, h2]
theorem hyps_LogRead :
    (∀ k ∈ [0, 1, 3, 4], let d := (asks (request 9 k 0 (leBytes 6 5 ++ [0, 0])) held).advance 0
      d.linkBlocked = false ∧ d.asked (.logRead 0 5 (BitVec.ofNat 8 k)) = true ∧ (d.sys.bootHold && d.lantern.storeBad) = false) ∧
    (1 : Byte).toNat = 1 ∧ (3 : Byte).toNat = 3 ∧
    (let d : Dev := { held with lantern := { held.lantern with storeBad := true } }
     (d.sys.bootHold && d.lantern.storeBad) = true) ∧
    takes idle (reqWrite 0x80064 7, .rselHiWrite 0 7) ∧ takes idle (reqWrite 0x800C0 7, .snapSelWrite 0 7) := by decide +kernel
theorem hyps_Writes : idle.sys.retryPending = false ∧
    (∀ x ∈ [0x000000, 0x100000, 0x12FFFC, 0x130000, 0x001010, 0x004040], takes idle (reqWrite x 1, .write 0 (BitVec.ofNat 24 x) 1)) ∧
    (∀ x ∈ [0x001010, 0x004040, 225804], takes idle (request 4 2 0 (leBytes 4 x ++ leBytes 4 1 ++ leBytes 4 1), .writeBurst 0 (BitVec.ofNat 24 x) [1, 1])) ∧
    (∀ n ∈ [0, 1, 62, 63], takes idle (request 4 n 0 (leBytes 4 0x12FF08 ++ (List.replicate n (leBytes 4 7)).flatten), .writeBurst 0 0x12FF08 (List.replicate n 7))) ∧
    writable 0x000000 = false ∧ writable 0x100000 = true ∧ writable 0x12FFFC = true ∧ writable 0x130000 = true ∧
    (writable 0x001010 = true ∧ writable 0x001014 = true ∧ ((idle.advance 0).writeReg 0x001010 1).2 = stOk ∧ (((idle.advance 0).writeReg 0x001010 1).1.writeReg 0x001014 1).2 = stOk ∧
      (((idle.advance 0).writeReg 0x001010 1).1.writeReg 0x001014 1).1.sys.retryPending = false) ∧
    (writable 0x004040 = true ∧ writable 0x004044 = true ∧ refusesWord 0x004040 ((idle.advance 0).writeReg 0x004040 1).2 = true) ∧
    (writable 225804 = true ∧ writable 225808 = true ∧ refusesWord 225804 ((idle.advance 0).writeReg 225804 1).2 = false ∧
      refusesWord 225808 (((idle.advance 0).writeReg 225804 1).1.writeReg 225808 1).2 = true) ∧ Memory.wf [] = true ∧ 0x12FF08 + 4 * 62 = bank3Base := by decide +kernel
theorem hyps_Atomics : (∀ x ∈ [0x100000, 0x12FFFC, 0x130000, 0x13FFFC, 0x0FFFFC, 0x140000, 0x100002], let a : Addr := BitVec.ofNat 24 x
      takes idle (request 5 0 0 (leBytes 4 x ++ leBytes 4 9), .atomicAdd 0 a 9) ∧ takes idle (request 6 0 0 (leBytes 4 x ++ leBytes 4 9), .atomicSwap 0 a 9)) ∧
    idle.sys.retryPending = false ∧ Memory.wf [(0x100000, 7)] = true ∧ scratchBase ≤ 0x100000 ∧ 0x12FFFC < bank3Base ∧ 0x12FFFC % 4 = 0 ∧
    bank3Base ≤ 0x130000 ∧ 0x13FFFC < scratchEnd ∧ 0x0FFFFC < scratchBase ∧ scratchEnd ≤ 0x140000 ∧ 0x100002 % 4 ≠ 0 := by decide +kernel
/-! ## Hypotheses met: trust -/

/-- The base point as a key, and a CLAIM token for a device and challenge of zeros that it signs. -/
def keyG : BitVec 512 := 0x6b17d1f2e12c4247f8bce6e563a440f277037d812deb33a0f4a13945d898c2964fe342e2fe1a7f9b8ee7eb4a7c0f9e162bce33576b315ececbb6406837bf51f5#512
def tokenHead (kind signer slot : Byte) (arg : Nat) (dev chal : List Byte) : List Byte :=
  [0x54, 0x4F, 0x4B, 0x4E, kind, signer, slot, 0] ++ dev ++ chal ++ leBytes 4 arg ++ List.replicate 12 0
def sigG : List Byte := beBytes 64 0x6b17d1f2e12c4247f8bce6e563a440f277037d812deb33a0f4a13945d898c2966c06a5ccb9cc5ffc9eb6acaa0ded0ec39fd132985d16f1f7406bd7816ae42056
def claim : List Byte := tokenHead 2 0x20 0 0 (List.replicate 8 0) (List.replicate 16 0) ++ keyBytes keyG ++ keyBytes keyG ++ sigG
def token (kind signer slot : Byte) (arg : Nat) : List Byte := tokenHead kind signer slot arg (List.replicate 8 0) (List.replicate 16 0) ++ List.replicate 192 0

theorem token_hash : beNat (sha256 (claim.take 0xB0)) = 421971743018177968941317113780768680978541581281404133915083563492031815104 := by decide +kernel
theorem token_mul : p256Mul 256 96043982420029855177952946537460609836788948336887683769109733622166156447323 (some p256g) =
    some (53862527115463991240089613881010682481486779328190029341404654721222082900800, 6777577740405911112958637660238477434458654794285690769901783576327956170893) := by decide +kernel
theorem token_mul_key : p256Mul 256 19748106790326393584744500411946963693208006887248076573312525438902355597047 (some (keyG.toNat / 2 ^ 256, keyG.toNat % 2 ^ 256)) =
    some (19036638853160753951857437868870919743199414828720801146544425298148344942049, 44344601198438879390309965677525326178556712251737777105658882877348415522371) := by decide +kernel
theorem token_fields : (tokenOf claim).pub = keyG ∧ (tokenOf claim).sig = BitVec.ofNat 512 (beNat sigG) := by decide +kernel
theorem test_token_signature : ecdsaVerify (tokenOf claim).pub (claim.take 0xB0) (tokenOf claim).sig = true := by
  rw [token_fields.1, token_fields.2]
  exact ecdsa_ok _ 54517873629235694865529681256881085298550881400016990764244079311537028001657 96043982420029855177952946537460609836788948336887683769109733622166156447323
    19748106790326393584744500411946963693208006887248076573312525438902355597047 token_hash (by decide +kernel) (by decide +kernel) token_mul token_mul_key
theorem hyps_TokenKinds : (tokenOf claim).kind = 2 ∧ (tokenOf (token 1 0 0 0)).kind = 1 ∧ (tokenOf (token 3 0 3 0)).kind = 3 ∧ (tokenOf (token 4 0 3 0)).kind = 4 ∧
    (tokenOf (token 5 0 0 3600)).kind = 5 ∧ ecdsaVerify (tokenOf (token 1 0 0 0)).pub ((token 1 0 0 0).take 0xB0) (tokenOf (token 1 0 0 0)).sig = false ∧
    (let d := ({ run with trust := { run.trust with running := [.token claim] } } : Dev).advance 0
     d.clk.onBackup = false ∧ d.trust.running = .token claim :: []) := by decide +kernel

theorem shaRounds_length (ks ws : List Nat) (a b c d e f g h : Nat) : (shaRounds ks ws a b c d e f g h).length = 8 := by
  induction ks generalizing ws a b c d e f g h with
  | nil => simp [shaRounds]
  | cons k ks ih =>
    cases ws with
    | nil => simp [shaRounds]
    | cons w ws => rw [shaRounds]; apply ih
theorem forcedAll_length : ∀ xs acc : List Nat, (forcedAll xs acc).length = acc.length + xs.length
  | [], acc => by simp [forcedAll]
  | x :: xs, acc => by
    have h : ∀ y, (forcedAll xs (y :: acc)).length = acc.length + (x :: xs).length := fun y => by
      rw [forcedAll_length xs (y :: acc)]
      simp
      omega
    cases x <;> simp only [forcedAll, forced] <;> exact h _
theorem shaBlock_length (hash : List Nat) (blk : List Byte) (h : hash.length = 8) : (shaBlock hash blk).length = 8 := by
  unfold shaBlock
  split
  · simp [forcedAll_length, shaRounds_length]
  · exact h
theorem shaBlocks_length : ∀ (n : Nat) (hash : List Nat) (bs : List Byte), hash.length = 8 → (shaBlocks n hash bs).length = 8
  | 0, _, _, h => h
  | n + 1, hash, _, h => shaBlocks_length n _ _ (shaBlock_length hash _ h)
theorem sha256_length (bs : List Byte) : (sha256 bs).length = 32 := by
  have h := shaBlocks_length ((shaPad bs).length / 64) shaInit (shaPad bs) rfl
  simp [sha256, List.length_flatMap, beBytes, leBytes, h]
theorem deviceId_length : deviceId.length = 8 := by simp [deviceId, keyHash, sha256_length]
theorem chal_length (t : Trust) : t.chal.length = 16 := by simp [Trust.chal, leBytes]

theorem tokenClear_fields (dev chal rest : List Byte) (hd : dev.length = 8) (hc : chal.length = 16) (hr : rest.length = 192) :
    let bs := tokenHead 1 0 0 0 dev chal ++ rest
    bs.length = 240 ∧ tokenFormOk bs = true ∧ slice bs 8 8 = dev ∧ slice bs 0x10 16 = chal ∧ numAt bs 4 1 = 1 ∧ byteAt bs 5 = 0 := by
  have hl : (tokenHead 1 0 0 0 dev chal ++ rest).length = 240 := by simp [tokenHead, leBytes, hd, hc, hr]
  have h1 := slice_append [0x54, 0x4F, 0x4B, 0x4E, 1, 0, 0, 0] dev (chal ++ leBytes 4 0 ++ List.replicate 12 0 ++ rest)
  have h2 := slice_append ([0x54, 0x4F, 0x4B, 0x4E, 1, 0, 0, 0] ++ dev) chal (leBytes 4 0 ++ List.replicate 12 0 ++ rest)
  have h3 : slice (tokenHead 1 0 0 0 dev chal ++ rest) 0x24 12 = List.replicate 12 0 := by
    have h := slice_append ([0x54, 0x4F, 0x4B, 0x4E, 1, 0, 0, 0] ++ dev ++ chal ++ leBytes 4 0) (List.replicate 12 0) rest
    simpa [tokenHead, leBytes_length, hd, hc] using h
  rw [hd] at h1
  rw [hc, List.length_append, hd] at h2
  refine ⟨hl, ?_, by simpa [tokenHead] using h1, by simpa [tokenHead] using h2, rfl, rfl⟩
  unfold tokenFormOk
  rw [hl, h3]
  rfl
def keysG : List Byte := List.replicate 64 0 ++ keyBytes keyG ++ List.replicate 64 0
theorem tokenClear_pub (dev chal : List Byte) (hd : dev.length = 8) (hc : chal.length = 16) :
    keyAt (tokenHead 1 0 0 0 dev chal ++ keysG) 0x70 = keyG := by
  have h := slice_append (tokenHead 1 0 0 0 dev chal ++ List.replicate 64 0) (keyBytes keyG) (List.replicate 64 0)
  have h1 : (tokenHead 1 0 0 0 dev chal ++ List.replicate 64 0).length = 0x70 := by simp [tokenHead, leBytes, hd, hc]
  have h2 : (keyBytes keyG).length = 64 := by simp [keyBytes, beBytes, leBytes]
  have h3 : tokenHead 1 0 0 0 dev chal ++ keysG = tokenHead 1 0 0 0 dev chal ++ List.replicate 64 0 ++ keyBytes keyG ++ List.replicate 64 0 := by
    simp only [keysG, List.append_assoc]
  have h4 : BitVec.ofNat 512 (beNat (keyBytes keyG)) = keyG := by decide +kernel
  rw [h1, h2] at h
  rw [keyAt, h3, h, h4]
/-- `run` with the owner key of slot 0. -/
def owned : Dev := { run with trust := { slots := (Vector.replicate 4 {}).set 0 { st := .installed, key := keyG } } }
theorem owned_asks (p : List Byte) (h : formOk p = true) : let d := (asks p owned).advance 0
    d.link.window = [{ seq := 0, payload := p }] ∧ d.trust = owned.trust ∧ d.linkBlocked = false ∧ d.sys.bootHold = false ∧ room d 300 ∧ d.sys.devState ≠ .boot := by
  rw [Dev.advance_idle (d := asks p owned) (Dev.stirs_idle rfl rfl (by simp [Dev.malformed, asks, takeFirst, h])) rfl rfl]
  simp only [Dev.clockTo]
  split <;> exact ⟨rfl, rfl, (by decide +kernel : owned.linkBlocked = false), rfl, (by decide +kernel : room owned 300), (by decide : owned.sys.devState ≠ .boot)⟩
/-- A CLEAR of this device, of this challenge, by the owner key in slot 0, passes checks 1 to 5. -/
theorem hyps_TokenPasses : ∃ bs : List Byte, let d := (asks (request 0x0B 0 0 bs) owned).advance 0
    d.takesHost (.tokenClear 0 bs) ∧ d.sys.devState ≠ .boot ∧ d.trust.tokenCheck bs = none ∧ room d 300 := by
  let t : Trust := owned.trust
  obtain ⟨h0, h1, h2, h3, h4, h5⟩ := tokenClear_fields deviceId t.chal keysG deviceId_length (chal_length t) (by simp [keysG, keyBytes, beBytes, leBytes])
  have h6 := tokenClear_pub deviceId t.chal deviceId_length (chal_length t)
  refine ⟨tokenHead 1 0 0 0 deviceId t.chal ++ keysG, ?_⟩
  have hk : signerOk t.keys 0 keyG = true := by decide +kernel
  generalize tokenHead 1 0 0 0 deviceId t.chal ++ keysG = bs at *
  have hf : formOk (request 0x0B 0 0 bs) = true := by
    have hn : (request 0x0B 0 0 bs).length = 244 := by simp [request, leBytes_length, h0]
    unfold formOk
    rw [hn]
    rfl
  obtain ⟨ow, ot, ol, oh, oroom, ob⟩ := owned_asks (request 0x0B 0 0 bs) hf
  refine ⟨⟨ol, oh, ?_⟩, ob, ?_, oroom⟩
  · show ((asks (request 0x0B 0 0 bs) owned).advance 0).asked (.tokenClear 0 bs) = true
    rw [Dev.asked, ow]
    simp [takeFirst, Instr.spelledBy]
  · rw [ot]
    show t.tokenCheck bs = none
    simp only [Trust.tokenCheck, Token.signerOk, Token.preOk, tokenOf, h1, h2, h3, h4, h5, h6, hk, bne_self_eq_false]
    simp
theorem hyps_TokenFails : ({} : Trust).tokenCheck [] = some (1, stState) ∧ held.sys.devState = .boot ∧ (held.advance 0).linkBlocked = false ∧
    ∀ c ∈ [Instr.tokenClear 0 [], .tokenClaim 0 [], .tokenInstall 0 [], .tokenRevoke 0 [], .tokenUnlock 0 []], takes run (request 0x0B 0 0 [], c) ∧
      ((asks (request 0x0B 0 0 []) held).advance 0).asked c = true := by decide +kernel
theorem hyps_Attest :
    (∀ x ∈ [(idle, true, List.replicate 52 0), (idle, false, []), (held, true, List.replicate 52 0)], let d := (asks (request 0x0A 0 0 x.2.2) x.1).advance 0
      d.linkBlocked = false ∧ (d.attestBars x.2.2 = !x.2.1) ∧ ∀ c ∈ [Instr.attestIdentity 0 x.2.2, .attestRecords 0 x.2.2, .attestCalibration 0 x.2.2], d.asked c = true) ∧
    held.sys.bootHold = true ∧ room idle 300 ∧
    (let d := ({ log { ram := [rec0 1 0], next := 2, floor := 1 } with trust := { run.trust with running := [.attest ([1, 0, 0, 0] ++ List.replicate 32 0 ++ leBytes 6 1 ++ leBytes 6 1 ++ List.replicate 4 0) (some (1, 1, 1))] } } : Dev).advance 0
     d.clk.onBackup = false ∧ d.trust.running ≠ [] ∧ ((d.lantern.closeDue d.clk.now).range 1 1).length = 1 ∧ ((d.lantern.closeDue d.clk.now).range 2 3).length ≠ 1) := by decide +kernel
/-! ## Hypotheses met: link, Chord, leave, leases, tests -/

def linked (l : Link) : Dev := { run with link := { l with rxSync := true } }
def response (seq : Byte) : Response := { seq := seq, status := 0, expect := 0, epoch := 0, op := 0, payload := [] }

/-- A REQUEST without payload as its symbols arrive. -/
def rxRequest : List (Option Machine.Symbol) := (frameSymbols [1, 0, 0, 0, 0, 0, 0, 0] 0).map some
theorem hyps_Frames :
    (let d := (linked { expect := 9, window := [{ seq := 8, payload := [] }], replay := [response 1], nakHold := some (9, 960000001) }).advance 0
     d.linkUp = true ∧ d.mayTake (40 * (256 + 14)) = true ∧ d.mayTake 560 = true ∧ (d.link.expect - 1).toNat ≤ 8 ∧ d.link.replay.find? (fun x => x.seq == 1) = some (response 1) ∧
      (∃ x ∈ d.link.window, x.seq = 8 ∧ x.done = false) ∧ (∀ x ∈ d.link.replay, x.seq ≠ 8) ∧ 8 < (d.link.expect - 0).toNat ∧ d.link.nakHold = some (d.link.expect, 960000001) ∧ d.clk.now < 960000001) ∧
    (let d := (linked { window := List.replicate 8 { seq := 0, payload := [] } }).advance 0
     d.mayTake 0 = false ∧ d.mayTake 560 = false ∧ d.linkUp = true ∧ d.link.tx = [] ∧ d.link.nakHold = none) ∧
    (linked {}).link.window = [] ∧ (∃ f ∈ [TxFrame.nak 1 0], f.names 0 = true) ∧ run.linkUp = false ∧ (State.reset.dev.advance 0).locked = false ∧
    receptionFails rxRequest = false ∧ receptionFails [] = true ∧ receptionFails (none :: rxRequest.tail) = true ∧
    ({ run with sys := { run.sys with rdyLowBackup := true } } : Dev).hlTx = .off ∧ takes (linked {}) (reqWrite 0xA0018 1, .linkCtrlClr 0 1) := by decide +kernel
theorem hyps_Frames_sent :
    (let d := (linked { tx := [.response (response 0)], window := [{ seq := 0, payload := [], done := true }] }).advance 0
     d.hlTx ≠ .off ∧ d.link.tx = .response (response 0) :: [] ∧ d.sys.retryPending = false ∧ d.link.mayLeave (.response (response 0)) d.clk.now = true ∧
      ({ d.link with framed := true } : Link).mayLeave (.response (response 0)) d.clk.now = true ∧
      ({ d.link with framed := true, lineFrom := 960000000 } : Link).mayLeave (.response (response 0)) d.clk.now = false ∧ (960000000 - 960000000) / 40 < 4) ∧
    (let d := ({ held with sys := { held.sys with retryPending := true }, link := { held.link with tx := [.response (response 0)] } } : Dev).advance 0
     d.hlTx ≠ .off ∧ d.sys.retryPending = true ∧ d.link.mayLeave (.response (response 0)) d.clk.now = true) := by decide +kernel
theorem hyps_Frames_last : ∀ r, TxFrame.response r ∉ ([] : List TxFrame) := fun _ => List.not_mem_nil

/-- `run` with the Chord state as given. -/
def chained (c : Chord) : Dev := { run with chord := c }

theorem hyps_ChainPorts :
    ((run.advance 0).chordRuns = true ∧ (State.reset.dev.advance 0).chordRuns = false ∧ run.chord.loop = false ∧ run.chord.posOvf = false ∧ run.chord.head = false ∧ run.chord.probeSent = none ∧
      (chained { upSync := true }).chord.upSync = true ∧ (chained { dnSync := true }).chord.dnSync = true ∧ 65535 < 65536 ∧ chordIntact 0x10 [] = false ∧ chordIntact 0x11 [] = false) ∧
    (let d := (chained { probeSent := some 959520000 }).advance 0
     d.chord.probeSent = some 959520000 ∧ 959520000 + 480000 ≤ d.clk.now ∧ d.clk.now < 959520001 + 480000) ∧
    (let d := (chained { leftBoot := some 959904000 }).advance 0
     d.chord.leftBoot = some 959904000 ∧ 959904000 + 96000 ≤ d.clk.now ∧ d.clk.now < 959904001 + 96000 ∧ d.chord.upSyncAt = none ∧ d.chord.enum = false) ∧
    (let d := (chained { leftBoot := some 0, upSync := true, upSyncAt := some 959040000 }).advance 0
     max 0 959040000 + 960000 ≤ d.clk.now ∧ d.clk.now < max 0 959040001 + 960000 ∧ d.chord.upSync = true ∧ d.chord.enum = false ∧ d.chord.posOvf = false ∧ d.chord.unjoined = false ∧
      d.chord.brokenSince = none ∧ d.railDefined 0 = true ∧ d.sharedAs 0 = none) := by decide +kernel
/-- A PROBE or an ECHO of this device, and of another, as it arrives. -/
def rxId (type : Byte) (id : List Byte) : List (Option Machine.Symbol) := (frameSymbols (chordFrame type 0 0 (id ++ [0, 0, 0, 0])) 0).map some
theorem chordId_rx (type : Byte) (id : List Byte) (h : id.length = 8) : chordIntact type (rxId type id) = true ∧ chordId (rxId type id) = BitVec.ofNat 64 (leNat id) := by
  obtain ⟨h1, h2⟩ := chordIntact_frame type 0 0 (id ++ [0, 0, 0, 0]) (by simp [h])
  refine ⟨h1, ?_⟩
  have hs := slice_append ([type, 0] ++ leBytes 2 12 ++ leBytes 4 0) id [0, 0, 0, 0]
  have hf : chordFrame type 0 0 (id ++ [0, 0, 0, 0]) = [type, 0] ++ leBytes 2 12 ++ leBytes 4 0 ++ id ++ [0, 0, 0, 0] := by simp [chordFrame, h]
  rw [h] at hs
  rw [chordId, rxId, h2, hf, numAt]
  exact congrArg (fun x => BitVec.ofNat 64 (leNat x)) hs
theorem hyps_ChainPorts_own : ∀ type, chordIntact type (rxId type deviceId) = true ∧ chordId (rxId type deviceId) = deviceIdBits := fun type =>
  chordId_rx type deviceId deviceId_length
theorem hyps_ChainPorts_other : ∃ rx, chordIntact 0x11 rx = true ∧ chordId rx ≠ deviceIdBits := by
  by_cases h : BitVec.ofNat 64 (leNat (List.replicate 8 0)) = deviceIdBits
  · exact ⟨_, (chordId_rx 0x11 (List.replicate 8 1) rfl).1, fun e => absurd ((chordId_rx 0x11 (List.replicate 8 1) rfl).2.symm.trans (e.trans h.symm)) (by decide)⟩
  · exact ⟨_, (chordId_rx 0x11 (List.replicate 8 0) rfl).1, fun e => h ((chordId_rx 0x11 (List.replicate 8 0) rfl).2.symm.trans e)⟩

def member : Chord := { upSync := true, dnSync := true, enum := true, headId := some 7, sweep := 5, lastDown := some 959990400 }
def header : Chord := { head := true, enum := true, dnSync := true, size := 2, sent := 5, awaiting := [5] }
def rxDown (hop : Byte) (sweep : Word) (spoilt : Bool) : List (Option Machine.Symbol) := (ChordTx.symbols (.down { hop := hop, sweep := sweep } spoilt)).map some
def rxUp (sweep : Word) (spoilt : Bool) : List (Option Machine.Symbol) := (ChordTx.symbols (.up { sweep := sweep, reports := [{ pos := 1 }] } spoilt)).map some
theorem hyps_Sweeps :
    (let d := (chained header).advance 0
     d.chordRuns = true ∧ d.chord.head = true ∧ d.alone = false ∧ d.tb % 4800 = 0 ∧ d.chord.awaiting.contains (d.chord.sent - 1) = false ∧ d.chord.awaiting.contains 5 = true ∧
      d.chord.awaiting.contains 6 = false ∧ d.chord.loop = false ∧ d.chord.posOvf = false ∧ d.chord.dnSync = true ∧ d.chord.size.toNat ≤ 8 ∧
      (∀ i : Fin 8, 1 ≤ i.val → i.val < d.chord.size.toNat → (d.chord.oos.getLsbD i.val = true ∧ d.chord.lost.getLsbD i.val = false) ∨ ∃ x ∈ (UpFrame.read (chordBytes (rxUp 5 false))).reports, x.pos.toNat = i.val)) ∧
    (∀ x ∈ [(5, false), (5, true), (6, false)], chordIntact 0x13 (rxUp (BitVec.ofNat 32 x.1) x.2) = !x.2 ∧ (UpFrame.read (chordBytes (rxUp (BitVec.ofNat 32 x.1) x.2))).sweep = BitVec.ofNat 32 x.1) ∧
    (∀ x ∈ [(7, 5, false), (7, 6, true), (7, 6, false), (8, 6, false)], let rx := rxDown (BitVec.ofNat 8 x.1) (BitVec.ofNat 32 x.2.1) x.2.2
      chordIntact 0x12 rx = !x.2.2 ∧ (DownFrame.read (chordBytes rx)).hop.toNat = x.1 ∧ (DownFrame.read (chordBytes rx)).sweep.toNat = x.2.1) ∧
    (let d := (chained { head := true, enum := true }).advance 0
     d.chordRuns = true ∧ d.chord.head = true ∧ d.alone = true ∧ d.tb % 4800 = 0) ∧
    ((chained header).advance 960000001).tb % 4800 ≠ 0 ∧
    (let d := (chained member).advance 0
     d.chordRuns = true ∧ d.chord.head = false ∧ d.chord.loop = false ∧ d.chord.posOvf = false ∧ d.chord.upSync = true ∧ d.chord.dnSync = true ∧ d.chord.enum = true ∧ d.chord.headId.isSome = true ∧
      d.chord.sweep = 5 ∧ d.chord.lastDown = some 959990400 ∧ 959990400 + 9600 ≤ d.clk.now ∧ d.clk.now < 959990401 + 9600 ∧ d.chord.brokenSince = none) ∧
    (let d := (chained { upSync := true }).advance 0
     d.chord.enum = false ∧ d.chord.headId = none ∧ d.chord.loop = false) := by decide +kernel
theorem hyps_Sweeps_ride :
    (let d := ({ run with tile := { run.tile with cur := { map1 with chord := some { digest := [], position := 1, size := 2, shared := 1, share := Vector.replicate 8 { chainRail := 3 } } } }, chord := { brokenSince := some 912000000, ride := 100 } } : Dev).advance 0
     d.sharedAs 0 = some 3 ∧ d.alive = true ∧ d.chord.brokenSince = some 912000000 ∧ 912000000 + d.chord.ride.toNat * 480000 ≤ d.clk.now ∧ d.railDefined 0 = true) := by decide +kernel
def waiting (kind : LeaveKind) (target : Byte) (f : Dev → Dev) : Dev :=
  (f { run with leave := { run.leave with queue := [{ kind := kind, target := target, arrival := 0 }] } }).advance 960000010
theorem hyps_Leave :
    (∀ x ∈ [(LeaveKind.rotation, (0x40 : Byte)), (.fgcal, 0xFF), (.mram, 0xFF), (.signature, 0xFF), (.selftest, 0x50), (.selftest, 0), (.phaseStart, 0)], let d := waiting x.1 x.2 id
      d.noGrants = false ∧ d.hkLast = true ∧ d.leave.queue = [{ kind := x.1, target := x.2, arrival := 0 }] ∧ d.leave.busy x.1 x.2 = false ∧ d.leave.inUse + x.1.cost ≤ d.leave.budget.toNat ∧ d.alive = true ∧
      d.leave.queue.filter (fun q => d.leave.overdue d.clk.now q) = [{ kind := x.1, target := x.2, arrival := 0 }]) ∧
    (let d := waiting .phaseStart 0 fun d => { d with rails := d.rails.set 0 { d.rails[0] with addWait := some 0 } }
     d.railOf (Fin.ofNat 64 (0 : Byte).toNat) = some 0 ∧ d.rails[0].addWait = some 0) ∧
    (waiting .signature 0xFF fun d => { d with trust := { d.trust with waiting := [.token []] } }).trust.waiting = .token [] :: [] ∧
    (run.advance 960000009).hkLast = false ∧ (State.reset.dev.advance 0).noGrants = true ∧ (State.reset.dev.advance 0).alive = false := by decide +kernel
theorem hyps_Leases :
    (let d := ({ run with banks := { run.banks with leaseSince := some 959999520 }, test := { run.test with bank := some (3, .running 0) } } : Dev).advance 0
     d.test.bank = some (3, .running 0) ∧ d.alive = true ∧ d.banks.leaseSince = some 959999520 ∧ 959999520 + 480 ≤ d.clk.now ∧ d.clk.now < 959999521 + 480) ∧
    (run.banks.leaseSince = none ∧ run.banks.pauseUntil ≤ run.clk.now ∧ run.test.bist = none) ∧
    (let d := ({ run with test := { run.test with phase := some (0, .running 0), periods := 65, bank := some (1, .running 0) } } : Dev).advance 0
     d.test.phase = some (0, .running 0) ∧ 65 ≤ d.test.periods ∧ d.test.bank = some (1, .running 0)) := by decide +kernel
theorem hyps_Tests :
    (∀ x ∈ [(1, Instr.bankTest 0), (2, .phaseTest 0)], let d := (asks (reqWrite 0x2900 x.1) (phase run 0 fun p => { p with mask := { unused := false, shed := true } })).advance 0
     host d x.2 ∧ room d 60 ∧ d.sys.devState = .run ∧ d.phaseTestable d.test.selPhase = true ∧ d.test.phase = none ∧ d.test.bank = none ∧ d.test.selBank ≠ 3) ∧
    (∀ d ∈ [run, idle], ∀ x ∈ [(1, Instr.bankTest 0), (2, .phaseTest 0), (4, .fullBist 0)], takes d (reqWrite 0x2900 x.1, x.2)) ∧
    (run.phaseTestable 0 = false ∧ idle.sys.devState ≠ .run ∧ (inState .latched).sys.devState = .latched ∧ takes (inState .latched) (reqWrite 0x2900 1, .bankTest 0) ∧ run.sys.devState ≠ .maint) ∧
    (let d := (asks (reqWrite 0x2900 4) { tiled with sys := { tiled.sys with devState := .maint }, test := { tiled.test with selBank := 3 } }).advance 0
     host d (.fullBist 0) ∧ d.sys.devState = .maint ∧ d.test.bist = none ∧ d.test.phase = none ∧ d.test.bank = none ∧ d.sense.op ≠ .selftest ∧ d.lantern.staging = Vector.replicate 16 none ∧
      d.banks.leaseSince = none) ∧
    ({ tiled with test := { tiled.test with bist := some 0 } } : Dev).test.bist.isSome = true := by decide +kernel

/-! ## Hypotheses met: further clauses -/

/-- Rail 0 with the LOOP phases 0 and 2, at an update point of its reference; what a mark decides by is as given. -/
def marking (apex : Bool) (x : Rail) (f : Dev → Dev) : Dev :=
  let map2 : Tiling := { map1 with phases := map1.phases.set 2 { rail := some 0, addRank := 1 }, accs := (map1.accs.set 1 (some { n := 4, entry := 1 })).set 2 (some { n := 4, entry := 2 }), topo := ((map1.topo.set 8 { enable := true, input := 1 }).set 10 { enable := true, input := 2 }).set 72 { enable := true, input := 5, target := some 0 } }
  let result : Acc := { sum := 40, valid := 4, history := [{ sum := 40, valid := 4, at_ := 959999990 }] }
  (f { run with tile := { run.tile with cur := map2 }, rails := run.rails.set 0 { x with vscale := 1000, iscale := 1000 }, pwm := run.pwm.set 2 ({ mask := { unused := false } } : Pwm), pwmg := { run.pwmg with refs := run.pwmg.refs.set 0 { running := true, per := 120, valley := if apex then 959999880 else 959999760 }, rper := run.pwmg.rper.set 0 120 }, sense := { run.sense with accs := ((run.sense.accs.set 0 result).set 1 result).set 2 result }, leave := { run.leave with budget := 500 } }).advance 0
/-- `marking`'s device with rail 0 in EMBER, asleep. -/
def asleep : Rail := { mode := .ember, emberEn := true, burstMembers := 5, sleepSince := 959000000 }
abbrev refReady (d : Dev) (apex : Bool) : Prop := d.alive = true ∧ d.railDefined 0 = true ∧ d.pwmg.refs[0].running = true ∧ d.pwmg.refs[0].holding = false ∧ d.pwmg.refs[0].due d.clk.now apex = true

theorem hyps_Marks_keys :
    (let d := marking false { mode := .regulate } id
     refReady d false ∧ d.railSum 0 = some 320 ∧ d.rails[0].mode.switching = true ∧ d.portOf 0 = none ∧ d.loop.rails[0].vkHost = false ∧ d.loop.rails[0].vkAcc = 0 ∧
      d.sense.accs[(0 : AccIx)].latest = some { sum := 40, valid := 4, at_ := 959999990 } ∧ d.tile.cur.accs[(0 : AccIx)].isSome = true ∧ d.loop.ctx[outerIx 0].active = false) ∧
    (-(2 ^ 31) ≤ rhe (320 * 1000) 1000 ∧ rhe (320 * 1000) 1000 < 2 ^ 31 ∧ rhe (16 * 40 * 0) (4 * 1000) = 0) ∧
    (let d := marking false { mode := .regulate } fun d => { d with sense := { d.sense with accs := d.sense.accs.set 1 {} }, loop := { d.loop with rails := d.loop.rails.set 0 { vkHost := true } } }
     refReady d false ∧ d.railSum 0 = none ∧ d.loop.rails[0].vkHost = true) ∧
    (let d := marking false { mode := .regulate } fun d => { d with loop := { d.loop with rails := d.loop.rails.set 0 { vkAcc := 9 } } }
     refReady d false ∧ d.loop.rails[0].vkHost = false ∧ d.sense.accs[(9 : AccIx)].latest = none) := by decide +kernel
theorem hyps_Marks_iref : ∀ apex ∈ [false, true], let d := marking apex { mode := .regulate } fun d => { d with loop := { d.loop with ctx := ((d.loop.ctx.set 0 { active := true, delivered := 9 }).set 72 { active := true, delivered := 5 }).set 8 { active := true } } }
    refReady d apex ∧ d.portOf 0 = none ∧ d.loop.ctx[outerIx 0].active = true ∧ (72 : CtxIx) ∈ d.auxOf 0 ∧ d.loop.ctx[(72 : CtxIx)].active = true ∧
      d.loop.ctx[(72 : CtxIx)].delivered.toInt < d.loop.ctx[outerIx 0].delivered.toInt ∧ d.loop.ctx[innerIx 0].active = true := by decide +kernel
theorem hyps_Marks_target : ∀ p ∈ [(0 : Int), 200 * 65536, 160 * 65536], ∀ m ∈ [RailMode.regulate, .ramp, .hold],
    let d := marking false { mode := m } fun d => { d with sp := { d.sp with sp := d.sp.sp.set 0 { p := p, target := 160 } } }
    let d' := d.railPoint 0 false
    refReady d false ∧ d.rails[0].mode = m ∧ d.rails[0].m0Wait = none ∧ d.rails[0].flare = none ∧ d'.sp.sp[0].cmdMv = 160 ∧ (d.sp.sp[0].p < 160 * 65536 ↔ p = 0) := by decide +kernel
theorem hyps_Marks_shed :
    (∀ drain ∈ [false, true], ∀ th ∈ [(1 : Nat), 1000], let d := marking false { mode := .regulate, addTh := BitVec.ofNat 24 th, notice := some { phase := 2, began := 959999000, until_ := 960100000, drain := drain } } id
     refReady d false ∧ d.rails[0].mode = .regulate ∧ d.pwmg.refs[0].pend = none ∧ d.pwmg.refs[0].alignDue = false ∧ (d.railSum 0).isSome = true ∧
      d.rails[0].notice = some { phase := 2, began := 959999000, until_ := 960100000, drain := drain } ∧ (d.rails[0].addTh.toNat * d.activeCount 0 < (d.railPoint 0 false).loop.rails[0].keyI.toInt.natAbs ↔ th = 1)) ∧
    (∀ x ∈ [(none, (1000 : Nat)), (some 957120000, 1000), (none, 0)], let d := marking false { mode := .regulate, shedTh := BitVec.ofNat 24 x.2, shedSince := x.1 } id
     d.rails[0].notice = none ∧ d.rails[0].shedEn = true ∧ d.respreadBusy 0 = false ∧ d.minPhases 0 < d.activeCount 0 ∧ (d.railSum 0).isSome = true ∧
      ((d.railPoint 0 false).loop.rails[0].keyI.toInt.natAbs < d.rails[0].shedTh.toNat * (d.activeCount 0 - 1) ↔ x.2 ≠ 0) ∧
      (d.rails[0].shedSince.getD d.clk.now + d.rails[0].shedDwell.toNat * 48000 ≤ d.clk.now ↔ x.1.isSome = true) ∧ d.topMember 0 = some 2) ∧
    (let d := marking false { mode := .regulate } fun d => { d with sense := { d.sense with accs := d.sense.accs.set 1 {} } }
     d.rails[0].notice = none ∧ d.minPhases 0 < d.activeCount 0 ∧ (d.railSum 0).isSome = false) ∧
    (marking false { mode := .regulate, shedEn := false } id).rails[0].shedEn = false := by decide +kernel
theorem hyps_Marks_add : let shed2 := fun (d : Dev) => { d with pwm := d.pwm.set 2 ({ mask := { unused := false, shed := true } } : Pwm) }
    (marking false { mode := .regulate, addWait := some 2 } shed2).rails[0].addWait.isSome = true ∧
    (let d := marking false { mode := .regulate } shed2
     d.rails[0].addWait = none ∧ d.rails[0].shedEn = true ∧ (d.railPoint 0 false).rails[0].mode = .regulate ∧ d.minPhases 0 ≤ d.activeCount 0 ∧
      ¬d.rails[0].addTh.toNat * d.activeCount 0 < (d.railPoint 0 false).loop.rails[0].keyI.toInt.natAbs) ∧
    (marking false { mode := .regulate } id).addCandidate 0 = none ∧
    (let d := marking false { mode := .regulate, addTh := 0, addSince := some 959952000 } shed2
     d.rails[0].addWait = none ∧ (d.railSum 0).isSome = true ∧ 0 < (d.railPoint 0 false).loop.rails[0].keyI.toInt.natAbs ∧
      d.rails[0].addSince.getD d.clk.now + d.rails[0].addDwell.toNat * 48000 ≤ d.clk.now ∧ d.addCandidate 0 = some 2 ∧ room d LeaveKind.phaseStart.cost) ∧
    (marking false { mode := .ramp, shedEn := false } shed2).addCandidate 0 = some 2 := by decide +kernel
theorem hyps_Marks_ember : ∀ x ∈ [(false, none), (true, none), (true, some 957120000)],
    let d := marking false { mode := .regulate, emberEn := x.1, emberEnter := 1000, emberSince := x.2 } fun d => { d with pwm := ((d.pwm.set 0 ({ mask := { unused := false } } : Pwm)).set 1 ({ mask := { unused := false, shed := true } } : Pwm)).set 2 ({ mask := { unused := false, shed := true } } : Pwm), tile := { d.tile with cur := { d.tile.cur with phases := d.tile.cur.phases.set 1 {} } } }
    refReady d false ∧ d.rails[0].mode = .regulate ∧ d.rails[0].notice = none ∧ d.rails[0].flare = none ∧ d.activeCount 0 = d.minPhases 0 ∧
      (d.railPoint 0 false).loop.rails[0].keyI.toInt.natAbs < d.rails[0].emberEnter.toNat ∧ d.rails[0].emberEn = x.1 ∧
      (d.rails[0].emberSince.getD d.clk.now + d.rails[0].emberDwell.toNat * 48000 ≤ d.clk.now ↔ x.2.isSome = true) := by decide +kernel
theorem hyps_Marks_asleep :
    (∀ x ∈ [(none, (0 : Nat)), (none, 2000), (some 959999990, 0), (some 959000000, 0)], ∀ apex ∈ [false, true],
      let d := marking apex { asleep with burst := x.1, embLo := BitVec.ofNat 16 x.2 } fun d => { d with sp := { d.sp with sp := d.sp.sp.set 0 { p := 160 * 65536, target := 160 } } }
      let d' := d.railPoint 0 apex
      let v := d'.rails[0].vout.toInt
      refReady d apex ∧ d.rails[0].mode = .ember ∧ d.rails[0].burst = x.1 ∧ d.rails[0].flare = none ∧ d.rails[0].emberEn = true ∧ d.rails[0].shortSleeps = 0 ∧ d.rails[0].staleRun = 0 ∧
        d'.rails[0].vstale = false ∧ ¬v ≤ d'.targetMv 0 - d.rails[0].embExit.toNat ∧ (v ≤ d'.targetMv 0 - d.rails[0].embLo.toNat ↔ x.2 = 0) ∧ ¬d'.targetMv 0 + d.rails[0].embHi.toNat ≤ v ∧
        d.clk.now < 959999990 + d.rails[0].pktLen.toNat * 2 * d'.pwmg.refs[0].per.toNat ∧ 959000000 + d.rails[0].pktLen.toNat * 2 * d'.pwmg.refs[0].per.toNat ≤ d.clk.now) ∧
    ({ asleep with emberEn := false } : Rail).emberEn = false ∧ ({ asleep with emberEn := false } : Rail).staysOut ∧ asleep.staysOut := by
  unfold Rail.staysOut
  decide +kernel
theorem hyps_Marks_flare : ∀ m ∈ [RailMode.regulate, .ember], ∀ x ∈ [(true, (100 : Nat)), (false, 100), (true, 0)],
    let d := marking true { mode := m, flare := some 959999980, flareTime := BitVec.ofNat 16 x.2 } fun d => { d with prot := { d.prot with wins := d.prot.wins.set 0 { uv := x.1 } } }
    let d' := d.railPoint 0 true
    refReady d true ∧ d.rails[0].mode = m ∧ d.rails[0].flare = some 959999980 ∧ (d.accOf (outerIx 0)).latest = some { sum := 40, valid := 4, at_ := 959999990 } ∧ d'.prot.wins[0].uv = x.1 ∧
      d'.targetMv 0 - d.rails[0].flareRec.toNat ≤ d'.rails[0].vout.toInt ∧ (959999980 + d.rails[0].flareTime.toNat * 480 ≤ d.clk.now ↔ x.2 = 0) := by decide +kernel
theorem hyps_StageD_rails :
    (∀ m ∈ [RailMode.hiccup, .hold, .off], let d := rail0 fun x => { x with mode := m }
     d.railOf 0 = some 0 ∧ d.rails[0].mode = m ∧ d.pwm[0].hostOvr = false) ∧
    (trip0 { latch := true }).prot.trips[0].latch = true ∧ (phase run 0 fun p => { p with ilkLatch := true }).pwm[0].ilkLatch = true := by decide +kernel
/-- The count before a multiple of 10 s and the one after it, at each count of the time base and at an edge of the backup oscillator. -/
theorem hyps_BootWindow_ticks :
    (let d := idle.advance 4800000000
     d.clk.onBackup = false ∧ d.tb = 4800000000 ∧ d.clk.tbAt (d.clk.now - 1) = 4799999999) ∧
    (let d := idle.advance 4800000001
     d.tb = 4800000001 ∧ d.clk.tbAt (d.clk.now - 1) = 4800000000 ∧ d.tb ≠ 0) ∧
    (let d := ({ idle with clk := { idle.clk with now := 4799999995, onBackup := true, backupFrom := some 4799999995 } } : Dev).advance 4800000007
     d.clk.onBackup = true ∧ d.tb = 4800000007 ∧ d.clk.tbAt (d.clk.now - 12) = 4799999995) ∧ (State.reset.dev.advance 0).tb = 0 := by decide +kernel
theorem hyps_BootWindow_between (k : Nat) : ¬(4800000000 < 4800000000 * k ∧ 4800000000 * k ≤ 4800000001) := by omega
theorem hyps_RetileSteps_toward : ∀ x ∈ [(stepSet, [stepFabric]), (stepFabric, [])], let d := (retiling { state := .running, goal := goal1, plan := x.1 :: x.2, toward := true }).advance 0
    d.alive = true ∧ d.tile.rt.toward = true ∧ d.stepReady x.1 = true ∧ d.clk.cycleAt d.tile.rt.stepAt ≠ d.cycle := by decide +kernel
theorem hyps_RetileWaits_lift : ((retiling { state := .running, goal := goal2, plan := [stepPark] }).advance 0).pwm[0].flareLift = false := by decide +kernel
theorem hyps_ArcMoves_valley :
    let d := ({ (phase run 0 fun p => { carrierAt p 959999760 with arcTgt := 100 }) with pwmg := { run.pwmg with refs := run.pwmg.refs.set 0 { running := true, per := 120 } } } : Dev).advance 0
    let p := d.pwm[0].sync d.clk.now
    d.alive = true ∧ d.railOf 0 = some 0 ∧ d.pwm[0].due d.clk.now false = true ∧ d.srcHost 0 = false ∧ p.perEff = d.pwmg.refs[0].per ∧ d.pwmg.refs[0].running = true ∧
      d.pwmg.refs[0].holding = false ∧ p.free = false ∧ p.joined = false ∧ p.corr = 0 ∧ p.dlFail = false ∧ d.prot.trips[0].latch = false ∧ 0 < d.prot.trips[0].n.toNat ∧ p.arcTgt ≠ p.arcNow := by decide +kernel
theorem hyps_Triggers_blank : let closing := fun (u : Option Tick) (x : Trip) => ({ (phase run 0 fun p => { p with blankUntil := u, cHi := .free }) with prot := { run.prot with trips := run.prot.trips.set 0 x } } : Dev).advance 0
    (∀ x ∈ [{ cmp := true }, { cmp := true, latch := true }, { cmp := true, limited := true }], let d := closing (some 960000000) x
     d.alive = true ∧ d.pwm[0].blankUntil = some 960000000 ∧ 960000000 ≤ d.clk.now ∧ d.prot.trips[0].cmp = true ∧ settling d.prot.trips[0].settleUntil d.clk.now = false ∧
      d.phaseMode 0 = some .regulate ∧ d.pwm[0].cHi.passes = true ∧ d.gateForce 0 = x.latch) ∧
    settling (closing (some 960000000) { cmp := true, settleUntil := some 960000009 }).prot.trips[0].settleUntil 960000000 = true ∧
    (closing none {}).pwm[0].blankUntil = none ∧ (closing (some 960000009) {}).pwm[0].blankUntil = some 960000009 ∧ (closing none {}).clk.now < 960000009 := by decide +kernel
theorem hyps_Slices_low : let d := (calibrating .run fun x => { x with lpForce := true, quads := x.quads.set 0 { x.quads[0] with convs := [conversion] } }).advance 0
    d.alive = true ∧ d.sliceEdge = true ∧ d.wantsLow 0 = true ∧ d.sense.quads[0].lowPower = false ∧ conversion ∈ d.sense.quads[0].convs ∧ conversion.interleaved = false ∧
      conversion.sampleAt ≤ 959999982 ∧ 959999982 < d.clk.now := by decide +kernel
/-- Sixteenths of 2048 codes read as a TARGET of 2048 need no gain, as one of half of them a gain that does not fit; a self-test without a spare. -/
theorem hyps_CalibrationsEnd_fs :
    (let d := calibrating .standby fun x => { x with stage := some (.running 0), op := .fs, target := 2048 }
     d.sense.op = .fs ∧ 2048 ≤ d.sense.target.toInt.natAbs ∧ d.sense.cal[(0 : CalIx)].valid = true ∧ d.sense.cal[(0 : CalIx)].value.extractLsb' 0 16 = 0) ∧
    (calibrating .standby id).calUs [(0, 7, { raw := 2048 })] = [2048 * 2 ^ 24] ∧
    (let gain := fun (u : Int) => rhe ((rhe (4096 * u) (2 ^ 20 * 4096)).sign * (2 ^ 22 * 2048)) (rhe (4096 * u) (2 ^ 20 * 4096)).natAbs - 2 ^ 18
     gain (2048 * 2 ^ 24) = 0 ∧ 32767 < gain (1024 * 2 ^ 24)) ∧ rhe (4096 * 0) (2 ^ 20 * 4096) = 0 ∧
    (calibrating .run fun x => { x with stage := some (.running 0), op := .selftest, quads := x.quads.set 0 { x.quads[0] with outOfLine := none } }).sense.quads[0].outOfLine = none := by decide +kernel
theorem hyps_Passes_absent : ((run.advance 0).seqOf 0).entry (1 : Fin 32).val = none := by decide +kernel
theorem hyps_Contexts_full : ∀ x ∈ [(some 480000000, (254 : Nat)), (none, 255), (none, 254)],
    let d := ctx0 { active := true, pending := x.1, flight := some { taken := 479999900, done := 480000009, res := none } } []
    let d := ({ d with loop := { d.loop with fab := { d.loop.fab with ctxHeld := d.loop.fab.ctxHeld.set 0 (BitVec.ofNat 8 x.2) } } } : Dev).advance 0
    d.alive = true ∧ d.loop.ctx[0].active = true ∧ d.loop.ctx[0].flight.isSome = true ∧ d.loop.fab.ctxHeld[(0 : CtxIx)] = BitVec.ofNat 8 x.2 ∧
      (d.loop.ctx[0].pending = some d.cycle ↔ x.1 = some 480000000) := by decide +kernel
/-- An input in Latch mode: nothing held and the context free, computing or idle, and a start held at it or taken in this cycle. -/
theorem hyps_Contexts_latch :
    (∀ x ∈ [(false, none), (true, none), (true, some ({ taken := 479999900, done := 480000009, res := none } : Flight))], let d := ctx0 { active := x.1, flight := x.2 } []
     d.loop.fab.ctxHeld[(0 : CtxIx)] = 0 ∧ d.loop.ctx[0].pending ≠ some d.cycle ∧ d.loop.ctx[0].pending = none ∧ d.loop.ctx[0].active = x.1 ∧ d.loop.ctx[0].flight = x.2 ∧ d.loop.ended = []) ∧
    ((ctx0 { active := true, pending := some 480000000 } [0]).loop.ctx[0].pending = some 480000000 ∧ run.cycle = 480000000) ∧
    ((sensing fun q => { q with queue := [req0] }).sense.quads[0].queue = [req0] ∧ req0.kind = .ent ∧ 959999519 < req0.tick) := by decide +kernel
theorem hyps_Winner_effect :
    let e : SectorEnt := { iLo := 0x80000000, iHi := 0x7FFFFFFF, vLo := 0x80000000, vHi := 0x7FFFFFFF, modeMask := 0xFF, priority := 1, coef := [], shift := [], intMax := 1, intMin := 0, outMax := 1, outMin := 0 }
    let d : Dev := { run with tile := { run.tile with cur := { map1 with sectors := map1.sectors.set 0 [e, { e with priority := 2 }] } } }
    run.ctxRail 0 = some 0 ∧ run.winnerOf 0 = none ∧ (run.topo 0).enable = true ∧ run.loop.ctx[0].sector = none ∧ d.ctxRail 0 = some 0 ∧ d.winnerOf 0 = some 1 := by decide +kernel
/-- A comparator that still stands crossed when its settling time ends. -/
theorem hyps_Comparators_trip : ∀ x ∈ [(false, false), (true, false), (false, true)],
    let d := (trip0 { settleUntil := some 960000000, cmp := true, latch := x.1, limited := x.2 }).advance 0
    d.alive = true ∧ d.prot.trips[0].settleUntil = some 960000000 ∧ d.prot.trips[0].cmp = true ∧ d.blanked 0 = false ∧ d.prot.trips[0].latch = x.1 ∧ d.prot.trips[0].limited = x.2 := by decide +kernel
theorem hyps_Comparators_uv : ∀ armed ∈ [true, false], let d := ({ win0 { uvSettle := some 960000000, uv := true } with rails := run.rails.set 0 { run.rails[0] with flareEn := armed, flareDuty := 5 } } : Dev).advance 0
    d.alive = true ∧ d.prot.wins[0].uvSettle = some 960000000 ∧ d.prot.wins[0].uv = true ∧ (d.flareArmed 0 && d.rails[0].flare.isNone && (d.rails[0].mode == .regulate || d.rails[0].mode == .ember)) = armed ∧
      d.railOf 0 = some 0 ∧ d.isLoop 0 = true ∧ d.joinsFlare 0 = true := by decide +kernel
theorem hyps_Comparators_ov : ∀ x ∈ [(true, RailMode.regulate), (false, .regulate), (true, .support), (true, .hold)],
    let d := ({ win0 { ovSettle := some 960000000, ov := true, ovAct := x.1 } with rails := run.rails.set 0 { run.rails[0] with mode := x.2 } } : Dev).advance 0
    d.alive = true ∧ d.prot.wins[0].ovSettle = some 960000000 ∧ d.prot.wins[0].ov = true ∧ d.prot.wins[0].ovAct = x.1 ∧ d.rails[0].mode = x.2 ∧ ((d.rails[0].mode).switching = false ↔ x.2 = .hold) := by decide +kernel
theorem hyps_Comparators_window : let d := ({ win0 { rtBelow := 1, rtLoCode := 1, rtLoOn := true, rtLoSettle := some 960000000, rtLo := true } with rails := run.rails.set 0 { mode := .ramp, vscale := 1 } } : Dev).advance 0
    d.alive = true ∧ d.prot.wins[0].rtLoSettle = some 960000000 ∧ d.prot.wins[0].rtLo = true ∧ d.rtOn 0 false = true ∧ d.rails[0].flare = none := by decide +kernel

/-- Rail 0, shared as chain rail 3, with the Chord state as given; a host asks with CMD. -/
def shared (c : Chord) (code : Word) (f : Dev → Dev) : Dev :=
  (asks (reqWrite 0x40000 code) (f { tiled with tile := { tiled.tile with cur := { map1 with chord := some { digest := [], position := 1, size := 2, shared := 1, share := Vector.replicate 8 { chainRail := 3 } } } }, rails := tiled.rails.set 0 { vscale := 1 }, chord := c })).advance 0
theorem hyps_RailCommands_shared :
    (∀ x ∈ [(0, Instr.railCmdNone 0 0), (1, .railCmdOff 0 0), (2, .railCmdOn 0 0), (5, .railCmdReserved 0 0 0)],
      (let d := shared {} x.1 id
       host d x.2 ∧ d.sharedAs 0 = some 3 ∧ d.chord.head = false) ∧
      (∀ st ∈ [(0 : Nat), 1], let d := shared { head := true, st := BitVec.ofNat 2 st } x.1 id
       host d x.2 ∧ d.sharedAs 0 = some 3 ∧ d.chord.head = true ∧ (d.chord.st = 1 ↔ st = 1))) ∧
    (let d := shared {} 2 id
     d.rails[0].mode = .off ∧ d.chord.armed.getLsbD 0 = false ∧ d.latchedNow = false ∧ d.takesOn = true ∧ d.faultBars 0 = false) ∧
    (let d := shared { armed := 1 } 2 id
     host d (.railCmdOn 0 0) ∧ d.chord.armed.getLsbD 0 = true) ∧
    (let d := shared {} 2 fun d => { d with fault := { d.fault with src := d.fault.src.set (srcRailOv 0) { cause := 1, status := true, reach := 1 } } }
     host d (.railCmdOn 0 0) ∧ d.takesOn = true ∧ d.faultBars 0 = true ∧ d.latchedNow = false) ∧
    (let d := shared {} 2 fun d => inCycle d { latched := true }
     host d (.railCmdOn 0 0) ∧ d.latchedNow = true ∧ d.sharedAs 0 = some 3 ∧ d.chord.head = false ∧ d.rails[0].mode = .off ∧ d.chord.armed.getLsbD 0 = false) ∧
    (let d := shared {} 2 fun d => { d with sys := { d.sys with devState := .maint } }
     host d (.railCmdOn 0 0) ∧ d.takesOn = false ∧ d.latchedNow = false) := by decide +kernel
/-- OFF in each device state that refuses it, and in LATCHED in the cycle of the reaction and after. -/
theorem hyps_RailCommands_off :
    (∀ x ∈ [DevState.boot, .untiled, .latched, .maint], let d := (asks (reqWrite 0x40000 1) { run with sys := { run.sys with devState := x } }).advance 0
     host d (.railCmdOff 0 0) ∧ d.sharedAs 0 = none ∧ d.railDefined 0 = true ∧ d.sys.devState = x ∧ d.latchedNow = false) ∧
    (let d := (asks (reqWrite 0x40000 1) (inCycle { run with sys := { run.sys with devState := .latched } } { latched := true })).advance 0
     host d (.railCmdOff 0 0) ∧ d.sharedAs 0 = none ∧ d.railDefined 0 = true ∧ d.sys.devState = .latched ∧ d.latchedNow = true) ∧
    (∀ c ∈ [({ struck := 1 } : Cyc), { stopped := 1 }], let d := (asks (reqWrite 0x40000 1) (inCycle run c)).advance 0
     host d (.railCmdOff 0 0) ∧ d.railDefined 0 = true ∧ d.latchedNow = false ∧ d.rails[0].mode ≠ .off ∧ (d.cyc.struck.getLsbD 0 = true ∨ d.cyc.struck.getLsbD 0 = false ∧ d.cyc.stopped.getLsbD 0 = true)) := by decide +kernel

/-- The storage rail in a mode and a phase of its port, a host asking with CMD. -/
def stored (m : RailMode) (x : StPhase) (code : Word) (f : Dev → Dev) : Dev :=
  (asks (reqWrite 0x40200 code) (f { storage with sys := { storage.sys with devState := .run }, rails := storage.rails.set 1 { storage.rails[1] with mode := m }, ports := storage.ports.set 0 { storage.ports[0] with phase := x } })).advance 0
abbrev asksStorage (f : Word → Dev) (p : Dev → Prop) : Prop := (host (f 3) (.railCmdCharge 0 1) ∧ p (f 3)) ∧ host (f 4) (.railCmdSupport 0 1) ∧ p (f 4)
theorem hyps_StorageCommands_modes : ∀ m ∈ [(RailMode.charge, StPhase.cc), (.charge, .stopped), (.support, .boost), (.support, .stopped), (.hold, .none), (.hiccup, .none)],
    asksStorage (fun c => stored m.1 m.2 c id) fun d => d.portOf 1 = some 0 ∧ d.rails[1].mode = m.1 ∧ d.ports[0].phase = m.2 ∧ d.latchedNow = false ∧ d.deviceBars 1 = false := by decide +kernel
theorem hyps_StorageCommands_ready : let d := stored .support .stopped 4 id
    d.sharedAs 1 = none ∧ d.faultBars 1 = false ∧ d.chargeReady 0 1 = true ∧ d.supportReady 0 1 = true ∧ (d.ports[0].vCutoff.toNat : Int) < d.rails[1].vout.toInt := by decide +kernel
theorem hyps_StorageCommands_barred :
    asksStorage (fun c => stored .support .stopped c fun d => { d with rails := d.rails.set 1 { d.rails[1] with vout := 1 } })
      (fun d => d.rails[1].vout.toInt ≤ (d.ports[0].vCutoff.toNat : Int) ∧ d.supportReady 0 1 = false) ∧
    asksStorage (fun c => stored .support .boost c fun d => { d with ports := d.ports.set 0 { d.ports[0] with iCc := 0 } }) (fun d => d.chargeReady 0 1 = false) ∧
    asksStorage (fun c => stored .off .none c fun d => { d with sys := { d.sys with devState := .maint } }) (fun d => d.deviceBars 1 = true ∧ d.latchedNow = false) := by decide +kernel
theorem hyps_StorageCommands_faults :
    asksStorage (fun c => stored .off .none c fun d => inCycle d { latched := true }) (fun d => d.latchedNow = true) ∧
    asksStorage (fun c => stored .off .none c fun d => { d with fault := { d.fault with src := d.fault.src.set (srcRailOv 1) { cause := 1, status := true, reach := 2 } } })
      (fun d => d.deviceBars 1 = false ∧ d.faultBars 1 = true) ∧
    asksStorage (fun c => stored .off .none c fun d => { d with tile := { d.tile with cur := { map1 with chord := some { digest := [], position := 1, size := 2, shared := 2, share := Vector.replicate 8 { chainRail := 3 } } } } })
      (fun d => d.portOf 1 = some 0 ∧ d.sharedAs 1 = some 3 ∧ d.chord.head = false) := by decide +kernel

def seen0 (tick : Tick) (inst : PhaseIx) : Seen := { src := srcLoopInput 0, inst := inst, tick := tick, forced := false, detail := [] }
/-- A fault seen in a LOOP_CLK cycle is taken as it ends and reacts as the next begins. -/
theorem hyps_Causes_reacted :
    (let d : Dev := { run with fault := { run.fault with seen := [seen0 960000000 0] } }
     d.sys.devState ≠ .boot ∧ d.fault.seen = [seen0 960000000 0] ∧ 960000000 < d.nextCycle) ∧
    (let d : Dev := { run with fault := { run.fault with due := [seen0 960000000 0] } }
     d.fault.due ≠ [] ∧ d.loop.ended = [] ∧ d.clk.backupFrom = none ∧ d.nextCycle ≤ 960000002 ∧ d.clk.cycleAt d.nextCycle ≠ d.cycle) ∧
    (let d : Dev := { run with fault := { run.fault with due := [seen0 959999999 0] } }
     d.tile.tiled = true ∧ d.fault.due = [seen0 959999999 0] ∧ 959999999 < d.cycleTick) ∧
    (let d := ({ run with fault := { run.fault with seen := [seen0 960000009 0] } } : Dev).advance 0
     d.fault.seen = [seen0 960000009 0] ∧ d.clk.now < 960000009) := by decide +kernel
theorem hyps_Journal_held : (∀ h ∈ [(0 : Nat), 1, 253, 254, 255], let d := ({ run with loop := { run.loop with fab := { run.loop.fab with snapHeld := run.loop.fab.snapHeld.set 0 (BitVec.ofNat 8 h) } } } : Dev).advance 0
     d.alive = true ∧ d.loop.fab.snapHeld[(0 : Fin 8)] = BitVec.ofNat 8 h ∧ (d.reachInput 0x200).1 = false ∧ (((d.reachInput 0x200).2).reachInput 0x200).1 = true) := by decide +kernel
theorem hyps_Frames_whole :
    (let d := (linked { upFrom := 959999440 }).advance 0
     d.linkUp = true ∧ d.hears 560 = true ∧ d.hears 561 = false) ∧
    (let d := (linked { fullSince := some 959999440 }).advance 0
     d.link.fullSince = some 959999440 ∧ 959999440 ≤ d.clk.now - 560) ∧
    (let d := (linked { fulls := [(959999000, 959999441)] }).advance 0
     d.link.fulls = [(959999000, 959999441)] ∧ 959999000 ≤ d.clk.now - 560 ∧ d.clk.now - 560 < 959999441 ∧ d.hears 560 = true) ∧
    (let d := (linked {}).advance 0
     d.hears (40 * (257 + 14)) = true ∧ d.hears (40 * ([] : List (Option Machine.Symbol)).length) = true ∧ receptionFails [] = true ∧ d.mayTake 560 = true) := by decide +kernel
/-- A request that has waited for less than its time, and one for longer. -/
def waitingSince (kind : LeaveKind) (target : Byte) (since : Tick) (f : Dev → Dev) : Dev :=
  (f { run with leave := { run.leave with queue := [{ kind := kind, target := target, arrival := since }] } }).advance 960000010
theorem hyps_Leave_grants :
    (∀ x ∈ [(LeaveKind.rotation, (0x40 : Byte)), (.fgcal, 0xFF), (.mram, 0xFF), (.signature, 0xFF), (.selftest, 0x50), (.selftest, 0), (.phaseStart, 0)], ∀ since ∈ [0, 959999999], let d := waitingSince x.1 x.2 since id
      d.noGrants = false ∧ d.hkLast = true ∧ d.leave.queue = [{ kind := x.1, target := x.2, arrival := since }] ∧ d.leave.busy x.1 x.2 = false ∧ d.leave.inUse + x.1.cost ≤ d.leave.budget.toNat ∧
        (d.leave.overdue d.clk.now { kind := x.1, target := x.2, arrival := since } = true ↔ since = 0)) ∧
    (let d := waitingSince .phaseStart 0 959999999 fun d => { d with rails := d.rails.set 0 { d.rails[0] with addWait := some 0 } }
     d.railOf (Fin.ofNat 64 (0 : Byte).toNat) = some 0 ∧ d.rails[0].addWait = some 0 ∧ (d.setNow 0).shed = false) ∧
    (waitingSince .signature 0xFF 959999999 fun d => { d with trust := { d.trust with waiting := [.token []] } }).trust.waiting = .token [] :: [] := by decide +kernel
theorem hyps_Leases_bank3 :
    (let d := ({ run with test := { run.test with bank := some (3, .running 0) } } : Dev).advance 0
     d.alive = true ∧ d.test.bank = some (3, .running 0) ∧ d.banks.leaseSince = none ∧ 0x3E00 ≤ (0x3E00 : BitVec 14).toNat ∧ (0x3DFF : BitVec 14).toNat < 0x3E00) ∧
    (∀ u ∈ [0, 960000000], ((({ run with banks := { run.banks with leaseSince := some u } } : Dev).advance 0).banks.leaseSince.isSome = true)) ∧
    ((({ run with banks := { run.banks with pauseUntil := 960000001 } } : Dev).advance 0).clk.now < 960000001) := by decide +kernel
theorem hyps_Leases_abandoned :
    (let d : Dev := { run with test := { run.test with phase := some (0, .waiting) } }
     d.test.phase = some (0, .waiting) ∧ d.phaseTestable 0 = false) ∧
    (let d : Dev := { run with test := { run.test with phase := some (0, .waiting), phaseIn := some .charge }, rails := run.rails.set 0 { mode := .support } }
     d.phaseMode 0 ≠ d.test.phaseIn) ∧
    (phase run 0 fun p => { p with flareLift := true }).pwm[0].flareLift = true ∧
    (∀ b ∈ [false, true], let d := ({ tiled with test := { tiled.test with bist := some 0 }, clk := { tiled.clk with onBackup := b } } : Dev).advance 0
     d.test.bist.isSome = true ∧ d.clk.onBackup = b) := by decide +kernel

end Sys2Proof.Tests
end

section
/-! SUPPORT. The machine as a whole: a step executes the front command, and every command completes. -/

namespace Sys2Proof.Machine

open Sys2Proof

/-- No command stops the machine: each meaning is a `State.run` or a `State.runMem`, which answer with a next state. -/
theorem exec_completes (c : Instr) (s : State) : ∃ s' : State, exec c s = .next s' := by
  cases c <;> exact ⟨_, rfl⟩

theorem step_of_cons {s : State} {c : Instr} {rest : List Instr} (h : s.pending = c :: rest) : step s = exec c { s with pending := rest } := by
  simp only [step, h]

theorem step_of_nil {s : State} (h : s.pending = []) : step s = .next s := by
  simp only [step, h]

end Sys2Proof.Machine

open Sys2Proof Sys2Proof.Machine

/-- Settles O1, by the equations of `step` and by `exec_completes`. -/
theorem stepExecutesTheFrontCommand : Obligations.StepExecutesTheFrontCommand :=
  ⟨fun _ _ _ h => step_of_cons h, fun _ h => step_of_nil h, exec_completes⟩

end

section
/-! SUPPORT. The scratchpad after a word was written. -/

namespace Sys2Proof.Machine

open Sys2Proof

/-- A word is its four bytes put together again (R5). -/
theorem word_of_bytes (v : Word) : v.extractLsb' 24 8 ++ v.extractLsb' 16 8 ++ v.extractLsb' 8 8 ++ v.extractLsb' 0 8 = v := by
  rw [BitVec.extractLsb'_append_extractLsb'_eq_extractLsb' (by rfl), BitVec.extractLsb'_append_extractLsb'_eq_extractLsb' (by rfl), BitVec.extractLsb'_append_extractLsb'_eq_extractLsb' (by rfl)]
  simp

/-- A word written within banks 0 to 2 reads back. -/
theorem Memory.word_setWord_same (m : List Host.Cell) (a : Nat) (v : Word) (h : Memory.wf m = true) (lo : scratchBase ≤ a) (hi : a + 4 ≤ bank3Base) :
    Memory.word (Memory.setWord m a v) a = v := by
  simp only [Memory.word, Memory.read_setWord m a _ v h lo hi]
  simpa using word_of_bytes v

/-- A byte outside a written word reads as before. -/
theorem Memory.read_setWord_outside (m : List Host.Cell) (a b : Nat) (v : Word) (h : Memory.wf m = true) (lo : scratchBase ≤ a) (hi : a + 4 ≤ bank3Base)
    (hb : b < a ∨ a + 4 ≤ b) : Memory.read (Memory.setWord m a v) b = Memory.read m b := by
  rw [Memory.read_setWord m a b v h lo hi, if_neg (by omega), if_neg (by omega), if_neg (by omega), if_neg (by omega)]

end Sys2Proof.Machine

open Sys2Proof Sys2Proof.Machine

/-- Settles O6: reset lists no byte, and a word is read back from the four bytes that `Memory.read_setWord` gives. -/
theorem theScratchpadReadsWhatWasWritten : Obligations.TheScratchpadReadsWhatWasWritten := by
  refine ⟨⟨rfl, fun _ => rfl⟩, fun m a v h lo hi => ⟨Memory.word_setWord_same m a v h lo hi, fun b hb => ?_⟩⟩
  exact Memory.read_setWord_outside m a b v h lo hi hb

end

section
/-! SUPPORT. WRITE and WRITE_BURST: what a refused one leaves alone, and what an accepted one does. -/

namespace Sys2Proof.Machine

open Sys2Proof

/-! ## A refused register WRITE changes nothing (R13) -/

/-- The answer of a register write that is applied, or refused with the device left as it was. -/
def Dev.OkOrSame (d : Dev) (x : Dev × Byte) : Prop := x.2 = stOk ∨ x.1 = d

@[simp] theorem Dev.okOrSame_pair (d d' : Dev) (st : Byte) : d.OkOrSame (d', st) ↔ st = stOk ∨ d' = d := Iff.rfl

@[simp] theorem Dev.okOrSame_ite (d : Dev) (c : Prop) [Decidable c] (x y : Dev × Byte) :
    d.OkOrSame (if c then x else y) ↔ (c → d.OkOrSame x) ∧ (¬c → d.OkOrSame y) := by
  by_cases c <;> simp [*]

/-! ### SYS, CLK, TILE, LEAVE and TEST -/

theorem Dev.maintEnter_okOrSame (d : Dev) : d.OkOrSame d.maintEnter := by
  simp [Dev.maintEnter]

theorem Dev.latchRelease_okOrSame (d : Dev) : d.OkOrSame d.latchRelease := by
  simp [Dev.latchRelease]

theorem Dev.maintExit_okOrSame (d : Dev) : d.OkOrSame d.maintExit := by
  simp [Dev.maintExit]

theorem Dev.leaveMaint_okOrSame (d : Dev) : d.OkOrSame d.leaveMaint := by
  unfold Dev.leaveMaint
  by_cases h : d.maintExit.2 = stOk
  · exact Or.inl h
  · refine Or.inr ?_
    dsimp only
    rw [if_neg h]
    exact d.maintExit_okOrSame.resolve_left h

theorem Dev.writeSysCtrl_okOrSame (d : Dev) (v : Word) : d.OkOrSame (d.writeSysCtrl v) := by
  unfold Dev.writeSysCtrl
  split <;> simp [maintEnter_okOrSame, maintExit_okOrSame, latchRelease_okOrSame]

theorem Dev.writeBootCtrl_okOrSame (d : Dev) (v : Word) : d.OkOrSame (d.writeBootCtrl v) := by
  simp [Dev.writeBootCtrl]

theorem Dev.writeSys_okOrSame (d : Dev) (off : Nat) (v : Word) : d.OkOrSame (d.writeSys off v) := by
  unfold Dev.writeSys
  split <;> simp [leaveMaint_okOrSame, writeSysCtrl_okOrSame, writeBootCtrl_okOrSame]

theorem Dev.writeClk_okOrSame (d : Dev) (off : Nat) (v : Word) : d.OkOrSame (d.writeClk off v) := by
  unfold Dev.writeClk
  split <;> simp

theorem Dev.writeLeave_okOrSame (d : Dev) (off : Nat) (v : Word) : d.OkOrSame (d.writeLeave off v) := by
  simp [Dev.writeLeave]

theorem Dev.startPhaseTest_okOrSame (d : Dev) : d.OkOrSame d.startPhaseTest := by
  simp [Dev.startPhaseTest]

theorem Dev.startBankTest_okOrSame (d : Dev) : d.OkOrSame d.startBankTest := by
  simp [Dev.startBankTest]

theorem Dev.startBist_okOrSame (d : Dev) : d.OkOrSame d.startBist := by
  simp [Dev.startBist]

theorem Dev.writeTest_okOrSame (d : Dev) (off : Nat) (v : Word) : d.OkOrSame (d.writeTest off v) := by
  unfold Dev.writeTest Dev.writeTestCtrl
  split
  · split <;> simp [startPhaseTest_okOrSame, startBankTest_okOrSame, startBist_okOrSame]
  · simp

theorem Dev.tileVerify_okOrSame (d : Dev) : d.OkOrSame d.tileVerify := by
  simp [Dev.tileVerify]

theorem Dev.tileCommit_okOrSame (d : Dev) : d.OkOrSame d.tileCommit := by
  unfold Dev.tileCommit
  dsimp only
  split
  · simp
  · split <;> simp

theorem Dev.writeTileCtrl_okOrSame (d : Dev) (v : Word) : d.OkOrSame (d.writeTileCtrl v) := by
  unfold Dev.writeTileCtrl
  split <;> simp [Dev.tileAbort, tileVerify_okOrSame, tileCommit_okOrSame]

theorem Dev.writeRtCtrl_okOrSame (d : Dev) (v : Word) : d.OkOrSame (d.writeRtCtrl v) := by
  unfold Dev.writeRtCtrl
  split <;> simp [Dev.rtStop, Dev.rtResume, Dev.rtRevert, Dev.rtContinue]

theorem Dev.writeTile_okOrSame (d : Dev) (off : Nat) (v : Word) : d.OkOrSame (d.writeTile off v) := by
  unfold Dev.writeTile
  split <;> simp [writeTileCtrl_okOrSame, writeRtCtrl_okOrSame]

/-! ### PWM, SENSE and LOOP -/

theorem Dev.writeHostOvr_okOrSame (d : Dev) (n : PhaseIx) (v : Word) : d.OkOrSame (d.writeHostOvr n v) := by
  unfold Dev.writeHostOvr
  cases d.railOf n <;> simp

theorem Dev.writePwm_okOrSame (d : Dev) (n : PhaseIx) (off : Nat) (v : Word) : d.OkOrSame (d.writePwm n off v) := by
  unfold Dev.writePwm
  dsimp only
  split <;> simp [writeHostOvr_okOrSame, Dev.clearIlk]

theorem Dev.writePwmg_okOrSame (d : Dev) (off : Nat) (v : Word) : d.OkOrSame (d.writePwmg off v) := by
  simp [Dev.writePwmg, Dev.writeRper, Dev.writeSyncPer]

theorem Dev.writeSenseCtrl_okOrSame (d : Dev) (v : Word) : d.OkOrSame (d.writeSenseCtrl v) := by
  unfold Dev.writeSenseCtrl
  split <;> simp [Dev.startSysCal, Dev.startFgcal, Dev.startSelftest, Dev.abortCal]

theorem Dev.writeSense_okOrSame (d : Dev) (off : Nat) (v : Word) : d.OkOrSame (d.writeSense off v) := by
  unfold Dev.writeSense
  split <;> simp [writeSenseCtrl_okOrSame]

theorem Dev.writeCtx_okOrSame (d : Dev) (c : CtxIx) (off : Nat) (v : Word) : d.OkOrSame (d.writeCtx c off v) := by
  unfold Dev.writeCtx
  split <;> simp [Dev.writeCtxDelay]

theorem Dev.writeRailLoop_okOrSame (d : Dev) (r : RailIx) (off : Nat) (v : Word) : d.OkOrSame (d.writeRailLoop r off v) := by
  unfold Dev.writeRailLoop
  split <;> simp [Dev.writeVksrc]

/-! ### RAIL, VTAB, SP, STORE and PROT -/

theorem Dev.cmdOn_okOrSame (d : Dev) (r : RailIx) : d.OkOrSame (d.cmdOn r) := by
  unfold Dev.cmdOn
  dsimp only
  split <;> simp

theorem Dev.cmdCharge_okOrSame (d : Dev) (r : RailIx) : d.OkOrSame (d.cmdCharge r) := by
  unfold Dev.cmdCharge
  cases d.portOf r with
  | none => simp
  | some p => cases d.mode r <;> simp

theorem Dev.cmdSupport_okOrSame (d : Dev) (r : RailIx) : d.OkOrSame (d.cmdSupport r) := by
  unfold Dev.cmdSupport
  cases d.portOf r with
  | none => simp
  | some p => cases d.mode r <;> simp

theorem Dev.writeCmd_okOrSame (d : Dev) (r : RailIx) (v : Word) : d.OkOrSame (d.writeCmd r v) := by
  unfold Dev.writeCmd
  split <;> simp [Dev.cmdNone, Dev.cmdOff, cmdOn_okOrSame, cmdCharge_okOrSame, cmdSupport_okOrSame]

theorem Dev.writeShed_okOrSame (d : Dev) (r : RailIx) (off : Nat) (v : Word) : d.OkOrSame (d.writeShed r off v) := by
  unfold Dev.writeShed
  dsimp only
  split <;> simp

theorem Dev.writeFlare_okOrSame (d : Dev) (r : RailIx) (off : Nat) (v : Word) : d.OkOrSame (d.writeFlare r off v) := by
  unfold Dev.writeFlare
  dsimp only
  split <;> simp

theorem Dev.writeRail_okOrSame (d : Dev) (r : RailIx) (off : Nat) (v : Word) : d.OkOrSame (d.writeRail r off v) := by
  simp [Dev.writeRail, writeCmd_okOrSame, Dev.writeRailCtrl, Dev.writeScale, writeShed_okOrSame, writeFlare_okOrSame]

theorem Dev.writeVtab_okOrSame (d : Dev) (off : Nat) (v : Word) : d.OkOrSame (d.writeVtab off v) := by
  unfold Dev.writeVtab
  dsimp only
  split
  · simp
  · split <;> simp

theorem Dev.writeSp_okOrSame (d : Dev) (r : RailIx) (off : Nat) (v : Word) : d.OkOrSame (d.writeSp r off v) := by
  unfold Dev.writeSp
  dsimp only
  split
  · simp
  · split <;> simp

theorem Dev.writeStoreLimit_okOrSame (d : Dev) (p : PortIx) (off : Nat) (v : Word) : d.OkOrSame (d.writeStoreLimit p off v) := by
  unfold Dev.writeStoreLimit
  dsimp only
  split <;> simp

theorem Dev.writeStoreTemp_okOrSame (d : Dev) (p : PortIx) (off : Nat) (v : Word) : d.OkOrSame (d.writeStoreTemp p off v) := by
  unfold Dev.writeStoreTemp
  dsimp only
  split <;> simp

theorem Dev.writeStore_okOrSame (d : Dev) (p : PortIx) (off : Nat) (v : Word) : d.OkOrSame (d.writeStore p off v) := by
  simp [Dev.writeStore, Dev.clearSafe, Dev.writeWick, writeStoreLimit_okOrSame, writeStoreTemp_okOrSame]

theorem Dev.writeWin_okOrSame (d : Dev) (r : RailIx) (off : Nat) (v : Word) : d.OkOrSame (d.writeWin r off v) := by
  unfold Dev.writeWin
  split <;> simp

theorem Dev.writeSafe_okOrSame (d : Dev) (off : Nat) (v : Word) : d.OkOrSame (d.writeSafe off v) := by
  unfold Dev.writeSafe
  split <;> simp

theorem Dev.writeProt_okOrSame (d : Dev) (off : Nat) (v : Word) : d.OkOrSame (d.writeProt off v) := by
  simp [Dev.writeProt, Dev.writeTrip, writeWin_okOrSame, writeSafe_okOrSame, Dev.writeFilt]

theorem Dev.writeLog_okOrSame (d : Dev) (off : Nat) (v : Word) : d.OkOrSame (d.writeLog off v) := by
  unfold Dev.writeLog
  split <;> simp [Dev.writeRselHi, Dev.writeSnapSel]

/-! ### Registers with W1C bits, which may answer CAUSE_PRESENT for the bits that stay (R11, R12) -/

/-- The answer of a register write that is applied, in part where W1C bits stay set, or refused with the device left as it was. -/
def Dev.W1cOrSame (d : Dev) (x : Dev × Byte) : Prop := x.2 = stCause ∨ d.OkOrSame x

theorem Dev.OkOrSame.w1c {d : Dev} {x : Dev × Byte} (h : d.OkOrSame x) : d.W1cOrSame x := Or.inr h

@[simp] theorem Dev.w1cOrSame_pair (d d' : Dev) (st : Byte) : d.W1cOrSame (d', st) ↔ st = stCause ∨ st = stOk ∨ d' = d := Iff.rfl

@[simp] theorem Dev.w1cOrSame_ite (d : Dev) (c : Prop) [Decidable c] (x y : Dev × Byte) :
    d.W1cOrSame (if c then x else y) ↔ (c → d.W1cOrSame x) ∧ (¬c → d.W1cOrSame y) := by
  by_cases c <;> simp [*]

/-- A W1C of several bits answers OK or CAUSE_PRESENT. -/
theorem Dev.w1cOrSame_bits (d d' : Dev) (b : Bool) (st : Byte) (h : st = if b then stOk else stCause) : d.W1cOrSame (d', st) := by
  cases b
  · exact Or.inl h
  · exact Or.inr (Or.inl h)

theorem Dev.writeFab_w1c (d : Dev) (off : Nat) (v : Word) : d.W1cOrSame (d.writeFab off v) :=
  Dev.w1cOrSame_bits _ _ _ _ rfl

theorem Dev.writeLoop_w1c (d : Dev) (off : Nat) (v : Word) : d.W1cOrSame (d.writeLoop off v) := by
  have hstab : d.OkOrSame (d.writeStabSel v) := by simp [Dev.writeStabSel]
  have hhist : d.OkOrSame (d.writeHstat v) := by simp [Dev.writeHstat]
  simp [Dev.writeLoop, hstab.w1c, hhist.w1c, (writeRailLoop_okOrSame ..).w1c, writeFab_w1c]

theorem Dev.writeStat_w1c (d : Dev) (i : Fin 8) (v : Word) : d.W1cOrSame (d.writeStat i v) := by
  unfold Dev.writeStat
  generalize List.foldl _ (d, false) _ = x
  obtain ⟨d', stayed⟩ := x
  exact Dev.w1cOrSame_bits _ _ (!stayed) _ (by cases stayed <;> rfl)

theorem Dev.writeFaultReg_w1c (d : Dev) (off : Nat) (v : Word) : d.W1cOrSame (d.writeFaultReg off v) := by
  simp [Dev.writeFaultReg, writeStat_w1c, Dev.writeForce, Dev.writeOpen]

/-- A register beyond SYS. -/
theorem Dev.writeReg_w1c (d : Dev) (a : Nat) (v : Word) (h : 0x001000 ≤ a) : d.W1cOrSame (d.writeReg a v) := by
  have hcard : ∀ s, d.OkOrSame (d.writeCard s v) := by simp [Dev.writeCard]
  have htrk : ∀ k, d.OkOrSame (d.writeTrk k v) := by simp [Dev.writeTrk]
  have hlink : d.OkOrSame (d.writeLinkCtrl v) := by simp [Dev.writeLinkCtrl]
  have hchord : d.OkOrSame (d.writeChordCfg v) := by simp [Dev.writeChordCfg]
  have hcal : ∀ e, d.OkOrSame (d.writeCalValue e v) := by simp [Dev.writeCalValue]
  unfold Dev.writeReg
  rw [if_neg (Nat.not_lt.2 h)]
  simp [(writeClk_okOrSame ..).w1c, (writeLeave_okOrSame ..).w1c, (writeTest_okOrSame ..).w1c, (writeTile_okOrSame ..).w1c,
    (writePwm_okOrSame ..).w1c, (writePwmg_okOrSame ..).w1c, (writeSense_okOrSame ..).w1c, (htrk _).w1c, (writeCtx_okOrSame ..).w1c,
    writeLoop_w1c, (writeRail_okOrSame ..).w1c, (hcard _).w1c, (writeVtab_okOrSame ..).w1c, (writeSp_okOrSame ..).w1c,
    (writeStore_okOrSame ..).w1c, (writeProt_okOrSame ..).w1c, writeFaultReg_w1c, (writeLog_okOrSame ..).w1c,
    hlink.w1c, hchord.w1c, (hcal _).w1c]

/-- A refused WRITE of a register leaves the device as it was (R10, R13). -/
theorem Dev.writeReg_refused (d : Dev) (a : Nat) (v : Word) (h : refusesWord a (d.writeReg a v).2 = true) : (d.writeReg a v).1 = d := by
  simp only [refusesWord, Bool.and_eq_true, bne_iff_ne, Bool.or_eq_true, beq_iff_eq] at h
  obtain ⟨hok, hcause⟩ := h
  by_cases ha : a < 0x001000
  · have hs : d.OkOrSame (d.writeReg a v) := by
      unfold Dev.writeReg
      rw [if_pos ha]
      exact writeSys_okOrSame d a v
    exact hs.resolve_left hok
  · have hc := hcause.resolve_right (by omega)
    exact ((writeReg_w1c d a v (by omega)).resolve_left hc).resolve_left hok

/-! ## Transactions on the scratchpad -/

@[simp] theorem Dev.reply_sys (d : Dev) (st : Byte) (data : List Byte) : (d.reply st data).sys = d.sys := by
  rw [Dev.reply_eq]

/-- Without a RETRY that waits for its response no start begins (R138). -/
theorem Dev.startRetry_of_none {d : Dev} (h : d.sys.retryPending = false) : d.startRetry = d := by
  simp [Dev.startRetry, h]

/-- A transaction on the scratchpad that executes: its effect, then its response. -/
theorem State.hostMem_next {s : State} {t : Tick} {i : Instr} {b : Bool} {payload : List Byte}
    {f : List Host.Cell → Dev → Dev × List Host.Cell × Byte × List Byte} {d : Dev} {m : List Host.Cell} {st : Byte} {data : List Byte}
    (hh : (s.dev.advance t).takesHost i) (h : f s.mem (s.dev.advance t) = (d, m, st, data)) (hr : d.sys.retryPending = false) :
    s.runMem t (fun d m => d.hostMem m i b payload (f m)) = .next { s.after t (d.reply st data) with mem := m } := by
  obtain ⟨hl, hb, ha⟩ := hh
  have hs : (d.reply st data).startRetry = d.reply st data := Dev.startRetry_of_none (by simpa using hr)
  simp [State.runMem, Dev.hostMem, hl, hb, ha, h, hs, State.after]

theorem exec_write_next {s : State} {t : Tick} {a : Addr} {v : Word} {d : Dev} {m : List Host.Cell} {st : Byte}
    (hh : (s.dev.advance t).takesHost (.write t a v)) (h : (s.dev.advance t).writeWord s.mem a.toNat v = (d, m, st))
    (hr : d.sys.retryPending = false) : exec (.write t a v) s = .next { s.after t (d.reply st) with mem := m } :=
  State.hostMem_next (f := fun m d => let (d, m, st) := d.writeWord m a.toNat v; (d, m, st, [])) hh (by simp [h]) hr

theorem exec_writeBurst_next {s : State} {t : Tick} {a : Addr} {ws : List Word} {d : Dev} {m : List Host.Cell} {st : Byte} {data : List Byte}
    (hh : (s.dev.advance t).takesHost (.writeBurst t a ws)) (h : (s.dev.advance t).writeBurst s.mem a.toNat ws = (d, m, st, data))
    (hr : d.sys.retryPending = false) : exec (.writeBurst t a ws) s = .next { s.after t (d.reply st data) with mem := m } :=
  State.hostMem_next (f := fun m d => d.writeBurst m a.toNat ws) hh h hr

/-! ## What a WRITE of one word does (R10, R474) -/

theorem Dev.writeWord_badAddr (d : Dev) (m : List Host.Cell) {a : Nat} (v : Word) (h : writable a = false) :
    d.writeWord m a v = (d, m, stBadAddr) := by
  simp [Dev.writeWord, h]

theorem Dev.writeWord_reg (d : Dev) (m : List Host.Cell) {a : Nat} (v : Word) (h : writable a = true) (ha : a < scratchBase) :
    d.writeWord m a v = ((d.writeReg a v).1, m, (d.writeReg a v).2) := by
  simp [Dev.writeWord, h, ha]

theorem Dev.writeWord_scratch (d : Dev) (m : List Host.Cell) {a : Nat} (v : Word) (h : writable a = true) (ha : scratchBase ≤ a) (hb : a < bank3Base) :
    d.writeWord m a v = (d, Memory.setWord m a v, stOk) := by
  simp [Dev.writeWord, h, Nat.not_lt.2 ha, Nat.not_le.2 hb]

theorem Dev.writeWord_bank3 (d : Dev) (m : List Host.Cell) {a : Nat} (v : Word) (h : writable a = true) (hb : bank3Base ≤ a) :
    d.writeWord m a v = (d, m, stLocked) := by
  have ha : scratchBase ≤ a := le_trans (by decide) hb
  simp [Dev.writeWord, h, Nat.not_lt.2 ha, hb]

/-! ## What a WRITE_BURST does (R474, R476) -/

theorem burstAddrs_succ (a n : Nat) : burstAddrs a (n + 1) = a :: burstAddrs (a + 4) n := by
  simp only [burstAddrs, List.range_succ_eq_map, List.map_cons, List.map_map, Nat.mul_zero, Nat.add_zero]
  congr 1
  exact List.map_congr_left fun i _ => by simp only [Function.comp_apply]; omega

theorem mem_burstAddrs {x a n : Nat} : x ∈ burstAddrs a n ↔ ∃ i < n, x = a + 4 * i := by
  simp [burstAddrs, eq_comm]

/-- The words of a burst written one after another. -/
def Memory.setWords (m : List Host.Cell) (a : Nat) (ws : List Word) : List Host.Cell :=
  ((burstAddrs a ws.length).zip ws).foldl (fun m x => Memory.setWord m x.1 x.2) m

theorem Memory.setWords_cons (m : List Host.Cell) (a : Nat) (w : Word) (ws : List Word) :
    Memory.setWords m a (w :: ws) = Memory.setWords (Memory.setWord m a w) (a + 4) ws := by
  simp [Memory.setWords, burstAddrs_succ]

/-- A burst within banks 0 to 2 keeps the form and changes no byte outside its words. -/
theorem Memory.setWords_frame : ∀ (ws : List Word) (m : List Host.Cell) (a : Nat), Memory.wf m = true → scratchBase ≤ a → a + 4 * ws.length ≤ bank3Base →
    Memory.wf (Memory.setWords m a ws) = true ∧
      ∀ b : Nat, b < a ∨ a + 4 * ws.length ≤ b → Memory.read (Memory.setWords m a ws) b = Memory.read m b
  | [], m, a, h, _, _ => ⟨h, fun _ _ => rfl⟩
  | w :: ws, m, a, h, lo, hi => by
    simp only [List.length_cons] at hi ⊢
    obtain ⟨hwf, hframe⟩ := Memory.setWords_frame ws (Memory.setWord m a w) (a + 4) (Memory.setWord_wf m a w h lo (by omega)) (by omega) (by omega)
    rw [Memory.setWords_cons]
    refine ⟨hwf, fun b hb => ?_⟩
    rw [hframe b (by omega), Memory.read_setWord_outside m a b w h lo (by omega) (by omega)]

/-- Each word of a burst within banks 0 to 2 reads back. -/
theorem Memory.word_setWords : ∀ (ws : List Word) (m : List Host.Cell) (a : Nat), Memory.wf m = true → scratchBase ≤ a → a + 4 * ws.length ≤ bank3Base →
    ∀ i : Fin ws.length, Memory.word (Memory.setWords m a ws) (a + 4 * i.val) = ws[i]
  | [], _, _, _, _, _ => fun i => i.elim0
  | w :: ws, m, a, h, lo, hi => by
    simp only [List.length_cons] at hi
    have hwf := Memory.setWord_wf m a w h lo (by omega)
    obtain ⟨-, hframe⟩ := Memory.setWords_frame ws (Memory.setWord m a w) (a + 4) hwf (by omega) (by omega)
    rw [Memory.setWords_cons]
    refine Fin.cases ?_ fun i => ?_
    · have hw := Memory.word_setWord_same m a w h lo (by omega)
      simp only [Memory.word] at hw ⊢
      simpa [hframe] using hw
    · have ih := Memory.word_setWords ws (Memory.setWord m a w) (a + 4) hwf (by omega) (by omega) i
      have e : a + 4 * i.succ.val = a + 4 + 4 * i.val := by simp [Nat.mul_add]; omega
      rw [e, ih]
      rfl

/-- A burst with no word, or with more than 62. -/
theorem Dev.writeBurst_badCount (d : Dev) (m : List Host.Cell) (a : Nat) {ws : List Word} (h : ws.length < 1 ∨ 62 < ws.length) :
    d.writeBurst m a ws = (d, m, stState, [0, 0, 0, 0]) := by
  have hc : (ws.isEmpty || decide (62 < ws.length)) = true := by
    rcases h with h | h
    · simp [List.length_eq_zero_iff.1 (Nat.lt_one_iff.1 h)]
    · simp [h]
  unfold Dev.writeBurst
  dsimp only
  rw [if_pos hc]
  rfl

/-- The count of a burst that is taken. -/
theorem burstCount_ok {ws : List Word} (h1 : 1 ≤ ws.length) (h2 : ws.length ≤ 62) : (ws.isEmpty || decide (62 < ws.length)) = false := by
  cases ws <;> simp at *
  exact h2

/-- A burst on aligned words of banks 0 to 2 writes each. -/
theorem Dev.writeBurst_scratch (d : Dev) (m : List Host.Cell) {a : Nat} {ws : List Word} (h1 : 1 ≤ ws.length) (h2 : ws.length ≤ 62) (lo : scratchBase ≤ a)
    (ha : a % 4 = 0) (hi : a + 4 * ws.length ≤ bank3Base) : d.writeBurst m a ws = (d, Memory.setWords m a ws, stOk, []) := by
  have hall : ((burstAddrs a ws.length).all fun x => (decide (x < scratchBase) == decide (a < scratchBase)) && writable x) = true := by
    rw [List.all_eq_true]
    intro x hx
    obtain ⟨i, hi', rfl⟩ := mem_burstAddrs.1 hx
    have hlo : ¬ a + 4 * i < scratchBase := by omega
    have h4 : (a + 4 * i) % 4 = 0 := by omega
    have hend : a + 4 * i < scratchEnd := by simp only [scratchEnd, bank3Base] at *; omega
    simp only [writable, hlo, if_false, Nat.not_lt.2 lo, h4, hend]
    rfl
  have hany : ((burstAddrs a ws.length).any fun x => decide (bank3Base ≤ x)) = false := by
    rw [List.any_eq_false]
    intro x hx
    obtain ⟨i, hi', rfl⟩ := mem_burstAddrs.1 hx
    simp only [decide_eq_true_eq]
    omega
  unfold Dev.writeBurst
  dsimp only
  rw [burstCount_ok h1 h2, hall, hany, if_neg (Nat.not_lt.2 lo)]
  rfl

/-- A burst on two registers hands them to `writeRegs`. -/
theorem Dev.writeBurst_two (d : Dev) (m : List Host.Cell) {a : Nat} (v v' : Word) (ha : a + 4 < scratchBase) (h : writable a = true)
    (h' : writable (a + 4) = true) : d.writeBurst m a [v, v'] =
      ((d.writeRegs [(a, v), (a + 4, v')]).1, m, (d.writeRegs [(a, v), (a + 4, v')]).2) := by
  have hb : burstAddrs a [v, v'].length = [a, a + 4] := rfl
  have ha0 : a < scratchBase := by omega
  unfold Dev.writeBurst
  rw [hb]
  simp [ha, ha0, h, h']

theorem Dev.writeRegs_firstRefused (d : Dev) (a b : Nat) (v v' : Word) (h : refusesWord a (d.writeReg a v).2 = true) :
    d.writeRegs [(a, v), (b, v')] = (d, (d.writeReg a v).2, [0, 0, 0, 0]) := by
  simp only [Dev.writeRegs, Dev.writeSeq, h, if_true]
  rfl

theorem Dev.writeRegs_secondRefused (d : Dev) (a b : Nat) (v v' : Word) (h : refusesWord a (d.writeReg a v).2 = false)
    (h' : refusesWord b ((d.writeReg a v).1.writeReg b v').2 = true) :
    d.writeRegs [(a, v), (b, v')] = (d, ((d.writeReg a v).1.writeReg b v').2, [1, 0, 0, 0]) := by
  simp only [Dev.writeRegs, Dev.writeSeq, h, h', if_true, Bool.false_eq_true, if_false]
  rfl

theorem Dev.writeRegs_both (d : Dev) (a b : Nat) (v v' : Word) (h : (d.writeReg a v).2 = stOk) (h' : ((d.writeReg a v).1.writeReg b v').2 = stOk) :
    d.writeRegs [(a, v), (b, v')] = (((d.writeReg a v).1.writeReg b v').1, stOk, []) := by
  have hok : ∀ x, refusesWord x stOk = false := fun x => rfl
  have hne : stOk ≠ stCause := by decide
  simp only [Dev.writeRegs, Dev.writeSeq, h, h', hok, hne, if_false, Bool.false_eq_true]

end Sys2Proof.Machine

open Sys2Proof Sys2Proof.Machine

/-- Settles O52: each clause is the equation of `Dev.writeWord`, `Dev.writeRegs` or `Dev.writeBurst` for its case, and
    `Dev.writeReg_refused` says that a refused register leaves the device as it was. -/
theorem writesApplyWholeOrNotAtAll : Obligations.WritesApplyWholeOrNotAtAll := by
  intro s t a v v' d one two
  refine ⟨?badAddr, ?scratch, ?regs, ?burst⟩
  case badAddr => exact fun ⟨hh, hr⟩ hw => exec_write_next hh (d.writeWord_badAddr s.mem v hw) hr
  case scratch =>
    rintro ⟨hh, hr⟩ lo hw
    split
    next hb => exact exec_write_next hh (d.writeWord_scratch s.mem v hw lo hb) hr
    next hb => exact exec_write_next hh (d.writeWord_bank3 s.mem v hw (Nat.not_lt.1 hb)) hr
  case regs =>
    intro ha hw x
    refine ⟨?one, fun ⟨hh, _⟩ _ hr => exec_write_next hh (d.writeWord_reg s.mem v hw ha) hr, ?two⟩
    case one =>
      rintro ⟨hh, hr⟩ hx
      have hx' : x.1 = d := d.writeReg_refused a.toNat v hx
      have hww : d.writeWord s.mem a.toNat v = (d, s.mem, x.2) := by
        rw [d.writeWord_reg s.mem v hw ha]
        exact congrArg (·, s.mem, x.2) hx'
      exact exec_write_next hh hww hr
    case two =>
      rintro ⟨hh, hr⟩ ha' hw' y
      refine ⟨fun hx => exec_writeBurst_next hh ?_ hr, fun hx hy => exec_writeBurst_next hh ?_ hr,
        fun hx hy hr' => exec_writeBurst_next hh ?_ hr'⟩
      · rw [d.writeBurst_two s.mem v v' ha' hw hw', d.writeRegs_firstRefused _ _ v v' hx]
      · rw [d.writeBurst_two s.mem v v' ha' hw hw', d.writeRegs_secondRefused _ _ v v' hx hy]
      · rw [d.writeBurst_two s.mem v v' ha' hw hw', d.writeRegs_both _ _ v v' hx hy]
  case burst =>
    intro ws n hh hr
    refine ⟨fun hn => exec_writeBurst_next hh (d.writeBurst_badCount s.mem _ hn) hr, fun h1 h2 lo h4 hi hwf => ?_⟩
    obtain ⟨hwf', hframe⟩ := Memory.setWords_frame ws s.mem a.toNat hwf lo hi
    exact ⟨Memory.setWords s.mem a.toNat ws, exec_writeBurst_next hh (d.writeBurst_scratch s.mem h1 h2 lo h4 hi) hr, hwf',
      Memory.word_setWords ws s.mem a.toNat hwf lo hi, hframe⟩

end

section
/-! SUPPORT. READ, READ_BURST and LOG_READ. -/

namespace Sys2Proof.Machine

open Sys2Proof

/-! ## The readable records from a number upward (R433) -/

/-- The least element of a list that is folded by `min`. -/
theorem foldl_min_spec : ∀ (xs : List Nat) (x : Nat), xs.foldl min x ∈ x :: xs ∧ ∀ y ∈ x :: xs, xs.foldl min x ≤ y
  | [], x => by simp
  | y :: ys, x => by
    obtain ⟨hmem, hle⟩ := foldl_min_spec ys (min x y)
    have hxy := hle (min x y) (by simp)
    refine ⟨?_, fun z hz => ?_⟩
    · rw [List.foldl_cons]
      rcases List.mem_cons.1 hmem with h | h
      · rw [h]; rcases min_choice x y with e | e <;> simp [e]
      · simp [h]
    · rw [List.foldl_cons]
      simp only [List.mem_cons] at hz
      rcases hz with rfl | rfl | hz
      · exact le_trans hxy (min_le_left ..)
      · exact le_trans hxy (min_le_right ..)
      · exact hle z (List.mem_cons_of_mem _ hz)

theorem Lantern.nextSeq_none {l : Lantern} {start : Nat} (h : l.nextSeq start = none) : ∀ q ∈ l.seqs, ¬start ≤ q := by
  unfold Lantern.nextSeq at h
  split at h
  next he => simpa using List.filter_eq_nil_iff.1 he
  next => cases h

/-- The next readable number is the least readable one from the number on. -/
theorem Lantern.nextSeq_some {l : Lantern} {start s : Nat} (h : l.nextSeq start = some s) :
    s ∈ l.seqs ∧ start ≤ s ∧ ∀ q ∈ l.seqs, start ≤ q → s ≤ q := by
  unfold Lantern.nextSeq at h
  split at h
  next => cases h
  next x xs he =>
    obtain ⟨hmem, hle⟩ := foldl_min_spec xs x
    rw [← he, Option.some.inj h] at hmem hle
    obtain ⟨hs, hstart⟩ := List.mem_filter.1 hmem
    exact ⟨hs, by simpa using hstart, fun q hq hsq => hle q (List.mem_filter.2 ⟨hq, by simpa using hsq⟩)⟩

/-- A readable number has a record. -/
theorem Lantern.find_of_mem {l : Lantern} {s : Nat} (h : s ∈ l.seqs) : ∃ r, l.find s = some r ∧ r.seq = s := by
  unfold Lantern.find
  split
  next r hr => exact ⟨r, rfl, by simpa using List.find?_some hr⟩
  next hram =>
    have hstore : ∃ x ∈ l.store, x.2.seq = s := by
      rcases List.mem_append.1 h with hr | hr
      · obtain ⟨r, hr, e⟩ := List.mem_map.1 hr
        exact absurd (by simpa using e) (List.find?_eq_none.1 hram r hr)
      · simpa using hr
    cases hf : l.store.find? fun x => x.2.seq == s with
    | none =>
      obtain ⟨x, hx, e⟩ := hstore
      exact absurd (by simpa using e) (List.find?_eq_none.1 hf x hx)
    | some x => exact ⟨x.2, rfl, by simpa using List.find?_some hf⟩

/-- The records read from a number upward: at most `n`, ascending from there, and none left out before the last. -/
theorem Lantern.readFrom_spec (l : Lantern) : ∀ n start : Nat,
    (l.readFrom n start).length ≤ n ∧ (∀ r ∈ l.readFrom n start, start ≤ r.seq ∧ r.seq ∈ l.seqs) ∧
      (l.readFrom n start).Pairwise (fun a b => a.seq < b.seq) ∧
      ∀ q ∈ l.seqs, start ≤ q → (∃ r ∈ l.readFrom n start, r.seq = q) ∨ (l.readFrom n start).length = n ∧ ∀ r ∈ l.readFrom n start, r.seq < q
  | 0, start => by simp [Lantern.readFrom]
  | n + 1, start => by
    cases hs : l.nextSeq start with
    | none =>
      have hnone := Lantern.nextSeq_none hs
      simp only [Lantern.readFrom, hs, List.length_nil, List.not_mem_nil]
      exact ⟨Nat.zero_le _, nofun, List.Pairwise.nil, fun q hq hsq => absurd hsq (hnone q hq)⟩
    | some s =>
      obtain ⟨hmem, hstart, hleast⟩ := Lantern.nextSeq_some hs
      obtain ⟨r, hr, rfl⟩ := Lantern.find_of_mem hmem
      obtain ⟨hlen, hin, hpair, hall⟩ := Lantern.readFrom_spec l n (r.seq + 1)
      have e : l.readFrom (n + 1) start = r :: l.readFrom n (r.seq + 1) := by simp [Lantern.readFrom, hs, hr]
      rw [e]
      refine ⟨by simpa using hlen, ?_, ?_, fun q hq hsq => ?_⟩
      · intro x hx
        rcases List.mem_cons.1 hx with rfl | hx
        · exact ⟨hstart, hmem⟩
        · obtain ⟨hle, hx'⟩ := hin x hx
          exact ⟨by omega, hx'⟩
      · exact List.pairwise_cons.2 ⟨fun x hx => (hin x hx).1, hpair⟩
      · rcases Nat.eq_or_lt_of_le (hleast q hq hsq) with heq | hlt
        · exact Or.inl ⟨r, List.mem_cons_self, heq⟩
        · rcases hall q hq hlt with ⟨x, hx, rfl⟩ | ⟨hn, hbelow⟩
          · exact Or.inl ⟨x, List.mem_cons_of_mem _ hx, rfl⟩
          · exact Or.inr ⟨by simp [hn], List.forall_mem_cons.2 ⟨hlt, hbelow⟩⟩

/-! ## READ and READ_BURST -/

theorem exec_read_next {s : State} {t : Tick} {a : Addr} {d : Dev} (hl : (s.dev.advance t).linkBlocked = false)
    (ha : (s.dev.advance t).asked (.read t a) = true) (h : (s.dev.advance t).readHost s.mem [a.toNat] = d) :
    exec (.read t a) s = .next (s.after t d) := by
  simp only [exec_read, execRead, State.runMem, Dev.host_inHold hl ha, h]
  rfl

theorem exec_readBurst_badCount {s : State} {t : Tick} {a : Addr} {n : Byte} (hl : (s.dev.advance t).linkBlocked = false)
    (ha : (s.dev.advance t).asked (.readBurst t a n) = true) (hn : n.toNat < 1 ∨ 64 < n.toNat) :
    exec (.readBurst t a n) s = .next (s.after t ((s.dev.advance t).reply stState)) := by
  simp only [exec_readBurst, execReadBurst, State.runMem, Dev.host_inHold hl ha, if_pos hn]
  rfl

theorem exec_readBurst_next {s : State} {t : Tick} {a : Addr} {n : Byte} {d : Dev} (hl : (s.dev.advance t).linkBlocked = false)
    (ha : (s.dev.advance t).asked (.readBurst t a n) = true) (h1 : 1 ≤ n.toNat) (h2 : n.toNat ≤ 64)
    (h : (s.dev.advance t).readHost s.mem (burstAddrs a.toNat n.toNat) = d) : exec (.readBurst t a n) s = .next (s.after t d) := by
  have hn : ¬(n.toNat < 1 ∨ 64 < n.toNat) := by omega
  simp only [exec_readBurst, execReadBurst, State.runMem, Dev.host_inHold hl ha, if_neg hn, h]
  rfl

theorem Dev.readHost_held {d : Dev} (m : List Host.Cell) {xs : List Nat} (hb : d.sys.bootHold = true) (h : xs.all heldRead = false) :
    d.readHost m xs = d.reply stState := by
  simp [Dev.readHost, hb, h]

theorem Dev.readHost_badAddr {d : Dev} (m : List Host.Cell) {xs : List Nat} (hb : d.sys.bootHold = true → ∀ x ∈ xs, heldRead x = true)
    (h : (oneRange xs && xs.all readable) = false) : d.readHost m xs = d.reply stBadAddr := by
  have hh : ¬(d.sys.bootHold && !xs.all heldRead) = true := by simpa using hb
  unfold Dev.readHost
  rw [if_neg hh, if_pos (by rw [← Bool.not_and, h]; rfl)]

/-- The words of a read that is served answer with status OK. -/
theorem Dev.readHost_ok {d : Dev} (m : List Host.Cell) {xs : List Nat} (hb : d.sys.bootHold = true → ∀ x ∈ xs, heldRead x = true)
    (h : (oneRange xs && xs.all readable) = true) : d.readHost m xs = (d.readAll m xs).2.reply stOk (d.readAll m xs).1 := by
  have hh : ¬(d.sys.bootHold && !xs.all heldRead) = true := by simpa using hb
  unfold Dev.readHost
  rw [if_neg hh, if_neg (by rw [← Bool.not_and, h]; decide)]

theorem oneRange_singleton (a : Nat) : oneRange [a] = true := by
  rcases Nat.lt_or_ge a scratchBase with h | h <;> simp only [oneRange, List.all_cons, List.all_nil, h, decide_true, Bool.or_true, Bool.true_or, Bool.and_true]

theorem Dev.readAll_one (d : Dev) (m : List Host.Cell) (a : Nat) : d.readAll m [a] = (leBytes 4 (d.wordAt m a).1.toNat, (d.wordAt m a).2) := by
  simp [Dev.readAll]

/-- Beside its value a register read moves the shadow of the time base or the count of free values alone (R113). -/
theorem Dev.readEffect_onlyIn (d : Dev) (a : Nat) : d.onlyIn (d.readEffect a) [.clk, .free] := by
  unfold Dev.readEffect Dev.readTbLo
  intro b hb
  split_ifs <;> cases b <;> simp_all [Dev.same]

/-- A read of the scratchpad range moves the count of free values alone. -/
theorem Dev.scratchWord_onlyIn (d : Dev) (m : List Host.Cell) (a : Nat) : d.onlyIn (d.scratchWord m a).2 [.free] := by
  unfold Dev.scratchWord Dev.fresh
  intro b hb
  split_ifs <;> cases b <;> simp_all [Dev.same]

theorem Dev.wordAt_onlyIn (d : Dev) (m : List Host.Cell) (a : Nat) : d.onlyIn (d.wordAt m a).2 [.clk, .free] := by
  unfold Dev.wordAt
  split
  · exact d.readEffect_onlyIn a
  · exact Dev.onlyIn_mono (d.scratchWord_onlyIn m a) (by simp)

/-- Four bytes a word, and no effect beyond that of its words. -/
theorem Dev.readAll_spec (m : List Host.Cell) : ∀ (xs : List Nat) (d : Dev),
    (d.readAll m xs).1.length = 4 * xs.length ∧ d.onlyIn (d.readAll m xs).2 [.clk, .free]
  | [], d => ⟨rfl, d.onlyIn_refl _⟩
  | a :: xs, d => by
    obtain ⟨hlen, hframe⟩ := Dev.readAll_spec m xs (d.wordAt m a).2
    refine ⟨?_, Dev.onlyIn_mono (Dev.onlyIn_trans (d.wordAt_onlyIn m a) hframe) (by simp)⟩
    simp only [Dev.readAll, List.length_append, leBytes_length, hlen, List.length_cons]
    omega

/-- Words below bank 3 that read without an effect are answered as they stand. -/
theorem Dev.readAll_plain (m : List Host.Cell) (d : Dev) : ∀ xs : List Nat, (∀ x ∈ xs, x < bank3Base ∧ d.readEffect x = d) →
    d.readAll m xs =
      (xs.flatMap fun x => leBytes 4 (if x < scratchBase then (d.readReg (BitVec.ofNat 24 x)).getD 0 else Memory.word m x).toNat, d)
  | [], _ => rfl
  | a :: xs, h => by
    obtain ⟨hb, he⟩ := h a List.mem_cons_self
    have hw : d.wordAt m a = (if a < scratchBase then (d.readReg (BitVec.ofNat 24 a)).getD 0 else Memory.word m a, d) := by
      simp only [Dev.wordAt, Dev.scratchWord, if_pos hb, he, apply_ite (·, d)]
    simp only [Dev.readAll, hw, Dev.readAll_plain m d xs fun x hx => h x (List.mem_cons_of_mem _ hx), List.flatMap_cons]

/-- Eight bytes of a number are the bytes of its low word and of its high word. -/
theorem leBytes_eight (x : Nat) : leBytes 4 (lo32 x).toNat ++ leBytes 4 (lo32 (x >>> 32)).toNat = leBytes 8 x := by
  simp only [leBytes, List.range_succ, List.range_zero, List.map_cons, List.map_nil, List.nil_append, List.cons_append, lo32,
    BitVec.toNat_ofNat]
  simp only [List.cons.injEq, and_true]
  refine ⟨?_, ?_, ?_, ?_, ?_, ?_, ?_, ?_⟩ <;>
    (apply BitVec.eq_of_toNat_eq; simp only [BitVec.toNat_ofNat, Nat.shiftRight_eq_div_pow]; omega)

/-- TB_LO and TB_HI in one burst are one value of the time base: the read of TB_LO takes the shadow that TB_HI reads (R113, R475). -/
theorem Dev.readAll_timeBase (d : Dev) (m : List Host.Cell) : d.readAll m [0x001008, 0x00100C] = (leBytes 8 d.tb, d.readTbLo) := by
  have hlo : d.wordAt m 0x001008 = (lo32 d.tb, d.readTbLo) := rfl
  have hhi : d.readTbLo.wordAt m 0x00100C = (lo32 (d.tb >>> 32), d.readTbLo) := rfl
  simp only [Dev.readAll, hlo, hhi, List.append_nil, leBytes_eight]

/-- The low bits of a word as a field. -/
theorem fld_zero (v : Word) (n : Nat) : fld v 0 n = v.setWidth n := by
  apply BitVec.eq_of_toNat_eq
  simp [fld]

/-! ## LOG_READ and the selections of the journal (R433, R434) -/

theorem Dev.logRead_refused {d : Dev} (start : Nat) {k : Nat} (h : k < 1 ∨ 3 < k ∨ (d.sys.bootHold && d.lantern.storeBad) = true) :
    d.logRead start k = d.reply stState := if_pos h

theorem Dev.logRead_ok {d : Dev} {start k : Nat} (h1 : 1 ≤ k) (h3 : k ≤ 3) (hb : (d.sys.bootHold && d.lantern.storeBad) = false) (hs : start < 2 ^ 48) :
    d.logRead start k = Dev.reply { d with lantern := d.lantern.closeDue d.clk.now } stOk ((d.lantern.closeDue d.clk.now).logRead start k) := by
  have hk : ¬(k < 1 ∨ 3 < k ∨ (d.sys.bootHold && d.lantern.storeBad) = true) := by
    rw [hb]; simp only [Bool.false_eq_true, or_false]; omega
  unfold Dev.logRead
  rw [if_neg hk, Nat.mod_eq_of_lt hs]

theorem exec_logRead_next {s : State} {t : Tick} {start : Nat} {k : Byte} {d : Dev} (hl : (s.dev.advance t).linkBlocked = false)
    (ha : (s.dev.advance t).asked (.logRead t start k) = true) (h : (s.dev.advance t).logRead start k.toNat = d) :
    exec (.logRead t start k) s = .next (s.after t d) := by
  rw [exec_logRead, execLogRead]
  exact State.run_next ((Dev.host_inHold hl ha).trans h)

theorem Dev.writeRselHi_eq (d : Dev) (v : Word) : d.writeRselHi v =
    ({ d with lantern := { d.lantern with rselHi := v.setWidth 16, selSeq := (v.setWidth 16).toNat * 2 ^ 32 + d.lantern.rselLo.toNat } }, stOk) := by
  simp only [Dev.writeRselHi, Dev.updLantern, fld_zero]

theorem Dev.writeSnapSel_eq (d : Dev) (v : Word) : d.writeSnapSel v = ({ d with lantern := { d.lantern with snapSel := some (v.setWidth 16) } }, stOk) := by
  simp only [Dev.writeSnapSel, Dev.updLantern, fld_zero]

end Sys2Proof.Machine

open Sys2Proof Sys2Proof.Machine

/-- Settles O51: a read answers what `Dev.readAll` collects from its words, and the records of a LOG_READ are those of
    `Lantern.readFrom_spec`. -/
theorem readsAnswerWhatStands : Obligations.ReadsAnswerWhatStands := by
  refine ⟨?reads, Lantern.readFrom_spec, ?log⟩
  case reads =>
    intro s t a n d xs reads hl
    have hread : ∀ ha : d.asked (.read t a) = true, (d.sys.bootHold = true → heldRead a.toNat = true) → readable a.toNat = true →
        reads (.read t a) (d.wordAt s.mem a.toNat).2 (leBytes 4 (d.wordAt s.mem a.toNat).1.toNat) := by
      intro ha hb hr
      refine exec_read_next hl ha ?_
      rw [Dev.readHost_ok s.mem (by simpa using hb) (by simp [oneRange_singleton, hr]), Dev.readAll_one]
    refine ⟨fun ha hb hh => ?_, fun ha hb hr => ?_, fun ha hb hr => ⟨fun lo => ?_, fun lo hi => ?_, fun lo => ?_⟩, ?_, ?_, ?_⟩
    · exact exec_read_next hl ha (Dev.readHost_held s.mem hb (by simpa using hh))
    · exact exec_read_next hl ha (Dev.readHost_badAddr s.mem (by simpa using hb) (by simp [hr]))
    · have := hread ha hb hr
      simpa [Dev.wordAt, lo] using this
    · have := hread ha hb hr
      simpa [Dev.wordAt, Dev.scratchWord, Nat.not_lt.2 lo, hi] using this
    · have hscratch : ¬a.toNat < scratchBase := by simp only [scratchBase, bank3Base] at *; omega
      have hframe : d.onlyIn (d.wordAt s.mem a.toNat).2 [.free] := by
        unfold Dev.wordAt
        rw [if_neg hscratch]
        exact d.scratchWord_onlyIn s.mem a.toNat
      exact ⟨_, _, hread ha hb hr, leBytes_length .., hframe⟩
    · exact fun ha hn => exec_readBurst_badCount hl ha hn
    · intro ha h1 h2 hb
      refine ⟨fun hx => exec_readBurst_next hl ha h1 h2 (Dev.readHost_badAddr s.mem hb hx), fun hx => ?_⟩
      have hburst := exec_readBurst_next hl ha h1 h2 (Dev.readHost_ok s.mem hb hx)
      obtain ⟨hlen, hframe⟩ := Dev.readAll_spec s.mem (burstAddrs a.toNat n.toNat) d
      refine ⟨⟨_, _, hburst, by simpa [burstAddrs] using hlen, hframe⟩, fun hplain => ?_⟩
      rw [Dev.readAll_plain s.mem d _ hplain] at hburst
      exact hburst
    · rintro ha rfl rfl
      have hxs : burstAddrs (0x001008 : Addr).toNat (2 : Byte).toNat = [0x001008, 0x00100C] := rfl
      refine ⟨d.readTbLo, exec_readBurst_next hl ha (by decide) (by decide) ?_, ?_⟩
      · rw [hxs, Dev.readHost_ok s.mem (fun _ => by decide) (by decide), Dev.readAll_timeBase]
      · intro b hb
        cases b <;> simp_all [Dev.same, Dev.readTbLo]
  case log =>
    intro s t start v k d
    refine ⟨fun hl ha => ⟨fun hk => exec_logRead_next hl ha (Dev.logRead_refused start hk),
      fun h1 h3 hb hs => exec_logRead_next hl ha (Dev.logRead_ok h1 h3 hb hs)⟩, fun hh => ?_, fun hh => ?_⟩
    · rw [exec_rselHiWrite, execRselHiWrite]
      exact State.hostWrite_next hh (Dev.writeRselHi_eq ..)
    · rw [exec_snapSelWrite, execSnapSelWrite]
      exact State.hostWrite_next hh (Dev.writeSnapSel_eq ..)

end

section
/-! SUPPORT. Reference periods and the valleys of the device reference. -/

namespace Sys2Proof.Machine

open Sys2Proof

/-! ## Frames of the record updates -/

theorem Dev.onlyIn_pwm (d : Dev) (x : Vector Pwm 64) : d.onlyIn { d with pwm := x } [.pwm] := fun b hb => by
  cases b <;> simp_all [Dev.same]

theorem Dev.onlyIn_pwmg (d : Dev) (x : Pwmg) : d.onlyIn { d with pwmg := x } [.pwmg] := fun b hb => by
  cases b <;> simp_all [Dev.same]

theorem Dev.onlyIn_chord (d : Dev) (x : Chord) : d.onlyIn { d with chord := x } [.chord] := fun b hb => by
  cases b <;> simp_all [Dev.same]

/-- Two steps that touch the same blocks touch no other. -/
theorem Dev.onlyIn_step {a b c : Dev} {bs : List Block} (h : a.onlyIn b bs) (k : b.onlyIn c bs) : a.onlyIn c bs :=
  Dev.onlyIn_mono (Dev.onlyIn_trans h k) (by simp)

/-- A loop whose step changes the component of its index alone: what it leaves of each component. -/
theorem foldl_component {σ ι α : Type} [DecidableEq ι] {P : σ → Prop} {get : σ → ι → α} {step : σ → ι → σ} {f : ι → α → α}
    (keeps : ∀ s i, P s → P (step s i)) (same : ∀ s i, P s → get (step s i) i = f i (get s i))
    (other : ∀ s i j, P s → j ≠ i → get (step s i) j = get s j) :
    ∀ (xs : List ι), xs.Nodup → ∀ s, P s → P (xs.foldl step s) ∧ ∀ i, get (xs.foldl step s) i = if i ∈ xs then f i (get s i) else get s i
  | [], _, s, hs => ⟨hs, fun i => by simp⟩
  | x :: xs, hn, s, hs => by
    obtain ⟨hx, hn⟩ := List.nodup_cons.1 hn
    obtain ⟨hP, hget⟩ := foldl_component keeps same other xs hn (step s x) (keeps s x hs)
    refine ⟨hP, fun i => ?_⟩
    rw [List.foldl_cons, hget i]
    by_cases hi : i = x
    · subst hi
      simp [hx, same s i hs]
    · simp [hi, other s x i hs hi]

theorem allRails_nodup : allRails.Nodup := List.nodup_finRange 8

theorem mem_allRails (r : RailIx) : r ∈ allRails := List.mem_finRange r

/-! ## Writes of the periods (R187, R204) -/

theorem exec_rperWrite_next {s : State} {t : Tick} {r : RailIx} {v : Word} {d : Dev} {st : Byte}
    (hh : (s.dev.advance t).takesHost (.rperWrite t r v)) (h : (s.dev.advance t).writeRper r v = (d, st)) :
    exec (.rperWrite t r v) s = .next (s.after t (d.reply st)) := by
  rw [exec_rperWrite, execRperWrite]
  exact State.hostWrite_next hh h

theorem exec_syncPerWrite_next {s : State} {t : Tick} {v : Word} {d : Dev} {st : Byte}
    (hh : (s.dev.advance t).takesHost (.syncPerWrite t v)) (h : (s.dev.advance t).writeSyncPer v = (d, st)) :
    exec (.syncPerWrite t v) s = .next (s.after t (d.reply st)) := by
  rw [exec_syncPerWrite, execSyncPerWrite]
  exact State.hostWrite_next hh h

theorem Dev.writeRper_locked {d : Dev} {r : RailIx} (v : Word) (h : d.rails[r].mode ≠ .off) : d.writeRper r v = (d, stLocked) := by
  have hm : (d.mode r != .off) = true := bne_iff_ne.2 h
  unfold Dev.writeRper
  dsimp only
  rw [if_pos hm]

theorem Dev.writeRper_off {d : Dev} {r : RailIx} (v : Word) (h : d.rails[r].mode = .off) : d.writeRper r v =
    if (v.setWidth 16).toNat < 120 then (d, stState)
    else ({ d with pwmg := { d.pwmg with
      rper := d.pwmg.rper.set r (v.setWidth 16)
      refs := d.pwmg.refs.set r (if d.pwmg.refs[r].running then { d.pwmg.refs[r] with pend := some (v.setWidth 16) } else { d.pwmg.refs[r] with per := v.setWidth 16 }) } }, stOk) := by
  have hm : ¬(d.mode r != .off) = true := by simpa [Dev.mode] using h
  unfold Dev.writeRper
  dsimp only
  rw [if_neg hm, fld_zero]
  rfl

theorem Dev.writeSyncPer_locked {d : Dev} (v : Word) (h : d.sys.devState = .run) : d.writeSyncPer v = (d, stLocked) := if_pos h

theorem Dev.writeSyncPer_idle {d : Dev} (v : Word) (h : d.sys.devState ≠ .run) : d.writeSyncPer v =
    if (v.setWidth 16).toNat < 120 then (d, stState)
    else ({ d with pwmg := { d.pwmg with
      syncPer := v.setWidth 16
      dev := if d.pwmg.dev.running then { d.pwmg.dev with pend := some (v.setWidth 16) } else { d.pwmg.dev with per := v.setWidth 16 } } }, stOk) := by
  unfold Dev.writeSyncPer
  dsimp only
  rw [if_neg h, fld_zero]

/-! ## A valley of the device reference (R186, R201, R204) -/

/-- What a valley of the device reference makes of the reference of rail `r`. -/
def RefCarrier.atDevice (g : Pwmg) (changed : Bool) (r : RailIx) (x : RefCarrier) : RefCarrier :=
  if x.startDue then { x with running := true, startDue := false, per := g.rper[r], valley := g.dev.valley, down := false, first := true }
  else if x.holding then { x with holding := false, valley := g.dev.valley, down := false, first := true }
  else if changed && x.running then { x with alignDue := x.per == g.dev.per } else x

@[simp] theorem RefCarrier.atDevice_exts (g : Pwmg) (changed : Bool) (r : RailIx) (x : RefCarrier) : (RefCarrier.atDevice g changed r x).exts = x.exts := by
  unfold RefCarrier.atDevice
  split_ifs <;> rfl

theorem Dev.place_onlyIn (d : Dev) (r : RailIx) (n : PhaseIx) : d.onlyIn (d.place r n) [.pwm] := d.onlyIn_pwm _

theorem Dev.placeMembers_onlyIn (d : Dev) (r : RailIx) (old : RefCarrier) : d.onlyIn (d.placeMembers r old) [.pwm] := by
  refine Dev.onlyIn_foldl _ (fun d n => ?_) _ d
  dsimp only
  split
  · exact d.place_onlyIn r n
  · exact d.onlyIn_pwm _

theorem Dev.refAtDevice_pwmg (d : Dev) (changed : Bool) (r : RailIx) : (d.refAtDevice changed r).pwmg =
    { d.pwmg with refs := d.pwmg.refs.set r (RefCarrier.atDevice d.pwmg changed r d.pwmg.refs[r]) } := by
  unfold Dev.refAtDevice RefCarrier.atDevice
  dsimp only
  split
  · rfl
  · split
    · exact Dev.placeMembers_onlyIn _ _ _ .pwmg (by simp)
    · split
      · rfl
      · simp

theorem Dev.refAtDevice_onlyIn (d : Dev) (changed : Bool) (r : RailIx) : d.onlyIn (d.refAtDevice changed r) [.pwm, .pwmg] := by
  have hset : ∀ x, d.onlyIn { d with pwmg := x } [.pwm, .pwmg] := fun x => Dev.onlyIn_mono (d.onlyIn_pwmg x) (by simp)
  unfold Dev.refAtDevice
  dsimp only
  split
  · exact hset _
  · split
    · exact Dev.onlyIn_step (hset _) (Dev.onlyIn_mono (Dev.placeMembers_onlyIn _ _ _) (by simp))
    · split
      · exact hset _
      · exact d.onlyIn_refl _

/-- `d'` has the clocks of the references of `d`: the device reference and the periods written, and no other block moved but PWM. -/
def Dev.KeepsPeriods (d d' : Dev) : Prop :=
  d'.pwmg.dev = d.pwmg.dev ∧ d'.pwmg.rper = d.pwmg.rper ∧ d'.pwmg.syncPer = d.pwmg.syncPer ∧ d.onlyIn d' [.pwm, .pwmg]

theorem Dev.refAtDevice_all (d : Dev) (changed : Bool) : let d' := allRails.foldl (fun d r => d.refAtDevice changed r) d
    d.KeepsPeriods d' ∧ ∀ r : RailIx, d'.pwmg.refs[r] = RefCarrier.atDevice d.pwmg changed r d.pwmg.refs[r] := by
  have h := foldl_component (P := d.KeepsPeriods) (get := fun e r => e.pwmg.refs[r]) (step := fun e r => e.refAtDevice changed r)
    (f := fun r x => RefCarrier.atDevice d.pwmg changed r x)
    (fun e r ⟨hd, hr, hs, hf⟩ => by
      rw [Dev.KeepsPeriods, Dev.refAtDevice_pwmg]
      exact ⟨hd, hr, hs, Dev.onlyIn_step hf (e.refAtDevice_onlyIn changed r)⟩)
    (fun e r ⟨hd, hr, _, _⟩ => by
      simp [Dev.refAtDevice_pwmg, RefCarrier.atDevice, hd, hr])
    (fun e r k _ hk => by
      have hv : r.val ≠ k.val := fun he => hk (Fin.ext he.symm)
      simp [Dev.refAtDevice_pwmg, hv])
    allRails allRails_nodup d ⟨rfl, rfl, rfl, d.onlyIn_refl _⟩
  exact ⟨h.1, fun r => by simpa [mem_allRails] using h.2 r⟩

/-! ## Chord's correction of a valley (R496, R497) -/

/-- A reference but for the corrections that Chord has made to it. -/
def RefCarrier.bare (x : RefCarrier) : RefCarrier := { x with exts := [] }

theorem RefCarrier.eq_of_bare {x y : RefCarrier} (h : x.bare = y.bare) : { x with exts := y.exts } = y :=
  congrArg (fun z : RefCarrier => { z with exts := y.exts }) h

/-- `d'` differs from `d` in the corrections of its references, and in the blocks that a correction writes. -/
def Dev.CorrectsOnly (d d' : Dev) : Prop :=
  d'.pwmg.dev.bare = d.pwmg.dev.bare ∧ (∀ r : RailIx, d'.pwmg.refs[r].bare = d.pwmg.refs[r].bare) ∧ d'.pwmg.rper = d.pwmg.rper ∧
    d'.pwmg.syncPer = d.pwmg.syncPer ∧ d.onlyIn d' [.pwm, .pwmg, .fault, .chord]

theorem Dev.correctsOnly_refl (d : Dev) : d.CorrectsOnly d := ⟨rfl, fun _ => rfl, rfl, rfl, d.onlyIn_refl _⟩

theorem Dev.CorrectsOnly.trans {a b c : Dev} (h : a.CorrectsOnly b) (k : b.CorrectsOnly c) : a.CorrectsOnly c := by
  obtain ⟨hdev, hrefs, hrper, hsync, hframe⟩ := h
  obtain ⟨kdev, krefs, krper, ksync, kframe⟩ := k
  exact ⟨kdev.trans hdev, fun r => (krefs r).trans (hrefs r), krper.trans hrper, ksync.trans hsync, Dev.onlyIn_step hframe kframe⟩

/-- A step outside the references corrects none. -/
theorem Dev.correctsOnly_of_onlyIn {d d' : Dev} (h : d.onlyIn d' [.pwm, .fault, .chord]) : d.CorrectsOnly d' := by
  have hg : d'.pwmg = d.pwmg := h .pwmg (by simp)
  exact ⟨by rw [hg], fun r => by rw [hg], by rw [hg], by rw [hg], Dev.onlyIn_mono h (by simp)⟩

theorem Dev.chordCauses_onlyIn (d : Dev) : d.onlyIn d.chordCauses [.fault] :=
  Dev.onlyIn_step (Dev.onlyIn_step (d.setCause_onlyIn _ _ _ _) (Dev.setCause_onlyIn _ _ _ _ _))
    (Dev.onlyIn_foldl _ (fun d _ => d.setCause_onlyIn _ _ _ _) _ _)

/-- The correction of one aligned rail: of its reference, and of its aligned members. -/
theorem Dev.extendRef_correctsOnly (d : Dev) (r : RailIx) (at_ : Tick) (x : Int) (ns : List PhaseIx) :
    d.CorrectsOnly (ns.foldl (fun d n => if d.aligned n then d.updPwm n fun p => { p with corr := p.corr + x } else d)
      { d with pwmg := { d.pwmg with refs := upd d.pwmg.refs r fun c => c.extend at_ x } }) := by
  have hext : d.CorrectsOnly { d with pwmg := { d.pwmg with refs := upd d.pwmg.refs r fun c => c.extend at_ x } } := by
    refine ⟨rfl, fun k => ?_, rfl, rfl, Dev.onlyIn_mono (d.onlyIn_pwmg _) (by simp)⟩
    by_cases hk : k = r
    · subst hk; simp [RefCarrier.bare, RefCarrier.extend]
    · simp [hk]
  refine hext.trans (Dev.correctsOnly_of_onlyIn (Dev.onlyIn_foldl _ (fun d n => ?_) _ _))
  split
  · exact Dev.onlyIn_mono (d.onlyIn_pwm _) (by simp)
  · exact d.onlyIn_refl _

theorem Dev.correctsOnly_foldl {α : Type} (f : Dev → α → Dev) (h : ∀ (d : Dev) (x : α), d.CorrectsOnly (f d x)) :
    ∀ (xs : List α) (d : Dev), d.CorrectsOnly (xs.foldl f d)
  | [], d => d.correctsOnly_refl
  | x :: xs, d => (h d x).trans (Dev.correctsOnly_foldl f h xs (f d x))

theorem Dev.carrySync_correctsOnly (d : Dev) : d.CorrectsOnly d.carrySync := by
  unfold Dev.carrySync
  dsimp only
  generalize (if d.chord.free = true then _ else d.chord.corr) = x
  have hchord : ∀ c, d.CorrectsOnly { d with chord := c } := fun c => Dev.correctsOnly_of_onlyIn (Dev.onlyIn_mono (d.onlyIn_chord c) (by simp))
  have hdev : ∀ e : Dev, e.CorrectsOnly { e with pwmg := { e.pwmg with dev := e.pwmg.dev.extend e.pwmg.dev.valley x } } := fun e =>
    ⟨rfl, fun _ => rfl, rfl, rfl, Dev.onlyIn_mono (e.onlyIn_pwmg _) (by simp)⟩
  split
  · exact d.correctsOnly_refl
  · refine Dev.CorrectsOnly.trans ?_ (Dev.correctsOnly_of_onlyIn (Dev.onlyIn_mono (Dev.chordCauses_onlyIn _) (by simp)))
    refine Dev.CorrectsOnly.trans (Dev.CorrectsOnly.trans ?_ (hdev _)) (Dev.correctsOnly_foldl _ (fun e r => ?_) _ _)
    · split <;> exact hchord _
    · split
      · exact e.extendRef_correctsOnly r _ x _
      · exact e.correctsOnly_refl

/-- Without a correction to make nothing is corrected. -/
theorem Dev.carrySync_none {d : Dev} (hf : d.chord.free = false) (hc : d.chord.corr = 0) : d.carrySync = d := by
  simp [Dev.carrySync, hf, hc]

/-! ## The valley as a whole -/

/-- The device as a due valley of the device reference finds it, the new period begun. -/
def Dev.beginPeriod (d : Dev) : Dev :=
  let dev := d.pwmg.dev.sync d.clk.now
  { d with pwmg := { d.pwmg with dev := { dev with valley := if dev.first then dev.valley else d.clk.now, first := false, per := dev.pend.getD dev.per, pend := none } } }

theorem Dev.deviceValley_idle {d : Dev} (h : d.pwmg.dev.running = false ∨ d.pwmg.dev.due d.clk.now false = false) : d.deviceValley = d := by
  unfold Dev.deviceValley
  rw [if_pos]
  rcases h with h | h <;> simp [h]

theorem Dev.deviceValley_due {d : Dev} (hr : d.pwmg.dev.running = true) (hd : d.pwmg.dev.due d.clk.now false = true) :
    d.deviceValley = (allRails.foldl (fun e r => e.refAtDevice
      ((d.pwmg.dev.sync d.clk.now).pend.getD (d.pwmg.dev.sync d.clk.now).per != (d.pwmg.dev.sync d.clk.now).per) r) d.beginPeriod).carrySync := by
  unfold Dev.deviceValley
  rw [if_neg (by simp [hr, hd])]
  rfl

end Sys2Proof.Machine

open Sys2Proof Sys2Proof.Machine

/-- Settles O28: a write by the cases of its register, a valley by `Dev.refAtDevice_all`, the correction that follows changing nothing
    of a reference but its corrections. -/
theorem referencePeriodsChangeAtValleys : Obligations.ReferencePeriodsChangeAtValleys := by
  refine ⟨?rper, ?syncPer, ?valley⟩
  case rper =>
    intro s t r v d per x hh
    refine ⟨fun hm => ?_, fun hm hp => ?_, fun hm hp => ?_⟩
    · exact exec_rperWrite_next hh (Dev.writeRper_locked v hm)
    · exact exec_rperWrite_next hh ((Dev.writeRper_off v hm).trans (if_pos hp))
    · exact exec_rperWrite_next hh ((Dev.writeRper_off v hm).trans (if_neg (Nat.not_lt.2 hp)))
  case syncPer =>
    intro s t v d per x hh
    refine ⟨fun hm => ?_, fun hm hp => ?_, fun hm hp => ?_⟩
    · exact exec_syncPerWrite_next hh (Dev.writeSyncPer_locked v hm)
    · exact exec_syncPerWrite_next hh ((Dev.writeSyncPer_idle v hm).trans (if_pos hp))
    · exact exec_syncPerWrite_next hh ((Dev.writeSyncPer_idle v hm).trans (if_neg (Nat.not_lt.2 hp)))
  case valley =>
    intro s t d dev per v plain halive
    refine ⟨fun h => ?_, fun hr hd => ?_⟩
    · exact State.runLive_next halive (Dev.deviceValley_idle h)
    · obtain ⟨⟨hdev, hrper, hsync, hframe⟩, hrefs⟩ := d.beginPeriod.refAtDevice_all (per != dev.per)
      have hcarry := (allRails.foldl (fun e r => e.refAtDevice (per != dev.per) r) d.beginPeriod).carrySync_correctsOnly
      set e := allRails.foldl (fun e r => e.refAtDevice (per != dev.per) r) d.beginPeriod
      obtain ⟨cdev, crefs, crper, csync, cframe⟩ := hcarry
      have hbegin : d.onlyIn d.beginPeriod [.pwmg] := d.onlyIn_pwmg _
      refine ⟨e.carrySync, State.runLive_next halive (Dev.deviceValley_due hr hd), ?_, fun r => ?_, fun hf hc => ?_, ?_, ?_, ?_⟩
      · rw [hdev] at cdev
        exact RefCarrier.eq_of_bare cdev
      · have hr' : e.carrySync.pwmg.refs[r].bare = (RefCarrier.atDevice d.beginPeriod.pwmg (per != dev.per) r d.pwmg.refs[r]).bare :=
          (crefs r).trans (congrArg RefCarrier.bare (hrefs r))
        have hplain := RefCarrier.eq_of_bare hr'
        rw [RefCarrier.atDevice_exts] at hplain
        refine hplain.trans ?_
        simp only [RefCarrier.atDevice, Bool.and_eq_true, bne_iff_ne]
        rfl
      · rw [Dev.carrySync_none ((congrArg Chord.free (hframe .chord (by simp))).trans hf) ((congrArg Chord.corr (hframe .chord (by simp))).trans hc)]
        refine ⟨(congrArg RefCarrier.exts hdev :), fun r => ?_, hframe .chord (by simp), hframe .fault (by simp)⟩
        rw [hrefs r, RefCarrier.atDevice_exts]
        rfl
      · exact crper.trans hrper
      · exact csync.trans hsync
      · exact Dev.onlyIn_mono (Dev.onlyIn_trans (Dev.onlyIn_trans hbegin hframe) cframe) (by simp)

end

section
/-! SUPPORT. Frames of what a rail command does, and the soft start of a rail. -/

namespace Sys2Proof.Machine

open Sys2Proof

/-! ## Composing frames -/

/-- A frame within a wider one. -/
theorem Dev.onlyIn.into {a b : Dev} {bs cs : List Block} (h : a.onlyIn b bs) (hs : bs ⊆ cs := by decide) : a.onlyIn b cs :=
  Dev.onlyIn_mono h fun _ hx => hs hx

/-- One step after another. -/
theorem Dev.onlyIn.andThen {a b c : Dev} {bs cs es : List Block} (h : a.onlyIn b bs) (k : b.onlyIn c cs) (hb : bs ⊆ es := by decide)
    (hc : cs ⊆ es := by decide) : a.onlyIn c es := Dev.onlyIn_step (h.into hb) (k.into hc)

/-- A step within the frame of those before it. -/
theorem Dev.onlyIn.thenIn {a b c : Dev} {bs cs : List Block} (h : a.onlyIn b bs) (k : b.onlyIn c cs) (hs : cs ⊆ bs := by decide) : a.onlyIn c bs :=
  Dev.onlyIn_step h (k.into hs)

/-- A loop whose steps are all of a relation that composes. -/
theorem foldl_related {σ α : Type} {P : σ → σ → Prop} (hrefl : ∀ s, P s s) (htrans : ∀ {a b c}, P a b → P b c → P a c) {f : σ → α → σ}
    (hf : ∀ s x, P s (f s x)) : ∀ (xs : List α) (s : σ), P s (xs.foldl f s)
  | [], s => hrefl s
  | x :: xs, s => htrans (hf s x) (foldl_related hrefl htrans hf xs _)

/-- A step that is taken under a condition. -/
theorem Dev.onlyIn_ite {d a : Dev} {c : Prop} [Decidable c] {bs : List Block} (h : d.onlyIn a bs) : d.onlyIn (if c then a else d) bs := by
  split
  · exact h
  · exact d.onlyIn_refl _

theorem Dev.onlyIn_ite' {d a : Dev} {c : Prop} [Decidable c] {bs : List Block} (h : d.onlyIn a bs) : d.onlyIn (if c then d else a) bs := by
  split
  · exact d.onlyIn_refl _
  · exact h

theorem Dev.onlyIn_loop (d : Dev) (x : LoopEng) : d.onlyIn { d with loop := x } [.loop] := fun b hb => by
  cases b <;> simp_all [Dev.same]

theorem Dev.onlyIn_rails (d : Dev) (x : Vector Rail 8) : d.onlyIn { d with rails := x } [.rails] := fun b hb => by
  cases b <;> simp_all [Dev.same]

theorem Dev.onlyIn_prot (d : Dev) (x : Prot) : d.onlyIn { d with prot := x } [.prot] := fun b hb => by
  cases b <;> simp_all [Dev.same]

theorem Dev.onlyIn_sp (d : Dev) (x : SetPt) : d.onlyIn { d with sp := x } [.sp] := fun b hb => by
  cases b <;> simp_all [Dev.same]

theorem Dev.onlyIn_ports (d : Dev) (x : Vector Port 4) : d.onlyIn { d with ports := x } [.ports] := fun b hb => by
  cases b <;> simp_all [Dev.same]

theorem Dev.onlyIn_leave (d : Dev) (x : Leave) : d.onlyIn { d with leave := x } [.leave] := fun b hb => by
  cases b <;> simp_all [Dev.same]

theorem Dev.onlyIn_free (d : Dev) (x : Nat) : d.onlyIn { d with free := x } [.free] := fun b hb => by
  cases b <;> simp_all [Dev.same]

/-- The bookkeeping of the present LOOP_CLK cycle is no block. -/
theorem Dev.onlyIn_of_cyc {d d' : Dev} {x : Cyc} {bs : List Block} (h : ({ d with cyc := x } : Dev).onlyIn d' bs) : d.onlyIn d' bs :=
  fun b hb => by cases b <;> exact h _ hb

theorem Dev.updPwm_onlyIn (d : Dev) (n : PhaseIx) (f : Pwm → Pwm) : d.onlyIn (d.updPwm n f) [.pwm] := d.onlyIn_pwm _
theorem Dev.updRail_onlyIn (d : Dev) (r : RailIx) (f : Rail → Rail) : d.onlyIn (d.updRail r f) [.rails] := d.onlyIn_rails _
theorem Dev.updCtx_onlyIn (d : Dev) (c : CtxIx) (f : Ctx → Ctx) : d.onlyIn (d.updCtx c f) [.loop] := d.onlyIn_loop _
theorem Dev.updTrip_onlyIn (d : Dev) (n : PhaseIx) (f : Trip → Trip) : d.onlyIn (d.updTrip n f) [.prot] := d.onlyIn_prot _
theorem Dev.updWin_onlyIn (d : Dev) (r : RailIx) (f : Win → Win) : d.onlyIn (d.updWin r f) [.prot] := d.onlyIn_prot _
theorem Dev.updSp_onlyIn (d : Dev) (r : RailIx) (f : Sp → Sp) : d.onlyIn (d.updSp r f) [.sp] := d.onlyIn_sp _
theorem Dev.updPort_onlyIn (d : Dev) (p : PortIx) (f : Port → Port) : d.onlyIn (d.updPort p f) [.ports] := d.onlyIn_ports _

/-! ## Phases: masks, starts, HOST_OVR and targets -/

theorem Dev.setMask_onlyIn (d : Dev) (n : PhaseIx) (f : MaskBits → MaskBits) : d.onlyIn (d.setMask n f) [.pwm] := by
  unfold Dev.setMask
  dsimp only
  split
  · exact d.updPwm_onlyIn n _
  · exact Dev.onlyIn_of_cyc (Dev.updPwm_onlyIn _ n _)

theorem Dev.endStart_onlyIn (d : Dev) (n : PhaseIx) : d.onlyIn (d.endStart n) [.pwm, .leave] :=
  ((d.onlyIn_leave _).andThen (Dev.onlyIn_leave _ _) (es := [.leave])).andThen (Dev.updPwm_onlyIn _ n _)

theorem Dev.endHostOvr_onlyIn (d : Dev) (n : PhaseIx) : d.onlyIn (d.endHostOvr n) [.pwm, .leave] :=
  Dev.onlyIn_ite (((d.endStart_onlyIn n).andThen (Dev.updPwm_onlyIn _ n _) (es := [.pwm, .leave])).andThen (Dev.setMask_onlyIn _ n _))

theorem Dev.endHostOvrRail_onlyIn (d : Dev) (r : RailIx) : d.onlyIn (d.endHostOvrRail r) [.pwm, .leave] :=
  Dev.onlyIn_foldl _ Dev.endHostOvr_onlyIn _ d

theorem Dev.shedAll_onlyIn (d : Dev) (r : RailIx) : d.onlyIn (d.shedAll r) [.pwm, .leave] := by
  refine Dev.onlyIn_foldl _ (fun d n => ?_) _ d
  split
  · exact (d.setMask_onlyIn n _).andThen (Dev.endStart_onlyIn _ n)
  · exact d.endStart_onlyIn n

theorem Dev.unshedHost_onlyIn (d : Dev) (r : RailIx) : d.onlyIn (d.unshedHost r) [.pwm] :=
  Dev.onlyIn_foldl _ (fun d n => Dev.onlyIn_ite (d.setMask_onlyIn n _)) _ d

theorem Dev.markShed_onlyIn (d : Dev) (n : PhaseIx) : d.onlyIn (d.markShed n) [.pwm, .leave] :=
  (d.setMask_onlyIn n _).andThen (Dev.endStart_onlyIn _ n)

theorem Dev.shedOne_onlyIn (d : Dev) (n : PhaseIx) : d.onlyIn (d.shedOne n) [.pwm, .leave, .fault] :=
  (d.markShed_onlyIn n).andThen (Dev.event_onlyIn _ _)

/-- A re-spread writes the rail's spread and its members' targets: what holds of such writes, and composes, holds of it. -/
theorem Dev.respread_related {P : Dev → Dev → Prop} (hrefl : ∀ e, P e e) (htrans : ∀ {a b c}, P a b → P b c → P a c) (d : Dev) (r : RailIx)
    (hrail : ∀ (e : Dev) (w : BitVec 64), P e (e.updRail r fun x => { x with spread := w }))
    (hpwm : ∀ (e : Dev) (n : PhaseIx) (a : BitVec 16), P e (e.updPwm n fun p => { p with arcTgt := a })) : P d (d.respread r) := by
  have hhome := htrans (hrail d (maskOf 64 fun n : PhaseIx => (d.active r).contains n))
    (foldl_related hrefl htrans (fun e n => hpwm e n (e.imageArc n)) (d.members r) _)
  unfold Dev.respread
  dsimp only
  split
  · exact hhome
  · split
    · exact hhome
    · exact htrans hhome (foldl_related (α := PhaseIx × Nat) hrefl htrans (fun e x => hpwm e x.1 _) _ _)

theorem Dev.respread_onlyIn (d : Dev) (r : RailIx) : d.onlyIn (d.respread r) [.rails, .pwm] :=
  Dev.respread_related (P := fun d d' : Dev => d.onlyIn d' [.rails, .pwm]) (fun e => e.onlyIn_refl _) Dev.onlyIn_step d r (fun e _ => (e.updRail_onlyIn r _).into) fun e n _ => (e.updPwm_onlyIn n _).into

theorem Dev.withdrawAdd_onlyIn (d : Dev) (r : RailIx) : d.onlyIn (d.withdrawAdd r) [.leave, .rails] := by
  unfold Dev.withdrawAdd
  split
  · exact (d.onlyIn_leave _).andThen (Dev.updRail_onlyIn _ r _)
  · exact d.onlyIn_refl _

theorem Dev.checkUnderphased_onlyIn (d : Dev) (r : RailIx) : d.onlyIn (d.checkUnderphased r) [.fault] := by
  unfold Dev.checkUnderphased
  exact Dev.onlyIn_ite' (d.setCause_onlyIn _ _ _ _)

/-! ## Contexts and Sectors -/

theorem Dev.preload_onlyIn (d : Dev) (c : CtxIx) (k : Nat) (p : Option Int) (slew : Bool) : d.onlyIn (d.preload c k p slew) [.loop] := by
  unfold Dev.preload
  split
  · exact d.onlyIn_refl _
  · dsimp only
    split <;> split <;> exact Dev.onlyIn_of_cyc (Dev.updCtx_onlyIn _ c _)

theorem Dev.takeSector_onlyIn (d : Dev) (c : CtxIx) (w : Fin 8) : d.onlyIn (d.takeSector c w) [.loop, .fault] :=
  ((d.updCtx_onlyIn c _).andThen (Dev.event_onlyIn _ _) (es := [.loop, .fault])).andThen (Dev.preload_onlyIn _ _ _ _ _)

theorem Dev.evalNow_onlyIn (d : Dev) (c : CtxIx) : d.onlyIn (d.evalNow c) [.loop, .fault] := by
  have hupd := (d.updCtx_onlyIn c fun x => { x with noMatch := (d.winnerOf c).isNone, candidate := none, wins := 0 }).into (cs := [.loop, .fault])
  unfold Dev.evalNow
  dsimp only
  split
  · split
    · exact hupd
    · exact hupd.andThen (Dev.takeSector_onlyIn _ _ _)
  · split
    · exact hupd.andThen (Dev.takeSector_onlyIn _ _ _)
    · exact hupd

theorem Dev.wakeCtx_onlyIn (d : Dev) (c : CtxIx) : d.onlyIn (d.wakeCtx c) [.loop, .fault] :=
  (d.updCtx_onlyIn c _).andThen (Dev.evalNow_onlyIn _ c)

theorem Dev.idleCtx_onlyIn (d : Dev) (c : CtxIx) : d.onlyIn (d.idleCtx c) [.loop] :=
  (d.updCtx_onlyIn c _).andThen (Dev.onlyIn_loop _ _)

theorem Dev.syncCtx_onlyIn (d : Dev) (r : RailIx) : d.onlyIn (d.syncCtx r) [.loop, .fault] := by
  refine Dev.onlyIn_foldl _ (fun d c => ?_) _ d
  dsimp only
  split
  · exact d.wakeCtx_onlyIn c
  · exact Dev.onlyIn_ite (d.idleCtx_onlyIn c).into

theorem Dev.evalRail_onlyIn (d : Dev) (r : RailIx) : d.onlyIn (d.evalRail r) [.loop, .fault] :=
  Dev.onlyIn_foldl _ (fun d c => Dev.onlyIn_ite (d.evalNow_onlyIn c)) _ d

theorem Dev.fit_onlyIn (d : Dev) (x : Int) : d.onlyIn (d.fit x).2 [.free] := by
  unfold Dev.fit
  split
  · exact d.onlyIn_refl _
  · exact d.onlyIn_free _

theorem Dev.setRef_onlyIn (d : Dev) (c : CtxIx) (v : Int) : d.onlyIn (d.setRef c v) [.loop, .free] :=
  (d.fit_onlyIn v).andThen (Dev.updCtx_onlyIn _ c _)

/-! ## Thresholds, ports and mode changes -/

theorem Dev.switchTrips_onlyIn (d : Dev) (r : RailIx) : d.onlyIn (d.switchTrips r) [.prot] :=
  Dev.onlyIn_foldl _ (fun d n => d.updTrip_onlyIn n _) _ d

theorem Dev.clearTrips_onlyIn (d : Dev) (r : RailIx) : d.onlyIn (d.clearTrips r) [.prot, .fault] :=
  Dev.onlyIn_foldl _ (fun d n => (d.updTrip_onlyIn n _).andThen (Dev.setCause_onlyIn _ _ _ _ _)) _ d

theorem Dev.railDiv_onlyIn (d : Dev) (r : RailIx) : d.onlyIn (d.railDiv r) [.loop, .fault] := by
  unfold Dev.railDiv
  split
  · exact d.onlyIn_refl _
  · dsimp only
    split
    · exact (d.event_onlyIn _).andThen (Dev.onlyIn_loop _ _)
    · exact (d.onlyIn_loop _).into

theorem Dev.startDiv_onlyIn (d : Dev) (r : RailIx) : d.onlyIn (d.startDiv r) [.loop, .fault] := by
  unfold Dev.startDiv
  dsimp only
  split
  · exact (d.onlyIn_loop _).andThen (Dev.railDiv_onlyIn _ r)
  · exact (d.onlyIn_loop _).into

theorem Dev.wickExpire_onlyIn (d : Dev) (p : PortIx) (t : Tick) : d.onlyIn (d.wickExpire p t) [.ports, .fault] := by
  unfold Dev.wickExpire
  dsimp only
  split
  · exact Dev.onlyIn_ite ((d.updPort_onlyIn p _).andThen (Dev.onlyIn_of_cyc (Dev.setCause_onlyIn _ _ _ _ _)))
  · exact d.onlyIn_refl _

theorem Dev.relight_onlyIn (d : Dev) (p : PortIx) : d.onlyIn (d.relight p) [.ports, .fault] :=
  ((d.wickExpire_onlyIn p _).andThen (Dev.updPort_onlyIn _ p _) (es := [.ports, .fault])).andThen (Dev.setCause_onlyIn _ _ _ _ _)

theorem Dev.railLeftOff_onlyIn (d : Dev) : d.onlyIn d.railLeftOff [.sys, .lantern, .fault] := Dev.onlyIn_ite (d.setState_onlyIn _)

theorem Dev.railWentOff_onlyIn (d : Dev) : d.onlyIn d.railWentOff [.sys, .lantern, .fault] := Dev.onlyIn_ite (d.setState_onlyIn _)

theorem Dev.leftOff_onlyIn (d : Dev) (r : RailIx) : d.onlyIn (d.leftOff r) [.sys, .lantern, .fault, .ports] := by
  unfold Dev.leftOff
  dsimp only
  split
  · exact (d.relight_onlyIn _).andThen (Dev.railLeftOff_onlyIn _)
  · exact d.railLeftOff_onlyIn.into

/-! ## The mode field, and what follows a change of it -/

/-- A step that leaves a block alone. -/
theorem Dev.onlyIn.rails_eq {d d' : Dev} {bs : List Block} (h : d.onlyIn d' bs) (hb : Block.rails ∉ bs := by decide) : d'.rails = d.rails := h .rails hb

theorem Dev.setRt_onlyIn (d : Dev) (r : RailIx) : d.onlyIn (d.setRt r) [.prot] := d.updWin_onlyIn r _

theorem Dev.setUv_onlyIn (d : Dev) (r : RailIx) : d.onlyIn (d.setUv r) [.prot] := d.updWin_onlyIn r _

/-- A mode change up to its record in the rail. -/
def Dev.putMode (d : Dev) (r : RailIx) (m : RailMode) : Dev :=
  let old := d.mode r
  let keeps := (old == .regulate || old == .ember) && (m == .regulate || m == .ember)
  let stays := m == .regulate || m == .ember
  let d := if old == .off && m != .off then d.unshedHost r else d
  d.updRail r fun x => { x with mode := m, regSince := if keeps then x.regSince else if stays then some d.clk.now else none, oltEn := if old = .off then false else x.oltEn }

theorem Dev.putMode_onlyIn (d : Dev) (r : RailIx) (m : RailMode) : d.onlyIn (d.putMode r m) [.pwm, .rails] :=
  (Dev.onlyIn_ite (d.unshedHost_onlyIn r)).andThen (Dev.updRail_onlyIn _ r _)

/-- A mode change writes the rail's mode field and leaves the other rails alone. -/
theorem Dev.putMode_rails (d : Dev) (r : RailIx) (m : RailMode) :
    ∃ since olt, (d.putMode r m).rails = d.rails.set r { d.rails[r] with mode := m, regSince := since, oltEn := olt } := by
  have hpre : (if d.mode r == .off && m != .off then d.unshedHost r else d).rails = d.rails := (Dev.onlyIn_ite (d.unshedHost_onlyIn r)).rails_eq
  unfold Dev.putMode
  dsimp only
  rw [Dev.updRail_rails, hpre]
  exact ⟨_, _, rfl⟩

theorem Dev.putMode_changeMode (d : Dev) (r : RailIx) (m : RailMode) :
    (d.putMode r m).onlyIn (d.changeMode r m) [.pwm, .loop, .prot, .fault, .leave] := by
  have hswitch : ∀ (e : Dev) (c : Prop) [Decidable c], e.onlyIn (if c then e.switchTrips r else e) [.prot] := fun e c _ => Dev.onlyIn_ite (e.switchTrips_onlyIn r)
  have hdiv : ∀ (e : Dev) (c : Prop) [Decidable c], e.onlyIn (if c then e.startDiv r else e) [.loop, .fault] := fun e c _ => Dev.onlyIn_ite (e.startDiv_onlyIn r)
  have hovr : ∀ (e : Dev) (c : Prop) [Decidable c], e.onlyIn (if c then e.endHostOvrRail r else e) [.pwm, .leave] := fun e c _ => Dev.onlyIn_ite (e.endHostOvrRail_onlyIn r)
  have hctx : ∀ e : Dev, e.onlyIn (((e.syncCtx r).evalRail r).setRt r) [.loop, .fault, .prot] := fun e =>
    ((e.syncCtx_onlyIn r).andThen (Dev.evalRail_onlyIn _ r) (es := [.loop, .fault])).andThen (Dev.setRt_onlyIn _ r)
  exact (((hswitch _ _).andThen (hdiv _ _) (es := [.prot, .loop, .fault])).andThen (hovr _ _) (es := [.pwm, .loop, .prot, .fault, .leave])).andThen (hctx _)

theorem Dev.changeMode_onlyIn (d : Dev) (r : RailIx) (m : RailMode) : d.onlyIn (d.changeMode r m) [.pwm, .rails, .loop, .prot, .fault, .leave] :=
  (d.putMode_onlyIn r m).andThen (d.putMode_changeMode r m)

theorem Dev.changeMode_rails (d : Dev) (r : RailIx) (m : RailMode) :
    ∃ since olt, (d.changeMode r m).rails = d.rails.set r { d.rails[r] with mode := m, regSince := since, oltEn := olt } := by
  rw [(d.putMode_changeMode r m).rails_eq]
  exact d.putMode_rails r m

/-! ## The soft start of a rail (R315, R316, R319) -/

theorem Dev.preloadMembers_onlyIn (d : Dev) (r : RailIx) (x : Int) :
    d.onlyIn ((d.members r).foldl (fun d n => if d.loop.ctx[innerIx n].active then d.preload (innerIx n) hoMode (some x) false else d) d) [.loop] :=
  Dev.onlyIn_foldl _ (fun e _ => Dev.onlyIn_ite (e.preload_onlyIn _ _ _ _)) _ d

/-- Taking M0 writes nothing of a rail but the end of its wait. -/
theorem Dev.takeM0_after (d : Dev) (r : RailIx) (m0 : Int) :
    (d.updRail r fun x => { x with m0Wait := none }).onlyIn (d.takeM0 r m0) [.loop, .free, .sp, .fault, .prot] := by
  unfold Dev.takeM0
  extract_lets waited ref p target ctxs outer d0 inner
  have houter : ctxs.onlyIn outer [.loop] := Dev.onlyIn_ite (ctxs.preload_onlyIn _ _ _ _)
  have hwin : inner.onlyIn ((inner.setUv r).setRt r) [.prot] := Dev.onlyIn_step (inner.setUv_onlyIn r) (Dev.setRt_onlyIn _ r)
  exact (waited.setRef_onlyIn (outerIx r) m0).into.thenIn (ref.updSp_onlyIn r _) |>.thenIn (target.syncCtx_onlyIn r)
    |>.thenIn (Dev.evalRail_onlyIn _ r) |>.thenIn houter |>.thenIn (outer.preloadMembers_onlyIn r d0) |>.thenIn hwin

theorem Dev.takeM0_onlyIn (d : Dev) (r : RailIx) (m0 : Int) : d.onlyIn (d.takeM0 r m0) [.rails, .loop, .free, .sp, .fault, .prot] :=
  (d.updRail_onlyIn r _).andThen (d.takeM0_after r m0)

/-- The rail's mode, and all of the other rails. -/
def Dev.SameModes (d d' : Dev) (r : RailIx) : Prop := d'.rails[r].mode = d.rails[r].mode ∧ ∀ k : RailIx, k ≠ r → d'.rails[k] = d.rails[k]

theorem Dev.SameModes.trans {a b c : Dev} {r : RailIx} (h : a.SameModes b r) (k : b.SameModes c r) : a.SameModes c r :=
  ⟨k.1.trans h.1, fun j hj => (k.2 j hj).trans (h.2 j hj)⟩

theorem Dev.sameModes_of_onlyIn {d d' : Dev} {bs : List Block} (r : RailIx) (h : d.onlyIn d' bs) (hb : Block.rails ∉ bs := by decide) : d.SameModes d' r := by
  simp [Dev.SameModes, h.rails_eq hb]

theorem Dev.updRail_sameModes (d : Dev) (r : RailIx) (f : Rail → Rail) (h : (f d.rails[r]).mode = d.rails[r].mode) : d.SameModes (d.updRail r f) r :=
  ⟨by simpa using h, fun k hk => by simp [hk]⟩

/-- A device state that takes ON is STANDBY or RUN, and a rail's leaving OFF makes it RUN (R36). -/
theorem Dev.leftOff_running {d : Dev} (r : RailIx) (h : d.sys.devState = .standby ∨ d.sys.devState = .run) : (d.leftOff r).sys.devState = .run := by
  have hleft : ∀ e : Dev, e.sys = d.sys → e.railLeftOff.sys.devState = .run := fun e he => by
    unfold Dev.railLeftOff
    rcases h with h | h <;> simp [he, h, Dev.setState_sys]
  unfold Dev.leftOff
  dsimp only
  split
  · exact hleft _ (d.relight_onlyIn _ .sys (by decide))
  · exact hleft _ rfl

theorem Dev.enterRamp_fromOff {d : Dev} {r : RailIx} (hoff : d.rails[r].mode = .off) (hst : d.sys.devState = .standby ∨ d.sys.devState = .run) :
    (d.enterRamp r).rails[r].mode = .ramp ∧ (∀ k : RailIx, k ≠ r → (d.enterRamp r).rails[k] = d.rails[k]) ∧ (d.enterRamp r).sys.devState = .run ∧
      d.onlyIn (d.enterRamp r) [.sys, .pwm, .loop, .rails, .prot, .sp, .ports, .fault, .lantern, .leave, .free] := by
  unfold Dev.enterRamp
  extract_lets fromOff ramp left soft
  have hleft : left = ramp.leftOff r := if_pos (by simpa [fromOff, Dev.mode] using hoff)
  have hpre := d.updRail_onlyIn r fun x => { x with m0Wait := some 0, toffAt := none }
  have hramp : d.onlyIn ramp [.pwm, .rails, .loop, .prot, .fault, .leave] := hpre.into.thenIn (Dev.changeMode_onlyIn _ r .ramp)
  have hsoft : left.onlyIn soft [.rails, .loop, .free, .sp, .fault, .prot] ∧ left.SameModes soft r := by
    dsimp only [soft]
    split
    · exact ⟨left.takeM0_onlyIn r _, (left.updRail_sameModes r _ rfl).trans (Dev.sameModes_of_onlyIn r (left.takeM0_after r _))⟩
    · exact ⟨left.onlyIn_refl _, rfl, fun _ _ => rfl⟩
  have hlast := soft.checkUnderphased_onlyIn r
  have hafter : ramp.SameModes (soft.checkUnderphased r) r :=
    ((hleft ▸ Dev.sameModes_of_onlyIn r (ramp.leftOff_onlyIn r)).trans hsoft.2).trans (Dev.sameModes_of_onlyIn r hlast)
  obtain ⟨since, olt, hrails⟩ := (d.updRail r fun x => { x with m0Wait := some 0, toffAt := none }).changeMode_rails r .ramp
  refine ⟨?_, fun k hk => ?_, ?_, ?_⟩
  · rw [hafter.1, show ramp.rails = _ from hrails]
    simp
  · rw [hafter.2 k hk, show ramp.rails = _ from hrails]
    have hne : r.val ≠ k.val := fun h => hk (Fin.ext h.symm)
    simp [hne, hk]
  · have hsys : (soft.checkUnderphased r).sys = left.sys := (hsoft.1.thenIn hlast) .sys (by decide)
    rw [hsys, hleft]
    exact ramp.leftOff_running r (by rw [hramp .sys (by decide)]; exact hst)
  · exact (hramp.into.thenIn (hleft ▸ ramp.leftOff_onlyIn r)).thenIn hsoft.1 |>.thenIn hlast

end Sys2Proof.Machine

end

section
/-! SUPPORT. The stop of a rail by command. -/

namespace Sys2Proof.Machine

open Sys2Proof

/-! ## What the stop of a rail establishes stays (R319, R320, R322, R347)

    `d.KeepsStop d' r`: the step from `d` to `d'` leaves the other rails alone, and what a stop of `r` makes of the rail and of its members'
    masks and trips does not come back. -/

structure Dev.KeepsStop (d d' : Dev) (r : RailIx) : Prop where
  others : ∀ k : RailIx, k ≠ r → d'.rails[k] = d.rails[k]
  mode : d.rails[r].mode = .off → d'.rails[r].mode = .off
  flare : d.rails[r].flare = none → d'.rails[r].flare = none
  notice : d.rails[r].notice = none → d'.rails[r].notice = none
  shed : ∀ n : PhaseIx, d.pwm[n].mask.shed = true → d'.pwm[n].mask.shed = true
  trips : ∀ n : PhaseIx, d'.prot.trips[n].latch = false ∧ d'.prot.trips[n].count = 0 ∨
    d'.prot.trips[n].latch = d.prot.trips[n].latch ∧ d'.prot.trips[n].count = d.prot.trips[n].count

theorem Dev.KeepsStop.refl (d : Dev) (r : RailIx) : d.KeepsStop d r where
  others _ _ := rfl
  mode h := h
  flare h := h
  notice h := h
  shed _ h := h
  trips _ := Or.inr ⟨rfl, rfl⟩

theorem Dev.KeepsStop.trans {a b c : Dev} {r : RailIx} (h : a.KeepsStop b r) (k : b.KeepsStop c r) : a.KeepsStop c r where
  others j hj := (k.others j hj).trans (h.others j hj)
  mode := k.mode ∘ h.mode
  flare := k.flare ∘ h.flare
  notice := k.notice ∘ h.notice
  shed n := k.shed n ∘ h.shed n
  trips n := by
    rcases k.trips n with hk | ⟨hl, hc⟩
    · exact Or.inl hk
    · rw [hl, hc]
      exact h.trips n

theorem Dev.keepsStop_of_eq {d d' : Dev} (r : RailIx) (hr : d'.rails = d.rails) (hp : d'.pwm = d.pwm) (ht : d'.prot = d.prot) : d.KeepsStop d' r where
  others k _ := by rw [hr]
  mode := by rw [hr]; exact id
  flare := by rw [hr]; exact id
  notice := by rw [hr]; exact id
  shed n := by rw [hp]; exact id
  trips n := Or.inr (by rw [ht]; exact ⟨rfl, rfl⟩)

/-- A step that touches no rail, no phase and no comparator. -/
theorem Dev.keepsStop_of_onlyIn {d d' : Dev} {bs : List Block} (r : RailIx) (h : d.onlyIn d' bs) (hr : Block.rails ∉ bs := by decide)
    (hp : Block.pwm ∉ bs := by decide) (ht : Block.prot ∉ bs := by decide) : d.KeepsStop d' r :=
  Dev.keepsStop_of_eq r (h .rails hr) (h .pwm hp) (h .prot ht)

theorem Dev.keepsStop_ite {d a : Dev} {c : Prop} [Decidable c] {r : RailIx} (h : d.KeepsStop a r) : d.KeepsStop (if c then a else d) r := by
  split
  · exact h
  · exact .refl d r

theorem Dev.keepsStop_foldl {α : Type} {r : RailIx} (f : Dev → α → Dev) (h : ∀ (d : Dev) (x : α), d.KeepsStop (f d x) r) :
    ∀ (xs : List α) (d : Dev), d.KeepsStop (xs.foldl f d) r :=
  foldl_related (P := fun d d' : Dev => d.KeepsStop d' r) (fun d => .refl d r) .trans h

theorem Dev.updRail_keepsStop (d : Dev) (r : RailIx) (f : Rail → Rail) (hm : d.rails[r].mode = .off → (f d.rails[r]).mode = .off)
    (hf : d.rails[r].flare = none → (f d.rails[r]).flare = none) (hn : d.rails[r].notice = none → (f d.rails[r]).notice = none) :
    d.KeepsStop (d.updRail r f) r where
  others k hk := by simp [hk]
  mode := by simpa using hm
  flare := by simpa using hf
  notice := by simpa using hn
  shed _ h := h
  trips _ := Or.inr ⟨rfl, rfl⟩

theorem Dev.updPwm_keepsStop (d : Dev) (r : RailIx) (n : PhaseIx) (f : Pwm → Pwm) (hs : d.pwm[n].mask.shed = true → (f d.pwm[n]).mask.shed = true) :
    d.KeepsStop (d.updPwm n f) r where
  others _ _ := rfl
  mode h := h
  flare h := h
  notice h := h
  shed m h := by
    rcases eq_or_ne m n with rfl | hm
    · simpa using hs h
    · simpa [hm] using h
  trips _ := Or.inr ⟨rfl, rfl⟩

theorem Dev.updTrip_keepsStop (d : Dev) (r : RailIx) (n : PhaseIx) (f : Trip → Trip) (hf : (f d.prot.trips[n]).latch = false ∧ (f d.prot.trips[n]).count = 0 ∨
    (f d.prot.trips[n]).latch = d.prot.trips[n].latch ∧ (f d.prot.trips[n]).count = d.prot.trips[n].count) : d.KeepsStop (d.updTrip n f) r where
  others _ _ := rfl
  mode h := h
  flare h := h
  notice h := h
  shed _ h := h
  trips m := by
    rcases eq_or_ne m n with rfl | hm
    · simpa using hf
    · simp [hm]

/-! ## The bits of a mask -/

theorem Pwm.setMask_mask (p : Pwm) (now : Tick) (f : MaskBits → MaskBits) : (p.setMask now f).mask = f p.mask := by
  unfold Pwm.setMask
  dsimp only
  split <;> rfl

theorem Dev.setMask_pwm (d : Dev) (n : PhaseIx) (f : MaskBits → MaskBits) :
    ∃ e : Dev, d.setMask n f = e.updPwm n (fun p => p.setMask d.clk.now fun m => (f m).or (d.setNow n)) ∧ e.pwm = d.pwm ∧ e.rails = d.rails ∧ e.prot = d.prot := by
  unfold Dev.setMask
  dsimp only
  split
  · exact ⟨d, rfl, rfl, rfl, rfl⟩
  · exact ⟨_, rfl, rfl, rfl, rfl⟩

theorem Dev.setMask_shed (d : Dev) (n : PhaseIx) (f : MaskBits → MaskBits) :
    (d.setMask n f).pwm[n].mask.shed = ((f d.pwm[n].mask).shed || (d.setNow n).shed) := by
  obtain ⟨e, he, hp, -, -⟩ := d.setMask_pwm n f
  rw [he]
  simp [Pwm.setMask_mask, MaskBits.or, hp]

theorem Dev.setMask_keepsStop (d : Dev) (r : RailIx) (n : PhaseIx) (f : MaskBits → MaskBits) (hf : ∀ m : MaskBits, m.shed = true → (f m).shed = true) :
    d.KeepsStop (d.setMask n f) r := by
  obtain ⟨e, he, hp, hr, ht⟩ := d.setMask_pwm n f
  rw [he]
  refine (Dev.keepsStop_of_eq r hr hp ht).trans (e.updPwm_keepsStop r n _ fun h => ?_)
  simpa [Pwm.setMask_mask, MaskBits.or] using Or.inl (hf _ h)

/-! ## The steps of a stop -/

theorem Dev.endStart_keepsStop (d : Dev) (r : RailIx) (n : PhaseIx) : d.KeepsStop (d.endStart n) r :=
  (Dev.keepsStop_of_onlyIn r ((d.onlyIn_leave _).andThen (Dev.onlyIn_leave _ _) (es := [.leave]))).trans (Dev.updPwm_keepsStop _ r n _ id)

theorem Dev.endHostOvr_keepsStop (d : Dev) (r : RailIx) (n : PhaseIx) : d.KeepsStop (d.endHostOvr n) r :=
  Dev.keepsStop_ite (((d.endStart_keepsStop r n).trans (Dev.updPwm_keepsStop _ r n _ id)).trans (Dev.setMask_keepsStop _ r n _ fun _ _ => rfl))

theorem Dev.endHostOvrRail_keepsStop (d : Dev) (r : RailIx) : d.KeepsStop (d.endHostOvrRail r) r :=
  Dev.keepsStop_foldl _ (fun e n => e.endHostOvr_keepsStop r n) _ d

theorem Dev.shedOne_keepsStop (d : Dev) (r : RailIx) (n : PhaseIx) : d.KeepsStop (d.shedOne n) r :=
  ((d.setMask_keepsStop r n _ fun _ _ => rfl).trans (Dev.endStart_keepsStop _ r n)).trans (Dev.keepsStop_of_onlyIn r (Dev.event_onlyIn _ _))

theorem Dev.respread_keepsStop (d : Dev) (r : RailIx) : d.KeepsStop (d.respread r) r :=
  Dev.respread_related (P := fun d d' : Dev => d.KeepsStop d' r) (fun e => .refl e r) .trans d r (fun e _ => e.updRail_keepsStop r _ id id id)
    fun e n _ => e.updPwm_keepsStop r n _ id

theorem Dev.withdrawAdd_keepsStop (d : Dev) (r : RailIx) : d.KeepsStop (d.withdrawAdd r) r := by
  unfold Dev.withdrawAdd
  split
  · exact (Dev.keepsStop_of_onlyIn r (d.onlyIn_leave _)).trans (Dev.updRail_keepsStop _ r _ id id id)
  · exact .refl d r

theorem Dev.dropTo_keepsStop (r : RailIx) (count : Nat) : ∀ (k : Nat) (d : Dev), d.KeepsStop (d.dropTo r count k) r
  | 0, d => .refl d r
  | k + 1, d => by
    unfold Dev.dropTo
    split
    · exact .refl d r
    · split
      · exact (d.shedOne_keepsStop r _).trans (Dev.dropTo_keepsStop r count k _)
      · exact .refl d r

theorem Dev.shedDown_keepsStop (d : Dev) (r : RailIx) (count : Nat) : d.KeepsStop (d.shedDown r count) r := by
  unfold Dev.shedDown
  split
  · exact .refl d r
  · exact ((Dev.dropTo_keepsStop r count 64 d).trans (Dev.respread_keepsStop _ r)).trans (Dev.keepsStop_of_onlyIn r (Dev.syncCtx_onlyIn _ r))

theorem Dev.fitMembers_keepsStop (d : Dev) (p : PortIx) (r : RailIx) : d.KeepsStop (d.fitMembers p r) r :=
  (d.shedDown_keepsStop r _).trans (Dev.keepsStop_ite (Dev.withdrawAdd_keepsStop _ r))

theorem Dev.portCauses_onlyIn (d : Dev) (p : PortIx) : d.onlyIn (d.portCauses p) [.fault] :=
  (d.setCause_onlyIn _ _ _ _).thenIn (Dev.setCause_onlyIn _ _ _ _ _)

/-- A change of phase, up to the fit of the members. -/
theorem Dev.setPhase_spec (d : Dev) (p : PortIx) (r : RailIx) (ph : StPhase) (cause : BitVec 2) :
    ∃ e : Dev, d.onlyIn e [.ports, .lantern, .fault] ∧ d.setPhase p r ph cause = (e.fitMembers p r).syncCtx r := by
  unfold Dev.setPhase
  extract_lets x e noted
  refine ⟨noted.portCauses p, ?_, rfl⟩
  have hnote : e.onlyIn noted [.lantern, .fault] := Dev.onlyIn_ite' (e.note_onlyIn _ _ _ _)
  exact (d.updPort_onlyIn p _).into.thenIn hnote |>.thenIn (noted.portCauses_onlyIn p)

theorem Dev.setPhase_keepsStop (d : Dev) (p : PortIx) (r : RailIx) (ph : StPhase) (cause : BitVec 2) : d.KeepsStop (d.setPhase p r ph cause) r := by
  obtain ⟨e, he, h⟩ := d.setPhase_spec p r ph cause
  rw [h]
  exact ((Dev.keepsStop_of_onlyIn r he).trans (e.fitMembers_keepsStop p r)).trans (Dev.keepsStop_of_onlyIn r (Dev.syncCtx_onlyIn _ r))

theorem Dev.portStop_keepsStop (d : Dev) (p : PortIx) (r : RailIx) : d.KeepsStop (d.portStop p r) r :=
  (Dev.keepsStop_of_onlyIn r ((d.updPort_onlyIn p _).into.thenIn (Dev.setCause_onlyIn _ (srcStoreTemp p) 0 false []) : Dev.onlyIn _ _ [.ports, .fault])).trans
    (Dev.setPhase_keepsStop _ p r .none _)

theorem Dev.switchTrips_keepsStop (d : Dev) (r : RailIx) : d.KeepsStop (d.switchTrips r) r :=
  Dev.keepsStop_foldl _ (fun e n => e.updTrip_keepsStop r n _ (Or.inr ⟨rfl, rfl⟩)) _ d

theorem Dev.setRt_keepsStop (d : Dev) (r : RailIx) : d.KeepsStop (d.setRt r) r where
  others _ _ := rfl
  mode h := h
  flare h := h
  notice h := h
  shed _ h := h
  trips _ := Or.inr ⟨rfl, rfl⟩

theorem Dev.clearTrip_keepsStop (d : Dev) (r : RailIx) (n : PhaseIx) :
    d.KeepsStop ((d.updTrip n fun t => { t with latch := false, periods := [], count := 0, limited := false }).setCause srcTripLatch n false) r :=
  (d.updTrip_keepsStop r n _ (Or.inl ⟨rfl, rfl⟩)).trans (Dev.keepsStop_of_onlyIn r (Dev.setCause_onlyIn _ _ _ _ _))

theorem Dev.clearTrips_keepsStop (d : Dev) (r : RailIx) : d.KeepsStop (d.clearTrips r) r :=
  Dev.keepsStop_foldl _ (fun e n => e.clearTrip_keepsStop r n) _ d

/-! ## What a stop establishes -/

/-- A loop's step for one element establishes what no step takes away. -/
theorem foldl_establishes {σ α : Type} {I Q : σ → Prop} {step : σ → α → σ} {x : α} (inv : ∀ s y, I s → I (step s y)) (sets : ∀ s, I s → Q (step s x))
    (keeps : ∀ s y, Q s → Q (step s y)) : ∀ xs : List α, x ∈ xs → ∀ s, I s → Q (xs.foldl step s)
  | y :: ys, h, s, hs => by
    have hrest : ∀ (zs : List α) (s : σ), Q s → Q (zs.foldl step s) := fun zs => by
      induction zs with
      | nil => exact fun _ h => h
      | cons z zs ih => exact fun s h => ih _ (keeps s z h)
    rcases List.mem_cons.1 h with rfl | h
    · exact hrest ys _ (sets s hs)
    · exact foldl_establishes inv sets keeps ys h _ (inv s y hs)

theorem Dev.mem_members {d : Dev} {r : RailIx} {n : PhaseIx} : n ∈ d.members r ↔ d.railOf n = some r := by
  simp [Dev.members, List.mem_filter]

theorem Dev.clearTrips_member {d : Dev} {r : RailIx} {n : PhaseIx} (h : d.railOf n = some r) :
    (d.clearTrips r).prot.trips[n].latch = false ∧ (d.clearTrips r).prot.trips[n].count = 0 := by
  refine foldl_establishes (I := fun _ => True) (Q := fun e : Dev => e.prot.trips[n].latch = false ∧ e.prot.trips[n].count = 0)
    (fun _ _ _ => trivial) (fun e _ => ?_) (fun e m he => ?_) _ (Dev.mem_members.2 h) d trivial
  · rw [Dev.setCause_onlyIn _ _ _ _ _ .prot (by decide)]
    simp
  · rcases (e.clearTrip_keepsStop r m).trips n with hk | ⟨hl, hc⟩
    · exact hk
    · rw [hl, hc]
      exact he

theorem Dev.shedAll_step (d : Dev) (r : RailIx) (n : PhaseIx) :
    d.KeepsStop (if d.isLoop n then (d.setMask n fun m => { m with shed := true, ember := false }).endStart n else d.endStart n) r ∧
      d.onlyIn (if d.isLoop n then (d.setMask n fun m => { m with shed := true, ember := false }).endStart n else d.endStart n) [.pwm, .leave] := by
  split
  · exact ⟨(d.setMask_keepsStop r n _ fun _ _ => rfl).trans (Dev.endStart_keepsStop _ r n), (d.setMask_onlyIn n _).andThen (Dev.endStart_onlyIn _ n)⟩
  · exact ⟨d.endStart_keepsStop r n, d.endStart_onlyIn n⟩

theorem Dev.shedAll_keepsStop (d : Dev) (r : RailIx) : d.KeepsStop (d.shedAll r) r :=
  Dev.keepsStop_foldl _ (fun e n => (e.shedAll_step r n).1) _ d

/-- Whether a phase is a LOOP member is the image's. -/
theorem Dev.isLoop_of_tile {d d' : Dev} (h : d'.tile = d.tile) (n : PhaseIx) : d'.isLoop n = d.isLoop n := by
  simp [Dev.isLoop, Dev.railOf, h]

theorem Dev.shedAll_member {d : Dev} {r : RailIx} {n : PhaseIx} (h : d.railOf n = some r) (hl : d.isLoop n = true) :
    (d.shedAll r).pwm[n].mask.shed = true := by
  refine foldl_establishes (I := fun e : Dev => e.isLoop n = true) (Q := fun e : Dev => e.pwm[n].mask.shed = true) (fun e m he => ?_) (fun e he => ?_)
    (fun e m => (e.shedAll_step r m).1.shed n) _ (Dev.mem_members.2 h) d hl
  · rw [Dev.isLoop_of_tile ((e.shedAll_step r m).2 .tile (by decide))]
    exact he
  · rw [if_pos he]
    exact (Dev.endStart_keepsStop _ r n).shed n (by rw [Dev.setMask_shed]; rfl)

theorem Pwm.endLift_mask (p : Pwm) (now : Tick) : (p.endLift now).mask = p.mask := by
  unfold Pwm.endLift
  split
  · exact Pwm.setMask_mask _ now id
  · rfl

/-- What the end of a Flare does to one member. -/
def Pwm.cutFlare (p : Pwm) (now : Tick) : Pwm :=
  (if p.flareOn then ({ p with flareOn := false, flarePulse := false } : Pwm).reform now else p).endLift now

theorem Pwm.cutFlare_mask (p : Pwm) (now : Tick) : (p.cutFlare now).mask = p.mask := by
  unfold Pwm.cutFlare
  rw [Pwm.endLift_mask]
  split <;> rfl

theorem Dev.cutFlare_spec (d : Dev) (r : RailIx) :
    d.KeepsStop (d.cutFlare r) r ∧ (d.cutFlare r).rails[r].flare = none ∧ d.onlyIn (d.cutFlare r) [.fault, .rails, .pwm] := by
  unfold Dev.cutFlare
  split
  · exact ⟨.refl d r, Option.isNone_iff_eq_none.1 ‹_›, d.onlyIn_refl _⟩
  · extract_lets cut
    have hcut : d.KeepsStop cut r := (Dev.keepsStop_of_onlyIn r (d.event_onlyIn _)).trans (Dev.updRail_keepsStop _ r _ id (fun _ => rfl) id)
    have hmembers : cut.KeepsStop ((d.members r).foldl (fun e n => e.updPwm n fun p => p.cutFlare e.clk.now) cut) r :=
      Dev.keepsStop_foldl _ (fun e n => e.updPwm_keepsStop r n _ fun h => by rw [Pwm.cutFlare_mask]; exact h) _ cut
    exact ⟨hcut.trans hmembers, hmembers.flare (by simp [cut]), (d.event_onlyIn _).into.thenIn (Dev.updRail_onlyIn _ r _) |>.thenIn
      (Dev.onlyIn_foldl _ (fun e n => e.updPwm_onlyIn n fun p => p.cutFlare e.clk.now) _ cut)⟩

theorem Dev.putMode_keepsStop (d : Dev) (r : RailIx) : d.KeepsStop (d.putMode r .off) r := by
  have hpre : (if d.mode r == .off && RailMode.off != .off then d.unshedHost r else d) = d := by simp
  unfold Dev.putMode
  dsimp only
  rw [hpre]
  exact d.updRail_keepsStop r _ (fun _ => rfl) id id

theorem Dev.putMode_changeMode_keepsStop (d : Dev) (r : RailIx) (m : RailMode) : (d.putMode r m).KeepsStop (d.changeMode r m) r := by
  have hswitch : ∀ (e : Dev) (c : Prop) [Decidable c], e.KeepsStop (if c then e.switchTrips r else e) r := fun e c _ => Dev.keepsStop_ite (e.switchTrips_keepsStop r)
  have hdiv : ∀ (e : Dev) (c : Prop) [Decidable c], e.KeepsStop (if c then e.startDiv r else e) r := fun e c _ =>
    Dev.keepsStop_ite (Dev.keepsStop_of_onlyIn r (e.startDiv_onlyIn r))
  have hovr : ∀ (e : Dev) (c : Prop) [Decidable c], e.KeepsStop (if c then e.endHostOvrRail r else e) r := fun e c _ => Dev.keepsStop_ite (e.endHostOvrRail_keepsStop r)
  have hctx : ∀ e : Dev, e.KeepsStop (((e.syncCtx r).evalRail r).setRt r) r := fun e =>
    (Dev.keepsStop_of_onlyIn r ((e.syncCtx_onlyIn r).thenIn (Dev.evalRail_onlyIn _ r))).trans (Dev.setRt_keepsStop _ r)
  exact (((hswitch _ _).trans (hdiv _ _)).trans (hovr _ _)).trans (hctx _)

theorem Dev.changeMode_off (d : Dev) (r : RailIx) : d.KeepsStop (d.changeMode r .off) r ∧ (d.changeMode r .off).rails[r].mode = .off := by
  refine ⟨(d.putMode_keepsStop r).trans (d.putMode_changeMode_keepsStop r .off), ?_⟩
  obtain ⟨since, olt, h⟩ := d.changeMode_rails r .off
  rw [h]
  simp

theorem Dev.dropTo_onlyIn (r : RailIx) (count : Nat) : ∀ (k : Nat) (d : Dev), d.onlyIn (d.dropTo r count k) [.pwm, .leave, .fault]
  | 0, d => d.onlyIn_refl _
  | k + 1, d => by
    unfold Dev.dropTo
    split
    · exact d.onlyIn_refl _
    · split
      · exact (d.shedOne_onlyIn _).thenIn (Dev.dropTo_onlyIn r count k _)
      · exact d.onlyIn_refl _

theorem Dev.shedDown_onlyIn (d : Dev) (r : RailIx) (count : Nat) : d.onlyIn (d.shedDown r count) [.pwm, .leave, .fault, .rails, .loop] := by
  unfold Dev.shedDown
  split
  · exact d.onlyIn_refl _
  · exact (Dev.dropTo_onlyIn r count 64 d).into.thenIn (Dev.respread_onlyIn _ r) |>.thenIn (Dev.syncCtx_onlyIn _ r)

theorem Dev.fitMembers_onlyIn (d : Dev) (p : PortIx) (r : RailIx) : d.onlyIn (d.fitMembers p r) [.pwm, .leave, .fault, .rails, .loop] :=
  (d.shedDown_onlyIn r _).thenIn (Dev.onlyIn_ite (Dev.withdrawAdd_onlyIn _ r))

theorem Dev.setPhase_onlyIn (d : Dev) (p : PortIx) (r : RailIx) (ph : StPhase) (cause : BitVec 2) :
    d.onlyIn (d.setPhase p r ph cause) [.ports, .lantern, .fault, .pwm, .leave, .rails, .loop] := by
  obtain ⟨e, he, h⟩ := d.setPhase_spec p r ph cause
  rw [h]
  exact he.into.thenIn (e.fitMembers_onlyIn p r) |>.thenIn (Dev.syncCtx_onlyIn _ r)

theorem Dev.portStop_onlyIn (d : Dev) (p : PortIx) (r : RailIx) : d.onlyIn (d.portStop p r) [.ports, .lantern, .fault, .pwm, .leave, .rails, .loop] :=
  (d.updPort_onlyIn p _).into.thenIn (Dev.setCause_onlyIn _ (srcStoreTemp p) 0 false []) |>.thenIn (Dev.setPhase_onlyIn _ p r .none _)

/-! ## CMD OFF (R319, R322, R347) -/

theorem Dev.noteEvent_off (d : Dev) (r : RailIx) : d.noteEvent r .off = d := by simp [Dev.noteEvent]

theorem Dev.dropHiccup_off (d : Dev) (r : RailIx) : d.dropHiccup r .off = d := by simp [Dev.dropHiccup]

/-- A rail stopped by a command: what the stop establishes, with what it leaves alone. -/
structure Dev.Stopped (d d' : Dev) (r : RailIx) : Prop where
  keeps : d.KeepsStop d' r
  mode : d'.rails[r].mode = .off
  flare : d'.rails[r].flare = none
  notice : d'.rails[r].notice = none
  shed : ∀ n : PhaseIx, d.railOf n = some r → d.isLoop n = true → d'.pwm[n].mask.shed = true
  frame : d.onlyIn d' [.pwm, .rails, .loop, .prot, .fault, .lantern, .ports, .leave]

theorem Dev.railOf_of_tile {d d' : Dev} (h : d'.tile = d.tile) (n : PhaseIx) : d'.railOf n = d.railOf n := by
  simp [Dev.railOf, h]

theorem Dev.Stopped.then {d e e' : Dev} {r : RailIx} (h : d.Stopped e r) (hk : e.KeepsStop e' r)
    (hf : e.onlyIn e' [.pwm, .rails, .loop, .prot, .fault, .lantern, .ports, .leave]) : d.Stopped e' r where
  keeps := h.keeps.trans hk
  mode := hk.mode h.mode
  flare := hk.flare h.flare
  notice := hk.notice h.notice
  shed n hn hl := hk.shed n (h.shed n hn hl)
  frame := h.frame.thenIn hf

/-- A Flare cut, an add withdrawn and a notice dropped before the members are shed and the mode becomes OFF. -/
theorem Dev.stopped_of_changeMode (d : Dev) (r : RailIx) (f : Rail → Rail) (hm : ∀ x : Rail, (f x).mode = x.mode) (hf : ∀ x : Rail, (f x).flare = x.flare)
    (hn : ∀ x : Rail, (f x).notice = none) : d.Stopped (((((d.cutFlare r).withdrawAdd r).updRail r f).shedAll r).changeMode r .off) r := by
  obtain ⟨hcutK, hcutFlare, hcutF⟩ := d.cutFlare_spec r
  have hidleK : (d.cutFlare r).KeepsStop (((d.cutFlare r).withdrawAdd r).updRail r f) r :=
    (Dev.withdrawAdd_keepsStop _ r).trans (Dev.updRail_keepsStop _ r f (fun h => (hm _).trans h) (fun h => (hf _).trans h) fun _ => hn _)
  have hidleF : d.onlyIn (((d.cutFlare r).withdrawAdd r).updRail r f) [.fault, .rails, .pwm, .leave] :=
    hcutF.into.thenIn (Dev.withdrawAdd_onlyIn _ r) |>.thenIn (Dev.updRail_onlyIn _ r f)
  have hidleN : (((d.cutFlare r).withdrawAdd r).updRail r f).rails[r].notice = none := by simp [hn]
  generalize ((d.cutFlare r).withdrawAdd r).updRail r f = idle at hidleK hidleF hidleN ⊢
  have hidleD : idle.tile = d.tile := hidleF .tile (by decide)
  have hshed := idle.shedAll_keepsStop r
  obtain ⟨hoffK, hoff⟩ := (idle.shedAll r).changeMode_off r
  have hmembers : ∀ n : PhaseIx, d.railOf n = some r → d.isLoop n = true → (idle.shedAll r).pwm[n].mask.shed = true := fun n hn hl =>
    Dev.shedAll_member (by rw [← hn]; exact Dev.railOf_of_tile hidleD n) (by rw [← hl]; exact Dev.isLoop_of_tile hidleD n)
  have hframe : d.onlyIn ((idle.shedAll r).changeMode r .off) [.pwm, .rails, .loop, .prot, .fault, .lantern, .ports, .leave] :=
    hidleF.into.thenIn (idle.shedAll_onlyIn r) |>.thenIn (Dev.changeMode_onlyIn _ r .off)
  generalize (idle.shedAll r).changeMode r .off = off at hoffK hoff hframe ⊢
  exact ⟨(hcutK.trans hidleK).trans (hshed.trans hoffK), hoff, (hidleK.trans (hshed.trans hoffK)).flare hcutFlare, (hshed.trans hoffK).notice hidleN,
    fun n hn hl => hoffK.shed n (hmembers n hn hl), hframe⟩

theorem Dev.stopRail_off (d : Dev) (r : RailIx) : d.Stopped (d.stopRail r .off) r := by
  have hbase : (d.noteEvent r .off).dropHiccup r .off = d := by rw [Dev.noteEvent_off, Dev.dropHiccup_off]
  unfold Dev.stopRail
  rw [hbase]
  extract_lets old base cut now idle off port cause stops marked
  have hoff : d.Stopped off r := d.stopped_of_changeMode r _ (fun _ => rfl) (fun _ => rfl) fun _ => rfl
  clear_value off
  have hport : d.Stopped port r := by
    dsimp only [port]
    split
    · split
      · exact hoff.then (off.portStop_keepsStop _ r) (off.portStop_onlyIn _ r).into
      · exact hoff
    · exact hoff
  clear_value port
  have hcauseF : port.onlyIn cause [.fault] := Dev.onlyIn_ite' (port.setCause_onlyIn _ _ _ _)
  have hmarked : marked = cause := if_pos rfl
  rw [hmarked]
  clear_value cause
  have hcause : d.Stopped cause r := hport.then (Dev.keepsStop_of_onlyIn r hcauseF) hcauseF.into
  have hspread : d.Stopped (cause.respread r) r := hcause.then (cause.respread_keepsStop r) (cause.respread_onlyIn r).into
  have hunder := (cause.respread r).checkUnderphased_onlyIn r
  exact hspread.then (Dev.keepsStop_of_onlyIn r hunder) hunder.into

theorem Dev.allOff_iff {d : Dev} : d.allOff = true ↔ ∀ k : RailIx, d.rails[k].mode = .off := by
  simp [Dev.allOff, Dev.mode]

theorem Dev.railWentOff_state (d : Dev) : d.railWentOff.sys.devState = if d.sys.devState = .run ∧ d.allOff = true then .standby else d.sys.devState := by
  unfold Dev.railWentOff
  split
  · rw [Dev.setState_sys]
  · rfl

theorem Dev.Stopped.after {d e e' : Dev} {r : RailIx} (h : d.KeepsStop e r) (hf : d.onlyIn e [.prot, .fault]) (k : e.Stopped e' r) : d.Stopped e' r where
  keeps := h.trans k.keeps
  mode := k.mode
  flare := k.flare
  notice := k.notice
  shed n hn hl := k.shed n (by rw [← hn]; exact Dev.railOf_of_tile (hf .tile (by decide)) n) (by rw [← hl]; exact Dev.isLoop_of_tile (hf .tile (by decide)) n)
  frame := hf.into.thenIn k.frame

/-- With every rail but `r` as it was and `r` OFF, all rails are OFF when all others were. -/
theorem Dev.Stopped.allOff {d e : Dev} {r : RailIx} (h : d.Stopped e r) : e.allOff = true ↔ ∀ k : RailIx, k ≠ r → d.rails[k].mode = .off := by
  rw [Dev.allOff_iff]
  constructor
  · intro hall k hk
    rw [← h.keeps.others k hk]
    exact hall k
  · intro hall k
    rcases eq_or_ne k r with rfl | hk
    · exact h.mode
    · rw [h.keeps.others k hk]
      exact hall k hk

/-- The end of CMD OFF: retries and demand 0, the open-loop test off, HOST_OVR ended. -/
def Dev.endCommandOff (d : Dev) (r : RailIx) : Dev :=
  (d.updRail r fun x => { x with retries := 0, oltEn := false, demandMarks := [], demand := 0 }).endHostOvrRail r

theorem Dev.endCommandOff_keepsStop (d : Dev) (r : RailIx) : d.KeepsStop (d.endCommandOff r) r :=
  (d.updRail_keepsStop r _ id id id).trans (Dev.endHostOvrRail_keepsStop _ r)

theorem Dev.endCommandOff_onlyIn (d : Dev) (r : RailIx) : d.onlyIn (d.endCommandOff r) [.rails, .pwm, .leave] :=
  (d.updRail_onlyIn r _).into.thenIn (Dev.endHostOvrRail_onlyIn _ r)

theorem Dev.endCommandOff_rail (d : Dev) (r : RailIx) : (d.endCommandOff r).rails[r].retries = 0 ∧ (d.endCommandOff r).rails[r].demand = 0 := by
  unfold Dev.endCommandOff
  rw [(Dev.endHostOvrRail_onlyIn _ r).rails_eq]
  simp

/-- CMD OFF stops the rail, clears its members' trips, and ends as `endCommandOff` says, before the device state follows. -/
theorem Dev.commandOff_stops (d : Dev) (r : RailIx) : ∃ e : Dev, d.commandOff r = (e.endCommandOff r).railWentOff ∧ d.Stopped e r ∧
    ∀ n : PhaseIx, d.railOf n = some r → e.prot.trips[n].latch = false ∧ e.prot.trips[n].count = 0 := by
  unfold Dev.commandOff
  extract_lets stopped wick
  have hstop : (d.clearTrips r).Stopped stopped r := Dev.stopRail_off _ r
  have hwick : stopped.onlyIn wick [.ports] := by
    dsimp only [wick]
    split
    · exact stopped.updPort_onlyIn _ _
    · exact stopped.onlyIn_refl _
  have hdone := hstop.then (Dev.keepsStop_of_onlyIn r hwick) hwick.into
  refine ⟨wick, rfl, .after (d.clearTrips_keepsStop r) (d.clearTrips_onlyIn r) hdone, fun n hn => ?_⟩
  obtain ⟨hlatch, hcount⟩ := Dev.clearTrips_member hn
  have ht := hdone.keeps.trips n
  rwa [hlatch, hcount, or_self] at ht

/-- What CMD OFF of a rail that is not OFF does. -/
theorem Dev.commandOff_spec (d : Dev) (r : RailIx) :
    (d.commandOff r).rails[r].mode = .off ∧ (d.commandOff r).rails[r].retries = 0 ∧ (d.commandOff r).rails[r].demand = 0 ∧
      (d.commandOff r).rails[r].notice = none ∧ (d.commandOff r).rails[r].flare = none ∧
      (∀ k : RailIx, k ≠ r → (d.commandOff r).rails[k] = d.rails[k]) ∧
      (∀ n : PhaseIx, d.railOf n = some r → (d.commandOff r).prot.trips[n].latch = false ∧ (d.commandOff r).prot.trips[n].count = 0 ∧
        (d.isLoop n = true → (d.commandOff r).pwm[n].mask.shed = true)) ∧
      (d.commandOff r).sys.devState = (if d.sys.devState = .run ∧ ∀ k : RailIx, k ≠ r → d.rails[k].mode = .off then .standby else d.sys.devState) ∧
      d.onlyIn (d.commandOff r) [.sys, .pwm, .loop, .rails, .prot, .ports, .fault, .lantern, .chord, .leave] := by
  obtain ⟨e, hcmd, hstop, htrips⟩ := d.commandOff_stops r
  have hend := hstop.then (e.endCommandOff_keepsStop r) (e.endCommandOff_onlyIn r).into
  have hwent := (e.endCommandOff r).railWentOff_onlyIn
  have hkeep := Dev.keepsStop_of_onlyIn r hwent
  rw [hcmd]
  refine ⟨hkeep.mode hend.mode, ?_, ?_, hkeep.notice hend.notice, hkeep.flare hend.flare, (hend.keeps.trans hkeep).others, fun n hn => ?_, ?_,
    hend.frame.into.thenIn hwent⟩
  · rw [hwent.rails_eq]
    exact (e.endCommandOff_rail r).1
  · rw [hwent.rails_eq]
    exact (e.endCommandOff_rail r).2
  · obtain ⟨hlatch, hcount⟩ := htrips n hn
    have ht := ((e.endCommandOff_keepsStop r).trans hkeep).trips n
    rw [hlatch, hcount, or_self] at ht
    exact ⟨ht.1, ht.2, fun hl => hkeep.shed n (hend.shed n hn hl)⟩
  · rw [Dev.railWentOff_state, hend.frame .sys (by decide)]
    simp only [hend.allOff]

end Sys2Proof.Machine

end

section
/-! SUPPORT. The commands of a rail and its open-loop test enable. -/

namespace Sys2Proof.Machine

open Sys2Proof

/-! ## Whose commands a rail takes (R500) -/

/-- The rail is not shared, or its commands are this device's as head of a WHOLE chain. -/
def Dev.ownCmd (d : Dev) (r : RailIx) : Prop := d.sharedAs r = none ∨ d.chord.head = true ∧ d.chord.st = 1

/-- An ON arms a member's shared rail. -/
def Dev.armsCmd (d : Dev) (r : RailIx) : Prop :=
  d.sharedAs r ≠ none ∧ d.chord.head = false ∧ d.rails[r].mode = .off ∧ d.chord.armed.getLsbD r.val = false

theorem Dev.sharedCmd_own {d : Dev} {r : RailIx} (on : Bool) (h : d.ownCmd r) : d.sharedCmd r on = .own := by
  unfold Dev.sharedCmd
  rcases h with h | ⟨hh, hs⟩
  · simp [h]
  · simp [hh, hs]

theorem Dev.sharedCmd_arms {d : Dev} {r : RailIx} (h : d.armsCmd r) : d.sharedCmd r true = .arms := by
  obtain ⟨hs, hh, hm, ha⟩ := h
  have hm' : d.mode r = .off := hm
  unfold Dev.sharedCmd
  rw [if_neg (by simpa [Option.isNone_iff_eq_none] using hs), if_neg (by simp [hh]), hm', ha]
  rfl

theorem Dev.sharedCmd_refused {d : Dev} {r : RailIx} {on : Bool} (h : ¬d.ownCmd r) (ha : on = true → ¬d.armsCmd r) : d.sharedCmd r on = .refused := by
  obtain ⟨hs, hw⟩ := not_or.1 h
  unfold Dev.sharedCmd
  rw [if_neg (by simpa [Option.isNone_iff_eq_none] using hs)]
  split
  next hh => exact if_neg fun hst => hw ⟨hh, hst⟩
  next hh =>
    refine if_neg fun hc => ?_
    simp only [Bool.and_eq_true, beq_iff_eq, Bool.not_eq_true'] at hc
    obtain ⟨⟨hon, hm⟩, hr⟩ := hc
    exact ha hon ⟨hs, Bool.eq_false_iff.2 hh, hm, hr⟩

/-! ## CMD 0 -/

theorem Dev.cmdNone_own {d : Dev} {r : RailIx} (h : d.ownCmd r) : d.cmdNone r = (d, stOk) := by
  simp [Dev.cmdNone, Dev.sharedCmd_own false h]

theorem Dev.cmdNone_refused {d : Dev} {r : RailIx} (h : ¬d.ownCmd r) : d.cmdNone r = (d, stState) := by
  simp [Dev.cmdNone, Dev.sharedCmd_refused h (on := false) (by simp)]

/-! ## CMD ON (R322) -/

/-- The rail's own conditions of ON. -/
def Dev.rampReady (d : Dev) (r : RailIx) : Prop :=
  d.rails[r].mode = .off ∧ d.railDefined r = true ∧ (d.railEnt r).storage = false ∧ d.rails[r].vscale ≠ 0

theorem Dev.cmdOn_refused {d : Dev} {r : RailIx} (h : ¬d.ownCmd r) (ha : ¬d.armsCmd r) : d.cmdOn r = (d, stState) := by
  simp [Dev.cmdOn, Dev.sharedCmd_refused h fun _ => ha]

theorem Dev.cmdOn_own {d : Dev} {r : RailIx} (h : d.ownCmd r) (hc : d.rampReady r) : d.cmdOn r =
    if d.latchedNow then (d, stFault) else if d.deviceBars r then (d, stState) else if d.faultBars r then (d, stFault) else (d.enterRamp r, stOk) := by
  obtain ⟨hm, hdef, hst, hv⟩ := hc
  have hcan : (d.mode r != .off || (d.railEnt r).storage || !d.railDefined r || d.rails[r].vscale == 0) = false := by
    rw [show d.mode r = .off from hm, hdef, hst, beq_eq_false_iff_ne.2 hv]
    rfl
  unfold Dev.cmdOn
  rw [Dev.sharedCmd_own true h]
  dsimp only
  rw [hcan, if_neg Bool.false_ne_true]

theorem Dev.cmdOn_unable {d : Dev} {r : RailIx} (h : d.ownCmd r)
    (hc : d.rails[r].mode ≠ .off ∨ d.railDefined r = false ∨ (d.railEnt r).storage = true ∨ d.rails[r].vscale = 0 ∨ d.latchedNow = false ∧ d.deviceBars r = true) :
    d.cmdOn r = (d, stState) := by
  by_cases hr : d.rampReady r
  · obtain ⟨hm, hdef, hst, hv⟩ := hr
    obtain ⟨hl, hb⟩ : d.latchedNow = false ∧ d.deviceBars r = true :=
      (((hc.resolve_left (not_not.2 hm)).resolve_left (by simp [hdef])).resolve_left (by simp [hst])).resolve_left hv
    simp [Dev.cmdOn_own h ⟨hm, hdef, hst, hv⟩, hl, hb]
  · have hcan : (d.mode r != .off || (d.railEnt r).storage || !d.railDefined r || d.rails[r].vscale == 0) = true := by
      by_contra hn
      simp only [Bool.not_eq_true, Bool.or_eq_false_iff, bne_eq_false_iff_eq, Bool.not_eq_false', beq_eq_false_iff_ne] at hn
      obtain ⟨⟨⟨hm, hst⟩, hdef⟩, hv⟩ := hn
      exact hr ⟨hm, hdef, hst, hv⟩
    unfold Dev.cmdOn
    rw [Dev.sharedCmd_own true h]
    exact if_pos hcan

theorem Dev.cmdOn_arms {d : Dev} {r : RailIx} (h : d.armsCmd r) : d.cmdOn r =
    if d.latchedNow then (d, stFault) else if !d.takesOn then (d, stState) else if d.faultBars r then (d, stFault)
    else ({ d with chord := { d.chord with armed := setBit d.chord.armed r true } }, stOk) := by
  simp [Dev.cmdOn, Dev.sharedCmd_arms h]

/-- A rail that the device does not bar stands in STANDBY or RUN. -/
theorem Dev.state_of_deviceBars {d : Dev} {r : RailIx} (h : d.deviceBars r = false) : d.sys.devState = .standby ∨ d.sys.devState = .run := by
  have hon : d.takesOn = true := by
    by_contra hn
    simp [Dev.deviceBars, hn] at h
  simpa using (Bool.and_eq_true_iff.1 hon).1

/-! ## CMD OFF (R322, R347) -/

theorem Dev.cmdOff_refused {d : Dev} {r : RailIx} (h : ¬d.ownCmd r ∨ d.sys.devState = .boot ∨ d.sys.devState = .untiled ∨ d.railDefined r = false) :
    d.cmdOff r = (d, stState) := by
  refine if_pos ?_
  rcases h with h | h | h | h
  · simp [Dev.sharedCmd_refused h (on := false) (by simp)]
  all_goals simp [h]

theorem Dev.cmdOff_own {d : Dev} {r : RailIx} (h : d.ownCmd r) (hdef : d.railDefined r = true) (hb : d.sys.devState ≠ .boot) (hu : d.sys.devState ≠ .untiled) :
    d.cmdOff r = if d.latchedNow then (d, stFault) else if d.sys.devState == .latched then (d, stState) else if d.rails[r].mode = .off then (d, stOk)
      else if d.cyc.struck.getLsbD r.val then (d, stFault) else if d.cyc.stopped.getLsbD r.val then (d, stState) else (d.commandOff r, stOk) :=
  if_neg (by simp [Dev.sharedCmd_own false h, hdef, hb, hu])

/-- OFF of a rail of this device's in a state that is neither BOOT, UNTILED nor LATCHED, and not dropped by the latch. -/
theorem Dev.cmdOff_live {d : Dev} {r : RailIx} (h : d.ownCmd r) (hdef : d.railDefined r = true)
    (hlive : d.sys.devState = .standby ∨ d.sys.devState = .run ∨ d.sys.devState = .maint) (hl : d.latchedNow = false) :
    d.cmdOff r = if d.rails[r].mode = .off then (d, stOk)
      else if d.cyc.struck.getLsbD r.val then (d, stFault) else if d.cyc.stopped.getLsbD r.val then (d, stState) else (d.commandOff r, stOk) := by
  have hst : d.sys.devState ≠ .boot ∧ d.sys.devState ≠ .untiled ∧ d.sys.devState ≠ .latched := by
    rcases hlive with h | h | h <;> simp [h]
  obtain ⟨hb, hu, ht⟩ := hst
  rw [Dev.cmdOff_own h hdef hb hu, hl, if_neg Bool.false_ne_true, if_neg (by simpa using ht)]

/-! ## The open-loop test enable (R199, R340) -/

theorem Dev.writeRailCtrl_refused {d : Dev} {r : RailIx} {v : Word} (hv : v.getLsbD 3 = true)
    (h : ¬(d.rails[r].mode = .off ∧ (d.sys.devState = .standby ∨ d.sys.devState = .run))) : d.writeRailCtrl r v = (d, stState) :=
  if_pos (by
    rw [hv, Bool.true_and, Bool.not_eq_true', Bool.eq_false_iff]
    exact fun hc => h (by simpa [Dev.mode] using hc))

/-- The fields a write of RAIL[r].CTRL sets. -/
def Rail.ctrl (x : Rail) (v : Word) : Rail :=
  { x with oltEn := v.getLsbD 3, flareEn := v.getLsbD 2, emberEn := v.getLsbD 1, shedEn := v.getLsbD 0 }

theorem Dev.writeRailCtrl_taken {d : Dev} {r : RailIx} {v : Word}
    (h : v.getLsbD 3 = true → d.rails[r].mode = .off ∧ (d.sys.devState = .standby ∨ d.sys.devState = .run)) :
    d.writeRailCtrl r v = (if d.rails[r].oltEn && !v.getLsbD 3 then (d.updRail r fun x => x.ctrl v).endHostOvrRail r else d.updRail r fun x => x.ctrl v, stOk) :=
  if_neg (by
    intro hc
    obtain ⟨hv, hn⟩ := Bool.and_eq_true_iff.1 hc
    rw [Bool.not_eq_true', Bool.eq_false_iff] at hn
    exact hn (by simpa [Dev.mode] using h hv))

theorem Pwm.setMask_hostOvr (p : Pwm) (now : Tick) (f : MaskBits → MaskBits) : (p.setMask now f).hostOvr = p.hostOvr := by
  unfold Pwm.setMask
  dsimp only
  split <;> rfl

theorem Dev.setMask_hostOvr (d : Dev) (n : PhaseIx) (f : MaskBits → MaskBits) : (d.setMask n f).pwm[n].hostOvr = d.pwm[n].hostOvr := by
  obtain ⟨e, he, hp, -, -⟩ := d.setMask_pwm n f
  rw [he]
  simp [Pwm.setMask_hostOvr, hp]

theorem Dev.setMask_pwm_ne (d : Dev) (n : PhaseIx) (f : MaskBits → MaskBits) {k : PhaseIx} (hk : k ≠ n) : (d.setMask n f).pwm[k] = d.pwm[k] := by
  obtain ⟨e, he, hp, -, -⟩ := d.setMask_pwm n f
  rw [he]
  simp [hk, hp]

/-- HOST_OVR of one phase ends: it reads off, and every other phase is as it was. -/
theorem Dev.endHostOvr_pwm (d : Dev) (n : PhaseIx) :
    (d.endHostOvr n).pwm[n].hostOvr = false ∧ ∀ k : PhaseIx, k ≠ n → (d.endHostOvr n).pwm[k] = d.pwm[k] := by
  unfold Dev.endHostOvr
  split
  · exact ⟨(Dev.setMask_hostOvr _ n _).trans (by simp),
      fun k hk => (Dev.setMask_pwm_ne _ n _ hk).trans ((upd_get_ne _ n k _ hk).trans (upd_get_ne d.pwm n k _ hk))⟩
  · exact ⟨Bool.eq_false_iff.2 ‹_›, fun _ _ => rfl⟩

theorem Dev.endHostOvrRail_pwm (d : Dev) (r : RailIx) : (∀ n : PhaseIx, d.railOf n = some r → (d.endHostOvrRail r).pwm[n].hostOvr = false) ∧
    ∀ n : PhaseIx, d.railOf n ≠ some r → (d.endHostOvrRail r).pwm[n] = d.pwm[n] := by
  refine ⟨fun n hn => ?_, fun n hn => ?_⟩
  · refine foldl_establishes (I := fun _ => True) (Q := fun e : Dev => e.pwm[n].hostOvr = false) (fun _ _ _ => trivial) (fun e _ => (e.endHostOvr_pwm n).1)
      (fun e m he => ?_) _ (Dev.mem_members.2 hn) d trivial
    rcases eq_or_ne n m with rfl | hm
    · exact (e.endHostOvr_pwm n).1
    · rw [(e.endHostOvr_pwm m).2 n hm]
      exact he
  · have hnot : n ∉ d.members r := fun h => hn (Dev.mem_members.1 h)
    unfold Dev.endHostOvrRail
    generalize d.members r = ms at hnot
    clear hn
    induction ms generalizing d with
    | nil => rfl
    | cons m ms ih =>
      obtain ⟨hm, hms⟩ := not_or.1 (List.mem_cons.not.1 hnot)
      rw [List.foldl_cons, ih (d.endHostOvr m) hms, (d.endHostOvr_pwm m).2 n hm]

/-! ## The commands as instructions -/

theorem exec_railCmdNone_next {s : State} {t : Tick} {r : RailIx} {d : Dev} {st : Byte} (hh : (s.dev.advance t).takesHost (.railCmdNone t r))
    (h : (s.dev.advance t).cmdNone r = (d, st)) : exec (.railCmdNone t r) s = .next (s.after t (d.reply st)) := by
  rw [exec_railCmdNone, execRailCmdNone]
  exact State.hostWrite_next hh h

theorem exec_railCmdReserved_next {s : State} {t : Tick} {r : RailIx} {code : Fin 3} (hh : (s.dev.advance t).takesHost (.railCmdReserved t r code)) :
    exec (.railCmdReserved t r code) s = .next (s.after t ((s.dev.advance t).reply stState)) := by
  rw [exec_railCmdReserved, execRailCmdReserved]
  exact State.hostWrite_next hh rfl

theorem exec_railCmdOn_next {s : State} {t : Tick} {r : RailIx} {d : Dev} {st : Byte} (hh : (s.dev.advance t).takesHost (.railCmdOn t r))
    (h : (s.dev.advance t).cmdOn r = (d, st)) : exec (.railCmdOn t r) s = .next (s.after t (d.reply st)) := by
  rw [exec_railCmdOn, execRailCmdOn]
  exact State.hostWrite_next hh h

theorem exec_railCmdOff_next {s : State} {t : Tick} {r : RailIx} {d : Dev} {st : Byte} (hh : (s.dev.advance t).takesHost (.railCmdOff t r))
    (h : (s.dev.advance t).cmdOff r = (d, st)) : exec (.railCmdOff t r) s = .next (s.after t (d.reply st)) := by
  rw [exec_railCmdOff, execRailCmdOff]
  exact State.hostWrite_next hh h

theorem exec_oltEnWrite_next {s : State} {t : Tick} {r : RailIx} {v : Word} {d : Dev} {st : Byte} (hh : (s.dev.advance t).takesHost (.oltEnWrite t r v))
    (h : (s.dev.advance t).writeRailCtrl r v = (d, st)) : exec (.oltEnWrite t r v) s = .next (s.after t (d.reply st)) := by
  rw [exec_oltEnWrite, execOltEnWrite]
  exact State.hostWrite_next hh h

end Sys2Proof.Machine

open Sys2Proof Sys2Proof.Machine

/-- Settles O41: the commands by `Dev.sharedCmd` and the refusals in their order, ON by `Dev.enterRamp_fromOff`, OFF by `Dev.commandOff_spec`,
    the open-loop test enable by `Dev.writeRailCtrl_taken`. -/
theorem railCommandsAndTestEnable : Obligations.RailCommandsAndTestEnable := by
  refine ⟨?commands, ?enable⟩
  case commands =>
    intro s t r d live own arms on off
    refine ⟨fun hh => ⟨fun h => ?_, fun h => ?_⟩, fun code hh => exec_railCmdReserved_next hh, fun hh ho hm hdef hst hv hl hb hf => ?on,
      fun hh ho h => ?unable, fun hh ho hm hdef hst hv h => ?fault, fun hh ho ha => exec_railCmdOn_next hh (Dev.cmdOn_refused ho ha),
      fun hh ha => ?arms, fun hh h => ?refused, fun hh ho hdef hlat => ?latched, fun hh ho hdef hli hl hm hs hp => ?off,
      fun hh ho hdef hli hl hm => ?idle, fun hh ho hdef hli hl hm => ⟨fun hs => ?_, fun hs hp => ?_⟩⟩
    · exact exec_railCmdNone_next hh (Dev.cmdNone_own h)
    · exact exec_railCmdNone_next hh (Dev.cmdNone_refused h)
    case on =>
      obtain ⟨hmode, hothers, hrun, hframe⟩ := Dev.enterRamp_fromOff hm (Dev.state_of_deviceBars hb)
      have hcmd : d.cmdOn r = (d.enterRamp r, stOk) := by
        rw [Dev.cmdOn_own ho ⟨hm, hdef, hst, hv⟩, hl, hb, hf]
        rfl
      have hreply := (d.enterRamp r).reply_onlyIn stOk []
      refine ⟨_, exec_railCmdOn_next hh hcmd, Dev.reply_lastStatus _ _ _, ?_, ?_, ?_, hframe.into.thenIn hreply⟩
      · rw [hreply.rails_eq]
        exact hmode
      · rw [hreply .sys (by decide)]
        exact hrun
      · rw [hreply.rails_eq]
        exact hothers
    case unable => exact exec_railCmdOn_next hh (Dev.cmdOn_unable ho h)
    case fault =>
      refine exec_railCmdOn_next hh ((Dev.cmdOn_own ho ⟨hm, hdef, hst, hv⟩).trans ?_)
      by_cases hl : d.latchedNow = true
      · exact if_pos hl
      · obtain ⟨hb, hf⟩ := h.resolve_left hl
        rw [if_neg hl, if_neg (Bool.eq_false_iff.1 hb), if_pos hf]
    case arms =>
      refine ⟨fun h => exec_railCmdOn_next hh ((Dev.cmdOn_arms ha).trans ?_), fun hl ht => exec_railCmdOn_next hh ((Dev.cmdOn_arms ha).trans ?_),
        fun hl ht hf => exec_railCmdOn_next hh ((Dev.cmdOn_arms ha).trans ?_)⟩
      · by_cases hl : d.latchedNow = true
        · exact if_pos hl
        · obtain ⟨ht, hf⟩ := h.resolve_left hl
          rw [if_neg hl, ht, if_neg (by simp), if_pos hf]
      · rw [hl, ht]
        rfl
      · rw [hl, ht, hf]
        rfl
    case refused => exact exec_railCmdOff_next hh (Dev.cmdOff_refused h)
    case latched =>
      have hcmd : d.cmdOff r = (d, if d.latchedNow then stFault else stState) := by
        rw [Dev.cmdOff_own ho hdef (by simp [hlat]) (by simp [hlat])]
        split
        · rfl
        · exact if_pos (by simp [hlat])
      exact exec_railCmdOff_next hh hcmd
    case off =>
      obtain ⟨hmode, hretries, hdemand, hnotice, hflare, hothers, hmembers, hstate, hframe⟩ := d.commandOff_spec r
      have hcmd : d.cmdOff r = (d.commandOff r, stOk) := by
        rw [Dev.cmdOff_live ho hdef hli hl, if_neg hm, hs, hp]
        rfl
      have hreply := (d.commandOff r).reply_onlyIn stOk []
      have hall : d.onlyIn ((d.commandOff r).reply stOk) [.sys, .pwm, .loop, .rails, .prot, .ports, .fault, .lantern, .chord, .leave, .link] :=
        hframe.into.thenIn hreply
      generalize hd' : (d.commandOff r).reply stOk = d' at hreply hall
      have hpwm : d'.pwm = (d.commandOff r).pwm := hreply .pwm (by decide)
      have hprot : d'.prot = (d.commandOff r).prot := hreply .prot (by decide)
      have hsys : d'.sys = (d.commandOff r).sys := hreply .sys (by decide)
      rw [← hreply.rails_eq] at hmode hretries hdemand hnotice hflare hothers
      rw [← hpwm, ← hprot] at hmembers
      rw [← hsys] at hstate
      exact ⟨d', hd' ▸ exec_railCmdOff_next hh hcmd, hd' ▸ Dev.reply_lastStatus _ _ _, hmode, hretries, hdemand, hnotice, hflare, hothers, hmembers, hstate, hall⟩
    case idle =>
      refine exec_railCmdOff_next hh ((Dev.cmdOff_live ho hdef hli hl).trans ?_)
      exact if_pos hm
    · refine exec_railCmdOff_next hh ((Dev.cmdOff_live ho hdef hli hl).trans ?_)
      rw [if_neg hm, if_pos hs]
    · refine exec_railCmdOff_next hh ((Dev.cmdOff_live ho hdef hli hl).trans ?_)
      rw [if_neg hm, hs, hp]
      rfl
  case enable =>
    intro s t r v d ok hh
    refine ⟨fun hv h => exec_oltEnWrite_next hh (Dev.writeRailCtrl_refused hv h), fun h => ?_, fun hv hwas => ?_⟩
    · have hkeeps : (d.rails[r].oltEn && !v.getLsbD 3) = false := by
        rcases h with ⟨hv, -⟩ | ⟨hv, hwas⟩
        · simp only [hv, Bool.not_true, Bool.and_false]
        · rw [hwas, Bool.false_and]
      have htaken := Dev.writeRailCtrl_taken (d := d) (r := r) (v := v) fun hv => (h.resolve_right fun hn => Bool.false_ne_true (hn.1.symm.trans hv)).2
      rw [hkeeps] at htaken
      exact exec_oltEnWrite_next hh htaken
    · have htaken : d.writeRailCtrl r v = ((d.updRail r fun x => x.ctrl v).endHostOvrRail r, stOk) := by
        rw [Dev.writeRailCtrl_taken fun hv' => (Bool.false_ne_true (hv.symm.trans hv')).elim, hwas, hv]
        rfl
      obtain ⟨hmembers, hothers⟩ := (d.updRail r fun x => x.ctrl v).endHostOvrRail_pwm r
      have hovr := (d.updRail r fun x => x.ctrl v).endHostOvrRail_onlyIn r
      have hreply := ((d.updRail r fun x => x.ctrl v).endHostOvrRail r).reply_onlyIn stOk []
      have hpwm := hreply .pwm (by decide)
      refine ⟨_, exec_oltEnWrite_next hh htaken, Dev.reply_lastStatus _ _ _, ?_, ?_, ?_, (d.updRail_onlyIn r _).into.thenIn hovr |>.thenIn hreply⟩
      · rw [hreply.rails_eq, hovr.rails_eq, ← hv]
        rfl
      · rw [hpwm]
        exact hmembers
      · rw [hpwm]
        exact hothers

end

section
/-! SUPPORT. The steps of a warm start. -/

namespace Sys2Proof.Machine

open Sys2Proof

/-! ## What the steps of a start leave alone (R14, R133)

    `d.KeepsStart d'`: what a warm start has to have kept at its end stands in `d'` as in `d`. -/

structure Dev.KeepsStart (d d' : Dev) : Prop where
  clk : d'.clk = d.clk
  link : d'.link = d.link
  sys : d'.sys = d.sys
  sp : d'.sp = d.sp
  trust : d'.trust = d.trust
  rper : d'.pwmg.rper = d.pwmg.rper
  cal : d'.sense.cal = d.sense.cal
  unlock : d'.sense.unlockUntil = d.sense.unlockUntil
  budget : d'.leave.budget = d.leave.budget
  tiled : d'.tile.tiled = d.tile.tiled
  runB : d'.tile.runB = d.tile.runB
  committed : d'.tile.committed = d.tile.committed
  modes : ∀ r : RailIx, d'.rails[r].mode = d.rails[r].mode

theorem Dev.KeepsStart.refl (d : Dev) : d.KeepsStart d := ⟨rfl, rfl, rfl, rfl, rfl, rfl, rfl, rfl, rfl, rfl, rfl, rfl, fun _ => rfl⟩

theorem Dev.KeepsStart.trans {a b c : Dev} (h : a.KeepsStart b) (k : b.KeepsStart c) : a.KeepsStart c where
  clk := k.clk.trans h.clk
  link := k.link.trans h.link
  sys := k.sys.trans h.sys
  sp := k.sp.trans h.sp
  trust := k.trust.trans h.trust
  rper := k.rper.trans h.rper
  cal := k.cal.trans h.cal
  unlock := k.unlock.trans h.unlock
  budget := k.budget.trans h.budget
  tiled := k.tiled.trans h.tiled
  runB := k.runB.trans h.runB
  committed := k.committed.trans h.committed
  modes r := (k.modes r).trans (h.modes r)

/-- A step that touches none of the blocks in question. -/
theorem Dev.keepsStart_of_onlyIn {d d' : Dev} {bs : List Block} (h : d.onlyIn d' bs)
    (hs : bs ⊆ [.pwm, .loop, .cards, .prot, .ports, .fault, .lantern, .chord, .banks, .test, .free] := by decide) : d.KeepsStart d' := by
  have k := h.into hs
  have hpwmg : d'.pwmg = d.pwmg := k .pwmg (by decide)
  have hsense : d'.sense = d.sense := k .sense (by decide)
  have hleave : d'.leave = d.leave := k .leave (by decide)
  have htile : d'.tile = d.tile := k .tile (by decide)
  have hrails : d'.rails = d.rails := k .rails (by decide)
  exact ⟨k .clk (by decide), k .link (by decide), k .sys (by decide), k .sp (by decide), k .trust (by decide), by rw [hpwmg], by rw [hsense], by rw [hsense],
    by rw [hleave], by rw [htile], by rw [htile], by rw [htile], fun r => by rw [hrails]⟩

theorem Dev.keepsStart_foldl {α : Type} (f : Dev → α → Dev) (h : ∀ (d : Dev) (x : α), d.KeepsStart (f d x)) :
    ∀ (xs : List α) (d : Dev), d.KeepsStart (xs.foldl f d) := foldl_related .refl .trans h

theorem Dev.keepsStart_ite {d a : Dev} {c : Prop} [Decidable c] (h : d.KeepsStart a) : d.KeepsStart (if c then a else d) := by
  split
  · exact h
  · exact .refl d

theorem Dev.updRail_keepsStart (d : Dev) (r : RailIx) (f : Rail → Rail) (hm : (f d.rails[r]).mode = d.rails[r].mode) : d.KeepsStart (d.updRail r f) where
  clk := rfl
  link := rfl
  sys := rfl
  sp := rfl
  trust := rfl
  rper := rfl
  cal := rfl
  unlock := rfl
  budget := rfl
  tiled := rfl
  runB := rfl
  committed := rfl
  modes k := by
    rcases eq_or_ne k r with rfl | hk
    · simpa using hm
    · simp [hk]

theorem Dev.updTile_keepsStart (d : Dev) (f : Tile → Tile) (ht : (f d.tile).tiled = d.tile.tiled) (hr : (f d.tile).runB = d.tile.runB)
    (hc : (f d.tile).committed = d.tile.committed) : d.KeepsStart (d.updTile f) :=
  ⟨rfl, rfl, rfl, rfl, rfl, rfl, rfl, rfl, rfl, ht, hr, hc, fun _ => rfl⟩

/-! ## The structure of the running image is loaded -/

theorem Dev.endStart_keepsStart (d : Dev) (n : PhaseIx) : d.KeepsStart (d.endStart n) := ⟨rfl, rfl, rfl, rfl, rfl, rfl, rfl, rfl, rfl, rfl, rfl, rfl, fun _ => rfl⟩

theorem Dev.endHostOvr_keepsStart (d : Dev) (n : PhaseIx) : d.KeepsStart (d.endHostOvr n) :=
  Dev.keepsStart_ite (((d.endStart_keepsStart n).trans (Dev.keepsStart_of_onlyIn (Dev.updPwm_onlyIn _ n _))).trans
    (Dev.keepsStart_of_onlyIn (Dev.setMask_onlyIn _ n _)))

theorem Dev.structMasks_keepsStart (d : Dev) : d.KeepsStart d.structMasks := by
  refine Dev.keepsStart_foldl _ (fun e n => ?_) _ d
  split
  · exact Dev.keepsStart_of_onlyIn (e.setMask_onlyIn n _)
  · exact (e.endHostOvr_keepsStart n).trans (Dev.keepsStart_of_onlyIn (Dev.setMask_onlyIn _ n _))

theorem Dev.respread_keepsStart (d : Dev) (r : RailIx) : d.KeepsStart (d.respread r) :=
  Dev.respread_related .refl .trans d r (fun e _ => e.updRail_keepsStart r _ rfl) fun e n _ => Dev.keepsStart_of_onlyIn (e.updPwm_onlyIn n _)

theorem Dev.seat_onlyIn (d : Dev) (r : RailIx) (n : PhaseIx) : d.onlyIn (d.seat r n) [.pwm] := by
  unfold Dev.seat
  extract_lets ref p host per
  split
  · exact d.place_onlyIn r n
  · exact d.updPwm_onlyIn n _

theorem Dev.placeAnew_keepsStart (d : Dev) : d.KeepsStart (d.placeAll true) := by
  have hspread : ∀ e : Dev, e.KeepsStart (allRails.foldl (fun d r => if d.railDefined r then d.respread r else d) e) :=
    Dev.keepsStart_foldl _ (fun e r => Dev.keepsStart_ite (e.respread_keepsStart r)) _
  refine (hspread d).trans (Dev.keepsStart_foldl _ (fun e n => ?_) _ _)
  split
  · exact Dev.keepsStart_of_onlyIn (e.seat_onlyIn _ n)
  · exact Dev.keepsStart_of_onlyIn (e.updPwm_onlyIn n _)

theorem Dev.dropPorts_onlyIn (d : Dev) (old : Tiling) : d.onlyIn (d.dropPorts old) [.ports, .fault] := by
  refine Dev.onlyIn_foldl _ (fun e p => Dev.onlyIn_ite ?_) _ d
  exact (e.updPort_onlyIn p _).into.thenIn (Dev.portCauses_onlyIn _ p) |>.thenIn (Dev.setCause_onlyIn _ _ _ _ _) |>.thenIn (Dev.setCause_onlyIn _ _ _ _ _)

theorem Dev.onlyIn_fault (d : Dev) (x : FaultMgr) : d.onlyIn { d with fault := x } [.fault] := fun b hb => by
  cases b <;> simp_all [Dev.same]

theorem Dev.onlyIn_cards (d : Dev) (x : Vector Card 8) : d.onlyIn { d with cards := x } [.cards] := fun b hb => by
  cases b <;> simp_all [Dev.same]

theorem Dev.trimCauses_onlyIn (d : Dev) : d.onlyIn d.trimCauses [.fault] := by
  unfold Dev.trimCauses
  extract_lets f lives ov degraded
  have hov : lives.onlyIn ov [.fault] := Dev.onlyIn_foldl _ (fun e r => Dev.onlyIn_ite (e.setCause_onlyIn _ _ _ _)) _ lives
  have hdegraded : ov.onlyIn degraded [.fault] := Dev.onlyIn_foldl _ (fun e q => e.setCause_onlyIn _ _ _ _) _ ov
  exact (d.onlyIn_fault _).thenIn hov |>.thenIn hdegraded |>.thenIn (Dev.onlyIn_foldl _ (fun e i => e.setCause_onlyIn _ _ _ _) _ degraded)

theorem Dev.clearFabric_onlyIn (d : Dev) : d.onlyIn d.clearFabric [.loop, .fault] := (d.onlyIn_loop _).andThen (Dev.setCause_onlyIn _ _ _ _ _)

theorem Dev.resetCtxs_onlyIn (d : Dev) : d.onlyIn d.resetCtxs [.loop] := d.onlyIn_loop _

theorem Dev.loadStructure_keepsStart (d : Dev) (t : Tiling) : d.KeepsStart (d.loadStructure t) := by
  unfold Dev.loadStructure
  extract_lets now old installed sensed carried railed placed cleared
  have hinstalled : d.KeepsStart installed :=
    (d.updTile_keepsStart _ rfl rfl rfl).trans (Dev.keepsStart_of_onlyIn (Dev.dropPorts_onlyIn _ old))
  have hsensed : installed.KeepsStart sensed := ⟨rfl, rfl, rfl, rfl, rfl, rfl, rfl, rfl, rfl, rfl, rfl, rfl, fun _ => rfl⟩
  have hcarried : sensed.KeepsStart carried := ⟨rfl, rfl, rfl, rfl, rfl, rfl, rfl, rfl, rfl, rfl, rfl, rfl, fun _ => rfl⟩
  have hrailed : carried.KeepsStart railed := ⟨rfl, rfl, rfl, rfl, rfl, rfl, rfl, rfl, rfl, rfl, rfl, rfl, fun r => by simp [railed]⟩
  have hplaced : railed.KeepsStart placed :=
    (railed.structMasks_keepsStart.trans (Dev.placeAnew_keepsStart _)).trans (Dev.keepsStart_of_onlyIn (Dev.resetCtxs_onlyIn _))
  have hcleared : placed.KeepsStart cleared := Dev.keepsStart_of_onlyIn placed.clearFabric_onlyIn
  have hcauses := Dev.onlyIn_foldl (fun d r => d.setCause (srcLoopInput r) 0 false) (fun e r => e.setCause_onlyIn _ _ _ _) allRails cleared
  exact hinstalled.trans (hsensed.trans (hcarried.trans (hrailed.trans (hplaced.trans (hcleared.trans
    (Dev.keepsStart_of_onlyIn (hcauses.thenIn (Dev.trimCauses_onlyIn _))))))))

/-! ## The other steps of W5 to W7 -/

theorem Dev.fastLines_onlyIn (d : Dev) (ms : List LineMeas) : d.onlyIn (d.fastLines ms) [.pwm] := d.onlyIn_pwm _

theorem Dev.startCards_onlyIn (d : Dev) (cold : Bool) : d.onlyIn (d.startCards cold) [.cards, .pwm] :=
  (d.onlyIn_cards _).andThen (Dev.onlyIn_pwm _ _)

theorem Dev.startStructure_keepsStart (d : Dev) : d.KeepsStart d.startStructure := by
  unfold Dev.startStructure
  extract_lets loaded arcs
  have hloaded : d.KeepsStart loaded := d.loadStructure_keepsStart _
  have harcs : loaded.KeepsStart arcs := Dev.keepsStart_of_onlyIn (loaded.onlyIn_pwm _)
  refine (hloaded.trans harcs).trans ?_
  clear_value arcs
  split
  · exact arcs.updTile_keepsStart _ rfl rfl rfl
  · exact ⟨rfl, rfl, rfl, rfl, rfl, rfl, rfl, rfl, rfl, rfl, rfl, rfl, fun _ => rfl⟩

theorem Dev.setOv_onlyIn (d : Dev) (r : RailIx) : d.onlyIn (d.setOv r) [.prot, .fault] := by
  unfold Dev.setOv
  extract_lets w off k won
  split
  · exact (d.updWin_onlyIn r _).andThen (won.setCause_onlyIn _ _ _ _)
  · exact (d.updWin_onlyIn r _).into

theorem Dev.startProt_onlyIn (d : Dev) : d.onlyIn d.startProt [.prot, .fault] := by
  unfold Dev.startProt
  extract_lets low prot lines wins
  have hwins : lines.onlyIn wins [.prot, .fault] := Dev.onlyIn_foldl _ (fun e r => (e.setUv_onlyIn r).andThen (Dev.setOv_onlyIn _ r)) _ lines
  exact (d.onlyIn_prot _).into.thenIn hwins |>.thenIn (wins.onlyIn_prot _)

theorem Dev.onlyIn_lantern (d : Dev) (x : Lantern) : d.onlyIn { d with lantern := x } [.lantern] := fun b hb => by
  cases b <;> simp_all [Dev.same]

theorem Dev.gap_onlyIn (d : Dev) (first last missing : Nat) (damaged : List Byte) : d.onlyIn (d.gap first last missing damaged) [.lantern, .fault] :=
  (d.noteNext_onlyIn _ _ _ _).thenIn (Dev.onlyIn_lantern _ _)

theorem Dev.warmGaps_onlyIn (d : Dev) (bad : List Nat) : d.onlyIn (d.warmGaps bad) [.lantern, .fault] :=
  (d.onlyIn_lantern _).into.thenIn (Dev.onlyIn_foldl (α := Nat × Nat) _ (fun e x => e.gap_onlyIn x.1 _ x.2 _) _ _)

theorem Dev.warmRecord_onlyIn (d : Dev) : d.onlyIn d.warmRecord [.lantern, .fault] := d.noteNext_onlyIn _ _ _ _

theorem Dev.lineCauses_onlyIn (d : Dev) (x : LineIx) : d.onlyIn (d.lineCauses x) [.fault] :=
  Dev.onlyIn_ite' ((d.setCause_onlyIn _ _ _ _).thenIn (Dev.setCause_onlyIn _ _ _ _ _) |>.thenIn (Dev.setCause_onlyIn _ _ _ _ _))

theorem Dev.raiseAnew_onlyIn (d : Dev) (removed : Byte) : d.onlyIn (d.raiseAnew removed) [.fault] := by
  unfold Dev.raiseAnew
  extract_lets clock safe phases rails quads cards lines next f
  have hclock : d.onlyIn clock [.fault] :=
    (d.setCause_onlyIn _ _ _ _).thenIn (Dev.setCause_onlyIn _ _ _ _ _) |>.thenIn (Dev.setCause_onlyIn _ srcDieHot 0 d.sys.hot [])
      |>.thenIn (Dev.setCause_onlyIn _ srcDieOvertemp 0 d.sys.overtemp []) |>.thenIn (Dev.setCause_onlyIn _ _ _ _ _)
  have hsafe : clock.onlyIn safe [.fault] :=
    (clock.setCause_onlyIn _ _ _ _).thenIn (Dev.setCause_onlyIn _ srcSafeDisc 0 clock.prot.disc []) |>.thenIn (Dev.setCause_onlyIn _ _ _ _ _)
  have hphases : safe.onlyIn phases [.fault] := Dev.onlyIn_foldl _ (fun e n => (e.setCause_onlyIn _ _ _ _).thenIn (Dev.setCause_onlyIn _ _ _ _ _)) _ safe
  have hrails : phases.onlyIn rails [.fault] := Dev.onlyIn_foldl _ (fun e r => e.setCause_onlyIn _ _ _ _) _ phases
  have hquads : rails.onlyIn quads [.fault] := Dev.onlyIn_foldl _ (fun e q => e.setCause_onlyIn _ _ _ _) _ rails
  have hcards : quads.onlyIn cards [.fault] := Dev.onlyIn_foldl _ (fun e s => (e.setCause_onlyIn _ _ _ _).thenIn (Dev.setCause_onlyIn _ _ _ _ _)) _ quads
  have hlines : cards.onlyIn lines [.fault] := Dev.onlyIn_foldl _ Dev.lineCauses_onlyIn _ cards
  exact hclock.thenIn hsafe |>.thenIn hphases |>.thenIn hrails |>.thenIn hquads |>.thenIn hcards |>.thenIn hlines |>.thenIn (lines.onlyIn_fault _)

theorem Dev.onlyIn_sys (d : Dev) (x : Sys) : d.onlyIn { d with sys := x } [.sys] := fun b hb => by
  cases b <;> simp_all [Dev.same]

theorem Dev.onlyIn_cyc (d : Dev) (x : Cyc) (bs : List Block) : d.onlyIn { d with cyc := x } bs := Dev.onlyIn_of_cyc (Dev.onlyIn_refl _ bs)

/-- A change of the device state whose record only writes the Lantern and its alerts. -/
theorem Dev.changeTo_parts (d : Dev) (st : DevState) (ts : Tick) (tbu : Bool) (write : Dev → List Byte → Dev)
    (hw : ∀ (e : Dev) (data : List Byte), e.onlyIn (write e data) [.lantern, .fault]) :
    (d.changeTo st ts tbu write).sys = { d.sys with devState := st } ∧ d.onlyIn (d.changeTo st ts tbu write) [.sys, .lantern, .fault] := by
  unfold Dev.changeTo
  extract_lets data gone sys moved written cyc
  have hmoved : d.onlyIn moved [.sys] := d.onlyIn_sys _
  have hwritten : moved.onlyIn written [.lantern, .fault] := hw moved data
  clear_value gone
  cases gone with
  | some r => exact ⟨rfl, hmoved.into.thenIn (moved.onlyIn_lantern _)⟩
  | none => exact ⟨hwritten .sys (by decide), hmoved.into.thenIn hwritten |>.thenIn (written.onlyIn_cyc _ [])⟩

theorem Dev.setStateAt_parts (d : Dev) (st : DevState) (ts : Tick) (tbu : Bool) :
    (d.setStateAt st ts tbu).sys = { d.sys with devState := st } ∧ d.onlyIn (d.setStateAt st ts tbu) [.sys, .lantern, .fault] :=
  d.changeTo_parts st ts tbu _ fun e _ => e.journal_onlyIn _

/-! ## W5 to W7 (R129 to R132) -/

/-- What a warm start that runs on has made of the device at its end. -/
structure Dev.WarmRan (d d' : Dev) (t : Tile) (fb skipped : Bool) : Prop where
  clk : d'.clk = d.clk
  link : d'.link = d.link
  vtab : d'.sp.vtab = d.sp.vtab
  rper : d'.pwmg.rper = d.pwmg.rper
  cal : d'.sense.cal = d.sense.cal
  unlock : d'.sense.unlockUntil = none
  slots : d'.trust.slots = d.trust.slots
  budget : d'.leave.budget = d.leave.budget
  modes : ∀ r : RailIx, d'.rails[r].mode = .off
  tiled : d'.tile.tiled = t.tiled
  runB : d'.tile.runB = t.runB
  committed : d'.tile.committed = t.committed
  start : d'.sys.start = none
  devState : d'.sys.devState = if t.tiled then .standby else .untiled
  kindWarm : d'.sys.kindWarm = true
  warmCount : d'.sys.warmCount = satInc d.sys.warmCount
  rdyLow : d'.sys.rdyLowStart = false
  fallback : d'.sys.fallback = fb
  sigSkipped : d'.sys.sigSkipped = skipped

/-- What the base of a warm start has of the device it began with. -/
structure Dev.WarmBased (d base : Dev) : Prop where
  clk : base.clk = d.clk
  link : base.link = d.link
  sys : base.sys = d.sys
  vtab : base.sp.vtab = d.sp.vtab
  rper : base.pwmg.rper = d.pwmg.rper
  cal : base.sense.cal = d.sense.cal
  unlock : base.sense.unlockUntil = none
  slots : base.trust.slots = d.trust.slots
  budget : base.leave.budget = d.leave.budget
  modes : ∀ r : RailIx, base.rails[r].mode = .off
  tile : base.tile = d.tile

theorem Dev.warmBase_based (d : Dev) : d.WarmBased d.warmBase where
  clk := by rw [Dev.warmBase]
  link := by rw [Dev.warmBase]
  sys := by rw [Dev.warmBase]
  vtab := rfl
  rper := rfl
  cal := rfl
  unlock := rfl
  slots := rfl
  budget := rfl
  modes r := by
    have hrails : d.warmBase.rails = mapV d.rails fun _ x => x.warm := rfl
    rw [hrails]
    simp [Rail.warm]
  tile := by rw [Dev.warmBase]

theorem Dev.finishStart_onlyIn (d : Dev) (cold fallback skipped escalated : Bool) (ticks : Nat) :
    d.onlyIn (d.finishStart cold fallback skipped escalated ticks) [.sys, .pwmg, .sense] :=
  fun b hb => by cases b <;> simp_all [Dev.same, Dev.finishStart]

/-- The quads' rotation times and the chain's own state are nothing of what `KeepsStart` names. -/
theorem Dev.rotations_keepsStart (d : Dev) (c : Chord) (qs : Vector Quad 4) :
    d.KeepsStart { d with chord := c, sense := { d.sense with quads := qs } } :=
  (Dev.keepsStart_of_onlyIn (d.onlyIn_chord c)).trans ⟨rfl, rfl, rfl, rfl, rfl, rfl, rfl, rfl, rfl, rfl, rfl, rfl, fun _ => rfl⟩

/-- The end of a warm start from the device that its steps have left: the completion, the new state, and the causes raised anew. -/
theorem Dev.WarmBased.ran {d base noted : Dev} {t : Tile} {g : Tile → Tile} (hb : d.WarmBased base) (hk : (base.updTile g).KeepsStart noted)
    (ht : (g base.tile).tiled = t.tiled) (hr : (g base.tile).runB = t.runB) (hc : (g base.tile).committed = t.committed) (fb skipped : Bool)
    (ticks : Nat) (f : FaultMgr) (removed : Byte) (ts : Tick) (tbu : Bool) :
    d.WarmRan (({ (noted.finishStart false fb skipped false ticks).setStateAt (if noted.tile.tiled then .standby else .untiled) ts tbu with
      fault := f } : Dev).raiseAnew removed) t fb skipped := by
  have hdone := noted.finishStart_onlyIn false fb skipped false ticks
  have hsys : (noted.finishStart false fb skipped false ticks).sys = { noted.sys with
      start := none, duration := durationOf ticks, fallback := fb, sigSkipped := skipped, escalated := false, kindWarm := true, warmCount := satInc noted.sys.warmCount, rdyLowStart := false } := rfl
  have hrper : (noted.finishStart false fb skipped false ticks).pwmg.rper = noted.pwmg.rper := rfl
  have hcal : (noted.finishStart false fb skipped false ticks).sense.cal = noted.sense.cal := rfl
  have hunlock : (noted.finishStart false fb skipped false ticks).sense.unlockUntil = noted.sense.unlockUntil := rfl
  generalize noted.finishStart false fb skipped false ticks = done at *
  obtain ⟨hstate, hstateF⟩ := done.setStateAt_parts (if noted.tile.tiled then .standby else .untiled) ts tbu
  generalize done.setStateAt (if noted.tile.tiled then .standby else .untiled) ts tbu = put at *
  have hend := (put.onlyIn_fault f).thenIn (Dev.raiseAnew_onlyIn _ removed)
  generalize ({ put with fault := f } : Dev).raiseAnew removed = e at *
  have hall : done.onlyIn e [.sys, .lantern, .fault] := hstateF.thenIn hend
  have hkept : noted.onlyIn e [.sys, .pwmg, .sense, .lantern, .fault] := hdone.into.thenIn hall
  have hsp : e.sp = noted.sp := hkept .sp (by decide)
  have htrust : e.trust = noted.trust := hkept .trust (by decide)
  have hleave : e.leave = noted.leave := hkept .leave (by decide)
  have htile : e.tile = noted.tile := hkept .tile (by decide)
  have hpwmg : e.pwmg = done.pwmg := hall .pwmg (by decide)
  have hsense : e.sense = done.sense := hall .sense (by decide)
  have hesys : e.sys = put.sys := hend .sys (by decide)
  rw [hstate, hsys] at hesys
  have htiled : noted.tile.tiled = t.tiled := hk.tiled.trans ht
  have hmode : ∀ r : RailIx, e.rails[r].mode = .off := fun r => by
    rw [hkept .rails (by decide)]
    exact (hk.modes r).trans (hb.modes r)
  exact {
    clk := (hkept .clk (by decide)).trans (hk.clk.trans hb.clk)
    link := (hkept .link (by decide)).trans (hk.link.trans hb.link)
    vtab := by rw [hsp, hk.sp]; exact hb.vtab
    rper := by rw [hpwmg, hrper, hk.rper]; exact hb.rper
    cal := by rw [hsense, hcal, hk.cal]; exact hb.cal
    unlock := by rw [hsense, hunlock, hk.unlock]; exact hb.unlock
    slots := by rw [htrust, hk.trust]; exact hb.slots
    budget := by rw [hleave, hk.budget]; exact hb.budget
    modes := hmode
    tiled := by rw [htile]; exact htiled
    runB := by rw [htile, hk.runB]; exact hr
    committed := by rw [htile, hk.committed]; exact hc
    start := by rw [hesys]
    devState := by rw [hesys, htiled]
    kindWarm := by rw [hesys]
    warmCount := by rw [hesys, ← hb.sys]; exact congrArg (fun s : Sys => satInc s.warmCount) hk.sys
    rdyLow := by rw [hesys]
    fallback := by rw [hesys]
    sigSkipped := by rw [hesys] }

theorem Dev.warmRun_ran (d : Dev) (o : WarmOutcome) {t : Tile} {fb skipped : Bool}
    (hi : (d.warmBase.tile.fresh o.badSlotA o.badSlotB).warmImage d.warmBase.trust.keys = (t, fb, skipped)) : d.WarmRan (d.warmRun o) t fb skipped := by
  unfold Dev.warmRun
  have hbase := d.warmBase_based
  generalize d.warmBase = base at hi hbase
  extract_lets removed start
  rw [hi]
  dsimp -zeta only
  extract_lets imaged lined carded sense chord rotated warmed recorded noted finished faults
  have hlined : imaged.KeepsStart lined := Dev.keepsStart_of_onlyIn (imaged.fastLines_onlyIn _)
  have hcarded : lined.KeepsStart carded := ((Dev.keepsStart_of_onlyIn (lined.startCards_onlyIn false)).trans (Dev.startStructure_keepsStart _)).trans
    (Dev.keepsStart_of_onlyIn (Dev.startProt_onlyIn _))
  have hrotated : carded.KeepsStart rotated := carded.rotations_keepsStart _ _
  have hwarmed : rotated.onlyIn warmed [.fault] := rotated.onlyIn_fault _
  have hrecorded : warmed.onlyIn recorded [.lantern, .fault] := (warmed.warmGaps_onlyIn _).thenIn (Dev.warmRecord_onlyIn _)
  have hnoted : recorded.onlyIn noted [.lantern, .fault] := Dev.onlyIn_ite (recorded.noteNext_onlyIn _ _ _ _)
  have hk : imaged.KeepsStart noted := ((hlined.trans hcarded).trans hrotated).trans
    (Dev.keepsStart_of_onlyIn (hwarmed.into.thenIn hrecorded |>.thenIn hnoted : rotated.onlyIn noted [.lantern, .fault]))
  exact hbase.ran (t := t) hk rfl rfl rfl fb skipped o.ticks _ removed _ _

/-! ## The relock and the count of a start (R111, R134, R135) -/

theorem Clk.relock_tb (c : Clk) (l : BitVec 16) : (c.relock l).tbAt (c.relock l).now = (c.tbAt c.now + 1) / 2 * 2 := by
  have hoff : (c.relock l).tbAt (c.relock l).now =
      (((c.now + c.tbAt c.now % 2 : Nat) : Int) + ((evenUp (c.tbAt c.now) : Int) - (c.now + c.tbAt c.now % 2 : Nat)) - 0).toNat := rfl
  rw [hoff]
  generalize c.tbAt c.now = n
  unfold evenUp
  omega

/-- A start is counted as a failure at most once, and HOLD only with the third. -/
theorem BootCtl.count_hold {b : BootCtl} (h : b.hold = false) (hf : b.failCount.toNat < 2) (cause : BitVec 4) : (b.count cause).hold = false := by
  have hne : ¬b.failCount = 3 := fun h3 => by
    rw [h3] at hf
    exact absurd hf (by decide)
  have hnext : ¬b.failCount + 1 = 3 := fun h3 => by
    have htwo : b.failCount = 2 := by bv_omega
    rw [htwo] at hf
    exact absurd hf (by decide)
  have hcount : (b.count cause).hold = (b.hold || (if b.failCount = 3 then b.failCount else b.failCount + 1) == 3) := rfl
  rw [hcount, if_neg hne, h, Bool.false_or, beq_eq_false_iff_ne]
  exact hnext

/-- What the count of a start leaves. -/
theorem Dev.countStart_spec {d : Dev} (hh : d.sys.boot.hold = false) (hf : d.sys.boot.failCount.toNat < 2) :
    d.onlyIn d.countStart [.sys] ∧ d.countStart.sys.boot.hold = false ∧ d.countStart.sys.warmCount = d.sys.warmCount ∧ d.countStart.locked = d.locked := by
  unfold Dev.countStart
  split
  next p hp =>
    split
    · exact ⟨d.onlyIn_refl _, hh, rfl, rfl⟩
    · refine ⟨d.onlyIn_sys _, ?_, rfl, ?_⟩
      · dsimp only [Dev.updSys]
        split
        · exact BootCtl.count_hold hh hf _
        · exact hh
      · simp [Dev.locked, Dev.updSys, hp]
  next => exact ⟨d.onlyIn_refl _, hh, rfl, rfl⟩

/-! ## W5: the retained image (R130) -/

theorem Tile.fresh_runningSlot (t : Tile) (badA badB : Bool) : (t.fresh badA badB).runningSlot = t.runningSlot := by
  simp [Tile.runningSlot, Tile.fresh, Tile.mark]

theorem Tile.fresh_mark (t : Tile) (badA badB : Bool) : (t.fresh badA badB).mark = t.mark := by
  simp [Tile.fresh, Tile.mark]

theorem Tile.updSlot_mark (t : Tile) (b : Bool) (f : Slot → Slot) : (t.updSlot b f).mark = t.mark := by
  unfold Tile.updSlot
  split <;> rfl

theorem Tile.warmImage_holds {t : Tile} (keys : Keys) (h : t.digestHolds t.runningSlot = true) : ∃ t' : Tile,
    t.warmImage keys = (t', t.runningSlot != t.mark.slotB, true) ∧ t'.tiled = true ∧ t'.runB = t.runningSlot ∧ t'.committed = tilingOf (t.slot t.runningSlot).content := by
  have hmark : ∀ f : Slot → Slot, ((t.runs t.runningSlot (tilingOf (t.slot t.runningSlot).content)).updSlot t.runningSlot f).mark = t.mark := fun f =>
    Tile.updSlot_mark _ _ f
  refine ⟨(t.runs t.runningSlot (tilingOf (t.slot t.runningSlot).content)).updSlot t.runningSlot fun s => { s with state := .valid }, ?_, ?_⟩
  · unfold Tile.warmImage
    dsimp only
    rw [if_pos h, hmark]
  · unfold Tile.updSlot
    split <;> exact ⟨rfl, rfl, rfl⟩

/-! ## The warm start as an instruction -/

/-- The device after W3: relocked, with its line up anew where it had lost it. -/
def Dev.relocked (d : Dev) (lockUs : BitVec 16) : Dev :=
  ({ d with clk := d.clk.relock lockUs, link := if d.locked then d.link else d.link.lockAt d.clk.now } : Dev).openCycle

theorem Dev.relocked_onlyIn (d : Dev) (lockUs : BitVec 16) : d.onlyIn (d.relocked lockUs) [.clk, .link] := fun b hb => by
  cases b <;> simp_all [Dev.same, Dev.relocked]

theorem Dev.relocked_epoch (d : Dev) (lockUs : BitVec 16) : (d.relocked lockUs).link.epoch = if d.locked then d.link.epoch else d.link.epoch + 1 := by
  unfold Dev.relocked
  split <;> rfl

theorem Dev.warmSteps_run {d : Dev} {o : WarmOutcome} (hcut : o.cut = false) (hlock : o.noLock = false) (hw4 : o.w4Fails = false)
    (hh : d.countStart.sys.boot.hold = false) : d.warmSteps o = ((d.countStart.relocked o.lockUs).warmRun o, false) := by
  unfold Dev.warmSteps
  extract_lets e hold
  rw [if_neg (by simp [hcut]), if_neg (by simp [hlock]), if_neg (by simp [hw4])]
  exact if_neg (by simp [hold, e, hh])

theorem exec_warmStart_next {s : State} {t : Tick} {o : WarmOutcome} {p : StartPending} {d : Dev} (hs : (s.dev.advance t).sys.start = some p)
    (hp : p.cold = false) (h : (s.dev.advance t).warmSteps o = (d, false)) : exec (.warmStart t o) s = .next (s.after t d) := by
  rw [exec_warmStart, execWarmStart, State.runMem]
  simp only [hs, hp, h]
  rfl

end Sys2Proof.Machine

open Sys2Proof Sys2Proof.Machine

/-- Settles O12: the count of the start and the relock by their lemmas, W5 to W7 by `Dev.warmRun_ran`, the retained image by
    `Tile.warmImage_holds`. -/
theorem warmStartCompletes : Obligations.WarmStartCompletes := by
  intro s t o p d hs hp hcut hlock hw4 hhold hfail marks b
  obtain ⟨hcountF, hhold', hwarm, hlocked⟩ := Dev.countStart_spec hhold hfail
  have hcclk : d.countStart.clk = d.clk := hcountF .clk (by decide)
  have hclink : d.countStart.link = d.link := hcountF .link (by decide)
  have hclk : (d.countStart.relocked o.lockUs).clk = d.clk.relock o.lockUs := congrArg (fun c : Clk => c.relock o.lockUs) hcclk
  have hepoch : (d.countStart.relocked o.lockUs).link.epoch = if d.locked then d.link.epoch else d.link.epoch + 1 := by
    rw [Dev.relocked_epoch, hlocked, hclink]
  have hrelockF := d.countStart.relocked_onlyIn o.lockUs
  have hsys : (d.countStart.relocked o.lockUs).sys.warmCount = d.sys.warmCount := (congrArg Sys.warmCount (hrelockF .sys (by decide))).trans hwarm
  have hkept : d.onlyIn (d.countStart.relocked o.lockUs) [.sys, .clk, .link] := hcountF.into.thenIn hrelockF
  have hexec := exec_warmStart_next hs hp (Dev.warmSteps_run hcut hlock hw4 hhold')
  generalize d.countStart.relocked o.lockUs = e at hclk hepoch hsys hkept hexec
  have htile : e.warmBase.tile = d.tile := e.warmBase_based.tile.trans (hkept .tile (by decide))
  obtain ⟨⟨t', fb, skipped⟩, hi⟩ : ∃ x, (e.warmBase.tile.fresh o.badSlotA o.badSlotB).warmImage e.warmBase.trust.keys = x := ⟨_, rfl⟩
  have hran := e.warmRun_ran o hi
  generalize e.warmRun o = d' at hexec hran
  have hsp : e.sp = d.sp := hkept .sp (by decide)
  have hpwmg : e.pwmg = d.pwmg := hkept .pwmg (by decide)
  have hsense : e.sense = d.sense := hkept .sense (by decide)
  have htrust : e.trust = d.trust := hkept .trust (by decide)
  have hleave : e.leave = d.leave := hkept .leave (by decide)
  have hclk' : d'.clk = d.clk.relock o.lockUs := hran.clk.trans hclk
  have hnow : d'.clk.now = d.clk.now + d.tb % 2 := congrArg Clk.now hclk'
  refine ⟨d', hexec, hran.start, ?_, hran.kindWarm, ?_, hran.rdyLow, ?_, ?_, ?_, ?_, ?_, ?_, ?_, ?_, hran.modes, ?_, ?_, ?_, ?_, hran.unlock, ?_, fun hholds => ?image⟩
  · rw [hran.devState, hran.tiled]
  · rw [hran.warmCount, hsys]
  · rw [hclk']; rfl
  · rw [hclk']; rfl
  · rw [hclk']; rfl
  · rw [Dev.tb, hclk']
    exact d.clk.relock_tb o.lockUs
  · rw [hnow]
    exact Nat.le_add_right _ _
  · rw [hnow]
    exact Nat.add_le_add_left (Nat.le_of_lt_succ (Nat.mod_lt _ (by decide))) _
  · rw [hclk']; rfl
  · rw [hran.link, hepoch]
  · rw [hran.vtab, hsp]
  · rw [hran.rper, hpwmg]
  · rw [hran.cal, hsense]
  · rw [hran.slots, htrust]
  · rw [hran.budget, hleave]
  case image =>
    rw [htile] at hi
    have hrunning : (d.tile.fresh o.badSlotA o.badSlotB).runningSlot = b := Tile.fresh_runningSlot _ _ _
    obtain ⟨x, hx, htiled, hrun, hcommitted⟩ := Tile.warmImage_holds e.warmBase.trust.keys (t := d.tile.fresh o.badSlotA o.badSlotB) (hrunning ▸ hholds)
    rw [hx, Tile.fresh_mark, hrunning] at hi
    obtain ⟨rfl, rfl, rfl⟩ : x = t' ∧ (b != d.tile.mark.slotB) = fb ∧ true = skipped := by simpa using hi
    exact ⟨hran.tiled.trans htiled, hran.runB.trans (hrun.trans hrunning), hran.sigSkipped, by rw [hran.committed, hcommitted, hrunning], hran.fallback⟩

end

section
/-! SUPPORT. What stage D and stage E make of a phase's outputs (R210, R223). -/

namespace Sys2Proof.Machine

open Sys2Proof

/-- Stage D forces a phase off at stage E, whatever the stages before it say (R210). -/
theorem Dev.emitted_of_gateForce {d : Dev} {n : PhaseIx} (h : d.gateForce n = true) : d.emitted n = (false, false) := by
  simp [Dev.emitted, h]

/-- Stage E never lets both outputs through (R223). -/
theorem Dev.emitted_not_both (d : Dev) (n : PhaseIx) : d.emitted n ≠ (true, true) := by
  unfold Dev.emitted
  dsimp only
  split
  · simp
  · next h => exact fun e => h (by simpa using e)

theorem Dev.gateForce_of_latch {d : Dev} {n : PhaseIx} (h : d.prot.trips[n].latch = true ∨ d.pwm[n].ilkLatch = true) : d.gateForce n = true := by
  unfold Dev.gateForce
  rcases h with h | h
  · rw [h]; rfl
  · rw [h, Bool.or_true]

theorem Dev.gateForce_of_mustBeOff {d : Dev} (h : d.mustBeOff) (n : PhaseIx) : d.gateForce n = true := by
  unfold Dev.gateForce
  rcases h with h | h | h | h | h | h <;> simp [h]

theorem Dev.carrierRail_of_railOf {d : Dev} {n : PhaseIx} {r : RailIx} (h : d.railOf n = some r) : d.carrierRail n = some r := by
  simp [Dev.carrierRail, h]

theorem Dev.gateForce_of_mode {d : Dev} {n : PhaseIx} {r : RailIx} (hr : d.railOf n = some r)
    (h : d.rails[r].mode = .hiccup ∨ d.rails[r].mode = .hold ∨ (d.rails[r].mode = .off ∧ ¬(d.pwm[n].hostOvr = true ∧ d.pwm[n].hostStarted = true))) :
    d.gateForce n = true := by
  have hm {m : RailMode} (e : d.rails[r].mode = m) : (d.carrierRail n).map d.mode = some m := by
    rw [Dev.carrierRail_of_railOf hr]
    exact congrArg some e
  unfold Dev.gateForce
  rcases h with h | h | ⟨h, hstarted⟩
  · simp only [hm h, RailMode.switching, Bool.not_false, Bool.or_true, Bool.true_or]
  · simp only [hm h, RailMode.switching, Bool.not_false, Bool.or_true, Bool.true_or]
  · have hs : (d.pwm[n].hostOvr && d.pwm[n].hostStarted) = false := by simpa using hstarted
    simp only [hm h, hs, Bool.not_false, Bool.or_true, Bool.true_or]

end Sys2Proof.Machine

open Sys2Proof Sys2Proof.Machine

/-- Settles O8: each condition named is one of those under which `Dev.gateForce` holds, and a forced phase emits nothing. -/
theorem stageDHoldsEveryPhaseOff : Obligations.StageDHoldsEveryPhaseOff := by
  intro d
  refine ⟨fun h n => Dev.emitted_of_gateForce (Dev.gateForce_of_mustBeOff h n), fun n => ⟨fun h => ?latches, fun r hr h => ?modes, d.emitted_not_both n⟩⟩
  case latches => exact Dev.emitted_of_gateForce (Dev.gateForce_of_latch h)
  case modes => exact Dev.emitted_of_gateForce (Dev.gateForce_of_mode hr h)

/-- Settles O2: the gates are off because BOOT is one of the states that hold them off; the rest stands in the reset state as written. -/
theorem powerOnStateHolds : Obligations.PowerOnStateHolds := by
  have hboot : State.reset.dev.sys.devState = .boot := rfl
  have hgates : State.reset.dev.gatesOff :=
    (stageDHoldsEveryPhaseOff State.reset.dev).1 (Or.inr (Or.inr (Or.inr (Or.inl hboot))))
  have hmodes : ∀ r : RailIx, State.reset.dev.rails[r].mode = .off := by decide
  exact ⟨hboot, rfl, rfl, rfl, rfl, rfl, rfl, hmodes, hgates, rfl, rfl, rfl, rfl, rfl, rfl⟩

end

section
/-! SUPPORT. The requests of SYS.CTRL. -/

namespace Sys2Proof.Machine

open Sys2Proof

/-! ## Every rail forced to OFF (R37) -/

/-- A rail that is OFF stays so when another is stopped. -/
theorem Dev.commandOff_keepsOff (d : Dev) {k : RailIx} (r : RailIx) (h : d.rails[k].mode = .off) : (d.commandOff r).rails[k].mode = .off := by
  obtain ⟨hmode, -, -, -, -, hothers, -⟩ := d.commandOff_spec r
  rcases eq_or_ne k r with rfl | hk
  · exact hmode
  · rw [hothers k hk]
    exact h

theorem Dev.forceOff_mode (d : Dev) (r : RailIx) : d.forceOff.rails[r].mode = .off := by
  refine foldl_establishes (I := fun _ => True) (Q := fun e : Dev => e.rails[r].mode = .off) (fun _ _ _ => trivial) (fun e _ => ?_) (fun e k he => ?_)
    allRails (mem_allRails r) d trivial
  · split
    · assumption
    · exact (e.commandOff_spec r).1
  · split
    · exact he
    · exact e.commandOff_keepsOff k he

/-! ## MAINT_ENTER (R36, R37, R40) -/

/-- A RUN that this LOOP_CLK cycle has entered from STANDBY is dropped for MAINT (R40). -/
def Dev.dropsRun (d : Dev) : Prop := d.sys.devState = .run ∧ d.cyc.no = d.cycle ∧ d.cyc.state = .standby

theorem Dev.dropsRun_iff (d : Dev) : (d.sys.devState == .run && d.cyc.no == d.cycle && d.cyc.state == .standby) = true ↔ d.dropsRun := by
  simp [Dev.dropsRun, and_assoc]

theorem Dev.maintEnter_latched {d : Dev} (h : d.latchedNow = true) : d.maintEnter = (d, stFault) := if_pos h

theorem Dev.maintEnter_refused {d : Dev} (h : d.latchedNow = false) (hs : d.sys.devState ≠ .standby) (hl : d.sys.devState ≠ .latched)
    (hd : ¬d.dropsRun) : d.maintEnter = (d, stState) := by
  unfold Dev.maintEnter
  dsimp only
  rw [if_neg (Bool.eq_false_iff.1 h), if_neg]
  rw [Bool.or_eq_true, Bool.or_eq_true, Dev.dropsRun_iff, beq_iff_eq, beq_iff_eq]
  exact fun hc => hc.elim (fun hc => hc.elim hs hl) hd

/-- An accepted MAINT_ENTER stops every rail and then enters MAINT, from the device with a dropped RUN taken back. -/
theorem Dev.maintEnter_taken {d : Dev} (h : d.latchedNow = false) (hs : d.sys.devState = .standby ∨ d.sys.devState = .latched ∨ d.dropsRun) :
    ∃ e : Dev, d.maintEnter = ((e.forceOff.updSys fun s => { s with latchCause := 0 }).setState .maint, stOk) := by
  unfold Dev.maintEnter
  dsimp only
  rw [if_neg (Bool.eq_false_iff.1 h), if_pos]
  · exact ⟨_, rfl⟩
  · rw [Bool.or_eq_true, Bool.or_eq_true, Dev.dropsRun_iff, beq_iff_eq, beq_iff_eq, or_assoc]
    exact hs

/-- MAINT entered with every rail OFF. -/
theorem Dev.enterMaint_spec (e : Dev) : ∃ d' : Dev, (e.forceOff.updSys fun s => { s with latchCause := 0 }).setState .maint = d' ∧
    d'.sys.devState = .maint ∧ d'.sys.latchCause = 0 ∧ d'.allOff = true := by
  have hoff := e.forceOff_mode
  generalize e.forceOff = x at hoff
  obtain ⟨hsys, hframe⟩ := (x.updSys fun s => { s with latchCause := 0 }).setState_parts .maint
  refine ⟨_, rfl, by rw [hsys], by rw [hsys]; rfl, Dev.allOff_iff.2 ?_⟩
  rw [hframe.rails_eq]
  exact hoff

/-! ## MAINT_EXIT and LATCH_RELEASE (R36, R46, R199) -/

theorem Dev.releaseStatus_elsewhere {d : Dev} {st : DevState} (h : d.sys.devState ≠ st) : d.releaseStatus st = stState := if_pos (by simpa using h)

theorem Dev.releaseStatus_there {d : Dev} {st : DevState} (h : d.sys.devState = st) : d.releaseStatus st = if d.hasSevere then stCause else stOk :=
  if_neg (by simp [h])

theorem Dev.leaveMaint_refused {d : Dev} {st : Byte} (h : d.releaseStatus .maint = st) (hne : st ≠ stOk) : d.leaveMaint = (d, st) := by
  have hexit : d.maintExit = (d, st) := by
    unfold Dev.maintExit
    dsimp only
    rw [h, if_neg hne]
  simp only [Dev.leaveMaint, hexit, if_neg hne]

theorem Dev.leaveMaint_taken {d : Dev} (h : d.releaseStatus .maint = stOk) :
    d.leaveMaint = ((((List.finRange 64).foldl Dev.endHostOvr d).setState .standby).startLoading .restore, stOk) := by
  simp [Dev.leaveMaint, Dev.maintExit, h]

theorem Dev.endHostOvr_all (d : Dev) (n : PhaseIx) : ((List.finRange 64).foldl Dev.endHostOvr d).pwm[n].hostOvr = false := by
  refine foldl_establishes (I := fun _ => True) (Q := fun e : Dev => e.pwm[n].hostOvr = false) (fun _ _ _ => trivial) (fun e _ => (e.endHostOvr_pwm n).1)
    (fun e m he => ?_) _ (List.mem_finRange n) d trivial
  rcases eq_or_ne n m with rfl | hm
  · exact (e.endHostOvr_pwm n).1
  · rw [(e.endHostOvr_pwm m).2 n hm]
    exact he

theorem Dev.latchRelease_refused {d : Dev} {st : Byte} (h : (if d.latchedNow then stFault else d.releaseStatus .latched) = st) (hne : st ≠ stOk) :
    d.latchRelease = (d, st) := by
  unfold Dev.latchRelease
  dsimp only
  rw [h, if_neg hne]

theorem Dev.latchRelease_taken {d : Dev} (hl : d.latchedNow = false) (h : d.releaseStatus .latched = stOk) :
    d.latchRelease = ((d.updSys fun s => { s with latchCause := 0 }).setState (if d.allOff then .standby else .run), stOk) := by
  simp [Dev.latchRelease, hl, h]

/-! ## A WRITE of SYS.CTRL with other than one request (R45) -/

theorem requests_many : ∀ x : BitVec 3, 1 < ((List.finRange 3).filter fun i => x.getLsbD i.val).length → x ≠ 0 ∧ x ≠ 1 ∧ x ≠ 2 ∧ x ≠ 4 := by decide

theorem requests_none : ∀ x : BitVec 3, ((List.finRange 3).all fun i => !x.getLsbD i.val) = true → x = 0 := by decide

theorem fld_getLsbD (v : Word) (i : Fin 3) : (fld v 0 3).getLsbD i.val = v.getLsbD i.val := by
  simp [fld]

theorem Dev.writeSys_ctrl_many (d : Dev) {v : Word} (h : fld v 0 3 ≠ 0 ∧ fld v 0 3 ≠ 1 ∧ fld v 0 3 ≠ 2 ∧ fld v 0 3 ≠ 4) : d.writeSys 0x08 v = (d, stState) := by
  obtain ⟨h0, h1, h2, h4⟩ := h
  simp only [Dev.writeSys, if_neg h2]
  unfold Dev.writeSysCtrl
  split
  next h => exact absurd h h0
  next h => exact absurd h h1
  next h => exact absurd h h2
  next h => exact absurd h h4
  next => rfl

theorem Dev.writeSys_ctrl_none (d : Dev) {v : Word} (h : fld v 0 3 = 0) : d.writeSys 0x08 v = (d, stOk) := by
  simp [Dev.writeSys, Dev.writeSysCtrl, h]

/-- A WRITE of SYS.CTRL that executes and leaves the device as it is: its response. -/
theorem exec_write_sysCtrl {s : State} {t : Tick} {v : Word} {st : Byte} (hh : (s.dev.advance t).takesHost (.write t 0x000008 v))
    (hr : (s.dev.advance t).sys.retryPending = false) (h : (s.dev.advance t).writeSys 0x08 v = (s.dev.advance t, st)) :
    exec (.write t 0x000008 v) s = .next (s.after t ((s.dev.advance t).reply st)) := by
  refine exec_write_next hh ?_ hr
  rw [Dev.writeWord_reg _ _ _ (by decide) (by decide)]
  exact congrArg (fun x : Dev × Byte => (x.1, s.mem, x.2)) h

/-! ## The commands as instructions -/

theorem exec_maintEnter_next {s : State} {t : Tick} {d : Dev} {st : Byte} (hh : (s.dev.advance t).takesHost (.maintEnter t))
    (h : (s.dev.advance t).maintEnter = (d, st)) : exec (.maintEnter t) s = .next (s.after t (d.reply st)) := by
  rw [exec_maintEnter, execMaintEnter]
  exact State.hostWrite_next hh h

theorem exec_maintExit_next {s : State} {t : Tick} {d : Dev} {st : Byte} (hh : (s.dev.advance t).takesHost (.maintExit t))
    (h : (s.dev.advance t).leaveMaint = (d, st)) : exec (.maintExit t) s = .next (s.after t (d.reply st)) := by
  rw [exec_maintExit, execMaintExit]
  exact State.hostWrite_next hh h

theorem exec_latchRelease_next {s : State} {t : Tick} {d : Dev} {st : Byte} (hh : (s.dev.advance t).takesHost (.latchRelease t))
    (h : (s.dev.advance t).latchRelease = (d, st)) : exec (.latchRelease t) s = .next (s.after t (d.reply st)) := by
  rw [exec_latchRelease, execLatchRelease]
  exact State.hostWrite_next hh h

end Sys2Proof.Machine

open Sys2Proof Sys2Proof.Machine

/-- Settles O16: MAINT_ENTER by `Dev.forceOff_mode`, MAINT_EXIT by `Dev.endHostOvr_all`, and the refusals of each by the state and the status
    bits that stand. -/
theorem maintenanceAndLatchRelease : Obligations.MaintenanceAndLatchRelease := by
  intro s t d drops
  refine ⟨fun hh => ⟨fun hl => ?_, fun hl h => ?enter, fun hl hs hla hd => ?_⟩,
    fun hh => ⟨fun hm hsev => ?exit, fun hm hsev => ?_, fun hm => ?_⟩,
    fun hh => ⟨fun hl => ?_, fun hl hs hsev => ?release, fun hl hs hsev => ?_, fun hl hs => ?_⟩,
    fun v hh hr => ⟨fun h => ?many, fun h => ?none⟩⟩
  · exact exec_maintEnter_next hh (Dev.maintEnter_latched hl)
  case enter =>
    obtain ⟨e, he⟩ := Dev.maintEnter_taken hl h
    obtain ⟨d', hd', hstate, hcause, hoff⟩ := e.enterMaint_spec
    rw [hd'] at he
    refine ⟨_, exec_maintEnter_next hh he, Dev.reply_lastStatus _ _ _, ?_, ?_, ?_⟩
    · rw [Dev.reply_sys, hstate]
    · rw [Dev.reply_sys, hcause]
    · rw [Dev.allOff_iff, (Dev.reply_onlyIn _ stOk []).rails_eq, ← Dev.allOff_iff, hoff]
  · exact exec_maintEnter_next hh (Dev.maintEnter_refused hl hs hla hd)
  case exit =>
    have htaken := Dev.leaveMaint_taken (d := d) ((Dev.releaseStatus_there hm).trans (by rw [hsev]; rfl))
    obtain ⟨hsys, hframe⟩ := Dev.setState_parts ((List.finRange 64).foldl Dev.endHostOvr d) .standby
    generalize ((List.finRange 64).foldl Dev.endHostOvr d).setState .standby = e at htaken hsys hframe
    have hreply := (e.startLoading .restore).reply_onlyIn stOk []
    refine ⟨_, exec_maintExit_next hh htaken, Dev.reply_lastStatus _ _ _, ?_, ?_, ?_, fun n => ?_⟩
    · rw [Dev.reply_sys]
      exact congrArg Sys.devState hsys
    · rw [hreply .tile (by decide)]
      rfl
    · rw [Dev.reply_sys]
      rfl
    · rw [hreply .pwm (by decide)]
      exact (congrArg (fun p : Vector Pwm 64 => p[n].hostOvr) (hframe .pwm (by decide))).trans (d.endHostOvr_all n)
  · exact exec_maintExit_next hh (Dev.leaveMaint_refused ((Dev.releaseStatus_there hm).trans (by rw [hsev]; rfl)) (by decide))
  · exact exec_maintExit_next hh (Dev.leaveMaint_refused (Dev.releaseStatus_elsewhere hm) (by decide))
  · exact exec_latchRelease_next hh (Dev.latchRelease_refused (if_pos hl) (by decide))
  case release =>
    have htaken := Dev.latchRelease_taken hl ((Dev.releaseStatus_there hs).trans (by rw [hsev]; rfl))
    obtain ⟨hsys, hframe⟩ := (d.updSys fun s => { s with latchCause := 0 }).setState_parts (if d.allOff then .standby else .run)
    refine ⟨_, exec_latchRelease_next hh htaken, Dev.reply_lastStatus _ _ _, ?_, ?_, ?_⟩
    · rw [Dev.reply_sys, hsys]
    · rw [Dev.reply_sys, hsys]
      rfl
    · exact (Dev.onlyIn_step (d.onlyIn_sys _).into hframe).into.thenIn (Dev.reply_onlyIn _ stOk [])
  · refine exec_latchRelease_next hh (Dev.latchRelease_refused ?_ (by decide))
    rw [hl, if_neg (by decide), Dev.releaseStatus_there hs, hsev]
    rfl
  · refine exec_latchRelease_next hh (Dev.latchRelease_refused ?_ (by decide))
    rw [hl, if_neg (by decide), Dev.releaseStatus_elsewhere hs]
  case many => exact exec_write_sysCtrl hh hr (d.writeSys_ctrl_many (requests_many _ (by simpa only [fld_getLsbD] using h)))
  case none => exact exec_write_sysCtrl hh hr (d.writeSys_ctrl_none (requests_none _ (by simpa only [fld_getLsbD] using h)))

end

section
/-! SUPPORT. What a storage rail's commands leave behind (R378, R379, R382, R395). -/

namespace Sys2Proof.Machine

open Sys2Proof

/-! ## What a port's taking up of a phase may touch (R378 to R391)

    `d.PortStep d' p r ph`: a step on port `p` of rail `r` that leaves the port in phase `ph`. The rail's mode, the times of the port's decision
    points, every other port and every other rail stand in `d'` as in `d`. -/

structure Dev.PortStep (d d' : Dev) (p : PortIx) (r : RailIx) (ph : StPhase) : Prop where
  phase : d'.ports[p].phase = ph
  entered : d'.ports[p].entered = d.ports[p].entered
  nextPoint : d'.ports[p].nextPoint = d.ports[p].nextPoint
  ports : ∀ q : PortIx, q ≠ p → d'.ports[q] = d.ports[q]
  mode : d'.rails[r].mode = d.rails[r].mode
  rails : ∀ k : RailIx, k ≠ r → d'.rails[k] = d.rails[k]
  frame : d.onlyIn d' [.pwm, .loop, .rails, .ports, .fault, .lantern, .leave, .free]

theorem Dev.PortStep.refl (d : Dev) (p : PortIx) (r : RailIx) : d.PortStep d p r d.ports[p].phase :=
  ⟨rfl, rfl, rfl, fun _ _ => rfl, rfl, fun _ _ => rfl, d.onlyIn_refl _⟩

theorem Dev.PortStep.trans {a b c : Dev} {p : PortIx} {r : RailIx} {x y : StPhase} (h : a.PortStep b p r x) (k : b.PortStep c p r y) : a.PortStep c p r y where
  phase := k.phase
  entered := k.entered.trans h.entered
  nextPoint := k.nextPoint.trans h.nextPoint
  ports q hq := (k.ports q hq).trans (h.ports q hq)
  mode := k.mode.trans h.mode
  rails j hj := (k.rails j hj).trans (h.rails j hj)
  frame := h.frame.thenIn k.frame

/-- A further step that leaves the phase. -/
theorem Dev.PortStep.keep {a b c : Dev} {p : PortIx} {r : RailIx} {x : StPhase} (h : a.PortStep b p r x) (k : b.PortStep c p r b.ports[p].phase) :
    a.PortStep c p r x := h.trans (h.phase ▸ k)

theorem Dev.portStep_ite {d a : Dev} {p : PortIx} {r : RailIx} {c : Prop} [Decidable c] (h : d.PortStep a p r d.ports[p].phase) :
    d.PortStep (if c then a else d) p r d.ports[p].phase := by
  split
  · exact h
  · exact .refl d p r

/-- A step that touches no port and, of the rails, at most what is not the mode of `r`. -/
theorem Dev.portStep_of_sameModes {d d' : Dev} {bs : List Block} (p : PortIx) {r : RailIx} (h : d.onlyIn d' bs) (hm : d.SameModes d' r)
    (hp : Block.ports ∉ bs := by decide) (hs : bs ⊆ [.pwm, .loop, .rails, .ports, .fault, .lantern, .leave, .free] := by decide) :
    d.PortStep d' p r d.ports[p].phase := by
  have hports : d'.ports = d.ports := h .ports hp
  exact ⟨by rw [hports], by rw [hports], by rw [hports], fun q _ => by rw [hports], hm.1, hm.2, h.into hs⟩

/-- A step that touches no port and no rail. -/
theorem Dev.portStep_of_onlyIn {d d' : Dev} {bs : List Block} (p : PortIx) (r : RailIx) (h : d.onlyIn d' bs) (hp : Block.ports ∉ bs := by decide)
    (hr : Block.rails ∉ bs := by decide) (hs : bs ⊆ [.pwm, .loop, .rails, .ports, .fault, .lantern, .leave, .free] := by decide) :
    d.PortStep d' p r d.ports[p].phase :=
  Dev.portStep_of_sameModes p h (Dev.sameModes_of_onlyIn r h hr) hp hs

theorem Dev.updPort_portStep (d : Dev) (p : PortIx) (r : RailIx) (f : Port → Port) (he : (f d.ports[p]).entered = d.ports[p].entered)
    (hn : (f d.ports[p]).nextPoint = d.ports[p].nextPoint) : d.PortStep (d.updPort p f) p r (f d.ports[p]).phase where
  phase := by simp
  entered := by simpa using he
  nextPoint := by simpa using hn
  ports q hq := by simp [hq]
  mode := rfl
  rails _ _ := rfl
  frame := (d.updPort_onlyIn p f).into

/-! ## The members a phase calls for (R383) -/

theorem Dev.SameModes.refl (d : Dev) (r : RailIx) : d.SameModes d r := ⟨rfl, fun _ _ => rfl⟩

theorem Dev.respread_sameModes (d : Dev) (r : RailIx) : d.SameModes (d.respread r) r :=
  Dev.respread_related (P := fun d d' : Dev => d.SameModes d' r) (fun e => .refl e r) .trans d r (fun e _ => e.updRail_sameModes r _ rfl)
    fun e n _ => Dev.sameModes_of_onlyIn r (e.updPwm_onlyIn n _)

theorem Dev.withdrawAdd_sameModes (d : Dev) (r : RailIx) : d.SameModes (d.withdrawAdd r) r := by
  unfold Dev.withdrawAdd
  split
  · exact (Dev.sameModes_of_onlyIn r (d.onlyIn_leave _)).trans (Dev.updRail_sameModes _ r _ rfl)
  · exact .refl d r

theorem Dev.shedDown_sameModes (d : Dev) (r : RailIx) (count : Nat) : d.SameModes (d.shedDown r count) r := by
  unfold Dev.shedDown
  split
  · exact .refl d r
  · exact ((Dev.sameModes_of_onlyIn r (Dev.dropTo_onlyIn r count 64 d)).trans (Dev.respread_sameModes _ r)).trans
      (Dev.sameModes_of_onlyIn r (Dev.syncCtx_onlyIn _ r))

theorem Dev.fitMembers_sameModes (d : Dev) (p : PortIx) (r : RailIx) : d.SameModes (d.fitMembers p r) r := by
  unfold Dev.fitMembers
  dsimp only
  refine (d.shedDown_sameModes r (d.portMembers p r)).trans ?_
  split
  · exact Dev.withdrawAdd_sameModes _ r
  · exact .refl _ r

/-! ## The steps of a taking up -/

theorem Dev.setPhase_portStep (d : Dev) (p : PortIx) (r : RailIx) (ph : StPhase) (cause : BitVec 2) : d.PortStep (d.setPhase p r ph cause) p r ph := by
  unfold Dev.setPhase
  extract_lets x put noted
  have hput : d.PortStep put p r ph := d.updPort_portStep p r _ rfl rfl
  have hnote : put.onlyIn noted [.lantern, .fault] := Dev.onlyIn_ite' (put.note_onlyIn _ _ _ _)
  exact hput.keep (Dev.portStep_of_onlyIn p r (hnote.thenIn (noted.portCauses_onlyIn p)))
    |>.keep (Dev.portStep_of_sameModes p (Dev.fitMembers_onlyIn _ p r) (Dev.fitMembers_sameModes _ p r))
    |>.keep (Dev.portStep_of_onlyIn p r (Dev.syncCtx_onlyIn _ r))

/-- VOUT, and of the port what R382 compares it with. -/
def Dev.sameVout (d d' : Dev) (p : PortIx) (r : RailIx) : Prop :=
  d'.rails[r].vstale = d.rails[r].vstale ∧ d'.rails[r].vout = d.rails[r].vout ∧ d'.ports[p].vTrickle = d.ports[p].vTrickle ∧
    d'.ports[p].vPre = d.ports[p].vPre ∧ d'.ports[p].vCv = d.ports[p].vCv ∧ d'.ports[p].safe = d.ports[p].safe

/-- The phase that VOUT calls for, NONE while it is stale (R382). -/
def Dev.phaseTaken (d : Dev) (p : PortIx) (r : RailIx) : StPhase := if d.rails[r].vstale then .none else d.phaseByVout p r

theorem Dev.sameVout.phaseTaken {d d' : Dev} {p : PortIx} {r : RailIx} (h : d.sameVout d' p r) : d'.phaseTaken p r = d.phaseTaken p r := by
  obtain ⟨hstale, hvout, htrickle, hpre, hcv, hsafe⟩ := h
  simp only [Dev.phaseTaken, Dev.phaseByVout, hstale, hvout, htrickle, hpre, hcv, hsafe]

theorem Dev.takePhase_portStep (d : Dev) (p : PortIx) (r : RailIx) : d.PortStep (d.takePhase p r) p r (d.phaseTaken p r) := by
  unfold Dev.takePhase Dev.phaseTaken
  split
  · exact (d.updPort_portStep p r _ rfl rfl).trans (Dev.setPhase_portStep _ p r _ _)
  · exact (d.updPort_portStep p r _ rfl rfl).trans (Dev.setPhase_portStep _ p r _ _)

theorem Dev.resumeZero_onlyIn (d : Dev) (p : PortIx) (r : RailIx) : d.onlyIn (d.resumeZero p r) [.loop] := by
  unfold Dev.resumeZero
  extract_lets outer
  have houter : d.onlyIn outer [.loop] := Dev.onlyIn_ite (d.preload_onlyIn _ _ _ _)
  split
  · exact houter.thenIn (Dev.onlyIn_ite (outer.preload_onlyIn _ _ _ _))
  · exact houter

theorem Dev.resumeZero_portStep (d : Dev) (p : PortIx) (r : RailIx) : d.PortStep (d.resumeZero p r) p r d.ports[p].phase :=
  Dev.portStep_of_onlyIn p r (d.resumeZero_onlyIn p r)

theorem Dev.handToCv_portStep (d : Dev) (p : PortIx) (r : RailIx) (k : Nat) : d.PortStep (d.handToCv r k) p r d.ports[p].phase :=
  Dev.portStep_ite (Dev.portStep_of_onlyIn p r (d.preload_onlyIn _ _ _ _))

theorem Dev.setINow_portStep (d : Dev) (p : PortIx) (r : RailIx) (i : Int) : d.PortStep (d.setINow p i) p r d.ports[p].phase :=
  (Dev.portStep_of_onlyIn p r (d.fit_onlyIn i)).keep (Dev.updPort_portStep _ p r _ rfl rfl)

theorem Dev.writeBusRef_onlyIn (d : Dev) (r : RailIx) (c : CtxIx) (mv : Nat) : d.onlyIn (d.writeBusRef r c mv) [.loop, .free] := by
  unfold Dev.writeBusRef
  dsimp only
  split
  · exact d.setRef_onlyIn c 0
  · split
    · exact (d.onlyIn_free _).into.thenIn (Dev.updCtx_onlyIn _ c _)
    · exact d.setRef_onlyIn c _

theorem Dev.wickExpire_portStep (d : Dev) (p : PortIx) (r : RailIx) (t : Tick) : d.PortStep (d.wickExpire p t) p r d.ports[p].phase := by
  unfold Dev.wickExpire
  dsimp only
  split
  · split
    · exact (d.updPort_portStep p r _ rfl rfl).keep (Dev.portStep_of_onlyIn p r (Dev.onlyIn_of_cyc (Dev.setCause_onlyIn _ _ _ _ _)))
    · exact .refl d p r
  · exact .refl d p r

theorem Dev.wickExpire_stopped {d : Dev} {p : PortIx} (h : d.ports[p].wickAt = none) (t : Tick) : d.wickExpire p t = d := by
  unfold Dev.wickExpire
  dsimp only
  split
  next e he => cases h.symm.trans he
  next => rfl

/-- RELIGHT leaves the port's phase, ends WICK_OUT and, where the timer stands, takes nothing for an expiry (R395, R397). -/
theorem Dev.relight_spec (d : Dev) (p : PortIx) (r : RailIx) : d.PortStep (d.relight p) p r d.ports[p].phase ∧ (d.relight p).ports[p].wickOut = false ∧
    (d.ports[p].wickAt = none → d.sameVout (d.relight p) p r) := by
  unfold Dev.relight
  extract_lets expired runs lit
  have hexpire : d.PortStep expired p r d.ports[p].phase := d.wickExpire_portStep p r _
  have hlit : expired.PortStep lit p r expired.ports[p].phase := expired.updPort_portStep p r _ rfl rfl
  have hcause := lit.setCause_onlyIn (srcWickOut p) 0 false []
  have hports : (lit.setCause (srcWickOut p) 0 false).ports = lit.ports := hcause .ports (by decide)
  refine ⟨(hexpire.keep hlit).keep (Dev.portStep_of_onlyIn p r hcause), ?_, fun hnone => ?_⟩
  · rw [hports]
    simp [lit]
  · have hidle : expired = d := Dev.wickExpire_stopped hnone _
    simp only [Dev.sameVout, hports, hcause.rails_eq]
    simp [lit, hidle]

/-! ## The port takes up CHARGE or SUPPORT (R380, R382, R389, R391) -/

theorem Dev.portCharge_portStep (d : Dev) (p : PortIx) (r : RailIx) (fromSupport : Bool) :
    (d.startPoints p).PortStep (d.portCharge p r fromSupport) p r (d.phaseTaken p r) := by
  have hsame : d.sameVout (d.startPoints p) p r := by simp [Dev.sameVout, Dev.startPoints]
  unfold Dev.portCharge
  extract_lets iref ma stopped taken ph handed
  have htaken : (d.startPoints p).PortStep taken p r (d.phaseTaken p r) := hsame.phaseTaken ▸ Dev.takePhase_portStep _ p r
  have hhanded : taken.PortStep handed p r taken.ports[p].phase := Dev.portStep_ite (taken.handToCv_portStep p r _)
  split
  · exact htaken.keep (taken.resumeZero_portStep p r)
  · split
    · exact (htaken.keep hhanded).keep (Dev.portStep_ite (handed.setINow_portStep p r ma))
    · exact htaken

theorem Dev.portSupport_portStep (d : Dev) (p : PortIx) (r : RailIx) (fromCharge : Bool) :
    (d.startPoints p).PortStep (d.portSupport p r fromCharge) p r .boost := by
  unfold Dev.portSupport
  extract_lets iref resumes boost
  have hboost : (d.startPoints p).PortStep boost p r .boost := Dev.setPhase_portStep _ p r _ _
  split
  next c _ =>
    refine (hboost.keep (Dev.portStep_of_onlyIn p r (boost.writeBusRef_onlyIn r c boost.ports[p].vSup.toNat))).keep ?_
    dsimp only
    split
    · exact Dev.resumeZero_portStep _ p r
    · exact Dev.portStep_ite (Dev.portStep_of_onlyIn p r (Dev.preload_onlyIn _ _ _ _ _))
  · exact hboost

/-! ## The rail enters CHARGE or SUPPORT (R36, R379) -/

/-- The mode change of an entry and what leaving OFF starts, before the port takes up its mode. -/
def Dev.intoStorage (d : Dev) (r : RailIx) (m : RailMode) : Dev :=
  let e := (d.updRail r fun x => { x with toffAt := none }).changeMode r m
  if d.mode r = .off then e.leftOff r else e

theorem Dev.portOf_of_tile {d d' : Dev} (h : d'.tile = d.tile) (r : RailIx) : d'.portOf r = d.portOf r := by
  simp only [Dev.portOf, h]

/-- What leaving OFF does to the ports: the rail's own is relit, the others stand. -/
theorem Dev.leftOff_ports {d : Dev} {p : PortIx} {r : RailIx} (hp : d.portOf r = some p) : (d.leftOff r).ports = (d.relight p).ports := by
  unfold Dev.leftOff
  rw [hp]
  exact Dev.railLeftOff_onlyIn _ .ports (by decide)

/-- A rail's way into CHARGE or SUPPORT, before its port takes a phase (R378). -/
structure Dev.IntoStorage (d e : Dev) (p : PortIx) (r : RailIx) (m : RailMode) : Prop where
  mode : e.rails[r].mode = m
  rails : ∀ k : RailIx, k ≠ r → e.rails[k] = d.rails[k]
  ports : ∀ q : PortIx, q ≠ p → e.ports[q] = d.ports[q]
  state : e.sys.devState = if d.rails[r].mode = .off then .run else d.sys.devState
  vout : (d.rails[r].mode = .off → d.ports[p].wickAt = none) → d.sameVout e p r
  frame : d.onlyIn e [.sys, .pwm, .loop, .rails, .prot, .ports, .fault, .lantern, .leave]

theorem Dev.intoStorage_spec {d : Dev} {p : PortIx} {r : RailIx} (m : RailMode) (hp : d.portOf r = some p)
    (hst : d.sys.devState = .standby ∨ d.sys.devState = .run) : d.IntoStorage (d.intoStorage r m) p r m := by
  unfold Dev.intoStorage
  extract_lets e
  have hpre := d.updRail_onlyIn r fun x => { x with toffAt := none }
  have he : d.onlyIn e [.pwm, .rails, .loop, .prot, .fault, .leave] := hpre.into.thenIn (Dev.changeMode_onlyIn _ r m)
  have hports : e.ports = d.ports := he .ports (by decide)
  have hsys : e.sys = d.sys := he .sys (by decide)
  obtain ⟨since, olt, hrails⟩ : ∃ since olt, e.rails = (d.updRail r fun x => { x with toffAt := none }).rails.set r
      { (d.updRail r fun x => { x with toffAt := none }).rails[r] with mode := m, regSince := since, oltEn := olt } := Dev.changeMode_rails _ r m
  have hmode : e.rails[r].mode = m := by simp [hrails]
  have hvout : e.rails[r].vstale = d.rails[r].vstale ∧ e.rails[r].vout = d.rails[r].vout := by simp [hrails]
  have hothers : ∀ k : RailIx, k ≠ r → e.rails[k] = d.rails[k] := fun k hk => by
    have hne : r.val ≠ k.val := fun h => hk (Fin.ext h.symm)
    simp [hrails, hne, hk]
  by_cases hoff : d.rails[r].mode = .off
  · have hleft := e.leftOff_onlyIn r
    have hlit : (e.leftOff r).ports = (e.relight p).ports := Dev.leftOff_ports ((Dev.portOf_of_tile (he .tile (by decide)) r).trans hp)
    obtain ⟨hstep, -, hwick⟩ := e.relight_spec p r
    rw [if_pos (show d.mode r = .off from hoff)]
    refine ⟨by rw [hleft.rails_eq]; exact hmode, fun k hk => by rw [hleft.rails_eq]; exact hothers k hk, fun q hq => ?_, ?_, fun hnone => ?_, he.into.thenIn hleft⟩
    · rw [hlit, hstep.ports q hq, hports]
    · rw [if_pos hoff]
      exact e.leftOff_running r (by rw [hsys]; exact hst)
    · obtain ⟨-, -, htrickle, hpre, hcv, hsafe⟩ := hwick (by rw [hports]; exact hnone hoff)
      simp only [Dev.sameVout, hleft.rails_eq, hlit, htrickle, hpre, hcv, hsafe, hports, hvout.1, hvout.2, and_self]
  · rw [if_neg (show d.mode r ≠ .off from hoff)]
    refine ⟨hmode, hothers, fun q _ => by rw [hports], by rw [if_neg hoff, hsys], fun _ => ?_, he.into⟩
    simp only [Dev.sameVout, hports, hvout.1, hvout.2, and_self]

theorem Dev.cycleTick_of_clk {d d' : Dev} (h : d'.clk = d.clk) : d'.cycleTick = d.cycleTick := by
  unfold Dev.cycleTick Dev.cycle
  rw [h]

/-- What an accepted CHARGE or SUPPORT from OFF or from the other mode leaves, but for the phase. -/
structure Dev.StorageEntered (d d' : Dev) (p : PortIx) (r : RailIx) (m : RailMode) (ph : StPhase) : Prop where
  mode : d'.rails[r].mode = m
  state : d'.sys.devState = if d.rails[r].mode = .off then .run else d.sys.devState
  wickOut : d'.ports[p].wickOut = false
  phase : d'.ports[p].phase = ph
  entered : d'.ports[p].entered = d.cycleTick
  nextPoint : d'.ports[p].nextPoint = some (d.cycleTick + 480000)
  ports : ∀ q : PortIx, q ≠ p → d'.ports[q] = d.ports[q]
  rails : ∀ k : RailIx, k ≠ r → d'.rails[k] = d.rails[k]
  frame : d.onlyIn d' [.sys, .pwm, .loop, .rails, .prot, .ports, .fault, .lantern, .leave, .free, .link]

/-- The response to the command changes nothing of it. -/
theorem Dev.StorageEntered.replied {d e : Dev} {p : PortIx} {r : RailIx} {m : RailMode} {ph : StPhase} (h : d.StorageEntered e p r m ph) (st : Byte) :
    d.StorageEntered (e.reply st) p r m ph := by
  have hreply := e.reply_onlyIn st []
  have hports : (e.reply st).ports = e.ports := hreply .ports (by decide)
  have hsys : (e.reply st).sys = e.sys := hreply .sys (by decide)
  obtain ⟨hmode, hstate, hwick, hphase, hat, hnext, hothers, hrails, hframe⟩ := h
  rw [← hports] at hwick hphase hat hnext hothers
  rw [← hreply.rails_eq] at hmode hrails
  rw [← hsys] at hstate
  exact ⟨hmode, hstate, hwick, hphase, hat, hnext, hothers, hrails, hframe.thenIn hreply⟩

/-- An entry is the mode change, the start of the decision points, and a taking up of the mode with its phase. -/
theorem Dev.storageEntered_of_portStep {d e f : Dev} {p : PortIx} {r : RailIx} {m : RailMode} {ph : StPhase} (h : d.IntoStorage e p r m)
    (k : (e.startPoints p).PortStep f p r ph) : d.StorageEntered ((f.checkUnderphased r).relight p) p r m ph := by
  obtain ⟨hlit, hwick, -⟩ := (f.checkUnderphased r).relight_spec p r
  have hstep := (k.keep (Dev.portStep_of_onlyIn p r (f.checkUnderphased_onlyIn r))).keep hlit
  have htick : e.cycleTick = d.cycleTick := Dev.cycleTick_of_clk (h.frame .clk (by decide))
  have hstart : e.onlyIn (e.startPoints p) [.ports] := e.updPort_onlyIn p _
  have hsys : ((f.checkUnderphased r).relight p).sys = e.sys := (hstep.frame .sys (by decide)).trans (hstart .sys (by decide))
  refine ⟨hstep.mode.trans h.mode, by rw [hsys]; exact h.state, hwick, hstep.phase, hstep.entered.trans ?_, hstep.nextPoint.trans ?_, fun q hq => ?_,
    fun j hj => (hstep.rails j hj).trans (h.rails j hj), h.frame.into.thenIn hstart |>.thenIn hstep.frame⟩
  · simp [Dev.startPoints, htick]
  · simp [Dev.startPoints, htick, msTicks]
  · rw [hstep.ports q hq, ← h.ports q hq]
    simp [Dev.startPoints, hq]

theorem Dev.enterStorage_charge (d : Dev) (p : PortIx) (r : RailIx) :
    d.enterStorage p r .charge = ((d.intoStorage r .charge).portCharge p r (d.mode r == .support)).checkUnderphased r := by
  unfold Dev.enterStorage
  dsimp only
  rw [if_pos rfl]
  rfl

theorem Dev.enterStorage_support (d : Dev) (p : PortIx) (r : RailIx) :
    d.enterStorage p r .support = ((d.intoStorage r .support).portSupport p r (d.mode r == .charge)).checkUnderphased r := by
  unfold Dev.enterStorage
  dsimp only
  rw [if_neg (by decide)]
  rfl

/-! ## The commands of a storage rail (R378) -/

/-- What refuses a storage command before the rail's mode is looked at; `x` is the answer where nothing does. -/
def Dev.storageGate (d : Dev) (r : RailIx) (x : Dev × Byte) : Dev × Byte :=
  if d.sharedCmd r false = .refused then (d, stState)
  else if d.latchedNow then (d, stFault)
  else if d.deviceBars r then (d, stState)
  else if d.faultBars r then (d, stFault)
  else x

theorem Dev.storageGate_shared {d : Dev} {r : RailIx} (x : Dev × Byte) (h : ¬d.ownCmd r) : d.storageGate r x = (d, stState) :=
  if_pos (Dev.sharedCmd_refused h (by simp))

theorem Dev.storageGate_own {d : Dev} {r : RailIx} (x : Dev × Byte) (h : d.ownCmd r) : d.storageGate r x =
    if d.latchedNow then (d, stFault) else if d.deviceBars r then (d, stState) else if d.faultBars r then (d, stFault) else x :=
  if_neg (by rw [Dev.sharedCmd_own false h]; decide)

theorem Dev.storageGate_fault {d : Dev} {r : RailIx} (x : Dev × Byte) (h : d.ownCmd r)
    (hf : d.latchedNow = true ∨ d.deviceBars r = false ∧ d.faultBars r = true) : d.storageGate r x = (d, stFault) := by
  rw [Dev.storageGate_own x h]
  by_cases hl : d.latchedNow = true
  · exact if_pos hl
  · obtain ⟨hb, hf⟩ := hf.resolve_left hl
    rw [if_neg hl, if_neg (Bool.eq_false_iff.1 hb), if_pos hf]

theorem Dev.storageGate_barred {d : Dev} {r : RailIx} (x : Dev × Byte) (h : d.ownCmd r) (hl : d.latchedNow = false) (hb : d.deviceBars r = true) :
    d.storageGate r x = (d, stState) := by
  rw [Dev.storageGate_own x h, if_neg (Bool.eq_false_iff.1 hl), if_pos hb]

theorem Dev.storageGate_open {d : Dev} {r : RailIx} (x : Dev × Byte) (h : d.ownCmd r) (hl : d.latchedNow = false) (hb : d.deviceBars r = false)
    (hf : d.faultBars r = false) : d.storageGate r x = x := by
  rw [Dev.storageGate_own x h, if_neg (Bool.eq_false_iff.1 hl), if_neg (Bool.eq_false_iff.1 hb), if_neg (Bool.eq_false_iff.1 hf)]

/-- What CHARGE answers by the rail's mode, where nothing bars the rail. -/
def Dev.chargeAsked (d : Dev) (p : PortIx) (r : RailIx) : Dev × Byte := match d.mode r with
  | .off | .support => if d.chargeReady p r then ((d.enterStorage p r .charge).relight p, stOk) else (d, stState)
  | .charge => if d.ports[p].phase = .stopped then (((d.takePhase p r).resumeZero p r).relight p, stOk) else (d, stOk)
  | _ => (d, stState)

/-- What SUPPORT answers by the rail's mode, where nothing bars the rail. -/
def Dev.supportAsked (d : Dev) (p : PortIx) (r : RailIx) : Dev × Byte := match d.mode r with
  | .off | .charge => if d.supportReady p r then ((d.enterStorage p r .support).relight p, stOk) else (d, stState)
  | .support =>
    if d.ports[p].phase = .stopped then
      if (d.ports[p].vCutoff.toNat : Int) < d.rails[r].vout.toInt then (((d.setPhase p r .boost).resumeZero p r).relight p, stOk) else (d, stState)
    else (d, stOk)
  | _ => (d, stState)

theorem Dev.cmdCharge_noPort {d : Dev} {r : RailIx} (h : d.portOf r = none) : d.cmdCharge r = (d, stState) := by
  unfold Dev.cmdCharge
  rw [h]

theorem Dev.cmdSupport_noPort {d : Dev} {r : RailIx} (h : d.portOf r = none) : d.cmdSupport r = (d, stState) := by
  unfold Dev.cmdSupport
  rw [h]

theorem Dev.cmdCharge_port {d : Dev} {p : PortIx} {r : RailIx} (h : d.portOf r = some p) : d.cmdCharge r = d.storageGate r (d.chargeAsked p r) := by
  unfold Dev.cmdCharge
  rw [h]
  rfl

theorem Dev.cmdSupport_port {d : Dev} {p : PortIx} {r : RailIx} (h : d.portOf r = some p) : d.cmdSupport r = d.storageGate r (d.supportAsked p r) := by
  unfold Dev.cmdSupport
  rw [h]
  rfl

theorem Dev.chargeAsked_elsewhere {d : Dev} (p : PortIx) {r : RailIx} (ho : d.rails[r].mode ≠ .off) (hc : d.rails[r].mode ≠ .charge)
    (hs : d.rails[r].mode ≠ .support) : d.chargeAsked p r = (d, stState) := by
  unfold Dev.chargeAsked
  split
  next h => exact absurd h ho
  next h => exact absurd h hs
  next h => exact absurd h hc
  next => rfl

theorem Dev.supportAsked_elsewhere {d : Dev} (p : PortIx) {r : RailIx} (ho : d.rails[r].mode ≠ .off) (hc : d.rails[r].mode ≠ .charge)
    (hs : d.rails[r].mode ≠ .support) : d.supportAsked p r = (d, stState) := by
  unfold Dev.supportAsked
  split
  next h => exact absurd h ho
  next h => exact absurd h hc
  next h => exact absurd h hs
  next => rfl

theorem Dev.chargeAsked_enters {d : Dev} {p : PortIx} {r : RailIx} (h : d.rails[r].mode = .off ∨ d.rails[r].mode = .support) :
    d.chargeAsked p r = if d.chargeReady p r then ((d.enterStorage p r .charge).relight p, stOk) else (d, stState) := by
  unfold Dev.chargeAsked
  rcases h with h | h
  · rw [show d.mode r = .off from h]
  · rw [show d.mode r = .support from h]

theorem Dev.supportAsked_enters {d : Dev} {p : PortIx} {r : RailIx} (h : d.rails[r].mode = .off ∨ d.rails[r].mode = .charge) :
    d.supportAsked p r = if d.supportReady p r then ((d.enterStorage p r .support).relight p, stOk) else (d, stState) := by
  unfold Dev.supportAsked
  rcases h with h | h
  · rw [show d.mode r = .off from h]
  · rw [show d.mode r = .charge from h]

theorem Dev.chargeAsked_there {d : Dev} {p : PortIx} {r : RailIx} (h : d.rails[r].mode = .charge) :
    d.chargeAsked p r = if d.ports[p].phase = .stopped then (((d.takePhase p r).resumeZero p r).relight p, stOk) else (d, stOk) := by
  unfold Dev.chargeAsked
  rw [show d.mode r = .charge from h]

theorem Dev.supportAsked_there {d : Dev} {p : PortIx} {r : RailIx} (h : d.rails[r].mode = .support) :
    d.supportAsked p r = if d.ports[p].phase = .stopped then
        if (d.ports[p].vCutoff.toNat : Int) < d.rails[r].vout.toInt then (((d.setPhase p r .boost).resumeZero p r).relight p, stOk) else (d, stState)
      else (d, stOk) := by
  unfold Dev.supportAsked
  rw [show d.mode r = .support from h]

/-! ## What an accepted command does -/

theorem Dev.enterCharge_spec {d : Dev} {p : PortIx} {r : RailIx} (hp : d.portOf r = some p) (hst : d.sys.devState = .standby ∨ d.sys.devState = .run) :
    ∃ ph, d.StorageEntered ((d.enterStorage p r .charge).relight p) p r .charge ph ∧
      ((d.rails[r].mode = .off → d.ports[p].wickAt = none) → ph = d.phaseTaken p r) := by
  have hinto := Dev.intoStorage_spec .charge hp hst
  rw [d.enterStorage_charge p r]
  exact ⟨_, Dev.storageEntered_of_portStep hinto (Dev.portCharge_portStep _ p r _), fun hw => (hinto.vout hw).phaseTaken⟩

theorem Dev.enterSupport_spec {d : Dev} {p : PortIx} {r : RailIx} (hp : d.portOf r = some p) (hst : d.sys.devState = .standby ∨ d.sys.devState = .run) :
    d.StorageEntered ((d.enterStorage p r .support).relight p) p r .support .boost := by
  rw [d.enterStorage_support p r]
  exact Dev.storageEntered_of_portStep (Dev.intoStorage_spec .support hp hst) (Dev.portSupport_portStep _ p r _)

/-- A port that has taken its phase anew in its own mode resumes from 0, its timer is relit, and the command is answered (R382, R391). -/
theorem Dev.PortStep.resumed {d e : Dev} {p : PortIx} {r : RailIx} {ph : StPhase} (h : d.PortStep e p r ph) (st : Byte) :
    let d' := ((e.resumeZero p r).relight p).reply st
    d'.rails[r].mode = d.rails[r].mode ∧ d'.ports[p].phase = ph ∧ d'.ports[p].wickOut = false ∧ (∀ q : PortIx, q ≠ p → d'.ports[q] = d.ports[q]) ∧
      (∀ k : RailIx, k ≠ r → d'.rails[k] = d.rails[k]) ∧ d.onlyIn d' [.pwm, .loop, .rails, .ports, .fault, .lantern, .leave, .free, .link] := by
  obtain ⟨hlit, hwick, -⟩ := (e.resumeZero p r).relight_spec p r
  obtain ⟨hphase, -, -, hports, hmode, hrails, hframe⟩ := (h.keep (e.resumeZero_portStep p r)).keep hlit
  generalize (e.resumeZero p r).relight p = f at *
  have hreply := f.reply_onlyIn st []
  intro d'
  have hsame : d'.ports = f.ports := hreply .ports (by decide)
  rw [hreply.rails_eq, hsame]
  exact ⟨hmode, hphase, hwick, hports, hrails, hframe.into.thenIn hreply⟩

theorem exec_railCmdCharge_next {s : State} {t : Tick} {r : RailIx} {d : Dev} {st : Byte} (hh : (s.dev.advance t).takesHost (.railCmdCharge t r))
    (h : (s.dev.advance t).cmdCharge r = (d, st)) : exec (.railCmdCharge t r) s = .next (s.after t (d.reply st)) := by
  rw [exec_railCmdCharge, execRailCmdCharge]
  exact State.hostWrite_next hh h

theorem exec_railCmdSupport_next {s : State} {t : Tick} {r : RailIx} {d : Dev} {st : Byte} (hh : (s.dev.advance t).takesHost (.railCmdSupport t r))
    (h : (s.dev.advance t).cmdSupport r = (d, st)) : exec (.railCmdSupport t r) s = .next (s.after t (d.reply st)) := by
  rw [exec_railCmdSupport, execRailCmdSupport]
  exact State.hostWrite_next hh h

end Sys2Proof.Machine

open Sys2Proof Sys2Proof.Machine

/-- Settles O42: the order of the refusals by `Dev.storageGate`, the entries by `Dev.storageEntered_of_portStep`, a phase taken anew by
    `Dev.PortStep.resumed`. -/
theorem storageCommandsEnterTheirModes : Obligations.StorageCommandsEnterTheirModes := by
  intro s t r d charge support own answers
  refine ⟨fun hp => ⟨fun hh => exec_railCmdCharge_next hh (Dev.cmdCharge_noPort hp), fun hh => exec_railCmdSupport_next hh (Dev.cmdSupport_noPort hp)⟩,
    fun p hp => ?_⟩
  have hcharge := Dev.cmdCharge_port hp
  have hsupport := Dev.cmdSupport_port hp
  have gated {y : Dev × Byte} (h : ∀ z, d.storageGate r z = y) : d.cmdCharge r = y ∧ d.cmdSupport r = y :=
    ⟨hcharge.trans (h _), hsupport.trans (h _)⟩
  have both {st : Byte} (h : d.cmdCharge r = (d, st) ∧ d.cmdSupport r = (d, st)) : answers (d.reply st) :=
    ⟨fun hh => exec_railCmdCharge_next hh h.1, fun hh => exec_railCmdSupport_next hh h.2⟩
  refine ⟨fun ho => both (gated fun z => Dev.storageGate_shared z ho), fun ho h => both (gated fun z => Dev.storageGate_fault z ho h),
    fun ho hl hb => both (gated fun z => Dev.storageGate_barred z ho hl hb), fun ho hl hb hf => ?_⟩
  rw [Dev.storageGate_open _ ho hl hb hf] at hcharge hsupport
  have hst := Dev.state_of_deviceBars hb
  refine ⟨fun hmo hmc hms => both ⟨hcharge.trans (Dev.chargeAsked_elsewhere p hmo hmc hms), hsupport.trans (Dev.supportAsked_elsewhere p hmo hmc hms)⟩,
    fun hh hm hr => ?_, fun hh hm hr => ?charge, fun hh hm hr => ?_, fun hh hm hr => ?support, fun hh hm hx => ?_, fun hh hm hx => ?_,
    fun hh hm hx => ?chargeAnew, fun hh hm hx => ⟨fun hv => ?supportAnew, fun hv => ?_⟩⟩
  · exact exec_railCmdCharge_next hh ((hcharge.trans (Dev.chargeAsked_enters hm)).trans (if_neg (by simp [hr])))
  case charge =>
    obtain ⟨ph, hentered, hphase⟩ := Dev.enterCharge_spec hp hst
    obtain ⟨hmode, hstate, hwick, htaken, hat, hnext, hports, hrails, hframe⟩ := hentered.replied stOk
    exact ⟨_, exec_railCmdCharge_next hh ((hcharge.trans (Dev.chargeAsked_enters hm)).trans (if_pos hr)), Dev.reply_lastStatus _ _ _, hmode, hstate, hwick,
      fun hw => htaken.trans (hphase hw), hat, hnext, hports, hrails, hframe⟩
  · exact exec_railCmdSupport_next hh ((hsupport.trans (Dev.supportAsked_enters hm)).trans (if_neg (by simp [hr])))
  case support =>
    obtain ⟨hmode, hstate, hwick, hphase, hat, hnext, hports, hrails, hframe⟩ := (Dev.enterSupport_spec hp hst).replied stOk
    exact ⟨_, exec_railCmdSupport_next hh ((hsupport.trans (Dev.supportAsked_enters hm)).trans (if_pos hr)), Dev.reply_lastStatus _ _ _, hmode, hstate, hwick,
      hphase, hat, hnext, hports, hrails, hframe⟩
  · exact exec_railCmdCharge_next hh ((hcharge.trans (Dev.chargeAsked_there hm)).trans (if_neg hx))
  · exact exec_railCmdSupport_next hh ((hsupport.trans (Dev.supportAsked_there hm)).trans (if_neg hx))
  case chargeAnew =>
    obtain ⟨hmode, hkept⟩ := (d.takePhase_portStep p r).resumed stOk
    exact ⟨_, exec_railCmdCharge_next hh ((hcharge.trans (Dev.chargeAsked_there hm)).trans (if_pos hx)), Dev.reply_lastStatus _ _ _, hmode.trans hm, hkept⟩
  case supportAnew =>
    obtain ⟨hmode, hkept⟩ := (d.setPhase_portStep p r .boost 0).resumed stOk
    exact ⟨_, exec_railCmdSupport_next hh (((hsupport.trans (Dev.supportAsked_there hm)).trans (if_pos hx)).trans (if_pos hv)), Dev.reply_lastStatus _ _ _,
      hmode.trans hm, hkept⟩
  · exact exec_railCmdSupport_next hh (((hsupport.trans (Dev.supportAsked_there hm)).trans (if_pos hx)).trans (if_neg (Int.not_lt.2 hv)))
end

section
/-! SUPPORT. What a sweep's steps leave of the chain's state (R492, R505). -/

namespace Sys2Proof.Machine

open Sys2Proof

/-! ## What the rail manager and the fault manager leave of the chain's state (R320, R408, R502, R504) -/

theorem Dev.onlyIn.chord_eq {d d' : Dev} {bs : List Block} (h : d.onlyIn d' bs) (hb : Block.chord ∉ bs := by decide) : d'.chord = d.chord := h .chord hb

theorem Dev.onlyIn.tile_eq {d d' : Dev} {bs : List Block} (h : d.onlyIn d' bs) (hb : Block.tile ∉ bs := by decide) : d'.tile = d.tile := h .tile hb

/-- The chain's state but for the EVENTs that wait for a report. -/
def Chord.quiet (c : Chord) : Chord := { c with events := Vector.replicate 8 {} }

/-- Of the structure and the chain nothing differs but the EVENTs that wait for a report. -/
def Dev.EventsAlone (d d' : Dev) : Prop := d'.tile = d.tile ∧ d'.chord.quiet = d.chord.quiet

theorem Dev.EventsAlone.refl (d : Dev) : d.EventsAlone d := ⟨rfl, rfl⟩

theorem Dev.EventsAlone.trans {a b c : Dev} (h : a.EventsAlone b) (k : b.EventsAlone c) : a.EventsAlone c := ⟨k.1.trans h.1, k.2.trans h.2⟩

theorem Dev.eventsAlone_of_onlyIn {d d' : Dev} {bs : List Block} (h : d.onlyIn d' bs) (hc : Block.chord ∉ bs := by decide) (ht : Block.tile ∉ bs := by decide) :
    d.EventsAlone d' := ⟨h.tile_eq ht, congrArg Chord.quiet (h.chord_eq hc)⟩

/-- With its EVENTs put back the chain's state is what it was. -/
theorem Chord.eq_of_quiet {c c' : Chord} (h : c'.quiet = c.quiet) : ({ c' with events := c.events } : Chord) = c := by
  have hput := congrArg (fun x : Chord => ({ x with events := c.events } : Chord)) h
  exact hput

theorem Dev.eventsAlone_ite {d a : Dev} {c : Prop} [Decidable c] (h : d.EventsAlone a) : d.EventsAlone (if c then a else d) := by
  split
  · exact h
  · exact .refl d

/-- A stop of a rail, once its EVENT is noted, leaves the chain alone. -/
theorem Dev.noteEvent_stopRail (d : Dev) (r : RailIx) (m : RailMode) :
    (d.noteEvent r m).onlyIn (d.stopRail r m) [.pwm, .rails, .loop, .prot, .fault, .lantern, .ports, .leave] := by
  unfold Dev.stopRail
  extract_lets old noted idle now stopped changed port cause cyc marked
  have hnoted : (d.noteEvent r m).onlyIn noted [.rails] := Dev.onlyIn_ite (Dev.updRail_onlyIn _ r _)
  have hidle : noted.onlyIn idle [.fault, .rails, .pwm, .leave] := (noted.cutFlare_spec r).2.2.into.thenIn (Dev.withdrawAdd_onlyIn _ r)
  have hchanged : stopped.onlyIn changed [.pwm, .leave, .rails, .loop, .prot, .fault] :=
    (stopped.shedAll_onlyIn r).into.thenIn (Dev.changeMode_onlyIn _ r m)
  have hport : changed.onlyIn port [.ports, .lantern, .fault, .pwm, .leave, .rails, .loop] := by
    dsimp only [port]
    split
    · exact Dev.onlyIn_ite (changed.portStop_onlyIn _ r)
    · exact changed.onlyIn_refl _
  have hcause : port.onlyIn cause [.fault] := Dev.onlyIn_ite' (port.setCause_onlyIn _ _ _ _)
  have hmarked : cause.onlyIn marked [] := Dev.onlyIn_ite' (cause.onlyIn_cyc _ [])
  exact hnoted.into.thenIn hidle |>.thenIn (idle.updRail_onlyIn r _) |>.thenIn hchanged |>.thenIn hport |>.thenIn hcause |>.thenIn hmarked
    |>.thenIn (marked.respread_onlyIn r) |>.thenIn (Dev.checkUnderphased_onlyIn _ r)

theorem Dev.noteEvent_eventsAlone (d : Dev) (r : RailIx) (m : RailMode) : d.EventsAlone (d.noteEvent r m) := by
  unfold Dev.noteEvent
  split
  · exact .refl d
  · exact ⟨rfl, rfl⟩

theorem Dev.stopRail_eventsAlone (d : Dev) (r : RailIx) (m : RailMode) : d.EventsAlone (d.stopRail r m) :=
  (d.noteEvent_eventsAlone r m).trans (Dev.eventsAlone_of_onlyIn (d.noteEvent_stopRail r m))

/-- OFF is no EVENT: CMD OFF leaves the chain alone. -/
theorem Dev.commandOff_eventsAlone (d : Dev) (r : RailIx) : d.EventsAlone (d.commandOff r) := by
  unfold Dev.commandOff
  extract_lets stopped wick
  have hstop : d.EventsAlone stopped := (Dev.eventsAlone_of_onlyIn (d.clearTrips_onlyIn r)).trans (Dev.stopRail_eventsAlone _ r .off)
  have hwick : stopped.onlyIn wick [.ports] := by
    dsimp only [wick]
    split
    · exact stopped.updPort_onlyIn _ _
    · exact stopped.onlyIn_refl _
  exact (hstop.trans (Dev.eventsAlone_of_onlyIn hwick)).trans
    ((Dev.eventsAlone_of_onlyIn (wick.endCommandOff_onlyIn r)).trans (Dev.eventsAlone_of_onlyIn (Dev.railWentOff_onlyIn _)))

theorem Dev.enterRamp_onlyIn (d : Dev) (r : RailIx) :
    d.onlyIn (d.enterRamp r) [.sys, .pwm, .loop, .rails, .prot, .sp, .ports, .fault, .lantern, .leave, .free] := by
  unfold Dev.enterRamp
  extract_lets fromOff ramp left soft
  have hramp : d.onlyIn ramp [.pwm, .rails, .loop, .prot, .fault, .leave] := (d.updRail_onlyIn r _).into.thenIn (Dev.changeMode_onlyIn _ r .ramp)
  have hleft : ramp.onlyIn left [.sys, .lantern, .fault, .ports] := Dev.onlyIn_ite (ramp.leftOff_onlyIn r)
  have hsoft : left.onlyIn soft [.rails, .loop, .free, .sp, .fault, .prot] := by
    dsimp only [soft]
    split
    · exact left.takeM0_onlyIn r _
    · exact left.onlyIn_refl _
  exact hramp.into.thenIn hleft |>.thenIn hsoft |>.thenIn (soft.checkUnderphased_onlyIn r)

theorem Dev.struckStop_eventsAlone (d : Dev) (r : RailIx) (m : RailMode) (f : Cyc → Cyc) :
    d.EventsAlone { d.stopRail r m with cyc := f (d.stopRail r m).cyc } :=
  (d.stopRail_eventsAlone r m).trans (Dev.eventsAlone_of_onlyIn (Dev.onlyIn_cyc _ _ []))

theorem Dev.railAction_eventsAlone (d : Dev) (r : RailIx) (action : Nat) : d.EventsAlone (d.railAction r action) := by
  unfold Dev.railAction
  dsimp only
  split
  · exact Dev.eventsAlone_ite (d.struckStop_eventsAlone r .hiccup fun c => { c with struck := setBit c.struck r.val true })
  · split
    · exact Dev.eventsAlone_ite (d.struckStop_eventsAlone r .hold fun c => { c with struck := setBit c.struck r.val true })
    · exact .refl d

theorem Dev.eventsAlone_foldl {α : Type} (f : Dev → α → Dev) (h : ∀ (d : Dev) (x : α), d.EventsAlone (f d x)) :
    ∀ (xs : List α) (d : Dev), d.EventsAlone (xs.foldl f d) :=
  foldl_related (P := Dev.EventsAlone) .refl .trans h

theorem Dev.deviceAction_eventsAlone (d : Dev) (chain : Bool) (ts : Tick) (tbu : Bool) : d.EventsAlone (d.deviceAction chain ts tbu) := by
  unfold Dev.deviceAction
  extract_lets held
  have hheld : d.EventsAlone held := Dev.eventsAlone_foldl _ (fun e r => e.railAction_eventsAlone r 4) allRails d
  clear_value held
  have hlatch : ∀ e : Dev, held.EventsAlone e → d.EventsAlone (e.setStateAt .latched ts tbu) := fun e he =>
    (hheld.trans he).trans (Dev.eventsAlone_of_onlyIn (e.setStateAt_parts .latched ts tbu).2)
  split
  · exact hlatch _ ⟨rfl, rfl⟩
  · exact hlatch _ ⟨rfl, rfl⟩
  · exact hheld.trans (Dev.eventsAlone_ite ⟨rfl, rfl⟩)
  · exact hheld

/-- A chain HOLD received is no EVENT of the device's own (R502). -/
theorem Dev.takeChainHold_keeps (d : Dev) (sweep : Word) (origin : Byte) :
    (d.takeChainHold sweep origin).chord = d.chord ∧ (d.takeChainHold sweep origin).tile = d.tile := by
  unfold Dev.takeChainHold
  split
  · exact ⟨rfl, rfl⟩
  · extract_lets kept noted fault acted
    have hnoted : d.onlyIn noted [.lantern, .fault] := d.noteNext_onlyIn _ _ _ _
    clear_value noted
    have hacted : noted.EventsAlone acted := (Dev.eventsAlone_of_onlyIn (noted.onlyIn_fault _)).trans (Dev.deviceAction_eventsAlone _ true _ _)
    clear_value acted
    obtain ⟨htile, hquiet⟩ := (Dev.eventsAlone_of_onlyIn hnoted).trans hacted
    exact ⟨Chord.eq_of_quiet hquiet, htile⟩

theorem Dev.onlyIn_clk (d : Dev) (x : Clk) : d.onlyIn { d with clk := x } [.clk] := fun b hb => by
  cases b <;> simp_all [Dev.same]

theorem Dev.updChord_onlyIn (d : Dev) (f : Chord → Chord) : d.onlyIn (d.updChord f) [.chord] := d.onlyIn_chord _

/-! ## Breaks (R505, R506) -/

/-- The entry into BROKEN: its time, and the shared rails held. -/
theorem Dev.enterBroken_enters {d : Dev} (h : d.chord.brokenSince = none) (source : Nat) (oos : Byte) :
    (d.enterBroken source oos).chord = { d.chord with st := 2, brokenSince := some d.clk.now, held := d.sharedMask } := by
  unfold Dev.enterBroken
  rw [h]
  extract_lets broken
  rw [if_neg (by decide), (Dev.chordCauses_onlyIn _).chord_eq, (Dev.note_onlyIn broken _ _ _ _).chord_eq]
  rfl

theorem Dev.enterBroken_onlyIn (d : Dev) (source : Nat) (oos : Byte) : d.onlyIn (d.enterBroken source oos) [.chord, .lantern, .fault] := by
  unfold Dev.enterBroken
  split
  · exact d.onlyIn_refl _
  · exact (d.updChord_onlyIn _).into.thenIn (Dev.note_onlyIn _ _ _ _ _) |>.thenIn (Dev.chordCauses_onlyIn _)

theorem Dev.enterBroken_again {d : Dev} (h : d.chord.brokenSince ≠ none) (source : Nat) (oos : Byte) : d.enterBroken source oos = d :=
  if_pos (by rwa [Option.isSome_iff_ne_none])

/-! ## What a sweep settles in a member, and what the head counts of it -/

/-- What an applied DOWN settles in a member for good (R492). -/
structure SweepView where
  txDn : Option ChordTx
  sweep : Word
  applied : BitVec 16
  fromHead : BitVec 16
  lastDown : Option Tick
  enum : Bool
  position : BitVec 3
  size : BitVec 4
  headId : Option (BitVec 64)
  unjoined : Bool

def Chord.view (c : Chord) : SweepView :=
  { txDn := c.txDn, sweep := c.sweep, applied := c.applied, fromHead := c.fromHead, lastDown := c.lastDown, enum := c.enum, position := c.position,
    size := c.size, headId := c.headId, unjoined := c.unjoined }

/-- What stands of the chain's state after a step of an applied DOWN: the structure and what the DOWN has settled. -/
def Dev.KeepsView (d d' : Dev) : Prop := d'.tile = d.tile ∧ d'.chord.view = d.chord.view

theorem Dev.KeepsView.trans {a b c : Dev} (h : a.KeepsView b) (k : b.KeepsView c) : a.KeepsView c := ⟨k.1.trans h.1, k.2.trans h.2⟩

theorem Dev.enterBroken_keepsView (d : Dev) (source : Nat) (oos : Byte) : d.KeepsView (d.enterBroken source oos) := by
  refine ⟨(d.enterBroken_onlyIn source oos).tile_eq, ?_⟩
  by_cases h : d.chord.brokenSince = none
  · rw [Dev.enterBroken_enters h]
    rfl
  · rw [Dev.enterBroken_again h]

theorem Dev.align_keepsView (d : Dev) (f : DownFrame) (since : Nat) : d.KeepsView (d.align f since) := by
  unfold Dev.align Dev.setFree
  split
  · exact ⟨rfl, rfl⟩
  · extract_lets e erred ended
    have hended : d.KeepsView ended := by
      dsimp only [ended]
      split
      · exact ⟨rfl, rfl⟩
      · exact ⟨rfl, rfl⟩
    clear_value ended
    split
    · exact hended
    · split
      · exact hended.trans ⟨rfl, rfl⟩
      · exact hended.trans ⟨rfl, rfl⟩

/-- The time comparison takes the step that was due (R498). -/
theorem Dev.compareTime_keepsView (d : Dev) (f : DownFrame) (since : Nat) : d.KeepsView (d.compareTime f since) ∧ (d.compareTime f since).chord.stepDue = false := by
  unfold Dev.compareTime
  extract_lets diff
  generalize hd : (d.updChord fun c => { c with terr := satS 32 diff, timeOk := decide (diff.natAbs ≤ 480) }) = compared
  have hcompared : d.KeepsView compared := by
    rw [← hd]
    exact ⟨rfl, rfl⟩
  unfold Dev.disciplineTb
  extract_lets due spent old clk stepped
  have hspent : compared.KeepsView spent ∧ spent.chord.stepDue = false := ⟨⟨rfl, rfl⟩, rfl⟩
  obtain ⟨hkeeps, hdue⟩ := hspent
  have hstepped : spent.onlyIn stepped [.clk] := spent.onlyIn_clk _
  clear_value stepped spent
  split
  · have hnote := stepped.note_onlyIn 0x0017 1 0xFFFF (leBytes 8 old ++ leBytes 8 (old - diff).toNat)
    have hchord := hnote.chord_eq.trans hstepped.chord_eq
    exact ⟨hcompared.trans (hkeeps.trans ⟨hnote.tile_eq.trans hstepped.tile_eq, congrArg Chord.view hchord⟩), (congrArg Chord.stepDue hchord).trans hdue⟩
  · exact ⟨hcompared.trans (hkeeps.trans ⟨rfl, rfl⟩), hdue⟩

/-! ## A shared rail at an applied DOWN (R501, R503) -/

/-- What further steps of an applied DOWN leave of the chain's state: besides what is settled, that no time step is due, and what the chain rails
    hold and total. -/
structure Dev.KeepsRails (d d' : Dev) : Prop where
  tile : d'.tile = d.tile
  view : d'.chord.view = d.chord.view
  stepDue : d'.chord.stepDue = d.chord.stepDue
  total : d'.chord.total = d.chord.total
  held : d'.chord.held = d.chord.held

theorem Dev.KeepsRails.refl (d : Dev) : d.KeepsRails d := ⟨rfl, rfl, rfl, rfl, rfl⟩

theorem Dev.KeepsRails.trans {a b c : Dev} (h : a.KeepsRails b) (k : b.KeepsRails c) : a.KeepsRails c :=
  ⟨k.tile.trans h.tile, k.view.trans h.view, k.stepDue.trans h.stepDue, k.total.trans h.total, k.held.trans h.held⟩

theorem Dev.EventsAlone.keepsRails {d d' : Dev} (h : d.EventsAlone d') : d.KeepsRails d' := by
  have hview := congrArg Chord.view h.2
  have hdue := congrArg Chord.stepDue h.2
  have htotal := congrArg Chord.total h.2
  have hheld := congrArg Chord.held h.2
  exact ⟨h.1, hview, hdue, htotal, hheld⟩

theorem Dev.keepsRails_ite {d a : Dev} {c : Prop} [Decidable c] (h : d.KeepsRails a) : d.KeepsRails (if c then a else d) := by
  split
  · exact h
  · exact .refl d

theorem Dev.keepsRails_of_onlyIn {d d' : Dev} {bs : List Block} (h : d.onlyIn d' bs) (hc : Block.chord ∉ bs := by decide) (ht : Block.tile ∉ bs := by decide) :
    d.KeepsRails d' := (Dev.eventsAlone_of_onlyIn h hc ht).keepsRails

theorem Dev.takeChainHold_keepsRails (d : Dev) (sweep : Word) (origin : Byte) : d.KeepsRails (d.takeChainHold sweep origin) := by
  obtain ⟨hchord, htile⟩ := d.takeChainHold_keeps sweep origin
  exact ⟨htile, congrArg Chord.view hchord, congrArg Chord.stepDue hchord, congrArg Chord.total hchord, congrArg Chord.held hchord⟩

theorem Dev.followMode_keepsRails (d : Dev) (r : RailIx) (m : BitVec 3) : d.KeepsRails (d.followMode r m) := by
  unfold Dev.followMode
  extract_lets kept armed own followed
  have harmed : d.KeepsRails armed := Dev.keepsRails_ite ⟨rfl, rfl, rfl, rfl, rfl⟩
  clear_value armed
  have hfollowed : armed.KeepsRails followed := by
    dsimp only [followed]
    split
    · exact .refl armed
    · split
      · exact Dev.keepsRails_ite (armed.commandOff_eventsAlone r).keepsRails
      · exact Dev.keepsRails_ite (Dev.keepsRails_of_onlyIn ((armed.clearTrips_onlyIn r).into.thenIn (Dev.enterRamp_onlyIn _ r) :
          armed.onlyIn _ [.sys, .pwm, .loop, .rails, .prot, .sp, .ports, .fault, .lantern, .leave, .free]))
      · exact Dev.keepsRails_ite (armed.stopRail_eventsAlone r .hiccup).keepsRails
      · exact (armed.railAction_eventsAlone r 3).keepsRails
  clear_value followed
  exact (harmed.trans hfollowed).trans ⟨rfl, rfl, rfl, rfl, rfl⟩

theorem Dev.writeShare_onlyIn (d : Dev) (r : RailIx) (total : Int) : d.onlyIn (d.writeShare r total) [.loop, .free] := by
  refine Dev.onlyIn_foldl _ (fun e c => ?_) _ d
  dsimp only
  split
  · exact e.onlyIn_refl _
  · split
    · exact (e.onlyIn_free _).into.thenIn (Dev.updCtx_onlyIn _ c _)
    · exact e.setRef_onlyIn c _

/-- What a DOWN says of a shared rail, taken into the chain's state. -/
def Dev.agreeRail (d : Dev) (r c : RailIx) (x : ChainRail) : Dev :=
  d.updChord fun y => { y with agreed := y.agreed.set c x, total := y.total.set c x.total, held := setBit y.held r x.held }

/-- A shared rail takes its TOTAL and HELD from the DOWN. -/
theorem Dev.applyRail_shared {d : Dev} {r c : RailIx} (x : ChainRail) (h : d.sharedAs r = some c) :
    d.KeepsView (d.applyRail r x) ∧ (d.applyRail r x).chord.stepDue = d.chord.stepDue ∧ (d.applyRail r x).chord.total = d.chord.total.set c x.total ∧
      (d.applyRail r x).chord.held = setBit d.chord.held r x.held := by
  have hagreed : d.KeepsView (d.agreeRail r c x) := ⟨rfl, rfl⟩
  have hkeeps : (d.agreeRail r c x).KeepsRails (d.applyRail r x) := by
    unfold Dev.applyRail
    rw [h]
    refine Dev.KeepsRails.trans ?_ (Dev.followMode_keepsRails _ r x.mode)
    split
    · exact .refl _
    · exact Dev.keepsRails_of_onlyIn (Dev.writeShare_onlyIn _ r _)
  exact ⟨hagreed.trans ⟨hkeeps.tile, hkeeps.view⟩, hkeeps.stepDue, hkeeps.total, hkeeps.held⟩

theorem Dev.sharedAs_of_tile {d d' : Dev} (h : d'.tile = d.tile) (r : RailIx) : d'.sharedAs r = d.sharedAs r := by
  unfold Dev.sharedAs
  rw [h]

theorem setBit_getLsbD {w : Nat} (x : BitVec w) (i j : Fin w) (b : Bool) : (setBit x i.val b).getLsbD j.val = if j = i then b else x.getLsbD j.val := by
  rcases eq_or_ne j i with rfl | h
  · unfold setBit
    cases b <;> simp
  · have hbit : (1#w <<< i.val).getLsbD j.val = false := by
      have hne : j.val ≠ i.val := fun e => h (Fin.ext e)
      simp only [BitVec.getLsbD_shiftLeft, BitVec.getLsbD_one]
      by_cases hlt : j.val < i.val
      · simp [hlt]
      · simp [show j.val - i.val ≠ 0 by omega]
    unfold setBit
    rw [if_neg h]
    cases b
    · simp only [Bool.false_eq_true, if_false, BitVec.getLsbD_and, BitVec.getLsbD_not, hbit, j.isLt, decide_true, Bool.not_false, Bool.and_true]
    · simp only [if_true, BitVec.getLsbD_or, hbit, Bool.or_false]

/-- The shared rails of a DOWN, one after another. -/
def Dev.applyRails (d : Dev) (rails : Vector ChainRail 8) : Dev := allRails.foldl (fun d r => match d.sharedAs r with
  | some c => d.applyRail r rails[c]
  | none => d) d

theorem Dev.applyRails_keepsView (d : Dev) (rails : Vector ChainRail 8) :
    d.KeepsView (d.applyRails rails) ∧ (d.applyRails rails).chord.stepDue = d.chord.stepDue := by
  refine foldl_related (P := fun a b : Dev => a.KeepsView b ∧ b.chord.stepDue = a.chord.stepDue) (fun e => ⟨⟨rfl, rfl⟩, rfl⟩)
    (fun h k => ⟨h.1.trans k.1, k.2.trans h.2⟩) (fun e r => ?_) allRails d
  split
  next c h =>
    obtain ⟨hview, hdue, -, -⟩ := e.applyRail_shared rails[c] h
    exact ⟨hview, hdue⟩
  next => exact ⟨⟨rfl, rfl⟩, rfl⟩

/-- Every shared rail has its TOTAL and HELD of the DOWN; one chain rail that two rails share has the one TOTAL. -/
theorem Dev.applyRails_shared (d : Dev) (rails : Vector ChainRail 8) {r x : RailIx} (h : d.sharedAs r = some x) :
    (d.applyRails rails).chord.total[x] = rails[x].total ∧ (d.applyRails rails).chord.held.getLsbD r.val = rails[x].held := by
  have hstep : ∀ (e : Dev) (k : RailIx), e.tile = d.tile → ∀ e' : Dev, (match e.sharedAs k with | some c => e.applyRail k rails[c] | none => e) = e' →
      e'.tile = d.tile := fun e k he e' he' => by
    subst he'
    split
    next c hc =>
      obtain ⟨hview, -⟩ := e.applyRail_shared rails[c] hc
      exact hview.1.trans he
    next => exact he
  have hall := foldl_establishes (I := fun e : Dev => e.tile = d.tile)
    (Q := fun e : Dev => e.tile = d.tile ∧ e.chord.total[x] = rails[x].total ∧ e.chord.held.getLsbD r.val = rails[x].held)
    (step := fun d r => match d.sharedAs r with | some c => d.applyRail r rails[c] | none => d) (x := r)
    (fun e k he => hstep e k he _ rfl) (fun e he => ?_) (fun e k he => ?_) allRails (mem_allRails r) d rfl
  · exact hall.2
  · refine ⟨hstep e r he _ rfl, ?_⟩
    have hr := (Dev.sharedAs_of_tile he r).trans h
    obtain ⟨-, -, htotal, hheld⟩ := e.applyRail_shared rails[x] hr
    simp only [hr, htotal, hheld, setBit_getLsbD, if_true]
    simp
  · obtain ⟨htile, ht, hb⟩ := he
    refine ⟨hstep e k htile _ rfl, ?_⟩
    split
    next c hc =>
      obtain ⟨-, -, htotal, hheld⟩ := e.applyRail_shared rails[c] hc
      rw [htotal, hheld, setBit_getLsbD]
      have hkr : r = k → c = x := fun hrk => Option.some.inj (hc.symm.trans (hrk ▸ (Dev.sharedAs_of_tile htile r).trans h))
      refine ⟨?_, ?_⟩
      · rcases eq_or_ne c x with rfl | hcx
        · simp
        · have hne : c.val ≠ x.val := fun e => hcx (Fin.ext e)
          simpa [hne] using ht
      · split
        next hrk => rw [hkr hrk]
        next => exact hb
    next => exact ⟨ht, hb⟩

end Sys2Proof.Machine
end

section
/-! SUPPORT. A member and a DOWN (R486, R488, R492). -/

namespace Sys2Proof.Machine

open Sys2Proof

/-! ## A member and a DOWN (R486, R488, R492) -/

/-- What an applied DOWN settles, over what stood (R492). -/
def SweepView.settle (v : SweepView) (now : Tick) (f : DownFrame) : SweepView :=
  { v with sweep := f.sweep, applied := v.applied + 1, fromHead := f.delay, lastDown := some now,
           size := f.size.setWidth 4, headId := some (v.headId.getD f.headId), unjoined := false }

structure Dev.AppliesDown (d e : Dev) (f : DownFrame) : Prop where
  view : e.chord.view = d.chord.view.settle d.clk.now f
  stepDue : e.chord.stepDue = false
  rails : ∀ r x : RailIx, d.sharedAs r = some x → e.chord.total[x] = f.rails[x].total ∧ e.chord.held.getLsbD r.val = f.rails[x].held

theorem Dev.applyDown_applies (d : Dev) (f : DownFrame) (since : Nat) : d.AppliesDown (d.applyDown f since) f := by
  unfold Dev.applyDown
  extract_lets same counted settled broken compared bad judged applied held caused up
  have hsettled : settled.tile = d.tile ∧ settled.chord.view = d.chord.view.settle d.clk.now f := ⟨rfl, rfl⟩
  clear_value settled
  have hbroken : settled.KeepsView broken := by
    dsimp only [broken]
    split
    · exact settled.enterBroken_keepsView _ _
    · exact ⟨rfl, rfl⟩
  clear_value broken
  obtain ⟨hcompared, hdue⟩ : (broken.align f since).KeepsView compared ∧ compared.chord.stepDue = false := Dev.compareTime_keepsView _ f since
  clear_value compared
  have hjudged : compared.KeepsView judged ∧ judged.chord.stepDue = compared.chord.stepDue := ⟨⟨rfl, rfl⟩, rfl⟩
  clear_value judged
  obtain ⟨hfold, hfoldDue⟩ : judged.KeepsView applied ∧ applied.chord.stepDue = judged.chord.stepDue := judged.applyRails_keepsView f.rails
  have hview : settled.KeepsView applied := ((hbroken.trans (broken.align_keepsView f since)).trans hcompared).trans (hjudged.1.trans hfold)
  have hrails : ∀ r x : RailIx, d.sharedAs r = some x → applied.chord.total[x] = f.rails[x].total ∧ applied.chord.held.getLsbD r.val = f.rails[x].held := fun r x hr => by
    have htile : judged.tile = d.tile := (((hbroken.trans (broken.align_keepsView f since)).trans hcompared).trans hjudged.1).1.trans hsettled.1
    exact judged.applyRails_shared f.rails ((Dev.sharedAs_of_tile htile r).trans hr)
  clear_value applied
  have hcaused : applied.KeepsRails caused := by
    refine Dev.KeepsRails.trans ?_ (Dev.keepsRails_of_onlyIn held.chordCauses_onlyIn)
    exact Dev.keepsRails_ite (applied.takeChainHold_keepsRails f.sweep 0xFF)
  have happlies : d.AppliesDown caused f := by
    refine ⟨hcaused.view.trans (hview.2.trans hsettled.2), hcaused.stepDue.trans (hfoldDue.trans (hjudged.2.trans hdue)), fun r x hr => ?_⟩
    rw [hcaused.total, hcaused.held]
    exact hrails r x hr
  clear_value caused
  split
  · exact happlies
  · exact ⟨happlies.view, happlies.stepDue, happlies.rails⟩

/-- The DOWN as the member passes it on (R486). -/
def Chord.forwards (c : Chord) (f : DownFrame) (intact : Bool) : ChordTx :=
  .down { f with hop := f.hop + 1, delay := f.delay + 48 + c.linkDn } (!intact)

/-- A member whose ports take a DOWN. -/
def Dev.hearsDown (d : Dev) : Prop :=
  d.chordRuns = true ∧ d.chord.head = false ∧ d.chord.loop = false ∧ d.chord.posOvf = false ∧ d.chord.upSync = true

theorem Dev.downRx_deaf {d : Dev} (f : DownFrame) (intact : Bool) (since : Nat)
    (h : d.chordRuns = false ∨ d.chord.head = true ∨ d.chord.loop = true ∨ d.chord.posOvf = true ∨ d.chord.upSync = false) : d.downRx f intact since = d := by
  unfold Dev.downRx
  refine if_pos ?_
  rcases h with h | h | h | h | h <;> simp [h]

theorem Dev.downRx_heard {d : Dev} (f : DownFrame) (intact : Bool) (since : Nat) (h : d.hearsDown) :
    d.downRx f intact since = if intact && !d.chord.enum && decide (8 ≤ f.hop.toNat) then d.updChord fun c => { c with posOvf := true }
      else
        let e := d.updChord fun c => { c with txDn := some (d.chord.forwards f intact) }
        if !intact then e.sweepBad
        else
          let e := if d.chord.enum then e else e.updChord fun c => { c with enum := true, position := f.hop.setWidth 3, stepDue := true }
          if e.chord.headId.isSome && decide (f.sweep.toNat ≤ e.chord.sweep.toNat) then e else e.applyDown f since := by
  obtain ⟨hruns, hhead, hloop, hovf, hsync⟩ := h
  unfold Dev.downRx
  exact if_neg (by simp [hruns, hhead, hloop, hovf, hsync])

theorem Dev.downRx_overflow {d : Dev} (f : DownFrame) (since : Nat) (h : d.hearsDown) (he : d.chord.enum = false) (hhop : 8 ≤ f.hop.toNat) :
    d.downRx f true since = d.updChord fun c => { c with posOvf := true } := by
  rw [Dev.downRx_heard f true since h, if_pos (by simp [he, hhop])]

theorem Dev.downRx_spoilt {d : Dev} (f : DownFrame) (since : Nat) (h : d.hearsDown) :
    (d.downRx f false since).chord = { d.chord with txDn := some (d.chord.forwards f false), bad := d.chord.bad + 1 } ∧
      d.onlyIn (d.downRx f false since) [.chord, .fault] := by
  rw [Dev.downRx_heard f false since h]
  exact ⟨rfl, (d.updChord_onlyIn _).into.thenIn (Dev.event_onlyIn _ _) |>.thenIn (Dev.updChord_onlyIn _ _)⟩

theorem Dev.downRx_old {d : Dev} (f : DownFrame) (since : Nat) (h : d.hearsDown) (he : d.chord.enum = true) (hid : d.chord.headId.isSome = true)
    (hs : f.sweep.toNat ≤ d.chord.sweep.toNat) : d.downRx f true since = d.updChord fun c => { c with txDn := some (d.chord.forwards f true) } := by
  rw [Dev.downRx_heard f true since h, if_neg (by simp [he])]
  dsimp only
  rw [if_neg (by decide), if_pos he]
  exact if_pos (by simp [Dev.updChord, hid, hs])

/-- The member as it stands when it applies a DOWN: the frame passed on, its position taken. -/
def Dev.takeDown (d : Dev) (f : DownFrame) : Dev :=
  let e := d.updChord fun c => { c with txDn := some (d.chord.forwards f true) }
  if d.chord.enum then e else e.updChord fun c => { c with enum := true, position := f.hop.setWidth 3, stepDue := true }

theorem Dev.takeDown_spec (d : Dev) (f : DownFrame) : (d.takeDown f).tile = d.tile ∧ (d.takeDown f).clk = d.clk ∧ (d.takeDown f).chord.view =
    { d.chord.view with txDn := some (d.chord.forwards f true), enum := true, position := if d.chord.enum then d.chord.position else f.hop.setWidth 3 } := by
  unfold Dev.takeDown
  dsimp only
  split
  next h => exact ⟨rfl, rfl, by simp [Dev.updChord, Chord.view, h]⟩
  next => exact ⟨rfl, rfl, rfl⟩

theorem Dev.downRx_new {d : Dev} (f : DownFrame) (since : Nat) (h : d.hearsDown) (he : d.chord.enum = true ∨ f.hop.toNat < 8)
    (hs : d.chord.headId = none ∨ d.chord.sweep.toNat < f.sweep.toNat) : d.downRx f true since = (d.takeDown f).applyDown f since := by
  have hroom : (true && !d.chord.enum && decide (8 ≤ f.hop.toNat)) = false := by
    rcases he with he | he
    · simp [he]
    · simp [he]
  obtain ⟨-, -, hview⟩ := d.takeDown_spec f
  have hid : (d.takeDown f).chord.headId = d.chord.headId := congrArg SweepView.headId hview
  have hsweep : (d.takeDown f).chord.sweep = d.chord.sweep := congrArg SweepView.sweep hview
  rw [Dev.downRx_heard f true since h, hroom, if_neg (by decide)]
  dsimp only
  rw [if_neg (by decide)]
  refine if_neg (c := ((d.takeDown f).chord.headId.isSome && decide (f.sweep.toNat ≤ (d.takeDown f).chord.sweep.toNat)) = true) ?_
  rw [hid, hsweep]
  rcases hs with hs | hs
  · simp [hs]
  · simp [hs]

end Sys2Proof.Machine
end

section
/-! SUPPORT. The head and its sweeps (R491, R494). -/

namespace Sys2Proof.Machine

open Sys2Proof

/-! ## The head's sweeps (R491, R494) -/

/-- What the head knows of its sweeps. -/
structure HeadView where
  sent : Word
  awaiting : List Word
  sweep : Word
  applied : BitVec 16
  bad : BitVec 16
  total : Vector Word 8
  size : BitVec 4
  linkDn : BitVec 16

def Chord.headView (c : Chord) : HeadView :=
  { sent := c.sent, awaiting := c.awaiting, sweep := c.sweep, applied := c.applied, bad := c.bad, total := c.total, size := c.size, linkDn := c.linkDn }

theorem Dev.enterBroken_headView (d : Dev) (source : Nat) (oos : Byte) : (d.enterBroken source oos).chord.headView = d.chord.headView := by
  by_cases h : d.chord.brokenSince = none
  · rw [Dev.enterBroken_enters h]
    rfl
  · rw [Dev.enterBroken_again h]

theorem Dev.sweepBad_onlyIn (d : Dev) : d.onlyIn d.sweepBad [.chord, .fault] := (d.event_onlyIn _).into.thenIn (Dev.updChord_onlyIn _ _)

/-- An incomplete sweep counts as bad, and applies nothing. -/
theorem Dev.incomplete_spec (d : Dev) (present : Byte) : (d.incomplete present).chord.headView = { d.chord.headView with bad := d.chord.bad + 1 } ∧
    d.onlyIn (d.incomplete present) [.chord, .fault, .lantern] := by
  unfold Dev.incomplete
  extract_lets bad inChain missed lost outed
  have hbad : bad.chord.headView = { d.chord.headView with bad := d.chord.bad + 1 } ∧ d.onlyIn bad [.chord, .fault, .lantern] := ⟨rfl, d.sweepBad_onlyIn.into⟩
  clear_value bad
  have hmissed : missed.chord.headView = bad.chord.headView ∧ bad.onlyIn missed [.chord] := ⟨rfl, bad.updChord_onlyIn _⟩
  clear_value missed
  obtain ⟨hview, hframe⟩ := hbad
  split
  · exact ⟨hview, hframe.thenIn (bad.updChord_onlyIn _)⟩
  · split
    · exact ⟨hmissed.1.trans hview, hframe.thenIn hmissed.2⟩
    · exact ⟨(outed.enterBroken_headView 0 _).trans (hmissed.1.trans hview),
        hframe.thenIn hmissed.2 |>.thenIn (missed.updChord_onlyIn _) |>.thenIn (outed.enterBroken_onlyIn 0 _)⟩

/-- The sweep as it is counted at the head's mark, with the sweep before the last given up where its UP is still awaited. -/
def Dev.markSent (d : Dev) : Dev :=
  let e := d.updChord fun c => { c with sent := c.sent + 1, lost := 0, awaiting := c.awaiting.filter fun x => x != c.sent + 1 - 2 }
  if d.chord.awaiting.contains (d.chord.sent + 1 - 2) then e.incomplete 0 else e

theorem sweep_beforeLast (k : Word) : k + 1 - 2 = k - 1 := by bv_omega

theorem Dev.markSent_spec (d : Dev) : d.markSent.chord.sent = d.chord.sent + 1 ∧
    d.markSent.chord.awaiting = d.chord.awaiting.filter (fun x => x != d.chord.sent - 1) ∧ d.markSent.chord.size = d.chord.size ∧
    d.markSent.chord.linkDn = d.chord.linkDn ∧ d.onlyIn d.markSent [.chord, .fault, .lantern] ∧
    (d.chord.awaiting.contains (d.chord.sent - 1) = false → d.onlyIn d.markSent [.chord]) := by
  unfold Dev.markSent
  extract_lets e
  have he : e.chord.headView = { d.chord.headView with sent := d.chord.sent + 1, awaiting := d.chord.awaiting.filter (fun x => x != d.chord.sent - 1) } := by
    rw [← sweep_beforeLast]
    rfl
  have hframe : d.onlyIn e [.chord] := d.updChord_onlyIn _
  clear_value e
  rw [sweep_beforeLast]
  split
  next hlate =>
    obtain ⟨hview, hbad⟩ := e.incomplete_spec 0
    exact ⟨(congrArg HeadView.sent hview).trans (congrArg HeadView.sent he), (congrArg HeadView.awaiting hview).trans (congrArg HeadView.awaiting he),
      (congrArg HeadView.size hview).trans (congrArg HeadView.size he), (congrArg HeadView.linkDn hview).trans (congrArg HeadView.linkDn he),
      hframe.into.thenIn hbad, fun hc => absurd (hlate.symm.trans hc) (by decide)⟩
  next =>
    exact ⟨congrArg HeadView.sent he, congrArg HeadView.awaiting he, congrArg HeadView.size he, congrArg HeadView.linkDn he, hframe.into, fun _ => hframe⟩

/-- The DOWN of the head's sweep (R491), from the device `d` at its mark. -/
def Dev.downFrame (d e : Dev) : DownFrame :=
  { hop := 1, sweep := d.chord.sent + 1, headId := deviceIdBits, tb := e.tb,
    syncIndex := BitVec.ofNat 32 ((e.clk.now - e.pwmg.dev.valley) % (2 * e.pwmg.syncPer.toNat)),
    syncPer := e.pwmg.syncPer, delay := e.chord.linkDn, state := e.chord.st, size := e.chord.size.setWidth 8, hold := e.chord.holdMarks != 0,
    step := 0x2, fwver := Config.fwver, digest := e.chainDigest, rails := Vector.ofFn fun c : RailIx => e.sentRail c }

theorem Dev.sweepMark_still {d : Dev} (h : d.chordRuns = false ∨ d.chord.head = false ∨ d.tb % 4800 ≠ 0) : d.sweepMark = d := by
  unfold Dev.sweepMark
  refine if_pos ?_
  rcases h with h | h | h <;> simp [h]

theorem Dev.sweepMark_alone {d : Dev} (hr : d.chordRuns = true) (hh : d.chord.head = true) (ha : d.alone = true) (ht : d.tb % 4800 = 0) :
    d.sweepMark = d.updChord fun c => { c with sent := c.sent + 1, awaiting := [], holdMarks := c.holdMarks - 1 } := by
  unfold Dev.sweepMark
  rw [if_neg (by simp [hr, hh, ht]), if_pos ha]

theorem Dev.sweepMark_sends {d : Dev} (hr : d.chordRuns = true) (hh : d.chord.head = true) (ha : d.alone = false) (ht : d.tb % 4800 = 0) :
    ∃ agreed, d.sweepMark = d.markSent.updChord fun c =>
      { c with awaiting := (d.chord.sent + 1) :: c.awaiting, txDn := some (.down (d.downFrame d.markSent) false), holdMarks := c.holdMarks - 1, agreed := agreed } := by
  unfold Dev.sweepMark
  rw [if_neg (by simp [hr, hh, ht]), if_neg (by simp [ha])]
  exact ⟨_, rfl⟩

/-! ## An applied sweep (R494) -/

/-- The sweeps awaited, applied and bad. -/
def Chord.tally (c : Chord) : List Word × Word × BitVec 16 × BitVec 16 := (c.awaiting, c.sweep, c.applied, c.bad)

theorem Dev.EventsAlone.tally {d d' : Dev} (h : d.EventsAlone d') : d'.chord.tally = d.chord.tally := by
  have htally := congrArg Chord.tally h.2
  exact htally

theorem Dev.onlyIn.tally_eq {d d' : Dev} {bs : List Block} (h : d.onlyIn d' bs) (hb : Block.chord ∉ bs := by decide) : d'.chord.tally = d.chord.tally :=
  congrArg Chord.tally (h.chord_eq hb)

theorem Dev.tally_foldl {α : Type} (f : Dev → α → Dev) (h : ∀ (d : Dev) (x : α), (f d x).chord.tally = d.chord.tally) :
    ∀ (xs : List α) (d : Dev), (xs.foldl f d).chord.tally = d.chord.tally :=
  foldl_related (P := fun a b : Dev => b.chord.tally = a.chord.tally) (fun _ => rfl) (fun h k => k.trans h) h

theorem Dev.countForming_tally (d : Dev) (n : Nat) : (d.countForming n).chord.tally = d.chord.tally := by
  unfold Dev.countForming
  extract_lets k counted fixed
  have hcounted : counted.chord.tally = d.chord.tally := rfl
  have hfixed : fixed.chord.tally = d.chord.tally := rfl
  clear_value fixed counted
  split
  · rfl
  · split
    · exact hcounted
    · exact (fixed.note_onlyIn _ _ _ _).tally_eq.trans hfixed

theorem Dev.settleChain_tally (d : Dev) : d.settleChain.chord.tally = d.chord.tally := by
  unfold Dev.settleChain
  extract_lets c st settled
  have hsettled : settled.chord.tally = d.chord.tally := rfl
  clear_value settled
  split
  · exact (settled.note_onlyIn _ _ _ _).tally_eq.trans hsettled
  · exact hsettled

theorem Dev.formTotals_tally (d : Dev) (f : UpFrame) (held : Bool) : (d.formTotals f held).chord.tally = d.chord.tally := by
  refine Dev.tally_foldl _ (fun e c => ?_) _ d
  split
  · rfl
  next r _ =>
    extract_lets m others sum
    have hfit := e.fit_onlyIn sum
    generalize e.fit sum = x at hfit
    obtain ⟨w, g⟩ := x
    dsimp only at hfit ⊢
    generalize hput : (g.updChord fun y => { y with total := y.total.set c w }) = put
    have htally : put.chord.tally = e.chord.tally := by
      rw [← hput]
      exact hfit.tally_eq
    split
    · exact htally
    · exact (put.writeShare_onlyIn r sum).tally_eq.trans htally

theorem Dev.takeEvents_tally (d : Dev) (x : Report) : (d.takeEvents x).chord.tally = d.chord.tally := by
  refine Dev.tally_foldl _ (fun e c => ?_) _ d
  extract_lets ev
  split
  · rfl
  next r _ =>
    split
    · rfl
    · extract_lets stopped
      have hstopped : stopped.chord.tally = e.chord.tally := by
        dsimp only [stopped]
        split
        · exact (e.stopRail_eventsAlone r _).tally
        · rfl
      exact (stopped.note_onlyIn _ _ _ _).tally_eq.trans hstopped

theorem Dev.applySweep_tally (d : Dev) (f : UpFrame) : (d.applySweep f).chord.tally = (d.chord.awaiting, f.sweep, d.chord.applied + 1, d.chord.bad) := by
  unfold Dev.applySweep
  extract_lets reach taken formed own shown bad cause judged settled totals events asking asked held
  have htaken : taken.chord.tally = (d.chord.awaiting, f.sweep, d.chord.applied + 1, d.chord.bad) := rfl
  clear_value taken
  have hformed : formed.chord.tally = taken.chord.tally := taken.countForming_tally _
  clear_value formed
  have hjudged : judged.chord.tally = formed.chord.tally := rfl
  clear_value judged
  have htotals : totals.chord.tally = judged.chord.tally := (settled.formTotals_tally f _).trans judged.settleChain_tally
  clear_value totals
  have hevents : events.chord.tally = totals.chord.tally := Dev.tally_foldl _ Dev.takeEvents_tally _ totals
  clear_value events
  have hasked : asked.chord.tally = events.chord.tally := rfl
  clear_value asked
  have hheld : held.chord.tally = asked.chord.tally := by
    dsimp only [held]
    split
    · exact congrArg Chord.tally (asked.takeChainHold_keeps _ _).1
    · rfl
  calc held.chordCauses.chord.tally = held.chord.tally := held.chordCauses_onlyIn.tally_eq
    _ = _ := hheld.trans (hasked.trans (hevents.trans (htotals.trans (hjudged.trans (hformed.trans htaken)))))

end Sys2Proof.Machine
end

section
/-! SUPPORT. An UP, two periods without a DOWN, and RIDE (R486, R493, R505, R506). -/

namespace Sys2Proof.Machine

open Sys2Proof

/-! ## An UP arrives (R486, R493, R494) -/

theorem Dev.upRx_deaf {d : Dev} (f : UpFrame) (intact : Bool)
    (h : d.chordRuns = false ∨ d.chord.loop = true ∨ d.chord.posOvf = true ∨ d.chord.dnSync = false) : d.upRx f intact = d := by
  unfold Dev.upRx
  refine if_pos ?_
  rcases h with h | h | h | h <;> simp [h]

/-- A device whose downstream port takes an UP. -/
def Dev.hearsUp (d : Dev) : Prop := d.chordRuns = true ∧ d.chord.loop = false ∧ d.chord.posOvf = false ∧ d.chord.dnSync = true

theorem Dev.upRx_member {d : Dev} (f : UpFrame) (intact : Bool) (h : d.hearsUp) (hh : d.chord.head = false) :
    d.upRx f intact = if d.chord.enum && d.chord.headId.isSome && f.sweep == d.chord.sweep then
        (d.updChord fun x => { x with txUp := some (.up { f with hop := f.hop + 1, reports := f.reports ++ [d.report] } (!intact)) }).reported
      else d.updChord fun x => { x with txUp := some (.up f (!intact)) } := by
  obtain ⟨hruns, hloop, hovf, hsync⟩ := h
  unfold Dev.upRx
  exact (if_neg (by simp [hruns, hloop, hovf, hsync])).trans (if_neg (by simp [hh]))

theorem Dev.upRx_unawaited {d : Dev} (f : UpFrame) (intact : Bool) (h : d.hearsUp) (hh : d.chord.head = true) (hw : d.chord.awaiting.contains f.sweep = false) :
    d.upRx f intact = d := by
  obtain ⟨hruns, hloop, hovf, hsync⟩ := h
  unfold Dev.upRx
  exact (if_neg (by simp [hruns, hloop, hovf, hsync])).trans ((if_pos hh).trans (if_pos (by rw [hw]; rfl)))

/-- The positions whose reports an UP carries. -/
def UpPresent (f : UpFrame) : Byte := f.reports.foldl (fun (m : Byte) x => setBit m x.pos.toNat true) 0

/-- Every position of the chain has reported, but those that are out of service (R494, R505). -/
def Chord.whole (c : Chord) (f : UpFrame) : Bool :=
  (List.range c.size.toNat).all fun i => i == 0 || (c.oos.getLsbD i && !c.lost.getLsbD i) || (UpPresent f).getLsbD i

/-- The head no longer awaits the sweep of an UP. -/
def Dev.settleSweep (d : Dev) (f : UpFrame) : Dev := d.updChord fun c => { c with awaiting := c.awaiting.filter fun x => x != f.sweep }

theorem Dev.upRx_awaited {d : Dev} (f : UpFrame) (intact : Bool) (h : d.hearsUp) (hh : d.chord.head = true) (hw : d.chord.awaiting.contains f.sweep = true) :
    d.upRx f intact = if !intact then (d.settleSweep f).incomplete 0 else if d.chord.whole f then (d.settleSweep f).applySweep f
      else (d.settleSweep f).incomplete (UpPresent f) := by
  obtain ⟨hruns, hloop, hovf, hsync⟩ := h
  unfold Dev.upRx
  exact (if_neg (by simp [hruns, hloop, hovf, hsync])).trans ((if_pos hh).trans (if_neg (by rw [hw]; decide)))

theorem UpPresent_getLsbD {f : UpFrame} {i : Fin 8} (h : ∃ x ∈ f.reports, x.pos.toNat = i.val) : (UpPresent f).getLsbD i.val = true := by
  obtain ⟨x, hx, hpos⟩ := h
  refine foldl_establishes (I := fun _ => True) (Q := fun m : Byte => m.getLsbD i.val = true) (x := x) (fun _ _ _ => trivial) (fun m _ => ?_) (fun m y hm => ?_)
    f.reports hx 0 trivial
  · rw [hpos, setBit_getLsbD]
    exact if_pos rfl
  · simp only [setBit, if_true, BitVec.getLsbD_or, hm, Bool.true_or]

theorem Chord.whole_of {c : Chord} {f : UpFrame} (h : ∀ i : Fin 8, 1 ≤ i.val → i.val < c.size.toNat →
    (c.oos.getLsbD i.val = true ∧ c.lost.getLsbD i.val = false) ∨ ∃ x ∈ f.reports, x.pos.toNat = i.val) (hs : c.size.toNat ≤ 8) : c.whole f = true := by
  refine List.all_eq_true.2 fun i hi => ?_
  have hlt := List.mem_range.1 hi
  rcases Nat.eq_zero_or_pos i with rfl | hpos
  · rfl
  · rcases h ⟨i, by omega⟩ hpos hlt with ⟨hoos, hlost⟩ | hx
    · dsimp only at hoos hlost
      rw [hoos, hlost]
      simp
    · rw [UpPresent_getLsbD hx, Bool.or_true]

/-- Whatever comes of an UP that is awaited, it is awaited no more. -/
theorem Dev.upRx_settles {d : Dev} (f : UpFrame) (intact : Bool) (h : d.hearsUp) (hh : d.chord.head = true) (hw : d.chord.awaiting.contains f.sweep = true) :
    (d.upRx f intact).chord.awaiting = d.chord.awaiting.filter fun x => x != f.sweep := by
  rw [Dev.upRx_awaited f intact h hh hw]
  split
  · exact congrArg HeadView.awaiting ((d.settleSweep f).incomplete_spec 0).1
  · split
    · exact congrArg Prod.fst ((d.settleSweep f).applySweep_tally f)
    · exact congrArg HeadView.awaiting ((d.settleSweep f).incomplete_spec _).1

theorem Dev.upRx_whole {d : Dev} (f : UpFrame) (h : d.hearsUp) (hh : d.chord.head = true) (hw : d.chord.awaiting.contains f.sweep = true) (hf : d.chord.whole f = true) :
    (d.upRx f true).chord.sweep = f.sweep ∧ (d.upRx f true).chord.applied = d.chord.applied + 1 ∧ (d.upRx f true).chord.bad = d.chord.bad := by
  have htally := (d.settleSweep f).applySweep_tally f
  rw [Dev.upRx_awaited f true h hh hw, if_neg (by decide), if_pos hf]
  exact ⟨congrArg (fun x => x.2.1) htally, congrArg (fun x => x.2.2.1) htally, congrArg (fun x => x.2.2.2) htally⟩

theorem Dev.upRx_spoilt {d : Dev} (f : UpFrame) (h : d.hearsUp) (hh : d.chord.head = true) (hw : d.chord.awaiting.contains f.sweep = true) :
    (d.upRx f false).chord.sweep = d.chord.sweep ∧ (d.upRx f false).chord.applied = d.chord.applied ∧ (d.upRx f false).chord.bad = d.chord.bad + 1 ∧
      (d.upRx f false).chord.total = d.chord.total ∧ d.onlyIn (d.upRx f false) [.chord, .fault, .lantern] := by
  obtain ⟨hview, hframe⟩ := (d.settleSweep f).incomplete_spec 0
  rw [Dev.upRx_awaited f false h hh hw, if_pos (by decide)]
  exact ⟨congrArg HeadView.sweep hview, congrArg HeadView.applied hview, congrArg HeadView.bad hview, congrArg HeadView.total hview,
    (d.updChord_onlyIn _).into.thenIn hframe⟩

/-! ## Two periods without a DOWN, and RIDE (R505, R506) -/

theorem Dev.memberBreak_early {d : Dev} {u : Tick} (h : d.chord.lastDown = some u) (ht : d.clk.now < u + 9600) : d.memberBreak = d := by
  unfold Dev.memberBreak
  rw [h]
  exact if_neg (by simp [Nat.not_le.2 ht])

theorem Dev.memberBreak_late {d : Dev} {u : Tick} (hr : d.chordRuns = true) (he : d.chord.enum = true) (hh : d.chord.head = false)
    (h : d.chord.lastDown = some u) (hb : d.chord.brokenSince = none) (ht : u + 9600 ≤ d.clk.now) :
    d.memberBreak.chord = { d.chord with st := 2, brokenSince := some d.clk.now, stepDue := true, held := d.sharedMask } ∧
      d.onlyIn d.memberBreak [.chord, .lantern, .fault] := by
  have hbreaks : d.memberBreak = (d.updChord fun c => { c with stepDue := true }).enterBroken d.chord.position.toNat 0 := by
    unfold Dev.memberBreak
    rw [h]
    exact if_pos (by simp [hr, he, hh, ht])
  rw [hbreaks]
  have henters := Dev.enterBroken_enters (d := d.updChord fun c => { c with stepDue := true }) hb d.chord.position.toNat 0
  exact ⟨henters, (d.updChord_onlyIn _).into.thenIn (Dev.enterBroken_onlyIn _ _ _)⟩

/-- CHORD_BREAK of a rail is present in a break, for a shared rail once RIDE has passed (R506). -/
def Dev.breakShows (d : Dev) (r : RailIx) : Bool := d.railDefined r && match d.chord.brokenSince with
  | some b => (d.sharedAs r).isNone || decide (b + d.chord.ride.toNat * msTicks ≤ d.clk.now)
  | none => false

theorem srcChordBreak_injective : ∀ r k : RailIx, srcChordBreak k = srcChordBreak r → k = r := by decide

theorem Dev.srcLives_chordBreak (d : Dev) (r : RailIx) : d.srcLives (srcChordBreak r) = d.railDefined r := by
  have hrange : ∀ r : RailIx, (0x20 ≤ (srcChordBreak r).val ∧ (srcChordBreak r).val < 0x68) ∧ Fin.ofNat 8 ((srcChordBreak r).val % 8) = r := by decide
  obtain ⟨hr, hrail⟩ := hrange r
  unfold Dev.srcLives
  dsimp only
  rw [if_pos hr, hrail]

/-- Set by what a break shows, the cause of CHORD_BREAK says it. -/
theorem Dev.setBreakCause_bit (e : Dev) (r : RailIx) : (e.setCause (srcChordBreak r) 0 (e.breakShows r)).fault.src[srcChordBreak r].cause.getLsbD 0 = e.breakShows r := by
  have hset := setBit_getLsbD e.fault.src[srcChordBreak r].cause 0 0 (e.breakShows r && e.srcLives (srcChordBreak r))
  have hsrc := e.setCause_src (srcChordBreak r) (srcChordBreak r) 0 (e.breakShows r) []
  rw [if_pos rfl] at hsrc
  refine (congrArg (fun x : FSrc => x.cause.getLsbD 0) hsrc).trans (hset.trans ?_)
  rw [if_pos rfl, Dev.srcLives_chordBreak]
  unfold Dev.breakShows
  generalize e.railDefined r = b
  cases b <;> simp

theorem Dev.onlyIn.breakShows_eq {d e : Dev} (h : d.onlyIn e [.fault]) (r : RailIx) : e.breakShows r = d.breakShows r := by
  unfold Dev.breakShows Dev.railDefined Dev.sharedAs
  rw [h.tile_eq, h.chord_eq, h .clk (by decide)]

theorem Dev.chordCauses_break (d : Dev) (r : RailIx) : d.chordCauses.fault.src[srcChordBreak r].cause.getLsbD 0 = d.breakShows r := by
  have hstep : ∀ (e : Dev) (k : RailIx), d.onlyIn e [.fault] → d.onlyIn (e.setCause (srcChordBreak k) 0 (e.breakShows k)) [.fault] := fun e k he =>
    he.thenIn (e.setCause_onlyIn _ _ _ _)
  have hsets : ∀ e : Dev, d.onlyIn e [.fault] → (e.setCause (srcChordBreak r) 0 (e.breakShows r)).fault.src[srcChordBreak r].cause.getLsbD 0 = d.breakShows r :=
    fun e he => (e.setBreakCause_bit r).trans (he.breakShows_eq r)
  have hall := foldl_establishes (I := fun e : Dev => d.onlyIn e [.fault])
    (Q := fun e : Dev => d.onlyIn e [.fault] ∧ e.fault.src[srcChordBreak r].cause.getLsbD 0 = d.breakShows r)
    (step := fun e k => e.setCause (srcChordBreak k) 0 (e.breakShows k)) (x := r)
    hstep (fun e he => ⟨hstep e r he, hsets e he⟩) (fun e k he => ⟨hstep e k he.1, ?_⟩) allRails (mem_allRails r)
    ((d.setCause srcSlip 0 d.chord.free).setCause srcDivergent 0 ((d.setCause srcSlip 0 d.chord.free).chord.st == 3))
    ((d.setCause_onlyIn _ _ _ _).thenIn (Dev.setCause_onlyIn _ _ _ _ _))
  · exact hall.2
  · obtain ⟨hframe, hcause⟩ := he
    rcases eq_or_ne k r with rfl | hk
    · exact hsets e hframe
    · have hsrc := e.setCause_src (srcChordBreak k) (srcChordBreak r) 0 (e.breakShows k) []
      rw [if_neg fun h => hk (srcChordBreak_injective r k h.symm)] at hsrc
      exact (congrArg (fun x : FSrc => x.cause.getLsbD 0) hsrc).trans hcause

/-! ## The commands of the chain's sweeps -/

section
variable {s : State} {t : Tick} {d : Dev}

theorem exec_sweepMarkHead_next (h : (s.dev.advance t).sweepMark = d) : exec (.sweepMarkHead t) s = .next (s.after t d) :=
  exec_sweepMarkHead.trans (State.run_next h)

theorem exec_chordDownRx_next {rx : List (Option Machine.Symbol)} {k : Nat} {ok : Bool} (hok : chordIntact 0x12 rx = ok)
    (h : (s.dev.advance t).downRx (DownFrame.read (chordBytes rx)) ok k = d) : exec (.chordDownRx t rx k) s = .next (s.after t d) :=
  exec_chordDownRx.trans (State.run_next (hok ▸ h))

theorem exec_chordUpRx_next {rx : List (Option Machine.Symbol)} {ok : Bool} (hok : chordIntact 0x13 rx = ok)
    (h : (s.dev.advance t).upRx (UpFrame.read (chordBytes rx)) ok = d) : exec (.chordUpRx t rx) s = .next (s.after t d) :=
  exec_chordUpRx.trans (State.run_next (hok ▸ h))

theorem exec_chordMemberBreak_next (h : (s.dev.advance t).memberBreak = d) : exec (.chordMemberBreak t) s = .next (s.after t d) :=
  exec_chordMemberBreak.trans (State.run_next h)

end

theorem Dev.breakShows_iff {d : Dev} {r : RailIx} {b : Tick} (hr : d.railDefined r = true) (hb : d.chord.brokenSince = some b) :
    d.breakShows r = true ↔ d.sharedAs r = none ∨ b + d.chord.ride.toNat * 480000 ≤ d.clk.now := by
  simp [Dev.breakShows, hr, hb, msTicks]

theorem Dev.chainDigest_of_tile {d e : Dev} (h : e.tile = d.tile) : e.chainDigest = d.chainDigest := by
  unfold Dev.chainDigest
  rw [h]

/-- The head's mark in a chain of more than one device (R491). -/
theorem Dev.sweepMark_down {d : Dev} (hr : d.chordRuns = true) (hh : d.chord.head = true) (ha : d.alone = false) (ht : d.tb % 4800 = 0) :
    let c := d.chord
    let d' := d.sweepMark
    ∃ f : DownFrame, d'.chord.sent = c.sent + 1 ∧ d'.chord.awaiting = (c.sent + 1) :: c.awaiting.filter (fun x => x != c.sent - 1) ∧
      d'.chord.txDn = some (.down f false) ∧ f.hop = 1 ∧ f.sweep = c.sent + 1 ∧ f.headId = deviceIdBits ∧ f.tb = d.tb ∧ f.syncPer = d.pwmg.syncPer ∧
      f.syncIndex = BitVec.ofNat 32 ((d.clk.now - d.pwmg.dev.valley) % (2 * d.pwmg.syncPer.toNat)) ∧ f.delay = c.linkDn ∧ f.state = d'.chord.st ∧
      f.size = c.size.setWidth 8 ∧ f.step = 0x2 ∧ f.fwver = Config.fwver ∧ f.digest = d.chainDigest ∧ d'.chord.size = c.size ∧
      d.onlyIn d' [.chord, .fault, .lantern] ∧ (c.awaiting.contains (c.sent - 1) = false → d.onlyIn d' [.chord]) := by
  intro c d'
  obtain ⟨agreed, hsends⟩ : ∃ agreed, d' = _ := Dev.sweepMark_sends hr hh ha ht
  obtain ⟨hsent, hawait, hsize, hlink, hframe, halone⟩ := d.markSent_spec
  have hclk : d.markSent.clk = d.clk := hframe .clk (by decide)
  have hpwmg : d.markSent.pwmg = d.pwmg := hframe .pwmg (by decide)
  have htile : d.markSent.tile = d.tile := hframe.tile_eq
  have htb : d.markSent.tb = d.tb := by
    unfold Dev.tb
    rw [hclk]
  clear_value d'
  subst hsends
  refine ⟨d.downFrame d.markSent, hsent, congrArg _ hawait, rfl, rfl, rfl, rfl, htb, ?_, ?_, hlink, rfl, ?_, rfl, rfl, ?_, hsize, ?_, fun hc => ?_⟩
  · exact congrArg (·.syncPer) hpwmg
  · unfold Dev.downFrame
    rw [hclk, hpwmg]
  · exact congrArg (BitVec.setWidth 8) hsize
  · exact Dev.chainDigest_of_tile htile
  · exact hframe.thenIn (Dev.updChord_onlyIn _ _)
  · exact (halone hc).thenIn (Dev.updChord_onlyIn _ _)

/-- A DOWN of a sweep not applied before, at a member (R492). -/
theorem Dev.downRx_applies {d : Dev} (f : DownFrame) (since : Nat) (h : d.hearsDown) (he : d.chord.enum = true ∨ f.hop.toNat < 8)
    (hs : d.chord.headId = none ∨ d.chord.sweep.toNat < f.sweep.toNat) :
    let c := d.chord
    let d' := d.downRx f true since
    d'.chord.txDn = some (c.forwards f true) ∧ d'.chord.sweep = f.sweep ∧ d'.chord.applied = c.applied + 1 ∧ d'.chord.fromHead = f.delay ∧
      d'.chord.lastDown = some d.clk.now ∧ d'.chord.enum = true ∧ d'.chord.position = (if c.enum then c.position else f.hop.setWidth 3) ∧
      d'.chord.size = f.size.setWidth 4 ∧ d'.chord.headId = some (c.headId.getD f.headId) ∧ d'.chord.unjoined = false ∧ d'.chord.stepDue = false ∧
      ∀ r x, d.sharedAs r = some x → d'.chord.total[x] = f.rails[x].total ∧ d'.chord.held.getLsbD r.val = f.rails[x].held := by
  intro c d'
  have hnew : d' = (d.takeDown f).applyDown f since := Dev.downRx_new f since h he hs
  obtain ⟨htile, hclk, htaken⟩ := d.takeDown_spec f
  obtain ⟨hview, hdue, hrails⟩ := (d.takeDown f).applyDown_applies f since
  rw [← hnew] at hview hdue hrails
  rw [htaken, hclk] at hview
  exact ⟨congrArg SweepView.txDn hview, congrArg SweepView.sweep hview, congrArg SweepView.applied hview, congrArg SweepView.fromHead hview,
    congrArg SweepView.lastDown hview, congrArg SweepView.enum hview, congrArg SweepView.position hview, congrArg SweepView.size hview,
    congrArg SweepView.headId hview, congrArg SweepView.unjoined hview, hdue, fun r x hr => hrails r x ((Dev.sharedAs_of_tile htile r).trans hr)⟩

end Sys2Proof.Machine

open Sys2Proof Sys2Proof.Machine

/-- Settles O58: the head's mark by `Dev.sweepMark_down`, a DOWN at a member by `Dev.downRx_applies` and the cases in which it applies nothing, an UP by
    `Dev.upRx_member` and `Dev.upRx_settles`, the two periods by `Dev.memberBreak_late`, and RIDE by `Dev.chordCauses_break`. -/
theorem sweepsAreAppliedOnceAndWhole : Obligations.SweepsAreAppliedOnceAndWhole := by
  intro s t d c chord
  refine ⟨fun h => exec_sweepMarkHead_next (Dev.sweepMark_still h), fun hr hh ha ht => exec_sweepMarkHead_next (Dev.sweepMark_alone hr hh ha ht),
    fun hr hh ha ht => ?mark, fun rx k => ?down, fun rx => ?up, fun u hr he hh hl hb => ⟨fun ht => ?_, fun ht => ?_⟩, fun b ha hb => ?ride⟩
  case mark =>
    obtain ⟨f, hdown⟩ := Dev.sweepMark_down hr hh ha ht
    exact ⟨_, f, exec_sweepMarkHead_next rfl, hdown⟩
  case down =>
    intro f intact
    refine ⟨fun h => exec_chordDownRx_next rfl (Dev.downRx_deaf f _ k h), fun hr hh hl ho hu => ?_⟩
    intro sent
    have hears : d.hearsDown := ⟨hr, hh, hl, ho, hu⟩
    have hsent {ok : Bool} (hi : intact = ok) : sent = c.forwards f ok := by
      rw [← hi]
      rfl
    refine ⟨fun he hhop hi => exec_chordDownRx_next hi (Dev.downRx_overflow f k hears he hhop), fun hi => ?_, fun hi he hid hs => ?_, fun hi he hs => ?_⟩
    · obtain ⟨hchord, hframe⟩ := Dev.downRx_spoilt f k hears
      exact ⟨_, exec_chordDownRx_next hi rfl, hsent hi ▸ hchord, hframe⟩
    · exact exec_chordDownRx_next hi (hsent hi ▸ Dev.downRx_old f k hears he hid hs)
    · exact ⟨_, exec_chordDownRx_next hi rfl, hsent hi ▸ Dev.downRx_applies f k hears he hs⟩
  case up =>
    intro f intact
    refine ⟨fun h => exec_chordUpRx_next rfl (Dev.upRx_deaf f _ h), fun hr hl ho hu => ?_⟩
    have hears : d.hearsUp := ⟨hr, hl, ho, hu⟩
    refine ⟨fun hh he hid hs => ?_, fun hh hno => ?_, fun hh hw => exec_chordUpRx_next rfl (Dev.upRx_unawaited f _ hears hh hw), fun hh hw => ?_⟩
    · have hmember := (Dev.upRx_member f intact hears hh).trans (if_pos (by simp only [c] at he hid hs; simp [he, hid, hs]))
      exact ⟨_, exec_chordUpRx_next rfl hmember, rfl, rfl, (d.updChord_onlyIn _).thenIn (Dev.updChord_onlyIn _ _)⟩
    · refine exec_chordUpRx_next rfl ((Dev.upRx_member f intact hears hh).trans (if_neg ?_))
      rcases hno with h | h | h <;> simp only [c] at h <;> simp [h]
    · refine ⟨_, exec_chordUpRx_next rfl rfl, Dev.upRx_settles f intact hears hh hw, fun hi hall hsize => ?_, fun hi => ?_⟩
      · rw [show chordIntact 0x13 rx = true from hi]
        exact Dev.upRx_whole f hears hh hw (Chord.whole_of hall hsize)
      · rw [show chordIntact 0x13 rx = false from hi]
        exact Dev.upRx_spoilt f hears hh hw
  · exact exec_chordMemberBreak_next (Dev.memberBreak_early hl ht)
  · exact ⟨_, exec_chordMemberBreak_next rfl, Dev.memberBreak_late hr he hh hl hb ht⟩
  case ride =>
    refine ⟨_, exec_chordRideExpire.trans (State.runLive_next ha rfl), d.chordCauses_onlyIn, fun r hr => ?_⟩
    rw [Dev.chordCauses_break]
    exact Dev.breakShows_iff hr hb
end

section
/-! SUPPORT. The causes of the device's own sources, and the LOOP_CLK cycle in which a command acts. -/

-- The declarations are elaborated one after the other: as tasks of their own they take more threads than the check has memory for.
set_option Elab.async false

namespace Sys2Proof.Machine

open Sys2Proof

/-! ## Sources of the device (R401, R402, R404) -/

/-- A source that belongs to no rail, quad or port is always defined. -/
theorem Dev.srcLives_device (d : Dev) {k : SrcIx} (h : k.val < 0x20) : d.srcLives k = true := by
  unfold Dev.srcLives
  simp only
  rw [if_neg (by omega), if_neg (by omega), if_neg (by omega), if_neg (by omega)]

theorem srcPerPhase_device {k : SrcIx} (h : k.val < 0x10) : srcPerPhase k = false := by
  simp [srcPerPhase, Nat.not_le.2 h]

/-- The cause of a source of the device follows what was said of it, unless an event of the cycle or a force holds it present. -/
theorem Dev.causeOf_setCause_device (d : Dev) {k : SrcIx} (h : k.val < 0x10) (b : Bool) (l : List Byte) :
    (d.setCause k 0 b l).causeOf k 0 = (b || d.eventNow k 0 || d.fault.src[k].force) := by
  rw [Dev.causeOf_setCause, d.srcLives_device (by omega), srcPerPhase_device h]
  simp

/-! ## The present LOOP_CLK cycle (R106) -/

theorem Dev.clockTo_cycle (d : Dev) (t : Tick) : (d.clockTo t).cyc.no = (d.clockTo t).cycle := by
  unfold Dev.clockTo
  extract_lets e
  split
  next h => exact h.symm
  next => rfl

theorem Dev.passTo_cycle (d : Dev) (t : Tick) : (d.passTo t).cyc.no = (d.passTo t).cycle := by
  unfold Dev.passTo
  split
  · exact Dev.clockTo_cycle _ _
  · exact Dev.clockTo_cycle _ _

/-- The end of a low RDY writes the link alone. -/
theorem Dev.endRdyLow_eq (d : Dev) : d.endRdyLow = { d with link := d.endRdyLow.link } := by
  unfold Dev.endRdyLow
  split
  · split <;> rfl
  · rfl

/-- A command acts in a LOOP_CLK cycle whose bookkeeping is its own. -/
theorem Dev.advance_cycle (d : Dev) (t : Tick) : (d.advance t).cyc.no = (d.advance t).cycle := by
  unfold Dev.advance
  rw [Dev.endRdyLow_eq]
  exact Dev.passTo_cycle _ _

end Sys2Proof.Machine

end

section
/-! SUPPORT. The time base, the die temperature and the pins. -/

-- The declarations are elaborated one after the other: as tasks of their own they take more threads than the check has memory for.
set_option Elab.async false

namespace Sys2Proof.Machine

open Sys2Proof

/-! ## The time base and the epoch (R113, R114) -/

theorem lo32_toNat (n : Nat) : (lo32 n).toNat = n % 4294967296 := by simp [lo32]

theorem exec_tbLoRead_next {s : State} {t : Tick} (hl : (s.dev.advance t).linkBlocked = false) (ha : (s.dev.advance t).asked (.tbLoRead t) = true) :
    exec (.tbLoRead t) s = .next (s.after t ((s.dev.advance t).readTbLo.reply stOk (leBytes 4 ((s.dev.advance t).tb % 4294967296)))) := by
  rw [exec_tbLoRead, execTbLoRead]
  exact State.run_next ((Dev.host_inHold hl ha).trans (by rw [lo32_toNat]))

theorem exec_epochHiWrite_next {s : State} {t : Tick} {v : Word} (hh : (s.dev.advance t).takesHost (.epochHiWrite t v)) :
    exec (.epochHiWrite t v) s = .next (s.after t (((s.dev.advance t).writeEpochHi v).reply stOk)) := by
  rw [exec_epochHiWrite, execEpochHiWrite]
  exact State.hostWrite_next hh rfl

/-! ## The die temperature (R101, R102) -/

theorem tempTurns_iff {flag : Bool} {temp set clear : Int} : tempTurns flag temp set clear = true ↔ if flag then temp ≤ clear else set < temp := by
  cases flag <;> simp [tempTurns]

theorem ite_tempTurns {α : Type} (flag : Bool) (temp set clear : Int) (x y : α) :
    (if tempTurns flag temp set clear then x else y) = if (if flag then temp ≤ clear else set < temp) then x else y :=
  if_congr tempTurns_iff rfl rfl

theorem Sys.reading_eq (s : Sys) (code : BitVec 12) (now : Tick) : s.reading code now =
    { s with
      temp := code
      hotSince := if (if s.hot then code.toInt ≤ 776 else 800 < code.toInt) then some (s.hotSince.getD now) else none
      overSince := if (if s.overtemp then code.toInt ≤ 856 else 880 < code.toInt) then some (s.overSince.getD now) else none } := by
  simp only [Sys.reading, ite_tempTurns]

/-- HOT once its dwell, if it has run, has had its effect; and OVERTEMP. -/
def Sys.hotDwelt (s : Sys) (now : Tick) : Sys :=
  { s with hot := s.hot != tempDue s.hotSince now, hotSince := if tempDue s.hotSince now then none else s.hotSince }

def Sys.overDwelt (s : Sys) (now : Tick) : Sys :=
  { s with overtemp := s.overtemp != tempDue s.overSince now, overSince := if tempDue s.overSince now then none else s.overSince }

def Sys.dwelt (s : Sys) (now : Tick) : Sys := (s.hotDwelt now).overDwelt now

theorem Dev.hotDwell_eq (d : Dev) (now : Tick) :
    (if tempDue d.sys.hotSince now then d.updSys fun s => { s with hot := !s.hot, hotSince := none } else d) = d.updSys fun s => s.hotDwelt now := by
  split
  next h => simp [Dev.updSys, Sys.hotDwelt, h]
  next h => simp [Dev.updSys, Sys.hotDwelt, h]

theorem Dev.overDwell_eq (d : Dev) (now : Tick) :
    (if tempDue d.sys.overSince now then d.updSys fun s => { s with overtemp := !s.overtemp, overSince := none } else d) = d.updSys fun s => s.overDwelt now := by
  split
  next h => simp [Dev.updSys, Sys.overDwelt, h]
  next h => simp [Dev.updSys, Sys.overDwelt, h]

theorem Dev.tempDwell_eq (d : Dev) : d.tempDwell =
    ((d.updSys fun s => s.dwelt d.clk.now).setCause srcDieHot 0 (d.sys.dwelt d.clk.now).hot).setCause srcDieOvertemp 0 (d.sys.dwelt d.clk.now).overtemp := by
  unfold Dev.tempDwell
  extract_lets now hotDone overDone
  have hhot : hotDone = d.updSys fun s => s.hotDwelt now := d.hotDwell_eq now
  have hover : overDone = hotDone.updSys fun s => s.overDwelt now := hotDone.overDwell_eq now
  rw [hover, hhot]
  rfl

theorem Dev.tempDwell_spec (d : Dev) : d.tempDwell.sys = d.sys.dwelt d.clk.now ∧
    d.tempDwell.causeOf srcDieHot 0 = ((d.sys.dwelt d.clk.now).hot || d.eventNow srcDieHot 0 || d.fault.src[srcDieHot].force) ∧
    d.tempDwell.causeOf srcDieOvertemp 0 = ((d.sys.dwelt d.clk.now).overtemp || d.eventNow srcDieOvertemp 0 || d.fault.src[srcDieOvertemp].force) ∧
    d.onlyIn d.tempDwell [.sys, .fault] := by
  rw [Dev.tempDwell_eq]
  refine ⟨rfl, ?_, ?_, ?_⟩
  · rw [Dev.causeOf_setCause_ne _ _ _ _ _ _ _ (by decide), Dev.causeOf_setCause_device _ (by decide)]
    rfl
  · rw [Dev.causeOf_setCause_device _ (by decide), Dev.eventNow_setCause]
    exact congrArg _ (Dev.setCause_force _ _ _ _ _ _)
  · exact (d.onlyIn_sys _).into.thenIn (Dev.setCause_onlyIn _ _ _ _ _) |>.thenIn (Dev.setCause_onlyIn _ _ _ _ _)

/-! ## The VSEL code and its place in SYS.PINLVL (R57, R367) -/

theorem vselField_getLsbD : ∀ i < 32, (0xF00#32).getLsbD i = (decide (8 ≤ i) && decide (i < 12)) := by decide

theorem pinFields_getLsbD : ∀ i < 32, 8 ≤ i → i < 12 → (0xFF00FFC0#32).getLsbD i = true := by decide

theorem bitAt_getLsbD (b : Bool) {k i : Nat} (h : k < i) : (bitAt b k).getLsbD i = false := by
  cases b
  · simp [bitAt]
  · simp [bitAt]
    omega

/-- Where the balls of VSEL are known, PINLVL shows the code last taken. -/
theorem Dev.pinLevels_vsel {d : Dev} (h : ∀ i : Nat, 8 ≤ i → i < 12 → d.pinsKnown.getLsbD i = true) :
    d.pinLevels &&& 0xF00#32 = d.sys.vselLvl.setWidth 32 <<< 8 := by
  refine BitVec.eq_of_getLsbD_eq fun i hi => ?_
  rw [BitVec.getLsbD_and, vselField_getLsbD i hi]
  rcases Nat.lt_or_ge i 8 with hlo | hlo
  · simp [hlo]
  rcases Nat.lt_or_ge i 12 with hhi | hhi
  · have hfields := pinFields_getLsbD i hi hlo hhi
    have hsafe : ∀ (b : Bool) (k : Nat), k < 8 → (bitAt b k).getLsbD i = false := fun b k hk => bitAt_getLsbD b (by omega)
    simp [Dev.pinLevels, at', h i hlo hhi, hfields, hsafe, hlo, hhi, show i < 24 by omega]
  · have hcode : d.sys.vselLvl.getLsbD (i - 8) = false := BitVec.getLsbD_of_ge _ _ (by omega)
    simp [hcode, hhi]

theorem Dev.pinsKnown_shown {d : Dev} (hc : d.cyc.no = d.cycle) {i : Nat} (hp : d.cyc.pins.getLsbD i = true) : d.pinsKnown.getLsbD i = true := by
  simp [Dev.pinsKnown, hc, hp]

/-- The device after the code of VSEL was taken. -/
def Dev.takeVsel (d : Dev) (code : BitVec 4) : Dev :=
  let d := ({ d with sys := { d.sys with vselLvl := code } } : Dev).showPin 0xF00
  if d.sys.devState = .boot then d else { d with sp := { d.sp with taken := true, vsel := code } }

theorem Dev.takeVsel_spec (d : Dev) (code : BitVec 4) : (d.takeVsel code).sys = { d.sys with vselLvl := code } ∧
    (d.takeVsel code).sp = (if d.sys.devState = .boot then d.sp else { d.sp with taken := true, vsel := code }) ∧
    (d.takeVsel code).clk = d.clk ∧ (d.takeVsel code).cyc = { d.cyc with pins := d.cyc.pins ||| 0xF00 } ∧ d.onlyIn (d.takeVsel code) [.sys, .sp] := by
  have hframe : d.onlyIn (({ d with sys := { d.sys with vselLvl := code } } : Dev).showPin 0xF00) [.sys] := (d.onlyIn_sys _).thenIn (Dev.onlyIn_cyc _ _ [])
  unfold Dev.takeVsel
  dsimp only
  split
  next h => exact ⟨rfl, (if_pos h).symm, rfl, rfl, hframe.into⟩
  next h => exact ⟨rfl, (if_neg h).symm, rfl, rfl, hframe.into.thenIn (Dev.onlyIn_sp _ _)⟩

theorem Dev.takeVsel_pinLevels {d : Dev} (code : BitVec 4) (hc : d.cyc.no = d.cycle) : (d.takeVsel code).pinLevels &&& 0xF00#32 = code.setWidth 32 <<< 8 := by
  obtain ⟨hsys, -, hclk, hcyc, -⟩ := d.takeVsel_spec code
  have hno : (d.takeVsel code).cyc.no = (d.takeVsel code).cycle := by
    rw [hcyc, Dev.cycle, hclk]
    exact hc
  rw [Dev.pinLevels_vsel fun i hlo hhi => Dev.pinsKnown_shown hno ?_, hsys]
  rw [hcyc, BitVec.getLsbD_or]
  exact Bool.or_eq_true_iff.2 (Or.inr ((vselField_getLsbD i (by omega)).trans (by simp [hlo, hhi])))

theorem exec_vselCodeTaken_next {s : State} {t : Tick} {code : BitVec 4} :
    exec (.vselCodeTaken t code) s = .next (s.after t ((s.dev.advance t).takeVsel code)) :=
  exec_vselCodeTaken.trans (State.run_next rfl)

end Sys2Proof.Machine

open Sys2Proof Sys2Proof.Machine

/-- Settles O15: the two transactions by their effects, a reading by `Sys.reading_eq`, the dwells by `Dev.tempDwell_spec`, and the code of VSEL by
    `Dev.takeVsel_pinLevels`, the command standing in a LOOP_CLK cycle of its own bookkeeping. -/
theorem timeBaseSensorsAndPinsAreTaken : Obligations.TimeBaseSensorsAndPinsAreTaken := by
  refine ⟨⟨fun s t hl ha => exec_tbLoRead_next hl ha, fun s t v hh => exec_epochHiWrite_next hh⟩, fun s t code => ?reading, fun s t => ?dwell, fun s t on => ?jtag,
    fun s t code => ?vsel⟩
  case reading =>
    refine exec_dieTempReading.trans (State.run_next ?_)
    rw [← Sys.reading_eq]
    rfl
  case dwell =>
    obtain ⟨hsys, hhot, hover, hframe⟩ := (s.dev.advance t).tempDwell_spec
    intro d due
    have hdue : due = fun x => tempDue x d.clk.now := funext fun x => by cases x <;> rfl
    refine ⟨_, exec_dieTempDwell.trans (State.run_next rfl), ?_, ?_, ?_, hframe⟩
    · rw [hdue]
      exact hsys
    · rw [hsys]
      exact hhot
    · rw [hsys]
      exact hover
  case jtag => exact exec_jtagExtestClamp.trans (State.run_next rfl)
  case vsel =>
    obtain ⟨hsys, hsp, -, -, hframe⟩ := (s.dev.advance t).takeVsel_spec code
    exact ⟨_, exec_vselCodeTaken_next, hsys, hsp, Dev.takeVsel_pinLevels code (s.dev.advance_cycle t), hframe⟩

end

section
/-! SUPPORT. A clock failure and the relock that ends it. -/

-- The declarations are elaborated one after the other: as tasks of their own they take more threads than the check has memory for.
set_option Elab.async false

namespace Sys2Proof.Machine

open Sys2Proof

/-! ## What a clock failure cuts (R110, R480) -/

theorem Dev.onlyIn_tile (d : Dev) (x : Tile) : d.onlyIn { d with tile := x } [.tile] := fun b hb => by
  cases b <;> simp_all [Dev.same]

theorem Dev.onlyIn_trust (d : Dev) (x : Trust) : d.onlyIn { d with trust := x } [.trust] := fun b hb => by
  cases b <;> simp_all [Dev.same]

theorem Dev.onlyIn_link (d : Dev) (x : Link) : d.onlyIn { d with link := x } [.link] := fun b hb => by
  cases b <;> simp_all [Dev.same]

theorem Dev.onlyIn_sense (d : Dev) (x : Sense) : d.onlyIn { d with sense := x } [.sense] := fun b hb => by
  cases b <;> simp_all [Dev.same]

theorem Dev.dropJob_onlyIn (d : Dev) : d.onlyIn d.dropJob [.trust, .leave] := by
  unfold Dev.dropJob
  split
  · exact (d.onlyIn_leave _).andThen (Dev.onlyIn_trust _ _)
  · split
    · exact (d.onlyIn_leave _).andThen (Dev.onlyIn_trust _ _)
    · exact d.onlyIn_refl _

theorem Dev.dropUnit_onlyIn (d : Dev) : d.onlyIn d.dropUnit [.tile, .leave] := by
  unfold Dev.dropUnit
  split
  · refine Dev.onlyIn_ite' ?_
    split
    · exact (d.onlyIn_tile _).into
    · exact (d.onlyIn_leave _).andThen (Dev.onlyIn_tile _ _)
  · exact d.onlyIn_refl _

/-- No transaction holds the link: none is cut. -/
theorem Dev.dropTransaction_idle {d : Dev} (h : d.link.holding = false) : d.dropTransaction = d := by
  simp [Dev.dropTransaction, h]

theorem Dev.dropTransaction_onlyIn (d : Dev) : d.onlyIn d.dropTransaction [.tile, .trust, .leave] :=
  Dev.onlyIn_ite (d.dropJob_onlyIn.andThen (Dev.dropUnit_onlyIn _))

/-- A job that a host transaction waits for leaves the trust engine with the transaction. -/
theorem Dev.dropTransaction_hosted {d : Dev} (h : d.link.holding = true) (hj : d.trust.running.any TrustJob.hosted = true) :
    d.dropTransaction.trust.running.any TrustJob.hosted = false := by
  have htrust : d.dropTransaction.trust = d.dropJob.trust := by
    rw [Dev.dropTransaction, if_pos h]
    exact d.dropJob.dropUnit_onlyIn .trust (by decide)
  have hjob : d.dropJob.trust.running = d.trust.running.filter fun j => !j.hosted := by
    rw [Dev.dropJob, if_pos hj]
    rfl
  rw [htrust, hjob, List.any_eq_false]
  intro j hmem
  simpa using (List.mem_filter.1 hmem).2

/-! ## A clock failure (R107 to R110) -/

/-- The clocks once the core has moved to the backup oscillator. -/
def Clk.toBackup (c : Clk) (refLoss : Bool) : Clk :=
  { c with
    refOk := c.refOk && !refLoss
    unlockCount := satInc c.unlockCount
    onBackup := true
    pllLock := false
    tbUncertain := true
    failAt := some c.now
    backupFrom := some c.now }

/-- The reference is lost, if it is. -/
def Dev.loseRef (d : Dev) (refLoss : Bool) : Dev := if refLoss then d.updClk fun c => { c with refOk := false } else d

theorem Dev.loseRef_eq (d : Dev) (refLoss : Bool) : d.loseRef refLoss = { d with clk := { d.clk with refOk := d.clk.refOk && !refLoss } } := by
  cases refLoss <;> simp [Dev.loseRef, Dev.updClk]

/-- The core has moved to the backup oscillator, RDY is held low. -/
def Dev.toBackup (d : Dev) (refLoss : Bool) : Dev :=
  (((d.loseRef refLoss).updClk fun c =>
    { c with unlockCount := satInc c.unlockCount, onBackup := true, pllLock := false, tbUncertain := true, failAt := some c.now, backupFrom := some c.now }).setsBit
      .tbUncertain).updSys fun s => { s with rdyLowBackup := true }

theorem Dev.toBackup_clk (d : Dev) (refLoss : Bool) : (d.toBackup refLoss).clk = d.clk.toBackup refLoss := by
  rw [Dev.toBackup, Dev.loseRef_eq]
  rfl

theorem Dev.toBackup_sys (d : Dev) (refLoss : Bool) : (d.toBackup refLoss).sys = { d.sys with rdyLowBackup := true } := by
  rw [Dev.toBackup, Dev.loseRef_eq]
  rfl

theorem Dev.toBackup_onlyIn (d : Dev) (refLoss : Bool) : d.onlyIn (d.toBackup refLoss) [.sys, .clk] := by
  rw [Dev.toBackup, Dev.loseRef_eq]
  exact (d.onlyIn_clk _).thenIn (Dev.onlyIn_clk _ _) |>.thenIn (Dev.onlyIn_cyc _ _ []) |>.andThen (Dev.onlyIn_sys _ _)

theorem Dev.toBackup_link (d : Dev) (refLoss : Bool) : (d.toBackup refLoss).link = d.link := d.toBackup_onlyIn refLoss .link (by decide)

/-- The link and what held it have stopped with the move. -/
def Dev.stoppedLink (d : Dev) : Dev := { d.dropTransaction with link := d.dropTransaction.link.stop }

theorem Dev.stoppedLink_link (d : Dev) : d.stoppedLink.link = d.link.stop :=
  congrArg Link.stop (d.dropTransaction_onlyIn .link (by decide))

theorem Dev.stoppedLink_onlyIn (d : Dev) : d.onlyIn d.stoppedLink [.tile, .trust, .link, .leave] :=
  d.dropTransaction_onlyIn.andThen (Dev.onlyIn_link _ _)

theorem Dev.stoppedLink_idle {d : Dev} (h : d.link.holding = false) : d.onlyIn d.stoppedLink [.link] := by
  rw [Dev.stoppedLink, Dev.dropTransaction_idle h]
  exact d.onlyIn_link _

/-- No cause is examined in BOOT (R418). -/
def Dev.examineClock (d : Dev) : Dev := if d.sys.devState = .boot then d else d.clockCauses

theorem Dev.examineClock_onlyIn (d : Dev) : d.onlyIn d.examineClock [.fault] :=
  Dev.onlyIn_ite' ((d.setCause_onlyIn _ _ _ _).thenIn (Dev.setCause_onlyIn _ _ _ _ _))

theorem Dev.clockCauses_unlock (d : Dev) : d.clockCauses.causeOf srcUnlock 0 = (!d.clk.pllLock || d.eventNow srcUnlock 0 || d.fault.src[srcUnlock].force) := by
  rw [Dev.clockCauses, Dev.causeOf_setCause_device _ (by decide), Dev.eventNow_setCause]
  exact congrArg _ (Dev.setCause_force _ _ _ _ _ _)

theorem Dev.clockCauses_refLoss (d : Dev) : d.clockCauses.causeOf srcRefLoss 0 = (!d.clk.refOk || d.eventNow srcRefLoss 0 || d.fault.src[srcRefLoss].force) := by
  rw [Dev.clockCauses, Dev.causeOf_setCause_ne _ _ _ _ _ _ _ (by decide), Dev.causeOf_setCause_device _ (by decide)]

theorem Dev.clockFailure_locked {d : Dev} (h : d.clk.pllLock = true) (refLoss : Bool) : d.clockFailure refLoss = (d.toBackup refLoss).stoppedLink.examineClock := by
  have hlock : (d.loseRef refLoss).clk.pllLock = true := by
    rw [Dev.loseRef_eq]
    exact h
  unfold Dev.clockFailure
  extract_lets noRef onBackup held dropped moved
  have hmoved : moved = (d.toBackup refLoss).stoppedLink := if_pos hlock
  rw [hmoved]
  rfl

theorem Dev.clockFailure_onlyIn {d : Dev} (h : d.clk.pllLock = true) (refLoss : Bool) :
    d.onlyIn (d.clockFailure refLoss) [.sys, .clk, .tile, .trust, .link, .leave, .fault] ∧
    (d.link.holding = false → d.onlyIn (d.clockFailure refLoss) [.sys, .clk, .link, .fault]) := by
  rw [Dev.clockFailure_locked h]
  exact ⟨(d.toBackup_onlyIn refLoss).andThen (Dev.stoppedLink_onlyIn _) (es := [.sys, .clk, .tile, .trust, .link, .leave]) |>.andThen (Dev.examineClock_onlyIn _),
    fun hidle => (d.toBackup_onlyIn refLoss).andThen (Dev.stoppedLink_idle (by rw [Dev.toBackup_link]; exact hidle)) (es := [.sys, .clk, .link]) |>.andThen (Dev.examineClock_onlyIn _)⟩

/-- What a clock failure finds running of the clock, the state and the causes (R107 to R110). -/
theorem Dev.clockFailure_clocks {d : Dev} (h : d.clk.pllLock = true) (refLoss : Bool) : (d.clockFailure refLoss).clk = d.clk.toBackup refLoss ∧
    (d.clockFailure refLoss).sys = { d.sys with rdyLowBackup := true } ∧
    (d.sys.devState ≠ .boot → (d.clockFailure refLoss).causeOf srcUnlock 0 = true ∧ (refLoss = true → (d.clockFailure refLoss).causeOf srcRefLoss 0 = true)) := by
  have hstop := (d.toBackup refLoss).stoppedLink_onlyIn
  have hclk := (hstop .clk (by decide)).trans (d.toBackup_clk refLoss)
  have hsys := (hstop .sys (by decide)).trans (d.toBackup_sys refLoss)
  rw [Dev.clockFailure_locked h]
  generalize (d.toBackup refLoss).stoppedLink = e at *
  have hend := e.examineClock_onlyIn
  refine ⟨(hend .clk (by decide)).trans hclk, (hend .sys (by decide)).trans hsys, fun hb => ?_⟩
  have hex : e.examineClock = e.clockCauses := if_neg (by rw [hsys]; exact hb)
  rw [hex, Dev.clockCauses_unlock, Dev.clockCauses_refLoss, hclk]
  exact ⟨by simp [Clk.toBackup], fun hl => by simp [Clk.toBackup, hl]⟩

/-- What a clock failure discards of the link and of the job that holds it (R110, R480). -/
theorem Dev.clockFailure_link {d : Dev} (h : d.clk.pllLock = true) (refLoss : Bool) : (d.clockFailure refLoss).link = d.link.stop ∧
    (d.link.holding = true → d.trust.running.any TrustJob.hosted = true → (d.clockFailure refLoss).trust.running.any TrustJob.hosted = false) := by
  rw [Dev.clockFailure_locked h]
  have hend := (d.toBackup refLoss).stoppedLink.examineClock_onlyIn
  refine ⟨(hend .link (by decide)).trans ((Dev.stoppedLink_link _).trans (congrArg Link.stop (d.toBackup_link refLoss))), fun hh hj => ?_⟩
  have htrust : (d.toBackup refLoss).trust = d.trust := d.toBackup_onlyIn refLoss .trust (by decide)
  rw [hend .trust (by decide)]
  exact Dev.dropTransaction_hosted ((congrArg Link.holding (d.toBackup_link refLoss)).trans hh) (by rw [htrust]; exact hj)

/-! ## The relock (R107, R109 to R111) -/

/-- The logic stands on the PLL clocks again, the line is up anew. -/
def Dev.resumed (d : Dev) (lockUs : BitVec 16) : Dev :=
  ({ d with clk := d.clk.relock lockUs, sys := { d.sys with rdyLowBackup := false } } : Dev).openCycle.updLink fun l =>
    { l with lineFrom := (d.clk.relock lockUs).now, framed := true, upFrom := (d.clk.relock lockUs).now }

theorem Dev.resumed_onlyIn (d : Dev) (lockUs : BitVec 16) : d.onlyIn (d.resumed lockUs) [.sys, .clk, .link] :=
  (d.onlyIn_clk _).andThen (Dev.onlyIn_sys _ _) (es := [.sys, .clk, .link]) |>.thenIn (Dev.onlyIn_cyc _ _ []) |>.thenIn (Dev.onlyIn_link _ _)

theorem Dev.pllRelock_failed {d : Dev} {f : Tick} (h : d.clk.failAt = some f) (lockUs : BitVec 16) :
    d.pllRelock lockUs = if d.sys.devState = .boot then d.resumed lockUs else (d.resumed lockUs).restartBlocks.clockCauses :=
  if_neg (by simp [h])

/-- Blocks that begin again leave the bookkeeping of the cycle alone. -/
theorem Dev.restartPwm_onlyIn (d : Dev) (n : PhaseIx) : d.onlyIn (d.restartPwm n) [.pwm] ∧ (d.restartPwm n).cyc = d.cyc := by
  unfold Dev.restartPwm
  split
  · exact ⟨d.onlyIn_refl _, rfl⟩
  · exact ⟨d.updPwm_onlyIn n _, rfl⟩

theorem Dev.restartBlocks_onlyIn (d : Dev) : d.onlyIn d.restartBlocks [.pwm, .pwmg, .sense] ∧ d.restartBlocks.cyc = d.cyc := by
  unfold Dev.restartBlocks
  split
  · exact ⟨d.onlyIn_refl _, rfl⟩
  · extract_lets now g dev ref phases
    have hphases : ref.onlyIn phases [.pwm] ∧ phases.cyc = ref.cyc := foldl_related (P := fun a b : Dev => a.onlyIn b [.pwm] ∧ b.cyc = a.cyc) (fun e => ⟨e.onlyIn_refl _, rfl⟩)
      (fun h k => ⟨h.1.thenIn k.1, k.2.trans h.2⟩) Dev.restartPwm_onlyIn (List.finRange 64) ref
    clear_value phases
    exact ⟨(d.onlyIn_pwmg _).andThen hphases.1 (es := [.pwm, .pwmg, .sense]) |>.thenIn (Dev.onlyIn_sense _ _), hphases.2⟩

theorem Clk.relock_now (c : Clk) (l : BitVec 16) : c.now ≤ (c.relock l).now ∧ (c.relock l).now ≤ c.now + 1 := by
  have hnow : (c.relock l).now = c.now + c.tbAt c.now % 2 := rfl
  rw [hnow]
  exact ⟨Nat.le_add_right _ _, Nat.add_le_add_left (Nat.le_of_lt_succ (Nat.mod_lt _ (by decide))) _⟩

/-- A new cycle has seen no event (R402). -/
theorem Dev.resumed_eventNow (d : Dev) (lockUs : BitVec 16) (k : SrcIx) (i : PhaseIx) : (d.resumed lockUs).eventNow k i = false := by
  simp [Dev.eventNow, Dev.resumed]

theorem Dev.pllRelock_spec {d : Dev} {f : Tick} (h : d.clk.failAt = some f) (lockUs : BitVec 16) :
    (d.pllRelock lockUs).clk = d.clk.relock lockUs ∧ (d.pllRelock lockUs).sys = { d.sys with rdyLowBackup := false } ∧
    (d.pllRelock lockUs).link = { d.link with lineFrom := (d.clk.relock lockUs).now, framed := true, upFrom := (d.clk.relock lockUs).now } ∧
    (d.sys.devState = .boot → d.onlyIn (d.pllRelock lockUs) [.sys, .clk, .link]) ∧
    (d.sys.devState ≠ .boot → (d.pllRelock lockUs).causeOf srcUnlock 0 = d.fault.src[srcUnlock].force ∧
      d.onlyIn (d.pllRelock lockUs) [.sys, .clk, .pwm, .pwmg, .sense, .fault, .link]) := by
  have hres := d.resumed_onlyIn lockUs
  rw [Dev.pllRelock_failed h]
  by_cases hb : d.sys.devState = .boot
  · rw [if_pos hb]
    exact ⟨rfl, rfl, rfl, fun _ => hres, fun hn => absurd hb hn⟩
  · obtain ⟨hblocks, hcyc⟩ := (d.resumed lockUs).restartBlocks_onlyIn
    have hcauses : (d.resumed lockUs).restartBlocks.onlyIn (d.resumed lockUs).restartBlocks.clockCauses [.fault] :=
      (Dev.setCause_onlyIn _ _ _ _ _).thenIn (Dev.setCause_onlyIn _ _ _ _ _)
    have hafter := hblocks.andThen hcauses (es := [.pwm, .pwmg, .sense, .fault])
    rw [if_neg hb]
    refine ⟨hafter .clk (by decide), hafter .sys (by decide), hafter .link (by decide), fun h' => absurd h' hb, fun _ => ⟨?_, hres.andThen hafter⟩⟩
    have hclk : (d.resumed lockUs).restartBlocks.clk = d.clk.relock lockUs := hblocks .clk (by decide)
    have hfault : (d.resumed lockUs).restartBlocks.fault = d.fault := hblocks .fault (by decide)
    have hevent : (d.resumed lockUs).restartBlocks.eventNow srcUnlock 0 = false := by
      rw [← d.resumed_eventNow lockUs srcUnlock 0]
      unfold Dev.eventNow Dev.cycle
      rw [hcyc, hclk]
      rfl
    rw [Dev.clockCauses_unlock, hclk, hevent, hfault]
    rfl

/-! ## The lock of a start (R55, R111, R354, R459, R481) -/

theorem Dev.pllRelock_start {d : Dev} {p : StartPending} (hf : d.clk.failAt = none) (hs : d.sys.start = some p) (hl : d.locked = false) (lockUs : BitVec 16) :
    d.pllRelock lockUs =
      if p.cold then ({ d with sys := { d.sys with start := some { p with locked := true } }, link := d.link.lockAt d.clk.now } : Dev).coldPins
      else { d with sys := { d.sys with start := some { p with locked := true } }, link := d.link.lockAt d.clk.now } := by
  have hstart : d.pllRelock lockUs = d.startLock := if_pos (by simp [hf])
  rw [hstart, Dev.startLock, hs]
  exact if_neg (by simp [hl])

end Sys2Proof.Machine

open Sys2Proof Sys2Proof.Machine

/-- Settles O14: the failure by what it makes of the clocks and of the link, the relock by `Dev.pllRelock_spec` with `Clk.relock_tb` for the time base, and
    the lock of a start by `Dev.pllRelock_start`. -/
theorem clockFailureAndRelock : Obligations.ClockFailureAndRelock := by
  refine ⟨fun s t refLoss => ?failure, fun s t => exec_lockRetry.trans (State.run_next rfl), fun s t us f => ?relock, fun s t us p => ?start⟩
  case failure =>
    intro d hl
    obtain ⟨hclk, hsys, hcauses⟩ := Dev.clockFailure_clocks hl refLoss
    obtain ⟨hlink, hjob⟩ := Dev.clockFailure_link hl refLoss
    obtain ⟨hframe, hidle⟩ := Dev.clockFailure_onlyIn hl refLoss
    have htx : d.link.stop.tx = d.link.tx.filter fun f => match f with
        | .response _ => true
        | _ => false := List.filter_congr fun f _ => by cases f <;> rfl
    refine ⟨_, exec_clockFailure.trans (State.run_next rfl), hclk, hsys, ?_, ?_, ?_, ?_, hcauses, hjob, hidle, hframe⟩ <;> rw [hlink]
    · rfl
    · rfl
    · rfl
    · exact htx
  case relock =>
    intro d hf
    obtain ⟨hclk, hsys, hlink, hboot, hrun⟩ := Dev.pllRelock_spec hf us
    obtain ⟨hle, hlt⟩ := d.clk.relock_now us
    have htb : (d.pllRelock us).tb = (d.tb + 1) / 2 * 2 := by
      rw [Dev.tb, hclk]
      exact d.clk.relock_tb us
    rw [← hclk] at hle hlt hlink
    exact ⟨_, exec_pllRelock.trans (State.run_next rfl), by rw [hclk]; rfl, by rw [hclk]; rfl, by rw [hclk]; rfl, by rw [hclk]; rfl, by rw [hclk]; rfl,
      hle, hlt, htb, hsys, hlink, hboot, hrun⟩
  case start =>
    intro d sys link hf hs hl
    exact exec_pllRelock.trans (State.run_next (Dev.pllRelock_start hf hs hl us))

end

section
/-! SUPPORT. What settles in BOOT, where the fault manager, the fabric and the clocked blocks stand still (R108, R117, R418). -/

-- The declarations are elaborated one after the other: as tasks of their own they take more threads than the check has memory for.
set_option Elab.async false

namespace Sys2Proof.Machine

open Sys2Proof

/-! ## Cards, rails and quads: what follows from the state at once -/

theorem Dev.updCard_onlyIn (d : Dev) (s : CardIx) (f : Card → Card) : d.onlyIn (d.updCard s f) [.cards] := d.onlyIn_cards _

theorem Dev.onlyIn_test (d : Dev) (x : Test) : d.onlyIn { d with test := x } [.test] := fun b hb => by
  cases b <;> simp_all [Dev.same]

theorem Dev.restartToff_onlyIn (d : Dev) (s : CardIx) : d.onlyIn (d.restartToff s) [.rails] :=
  Dev.onlyIn_foldl _ (fun e r => Dev.onlyIn_ite (e.updRail_onlyIn r _)) _ d

theorem Dev.qualifyCard_onlyIn (d : Dev) (s : CardIx) : d.onlyIn (d.qualifyCard s) [.cards, .pwm, .rails, .fault] := by
  unfold Dev.qualifyCard
  extract_lets card masks removed
  have hmasks : card.onlyIn masks [.pwm] := Dev.onlyIn_foldl _ (fun e n => e.setMask_onlyIn n _) _ card
  have hremoved : masks.onlyIn removed [.fault] := (masks.event_onlyIn _).thenIn (Dev.setCause_onlyIn _ _ _ _ _)
  exact (d.updCard_onlyIn s _).into.thenIn hmasks |>.thenIn hremoved |>.thenIn (removed.restartToff_onlyIn s)
    |>.thenIn (Dev.onlyIn_foldl _ Dev.respread_onlyIn _ _)

theorem Dev.failCard_onlyIn (d : Dev) (s : CardIx) (check : Byte) : d.onlyIn (d.failCard s check) [.cards, .fault] :=
  (d.updCard_onlyIn s _).andThen (Dev.setCause_onlyIn _ _ _ _ _)

theorem Dev.offsetCheck_onlyIn (d : Dev) (s : CardIx) : d.onlyIn (d.offsetCheck s) [.cards, .pwm, .rails, .fault] := by
  refine Dev.onlyIn_ite ?_
  split
  · exact d.qualifyCard_onlyIn s
  · exact (d.failCard_onlyIn s 3).into

theorem Dev.markOrShed_onlyIn (d : Dev) (n : PhaseIx) (fires : Bool) :
    d.onlyIn (if !d.isLoop n then d.endStart n else if fires then d.shedOne n else d.markShed n) [.pwm, .leave, .fault] := by
  split
  · exact (d.endStart_onlyIn n).into
  · split
    · exact d.shedOne_onlyIn n
    · exact (d.markShed_onlyIn n).into

theorem Dev.shedSlot_onlyIn (d : Dev) (s : CardIx) (fires : Bool) : d.onlyIn (d.shedSlot s fires) [.pwm, .leave, .fault, .rails, .loop] := by
  unfold Dev.shedSlot
  extract_lets shed onCard
  have hshed : d.onlyIn shed [.pwm, .leave, .fault] := Dev.onlyIn_foldl _ (fun e n => e.markOrShed_onlyIn n fires) _ d
  refine hshed.into.thenIn (Dev.onlyIn_foldl (bs := [.pwm, .leave, .fault, .rails, .loop]) _ (fun e r => ?_) _ shed)
  extract_lets unnoticed withdrawn
  have hnotice : e.onlyIn unnoticed [.rails] := by
    dsimp only [unnoticed]
    split
    · exact Dev.onlyIn_ite (e.updRail_onlyIn r _)
    · exact e.onlyIn_refl _
  have hadd : unnoticed.onlyIn withdrawn [.leave, .rails] := by
    dsimp only [withdrawn]
    split
    · exact Dev.onlyIn_ite (unnoticed.withdrawAdd_onlyIn r)
    · exact unnoticed.onlyIn_refl _
  exact hnotice.into.thenIn hadd |>.thenIn (withdrawn.respread_onlyIn r) |>.thenIn (Dev.syncCtx_onlyIn _ r)

theorem Dev.excludeCard_onlyIn (d : Dev) (s : CardIx) : d.onlyIn (d.excludeCard s) [.pwm, .leave, .fault, .rails, .loop] :=
  Dev.onlyIn_ite (d.shedSlot_onlyIn s true)

theorem Dev.keepSpread_onlyIn (d : Dev) (r : RailIx) : d.onlyIn (d.keepSpread r) [.rails, .pwm, .loop, .fault] :=
  Dev.onlyIn_ite' ((d.respread_onlyIn r).andThen (Dev.syncCtx_onlyIn _ r))

theorem Dev.keepAdd_onlyIn (d : Dev) (r : RailIx) : d.onlyIn (d.keepAdd r) [.leave, .rails] := by
  unfold Dev.keepAdd
  split
  · exact Dev.onlyIn_ite' (d.withdrawAdd_onlyIn r)
  · exact d.onlyIn_refl _

theorem Dev.holdRail_onlyIn (d : Dev) (r : RailIx) : d.onlyIn (d.holdRail r) [.prot, .pwm] :=
  Dev.onlyIn_foldl _ (fun e n => (e.updTrip_onlyIn n _).andThen (Dev.updPwm_onlyIn _ n _)) _ d

theorem Dev.keepOv_onlyIn (d : Dev) (r : RailIx) : d.onlyIn (d.keepOv r) [.prot, .pwm] :=
  Dev.onlyIn_ite (d.holdRail_onlyIn r)

theorem Dev.endMasked_onlyIn (d : Dev) (g : LeaveGrant) : d.onlyIn (d.endMasked g) [.pwm, .leave] :=
  Dev.onlyIn_ite (d.endStart_onlyIn _)

theorem Dev.endCal_onlyIn (d : Dev) (result : BitVec 4) : d.onlyIn (d.endCal result) [.leave, .sense] :=
  (d.onlyIn_leave _).into.thenIn (Dev.onlyIn_leave _ _) |>.thenIn (Dev.onlyIn_sense _ _)

theorem Dev.railEndsCal_onlyIn (d : Dev) : d.onlyIn d.railEndsCal [.leave, .sense] := Dev.onlyIn_ite (d.endCal_onlyIn 6)

theorem Dev.checkPhaseTest_onlyIn (d : Dev) : d.onlyIn d.checkPhaseTest [.leave, .test] := by
  unfold Dev.checkPhaseTest
  split
  · exact Dev.onlyIn_ite ((d.onlyIn_leave _).into.thenIn (Dev.onlyIn_leave _ _) |>.thenIn (Dev.onlyIn_test _ _))
  · exact d.onlyIn_refl _

theorem Dev.jtagCause_onlyIn (d : Dev) : d.onlyIn d.jtagCause [.fault] := d.setCause_onlyIn _ _ _ _

theorem Dev.stopRetile_onlyIn (d : Dev) : d.onlyIn d.stopRetile [.tile] := by
  refine Dev.onlyIn_ite ?_
  split
  · exact d.onlyIn_tile _
  · exact Dev.onlyIn_ite (d.onlyIn_tile _)

/-! ## The end of a command in BOOT -/

theorem Dev.alive_boot {d : Dev} (h : d.sys.devState = .boot) : d.alive = false := by simp [Dev.alive, h]

theorem Dev.follow_boot {d : Dev} (h : d.sys.devState = .boot) :
    d.onlyIn d.follow [.cards, .pwm, .rails, .fault, .leave, .loop, .prot, .sense, .test, .tile] := by
  unfold Dev.follow
  extract_lets cards rails grants quads
  have hcards : d.onlyIn cards [.cards, .pwm, .rails, .fault, .leave, .loop] :=
    Dev.onlyIn_foldl _ (fun e s => (e.offsetCheck_onlyIn s).andThen (Dev.excludeCard_onlyIn _ s)) _ d
  have hrails : cards.onlyIn rails [.pwm, .rails, .fault, .leave, .loop, .prot] :=
    Dev.onlyIn_foldl _ (fun e r => (e.keepSpread_onlyIn r).into.thenIn (Dev.keepAdd_onlyIn _ r) |>.thenIn (Dev.checkUnderphased_onlyIn _ r)
      |>.thenIn (Dev.keepOv_onlyIn _ r)) _ cards
  have hgrants : rails.onlyIn grants [.pwm, .leave] := Dev.onlyIn_foldl _ Dev.endMasked_onlyIn _ rails
  have hall := hcards.into.thenIn hrails (bs := [.cards, .pwm, .rails, .fault, .leave, .loop, .prot, .sense, .test, .tile]) |>.thenIn hgrants
  have hquads : quads = grants := by
    have hstate : grants.sys = d.sys := hall .sys (by decide)
    exact if_neg (by rw [Dev.alive_boot (by rw [hstate]; exact h)]; decide)
  rw [hquads]
  exact hall.thenIn grants.railEndsCal_onlyIn |>.thenIn (Dev.checkPhaseTest_onlyIn _) |>.thenIn (Dev.jtagCause_onlyIn _) |>.thenIn (Dev.stopRetile_onlyIn _)

theorem Dev.deliverAll_boot {d : Dev} (h : d.sys.devState = .boot) : d.onlyIn d.deliverAll [.fault] := by
  unfold Dev.deliverAll
  rw [Dev.alive_boot h]
  exact d.onlyIn_fault _

theorem Dev.takeSeen_boot {d : Dev} (h : d.sys.devState = .boot) : d.onlyIn d.takeSeen [.fault] := by
  rw [Dev.takeSeen, if_pos h]
  exact d.onlyIn_fault _

theorem Dev.rounds_boot : ∀ (k : Nat) {d : Dev}, d.sys.devState = .boot →
    d.onlyIn (d.rounds k) [.cards, .pwm, .rails, .fault, .leave, .loop, .prot, .sense, .test, .tile]
  | 0, d, _ => d.onlyIn_refl _
  | k + 1, d, h => by
    have hfollow := Dev.follow_boot h
    have hstate : ∀ {e : Dev}, d.onlyIn e [.cards, .pwm, .rails, .fault, .leave, .loop, .prot, .sense, .test, .tile] → e.sys.devState = .boot := fun he => by
      rw [he .sys (by decide)]
      exact h
    rw [Dev.rounds]
    split
    · exact hfollow
    · have hdeliver := hfollow.thenIn (Dev.deliverAll_boot (hstate hfollow))
      have htake := hdeliver.thenIn (Dev.takeSeen_boot (hstate hdeliver))
      exact htake.thenIn (Dev.rounds_boot k (hstate htake))

theorem Dev.tokenEnd_onlyIn (d : Dev) (bs : List Byte) (status : Byte) (reason : Nat) : d.onlyIn (d.tokenEnd bs status reason) [.trust, .lantern, .fault, .link] := by
  unfold Dev.tokenEnd
  extract_lets k told noted
  have hnoted : told.onlyIn noted [.lantern, .fault] := Dev.onlyIn_ite (told.note_onlyIn _ _ _ _)
  exact (d.onlyIn_trust _).into.thenIn hnoted |>.thenIn (noted.reply_onlyIn _ _)

theorem Dev.refuseForms_onlyIn (d : Dev) : d.onlyIn d.refuseForms [.trust, .lantern, .fault, .link] := by
  unfold Dev.refuseForms Dev.refuseForm
  split
  · refine Dev.onlyIn_ite' ?_
    split
    · exact (d.onlyIn_trust _).into.thenIn (Dev.reply_onlyIn _ _ _)
    · exact d.tokenEnd_onlyIn _ _ _
    · exact (d.reply_onlyIn _ _).into
  · exact d.onlyIn_refl _

theorem Dev.endRdyLow_onlyIn (d : Dev) : d.onlyIn d.endRdyLow [.link] := by
  rw [Dev.endRdyLow_eq]
  exact d.onlyIn_link _

theorem Dev.trackRdy_onlyIn (d : Dev) : d.onlyIn d.trackRdy [.link] := by
  unfold Dev.trackRdy
  extract_lets full
  have hfull : d.onlyIn full [.link] := d.onlyIn_link _
  split
  · exact hfull.thenIn (full.onlyIn_link _)
  · exact hfull.thenIn full.endRdyLow_onlyIn

/-- The consequences of a command that leaves the device in BOOT leave SYS alone. -/
theorem Dev.finish_boot {d : Dev} (old : Dev) (h : d.sys.devState = .boot) : (Dev.finish old d).sys = d.sys := by
  have hrounds := (Dev.rounds_boot 8 h).into.thenIn (Dev.refuseForms_onlyIn _) |>.thenIn (Dev.trackRdy_onlyIn _)
    (bs := [.cards, .pwm, .rails, .fault, .leave, .loop, .prot, .sense, .test, .tile, .trust, .lantern, .link])
  have hsettle : d.settle.sys = d.sys := hrounds .sys (by decide)
  have hedges : Dev.edges old d.settle = d.settle := if_neg (by rw [Dev.alive_boot (by rw [hsettle]; exact h)]; decide)
  rw [Dev.finish, hedges, hsettle]

theorem State.finish_of_after {s : State} {t : Tick} {d d' : Dev} (h : s.after t d = s.after t d') :
    Dev.finish (s.dev.advance t) d = Dev.finish (s.dev.advance t) d' := by
  rw [← State.after_dev, h, State.after_dev]

/-! ## A reset in the cycle of a transition that it drops (R40, R139) -/

/-- A device whose rail command has taken it from STANDBY to RUN in the present LOOP_CLK cycle. -/
def justRunning : Dev := { sys := { devState := .run, start := none }, clk := { pllLock := true }, cyc := { moved := some true, state := .standby } }

theorem justRunning_advance : justRunning.advance 0 = justRunning := by
  rw [Dev.advance_idle (Dev.stirs_idle rfl rfl rfl) rfl rfl]
  rfl

/-- RST_N drops that transition: the reset goes from STANDBY. -/
theorem justRunning_reset : (justRunning.resetBy 3).sys.devState = .boot ∧ (justRunning.resetBy 3).sys.prevState = DevState.standby.code := ⟨rfl, rfl⟩

end Sys2Proof.Machine

open Sys2Proof Sys2Proof.Machine

/-- Refutes O9: a reset in the LOOP_CLK cycle in which the device has gone from STANDBY to RUN drops that transition and goes from the state of the
    cycle's start (R40), so that SYS.RESET.PREV_STATE is STANDBY, where the statement asks for the state that stands, RUN. -/
theorem not_resetsEnterBoot : ¬Obligations.ResetsEnterBoot := by
  rintro ⟨-, -, -, hresets⟩
  have hrst := ((hresets { dev := justRunning } 0).1 (by rw [justRunning_advance]; rfl)).1
  dsimp only at hrst
  rw [justRunning_advance] at hrst
  obtain ⟨d', hexec, hboot⟩ := hrst
  obtain ⟨hstate, hprev⟩ := justRunning_reset
  obtain ⟨-, -, -, hasked⟩ := hboot.report
  have hreset : exec (.rstNAsserted 0) { dev := justRunning } = .next (State.after { dev := justRunning } 0 (justRunning.resetBy 3)) :=
    exec_rstNAsserted.trans (State.run_next (by rw [justRunning_advance]))
  have hdev := State.finish_of_after (Host.Outcome.next.inj (hexec.symm.trans hreset))
  have hsys : d'.sys = (justRunning.resetBy 3).sys := by
    rw [← Dev.finish_boot _ hboot.state.1, hdev, Dev.finish_boot _ hstate]
  rw [hsys, hprev] at hasked
  exact absurd hasked (by decide)

end

section
/-! SUPPORT. The steps of a cold start. -/

namespace Sys2Proof.Machine

open Sys2Proof

/-! ## Step 5: the image that is chosen (R123, R159) -/

/-- The keys are those of the slots. -/
theorem Trust.keys_of_slots {t u : Trust} (h : t.slots = u.slots) : t.keys = u.keys := by
  unfold Trust.keys
  rw [h]

/-- A slot verifies as an image under the keys. -/
def Tile.holds (t : Tile) (keys : Keys) (b : Bool) (x : Tiling) : Prop := (t.slot b).recLen.isSome = true ∧ (t.slot b).verify keys = .ok x

theorem Tile.updSlot_other (t : Tile) (b : Bool) (f : Slot → Slot) : (t.updSlot b f).slot (!b) = t.slot (!b) := by
  cases b <;> rfl

theorem Tile.startVerify_holds {t : Tile} {keys : Keys} {b : Bool} {x : Tiling} (h : t.holds keys b x) :
    t.startVerify keys b = (t.updSlot b fun s => { s with state := .valid }, some x) := by
  obtain ⟨hlen, hok⟩ := h
  unfold Tile.startVerify
  rw [if_neg (by simp [Option.isSome_iff_ne_none.1 hlen]), hok]

/-- A slot that does not verify yields no image, and the other one stands as it stood. -/
theorem Tile.startVerify_fails {t : Tile} {keys : Keys} {b : Bool} (h : ¬∃ x, t.holds keys b x) :
    ∃ t' : Tile, t.startVerify keys b = (t', none) ∧ t'.slot (!b) = t.slot (!b) := by
  unfold Tile.startVerify
  split
  · exact ⟨t, rfl, rfl⟩
  next hlen =>
    split
    next x hok => exact absurd ⟨x, Option.isSome_iff_ne_none.2 (by simpa using hlen), hok⟩ h
    next c _ => exact ⟨_, rfl, t.updSlot_other b _⟩

/-- An image runs from the slot. -/
def Tile.RunsFrom (t : Tile) (b : Bool) (x : Tiling) : Prop := t.tiled = true ∧ t.runB = b ∧ t.committed = x

theorem Tile.runs_runsFrom (t : Tile) (b : Bool) (x : Tiling) : (t.runs b x).RunsFrom b x := ⟨rfl, rfl, rfl⟩

theorem Tile.chooseImage_marked {t : Tile} {keys : Keys} {x : Tiling} (h : t.holds keys t.mark.slotB x) :
    ∃ t' : Tile, t.chooseImage keys = (t', false) ∧ t'.RunsFrom t.mark.slotB x := by
  refine ⟨(t.updSlot t.mark.slotB fun s => { s with state := .valid }).runs t.mark.slotB x, ?_, Tile.runs_runsFrom _ _ _⟩
  rw [Tile.chooseImage, Tile.startVerify_holds h]

theorem Tile.chooseImage_other {t : Tile} {keys : Keys} {x : Tiling} (hm : ¬∃ y, t.holds keys t.mark.slotB y) (h : t.holds keys (!t.mark.slotB) x) :
    ∃ t' : Tile, t.chooseImage keys = (t', true) ∧ t'.RunsFrom (!t.mark.slotB) x := by
  obtain ⟨u, hu, hslot⟩ := Tile.startVerify_fails hm
  have hother : u.holds keys (!t.mark.slotB) x := by
    rw [Tile.holds, hslot]
    exact h
  refine ⟨(u.updSlot (!t.mark.slotB) fun s => { s with state := .valid }).runs (!t.mark.slotB) x, ?_, Tile.runs_runsFrom _ _ _⟩
  rw [Tile.chooseImage, hu]
  dsimp only
  rw [Tile.startVerify_holds hother]

theorem Tile.chooseImage_none {t : Tile} {keys : Keys} (h : ¬∃ b y, t.holds keys b y) : ∃ t' : Tile, t.chooseImage keys = (t', false) ∧ t'.tiled = false := by
  obtain ⟨u, hu, hslot⟩ := Tile.startVerify_fails fun hm => h ⟨t.mark.slotB, hm⟩
  have hother : ¬∃ y, u.holds keys (!t.mark.slotB) y := by
    simp only [Tile.holds, hslot]
    exact fun hy => h ⟨_, hy⟩
  obtain ⟨v, hv, -⟩ := Tile.startVerify_fails hother
  refine ⟨v.unrun, ?_, rfl⟩
  rw [Tile.chooseImage, hu]
  dsimp only
  rw [hv]

/-! ## Steps 7 and 8: the lines and the slices -/

theorem Dev.fullLines_onlyIn (d : Dev) (ms : List LineMeas) : d.onlyIn (d.fullLines ms) [.pwm] := d.onlyIn_pwm _

theorem Dev.updQuad_keepsStart (d : Dev) (q : QuadIx) (f : Quad → Quad) : d.KeepsStart (d.updQuad q f) :=
  ⟨rfl, rfl, rfl, rfl, rfl, rfl, rfl, rfl, rfl, rfl, rfl, rfl, fun _ => rfl⟩

theorem Dev.failSlice_keepsStart (d : Dev) (q : QuadIx) (i : Fin 5) (check : Byte) : d.KeepsStart (d.failSlice q i check) :=
  (d.updQuad_keepsStart q _).trans (Dev.keepsStart_of_onlyIn (Dev.raiseEvent_onlyIn _ _ _ _))

theorem Dev.fgQuad_keepsStart (d : Dev) (ms : List SliceMeas) (q : QuadIx) : d.KeepsStart (d.fgQuad ms q) := by
  unfold Dev.fgQuad
  extract_lets freed find
  have hfreed : d.KeepsStart freed := ⟨rfl, rfl, rfl, rfl, rfl, rfl, rfl, rfl, rfl, rfl, rfl, rfl, fun _ => rfl⟩
  generalize slotMap (fun i => (find i).isSome) = m
  obtain ⟨slots, spare⟩ := m
  dsimp -zeta only
  extract_lets mapped
  have hmapped : freed.KeepsStart mapped := freed.updQuad_keepsStart q _
  have hfailed := Dev.keepsStart_foldl (fun d i => d.failSlice q i 5) (fun e i => e.failSlice_keepsStart q i 5)
    ((List.finRange 5).filter fun i => (find i).isNone) mapped
  exact ((hfreed.trans hmapped).trans hfailed).trans (Dev.keepsStart_of_onlyIn (Dev.setCause_onlyIn _ _ _ _ _))

theorem Dev.fgAll_keepsStart (d : Dev) (ms : List SliceMeas) : d.KeepsStart (d.fgAll ms).1 :=
  Dev.keepsStart_foldl _ (fun e q => e.fgQuad_keepsStart ms q) _ d

/-- The clock is put back after the calibration at the step's own tick. -/
theorem Dev.startSlices_keepsStart (d : Dev) (ms : List SliceMeas) (at_ : Tick) : d.KeepsStart (d.startSlices ms at_).1 := by
  have h := ({ d with clk := { d.clk with now := at_ } } : Dev).fgAll_keepsStart ms
  unfold Dev.startSlices
  generalize ({ d with clk := { d.clk with now := at_ } } : Dev).fgAll ms = e at h
  have hclk : ({ e.1.clk with now := d.clk.now } : Clk) = d.clk := congrArg (fun c : Clk => { c with now := d.clk.now }) h.clk
  exact ⟨hclk, h.link, h.sys, h.sp, h.trust, h.rper, h.cal, h.unlock, h.budget, h.tiled, h.runB, h.committed, h.modes⟩

/-! ## Step 9: the Lantern's recovery and the records -/

theorem Dev.recoverLantern_onlyIn (d : Dev) (bad : List Nat) (lostStore : Bool) (resume : Option Nat) :
    d.onlyIn (d.recoverLantern bad lostStore resume) [.lantern, .fault, .free] := by
  unfold Dev.recoverLantern
  extract_lets old l h n
  have hdrawn : d.onlyIn (if lostStore then d.fresh else (BitVec.ofNat 32 n, d)).2 [.free] := by
    split
    · exact d.onlyIn_free _
    · exact d.onlyIn_refl _
  generalize (if lostStore then d.fresh else (BitVec.ofNat 32 n, d)) = w at *
  have hput := hdrawn.into.thenIn (Dev.onlyIn_lantern w.2 l) (bs := [.lantern, .fault, .free])
  dsimp only
  split
  · exact hput.thenIn (Dev.gap_onlyIn _ _ _ _ _)
  · exact hput

theorem Dev.coldRecord_onlyIn (d : Dev) (o : ColdOutcome) (n : Nat) : d.onlyIn (d.coldRecord o n) [.lantern, .fault] := d.noteNext_onlyIn _ _ _ _

theorem Dev.setLast_onlyIn (d : Dev) (k : SrcIx) (n : Option Nat) : d.onlyIn (d.setLast k n) [.fault] := by
  unfold Dev.setLast
  split
  · exact d.onlyIn_fault _
  · exact d.onlyIn_refl _

theorem Dev.startFault_onlyIn (d : Dev) (x : Seen) : d.onlyIn (d.startFault x) [.lantern, .fault] :=
  (d.onlyIn_fault _).into.thenIn (Dev.journal_onlyIn _ _) |>.thenIn (Dev.setLast_onlyIn _ _ _)

theorem Dev.startRecords_onlyIn (d : Dev) (es : List StartEvent) : d.onlyIn (d.startRecords es) [.lantern, .fault] := by
  refine Dev.onlyIn_foldl _ (fun e x => ?_) _ d
  cases x with
  | note i => exact e.journal_onlyIn i
  | fault x => exact e.startFault_onlyIn x

/-- The device with its records written: no failed start and no unlock is left to record. -/
def Dev.recorded (d : Dev) (resume : Bool) : Dev :=
  { d with sys := { d.sys with boot := { d.sys.boot with startFails := [], resume := resume } }, sense := { d.sense with unlockUntil := none } }

theorem Dev.KeepsStart.recorded {d e : Dev} (h : d.KeepsStart e) (resume : Bool) : (d.recorded resume).KeepsStart (e.recorded resume) :=
  { h with sys := congrArg (fun s : Sys => { s with boot := { s.boot with startFails := [], resume := resume } }) h.sys, unlock := rfl }

/-- The failed starts are forgotten, then the unlock. -/
theorem Dev.recorded_keepsStart {d e : Dev} {resume : Bool}
    (h : ({ d with sys := { d.sys with boot := { d.sys.boot with startFails := [], resume := resume } } } : Dev).KeepsStart e) :
    (d.recorded resume).KeepsStart { e with sense := { e.sense with unlockUntil := none } } :=
  ⟨h.clk, h.link, h.sys, h.sp, h.trust, h.rper, h.cal, rfl, h.budget, h.tiled, h.runB, h.committed, h.modes⟩

theorem Dev.coldRecords_keepsStart (d : Dev) (o : ColdOutcome) (es : List StartEvent) :
    ∃ resume, (d.recorded resume).KeepsStart (d.coldRecords o es) := by
  unfold Dev.coldRecords
  extract_lets retry both recovered counted wrote
  have hrecovered : d.KeepsStart recovered := Dev.keepsStart_of_onlyIn (d.recoverLantern_onlyIn _ _ _)
  clear_value recovered
  have hwrote : counted.KeepsStart wrote := Dev.keepsStart_of_onlyIn ((counted.coldRecord_onlyIn o _).thenIn (Dev.startRecords_onlyIn _ _))
  exact ⟨both || (recovered.sys.boot.resume && !retry), (hrecovered.recorded _).trans (Dev.recorded_keepsStart hwrote)⟩

/-! ## Steps 5 to 9 (R122 to R126) -/

/-- SYS of a device whose start has ended in the state named. -/
def Sys.started (s : Sys) (st : DevState) (cold fallback skipped escalated : Bool) (ticks : Nat) : Sys :=
  { s with
    start := none, duration := durationOf ticks, fallback := fallback, sigSkipped := skipped, escalated := escalated, kindWarm := !cold, warmCount := if cold then 0 else satInc s.warmCount, rdyLowStart := false, devState := st }

/-- The end of a start: the completion, the new state, and the causes raised anew. -/
theorem Dev.startEnds (d : Dev) (st : DevState) (cold fb skipped escalated : Bool) (ticks : Nat) (ts : Tick) (tbu : Bool) (f : FaultMgr) (removed : Byte) :
    let e := ({ (d.finishStart cold fb skipped escalated ticks).setStateAt st ts tbu with fault := f } : Dev).raiseAnew removed
    e.sys = d.sys.started st cold fb skipped escalated ticks ∧ d.onlyIn e [.sys, .pwmg, .sense, .lantern, .fault] ∧
      e.sense.cal = d.sense.cal ∧ e.sense.unlockUntil = d.sense.unlockUntil := by
  have hdone := d.finishStart_onlyIn cold fb skipped escalated ticks
  have hsys : ({ (d.finishStart cold fb skipped escalated ticks).sys with devState := st } : Sys) = d.sys.started st cold fb skipped escalated ticks := rfl
  have hcal : (d.finishStart cold fb skipped escalated ticks).sense.cal = d.sense.cal := rfl
  have hunlock : (d.finishStart cold fb skipped escalated ticks).sense.unlockUntil = d.sense.unlockUntil := rfl
  generalize d.finishStart cold fb skipped escalated ticks = done at *
  obtain ⟨hstate, hstateF⟩ := done.setStateAt_parts st ts tbu
  generalize done.setStateAt st ts tbu = put at *
  have hend := (put.onlyIn_fault f).thenIn (Dev.raiseAnew_onlyIn _ removed)
  generalize ({ put with fault := f } : Dev).raiseAnew removed = e at *
  have hall : done.onlyIn e [.sys, .lantern, .fault] := hstateF.thenIn hend
  have hsense : e.sense = done.sense := hall .sense (by decide)
  refine ⟨?_, hdone.into.thenIn hall, by rw [hsense, hcal], by rw [hsense, hunlock]⟩
  rw [show e.sys = put.sys from hend .sys (by decide), hstate, hsys]

/-- What a cold start that runs on has made of the device at its end; `t` is the image chosen, `fb` whether it is the other slot's. -/
structure Dev.ColdRan (d d' : Dev) (t : Tile) (fb : Bool) : Prop where
  clk : d'.clk = d.clk
  link : d'.link = d.link
  trust : d'.trust = d.trust
  cal : d'.sense.cal = d.sense.cal
  unlock : d'.sense.unlockUntil = none
  modes : ∀ r : RailIx, d'.rails[r].mode = d.rails[r].mode
  tiled : d'.tile.tiled = t.tiled
  runB : d'.tile.runB = t.runB
  committed : d'.tile.committed = t.committed
  sys : ∃ resume escalated ticks, d'.sys = (d.recorded resume).sys.started (if t.tiled then .standby else .untiled) true fb false escalated ticks

/-- The device with the image chosen, as the steps that follow and the end of the start leave it. -/
theorem Dev.coldRan_of_ended {d noted : Dev} {t : Tile} {g : Tile → Tile} {fb : Bool} {resume escalated : Bool} {ticks : Nat}
    (hk : ((d.updTile g).recorded resume).KeepsStart noted) (ht : (g d.tile).tiled = t.tiled) (hr : (g d.tile).runB = t.runB)
    (hc : (g d.tile).committed = t.committed) (ts : Tick) (tbu : Bool) (f : FaultMgr) (removed : Byte) :
    d.ColdRan (({ (noted.finishStart true fb false escalated ticks).setStateAt (if noted.tile.tiled then .standby else .untiled) ts tbu with
      fault := f } : Dev).raiseAnew removed) t fb := by
  obtain ⟨hsys, hend, hcal, hunlock⟩ := noted.startEnds (if noted.tile.tiled then .standby else .untiled) true fb false escalated ticks ts tbu f removed
  generalize ({ (noted.finishStart true fb false escalated ticks).setStateAt (if noted.tile.tiled then .standby else .untiled) ts tbu with
    fault := f } : Dev).raiseAnew removed = e at *
  have htile : e.tile = noted.tile := hend .tile (by decide)
  have htiled : noted.tile.tiled = t.tiled := hk.tiled.trans ht
  have hrails : e.rails = noted.rails := hend .rails (by decide)
  exact {
    clk := (hend .clk (by decide)).trans hk.clk
    link := (hend .link (by decide)).trans hk.link
    trust := (hend .trust (by decide)).trans hk.trust
    cal := hcal.trans hk.cal
    unlock := hunlock.trans hk.unlock
    modes := fun r => by rw [hrails]; exact hk.modes r
    tiled := by rw [htile, htiled]
    runB := by rw [htile, hk.runB]; exact hr
    committed := by rw [htile, hk.committed]; exact hc
    sys := ⟨resume, escalated, ticks, by rw [hsys, htiled, hk.sys]; rfl⟩ }

theorem Dev.coldRun_ran (d : Dev) (o : ColdOutcome) (escalated : Bool) (ticks : Nat) (early : List StartEvent) {t : Tile} {fb : Bool}
    (hi : (d.tile.fresh o.badSlotA o.badSlotB).chooseImage d.trust.keys = (t, fb)) : d.ColdRan (d.coldRun o escalated ticks early) t fb := by
  unfold Dev.coldRun
  rw [hi]
  dsimp -zeta only
  extract_lets imaged scan lined guarded sense chord rotated fall noted finished faults
  have hlined : imaged.KeepsStart lined := Dev.keepsStart_of_onlyIn (imaged.fullLines_onlyIn _)
  have hstructured : lined.KeepsStart guarded := (((lined.startSlices_keepsStart _ _).trans (Dev.keepsStart_of_onlyIn (Dev.startCards_onlyIn _ true))).trans
    (Dev.startStructure_keepsStart _)).trans (Dev.keepsStart_of_onlyIn (Dev.startProt_onlyIn _))
  clear_value guarded
  have hrotated : guarded.KeepsStart rotated := (Dev.keepsStart_of_onlyIn (guarded.onlyIn_fault {})).trans (Dev.rotations_keepsStart _ _ _)
  obtain ⟨resume, hnoted⟩ : ∃ resume, (rotated.recorded resume).KeepsStart noted := rotated.coldRecords_keepsStart o _
  have hkept : (imaged.recorded resume).KeepsStart noted := (((hlined.trans hstructured).trans hrotated).recorded resume).trans hnoted
  exact Dev.coldRan_of_ended (t := t) hkept rfl rfl rfl _ _ _ _

/-! ## Steps 2 to 4 (R111, R119 to R122, R133, R134) -/

theorem BootCtl.count_coldCount (b : BootCtl) (cause : BitVec 4) : (b.count cause).coldCount = b.coldCount := rfl

/-- The count of a start leaves the supplies and the number of cold starts as they stood. -/
theorem Dev.countStart_keeps (d : Dev) : d.countStart.sys.vddlLow = d.sys.vddlLow ∧ d.countStart.sys.boot.coldCount = d.sys.boot.coldCount := by
  unfold Dev.countStart
  split
  · split
    · exact ⟨rfl, rfl⟩
    · refine ⟨rfl, ?_⟩
      dsimp only [Dev.updSys]
      split
      · exact BootCtl.count_coldCount _ _
      · rfl
  · exact ⟨rfl, rfl⟩

/-- The supplies and the stop channels as step 2 leaves them. -/
def Dev.pinsTaken (d : Dev) : Dev := if d.locked then d else d.coldPins

theorem Dev.pinsTaken_spec (d : Dev) : d.onlyIn d.pinsTaken [.sys, .prot] ∧ d.pinsTaken.sys.boot = d.sys.boot ∧ d.pinsTaken.locked = d.locked ∧
    (d.locked = false → d.pinsTaken.sys.vddlLow = false) := by
  unfold Dev.pinsTaken
  split
  next h => exact ⟨d.onlyIn_refl _, rfl, rfl, fun hn => absurd h (by simp [hn])⟩
  next => exact ⟨(d.onlyIn_sys { d.sys with vddlLow := false }).andThen (Dev.onlyIn_prot _ { d.prot with aStop := true, bStop := true }), rfl, rfl, fun _ => rfl⟩

/-- The start that runs on is counted. -/
def Dev.coldCounted (d : Dev) : Dev :=
  d.pinsTaken.countStart.updSys fun s => { s with boot := { s.boot with coldCount := satInc s.boot.coldCount } }

theorem Dev.coldCounted_spec {d : Dev} (hh : d.sys.boot.hold = false) (hf : d.sys.boot.failCount.toNat < 2) :
    d.onlyIn d.coldCounted [.sys, .prot] ∧ d.coldCounted.sys.boot.hold = false ∧ d.coldCounted.sys.boot.coldCount = satInc d.sys.boot.coldCount ∧
      d.coldCounted.locked = d.locked ∧ (d.locked = false → d.coldCounted.sys.vddlLow = false) := by
  obtain ⟨hpins, hboot, hlocked, hvddl⟩ := d.pinsTaken_spec
  obtain ⟨hcountF, hhold, -, hcounted⟩ := Dev.countStart_spec (d := d.pinsTaken) (by rw [hboot, hh]) (by rw [hboot]; exact hf)
  obtain ⟨hsupply, hcold⟩ := d.pinsTaken.countStart_keeps
  refine ⟨(hpins.thenIn hcountF).thenIn (Dev.onlyIn_sys _ _), hhold, ?_, hcounted.trans hlocked, fun hl => hsupply.trans (hvddl hl)⟩
  rw [← hboot, ← hcold]
  rfl

/-- The device after step 4. -/
def Dev.coldBegun (d : Dev) (o : ColdOutcome) : Dev := (d.coldLock o.lockUs o.sinceLock).coldBase.scanned o

/-- What steps 3 and 4 make of the device. -/
structure Dev.ColdBegun (d d' : Dev) (o : ColdOutcome) : Prop where
  clk : d'.clk = { now := o.sinceLock, lastLock := o.lockUs, pllLock := true }
  epoch : d'.link.epoch = if d.locked then d.link.epoch else d.link.epoch + 1
  tile : d'.tile = d.tile
  slots : d'.trust.slots = mapV d.trust.slots fun i x => if o.badOwner.getLsbD i.val then { x with st := .damaged } else x
  chalCount : d'.trust.chalCount = d.trust.chalCount + 1
  cal : ∀ e : CalIx, d'.sense.cal[e] = if o.badCal.getLsbD e.val then { d.sense.cal[e] with valid := false } else d.sense.cal[e]
  modes : ∀ r : RailIx, d'.rails[r].mode = .off
  boot : d'.sys.boot = d.sys.boot
  vddlLow : d'.sys.vddlLow = d.sys.vddlLow

theorem Dev.coldBegun_begun (d : Dev) (o : ColdOutcome) : d.ColdBegun (d.coldBegun o) o where
  clk := rfl
  epoch := by
    have h : (d.coldBegun o).link.epoch = (if d.locked then
      { d.link with lineFrom := rebase d.clk.now o.sinceLock d.link.lineFrom, upFrom := rebase d.clk.now o.sinceLock d.link.upFrom }
      else d.link.lockAt 0).epoch := rfl
    rw [h]
    split <;> rfl
  tile := rfl
  slots := rfl
  chalCount := rfl
  cal e := by
    have h : (d.coldBegun o).sense.cal = mapV d.sense.cal fun e x => if o.badCal.getLsbD e.val then { x with valid := false } else x := rfl
    rw [h]
    exact mapV_get _ _ e
  modes r := by
    have h : (d.coldBegun o).rails = Vector.replicate 8 {} := rfl
    rw [h]
    simp
  boot := rfl
  vddlLow := rfl

theorem fatalStep_none {o : ColdOutcome} (h : o.failStep = 0) (hold : Bool) : fatalStep o hold = none := by
  simp [fatalStep, h]

/-- A cold start whose steps succeed goes from step 4 to its end. -/
theorem Dev.coldSteps_run {d : Dev} {o : ColdOutcome} (escalated : Bool) (ticks : Nat) (hstep : o.failStep = 0) (hcut : o.cut = false)
    (hboth : (o.badBoot1 && o.badBoot2) = false) (hh : d.coldCounted.sys.boot.hold = false) :
    ∃ early, d.coldSteps o escalated ticks = ((d.coldCounted.coldBegun o).coldRun o escalated ticks early, true) := by
  refine ⟨d.coldCounted.earlyEvents, ?_⟩
  unfold Dev.coldSteps
  extract_lets taken counted both run early locked held base
  have hne : ∀ k : BitVec 4, k ≠ 0 → o.failStep ≠ k := fun k hk => hstep ▸ hk.symm
  have hheld : held = locked := if_neg (by simp [both, hboth])
  rw [if_neg (hne 2 (by decide)), if_neg (fun h => hne 3 (by decide) h.1), if_neg (by simp [hcut]), if_neg (hne 3 (by decide)), fatalStep_none hstep]
  have hbase : base = d.coldCounted.coldBegun o := congrArg (fun e : Dev => e.coldBase.scanned o) hheld
  dsimp only
  rw [hbase, if_neg]
  · rfl
  · rw [(d.coldCounted.coldBegun_begun o).boot, hh]
    exact Bool.false_ne_true

/-! ## The cold start as an instruction -/

/-- The BIST of the banks is none of the start's own. -/
theorem Dev.ColdRan.bistBanks {d e : Dev} {t : Tile} {fb : Bool} (h : d.ColdRan e t fb) : d.ColdRan (e.bistBanks true) t fb :=
  ⟨h.clk, h.link, h.trust, h.cal, h.unlock, h.modes, h.tiled, h.runB, h.committed, h.sys⟩

theorem exec_coldStart_next {s : State} {t : Tick} {o : ColdOutcome} {p : StartPending} {d : Dev} (hs : (s.dev.advance t).sys.start = some p)
    (hp : p.cold = true) (h : (s.dev.advance t).coldSteps o (s.dev.advance t).sys.cameFromWarm o.ticks = (d, true)) :
    exec (.coldStart t o) s = .next { s.after t (d.bistBanks true) with mem := [] } := by
  rw [exec_coldStart, execColdStart, State.runMem]
  simp only [hs, hp, h]
  rfl

end Sys2Proof.Machine

open Sys2Proof Sys2Proof.Machine

/-- Settles O10: steps 2 to 4 by `Dev.coldCounted_spec` and `Dev.coldBegun_begun`, steps 5 to 9 by `Dev.coldRun_ran`, the choice of the
    image by the lemmas of `Tile.chooseImage`. -/
theorem coldStartCompletes : Obligations.ColdStartCompletes := by
  intro s t o p d hs hp hstep hcut hboth hhold hfail marks keys holds m
  obtain ⟨hcountF, hhold', hcold, hlocked, hvddl⟩ := Dev.coldCounted_spec hhold hfail
  obtain ⟨early, hsteps⟩ := Dev.coldSteps_run d.sys.cameFromWarm o.ticks hstep hcut hboth hhold'
  have hexec := exec_coldStart_next hs hp hsteps
  have hbegun := d.coldCounted.coldBegun_begun o
  have htile : (d.coldCounted.coldBegun o).tile = d.tile := hbegun.tile.trans (hcountF .tile (by decide))
  have htrust : d.coldCounted.trust = d.trust := hcountF .trust (by decide)
  have hkeys : (d.coldCounted.coldBegun o).trust.keys = keys := Trust.keys_of_slots (by rw [hbegun.slots, htrust])
  obtain ⟨⟨t', fb⟩, hi⟩ : ∃ x, (marks.chooseImage keys) = x := ⟨_, rfl⟩
  have hran := ((d.coldCounted.coldBegun o).coldRun_ran o d.sys.cameFromWarm o.ticks early (t := t') (fb := fb) (by rw [htile, hkeys]; exact hi)).bistBanks
  have hmark : marks.mark.slotB = m := congrArg Mark.slotB (Tile.fresh_mark _ _ _)
  obtain ⟨resume, escalated, ticks, hsys⟩ := hran.sys
  have hboot : (d.coldCounted.coldBegun o).sys.boot = d.coldCounted.sys.boot := hbegun.boot
  generalize ((d.coldCounted.coldBegun o).coldRun o d.sys.cameFromWarm o.ticks early).bistBanks true = d' at hexec hran hsys
  refine ⟨d', hexec, ?_, ?_, ?_, ?_, ?_, ?_, ?_, ?_, ?_, ?_, ?_, ?_, ?_, ?_, hran.unlock, ?_, fun x hx => ?marked, fun x hm hx => ?other, fun hnone => ?none⟩
  · rw [hsys]; rfl
  · rw [hsys, hran.tiled]; rfl
  · rw [hsys]; rfl
  · rw [hsys]; rfl
  · rw [hsys]; rfl
  · rw [hsys]; rfl
  · intro hl
    rw [hsys]
    exact hbegun.vddlLow.trans (hvddl hl)
  · rw [hsys, ← hcold, ← hboot]; rfl
  · rw [hsys, ← hhold', ← hboot]; rfl
  · rw [hsys]; rfl
  · rw [hran.clk, hbegun.clk]
  · rw [hran.link, hbegun.epoch, hlocked, show d.coldCounted.link = d.link from hcountF .link (by decide)]
  · intro r
    rw [hran.modes, hbegun.modes]
  · rw [hran.trust, hbegun.chalCount, htrust]
  · intro e
    rw [hran.cal, hbegun.cal, show d.coldCounted.sense = d.sense from hcountF .sense (by decide)]
  case marked =>
    obtain ⟨u, hu, htiled, hrun, hcommitted⟩ := Tile.chooseImage_marked (t := marks) (keys := keys) (x := x) (hmark ▸ hx)
    obtain ⟨rfl, rfl⟩ : u = t' ∧ false = fb := by simpa using hu.symm.trans hi
    exact ⟨hran.tiled.trans htiled, hran.runB.trans (hrun.trans hmark), hran.committed.trans hcommitted, by rw [hsys]; rfl⟩
  case other =>
    obtain ⟨u, hu, htiled, hrun, hcommitted⟩ := Tile.chooseImage_other (t := marks) (keys := keys) (x := x) (hmark ▸ hm) (hmark ▸ hx)
    obtain ⟨rfl, rfl⟩ : u = t' ∧ true = fb := by simpa using hu.symm.trans hi
    exact ⟨hran.tiled.trans htiled, hran.runB.trans (hrun.trans (congrArg not hmark)), hran.committed.trans hcommitted, by rw [hsys]; rfl⟩
  case none =>
    obtain ⟨u, hu, htiled⟩ := Tile.chooseImage_none (t := marks) (keys := keys) hnone
    obtain ⟨rfl, -⟩ : u = t' ∧ false = fb := by simpa using hu.symm.trans hi
    exact hran.tiled.trans htiled

end

section
/-! SUPPORT. What the codes of a conversion reach (R238, R267, R268, R272). -/

namespace Sys2Proof.Machine

open Sys2Proof

/-! ## Offers change results alone -/

/-- Of the sensing nothing moves but accumulators and trackers, and nothing else of the device. -/
def Dev.MovesResults (d d' : Dev) : Prop := d'.sense.quads = d.sense.quads ∧ d.onlyIn d' [.sense]

theorem Dev.MovesResults.refl (d : Dev) : d.MovesResults d := ⟨rfl, d.onlyIn_refl _⟩

theorem Dev.MovesResults.trans {a b c : Dev} (h : a.MovesResults b) (k : b.MovesResults c) : a.MovesResults c := ⟨k.1.trans h.1, h.2.thenIn k.2⟩

theorem Dev.updAcc_movesResults (d : Dev) (k : AccIx) (f : Acc → Acc) : d.MovesResults (d.updAcc k f) := ⟨rfl, d.onlyIn_sense _⟩

theorem Dev.updTrk_movesResults (d : Dev) (k : TrkIx) (f : Trk → Trk) : d.MovesResults (d.updTrk k f) := ⟨rfl, d.onlyIn_sense _⟩

theorem mem_boundTo {n : Nat} {v : Vector (Option Bind) n} {q : QuadIx} {e : Nat} {k : Fin n} :
    k ∈ boundTo v q e ↔ ∃ b, v[k] = some b ∧ b.quad = q ∧ b.entry.val = e := by
  simp only [boundTo, List.mem_filter, List.mem_finRange, true_and]
  cases v[k] with
  | none => simp
  | some b => simp

theorem boundTo_nodup {n : Nat} (v : Vector (Option Bind) n) (q : QuadIx) (e : Nat) : (boundTo v q e).Nodup := (List.nodup_finRange n).filter _

/-! ## A single code is offered -/

/-- N of an accumulator. -/
def Dev.accN (d : Dev) (k : AccIx) : Nat := match d.tile.cur.accs[k] with
  | some b => b.n.toNat
  | none => 1

/-- An accumulator takes one code, or learns that it is invalid. -/
def Dev.offerAcc (x : Option Int) (now : Tick) (d : Dev) (k : AccIx) : Dev := d.updAcc k fun a => a.offerOne (d.accN k) x now d.tb

/-- A tracker takes some codes, each with the tick of its instant. -/
def Dev.offerTrk (xs : List (Option Int × Tick)) (d : Dev) (k : TrkIx) : Dev :=
  let ys := xs.map fun x => (x.1, d.clk.tbAt x.2)
  let was := d.cyc.trkWas
  let d := { d with cyc := { d.cyc with trkWas := if was.any fun p => p.1 == k then was else was ++ [(k, d.sense.trks[k].cur)], trkOffers := d.cyc.trkOffers ++ [(k, ys)] } }
  d.updTrk k fun t => { t with cur := t.cur.takeAll ys }

/-- The accumulators bound to an entry that have taken a code. -/
def Dev.offerAccs (d : Dev) (q : QuadIx) (e : Nat) (x : Option Int) : Dev := (boundTo d.tile.cur.accs q e).foldl (Dev.offerAcc x d.clk.now) d

theorem Dev.offer_one (d : Dev) (q : QuadIx) (e : Nat) (x : Option Int) (at_ : Tick) :
    d.offer q e false [(x, at_)] = (boundTo (d.offerAccs q e x).tile.cur.trks q e).foldl (Dev.offerTrk [(x, at_)]) (d.offerAccs q e x) := rfl

theorem Dev.offerAcc_movesResults (x : Option Int) (now : Tick) (d : Dev) (k : AccIx) : d.MovesResults (d.offerAcc x now k) := d.updAcc_movesResults k _

/-- A tracker's codes leave the accumulators alone. -/
theorem Dev.offerTrk_moves (xs : List (Option Int × Tick)) (d : Dev) (k : TrkIx) :
    d.MovesResults (Dev.offerTrk xs d k) ∧ (Dev.offerTrk xs d k).sense.accs = d.sense.accs := by
  unfold Dev.offerTrk
  extract_lets ys was cyc noted
  exact ⟨⟨rfl, (d.onlyIn_cyc _ [.sense]).thenIn (noted.updTrk_movesResults k _).2⟩, rfl⟩

theorem Dev.offerTrks_moves (xs : List (Option Int × Tick)) (ks : List TrkIx) (d : Dev) :
    d.MovesResults (ks.foldl (Dev.offerTrk xs) d) ∧ (ks.foldl (Dev.offerTrk xs) d).sense.accs = d.sense.accs :=
  foldl_related (P := fun a b : Dev => a.MovesResults b ∧ b.sense.accs = a.sense.accs) (fun a => ⟨.refl a, rfl⟩)
    (fun h k => ⟨h.1.trans k.1, k.2.trans h.2⟩) (Dev.offerTrk_moves xs) ks d

theorem Dev.offerAccs_movesResults (d : Dev) (q : QuadIx) (e : Nat) (x : Option Int) : d.MovesResults (d.offerAccs q e x) :=
  foldl_related .refl .trans (Dev.offerAcc_movesResults x d.clk.now) _ d

/-- Each accumulator of a list takes the code once. -/
theorem Dev.foldl_offerAcc_get (x : Option Int) (now : Tick) (k : AccIx) : ∀ (ks : List AccIx) (d : Dev), ks.Nodup →
    (ks.foldl (Dev.offerAcc x now) d).sense.accs[k] = if k ∈ ks then d.sense.accs[k].offerOne (d.accN k) x now d.tb else d.sense.accs[k]
  | [], d, _ => rfl
  | j :: ks, d, h => by
    obtain ⟨hj, hks⟩ := List.nodup_cons.1 h
    rw [List.foldl_cons, Dev.foldl_offerAcc_get x now k ks _ hks]
    have hn : (Dev.offerAcc x now d j).accN k = d.accN k := rfl
    have htb : (Dev.offerAcc x now d j).tb = d.tb := rfl
    rcases eq_or_ne k j with rfl | hkj
    · have hget : (Dev.offerAcc x now d k).sense.accs[k] = d.sense.accs[k].offerOne (d.accN k) x now d.tb := upd_get_same _ _ _
      simp [hj, hget]
    · have hget : (Dev.offerAcc x now d j).sense.accs[k] = d.sense.accs[k] := upd_get_ne _ _ _ _ hkj
      simp [hkj, hget, hn, htb]

/-- The accumulator as it stands once a code of an entry was offered. -/
def Dev.accOffered (d : Dev) (q : QuadIx) (e : Fin 40) (x : Option Int) (k : AccIx) : Acc := match d.tile.cur.accs[k] with
  | some b => if b.quad = q ∧ b.entry = e then d.sense.accs[k].offerOne b.n.toNat x d.clk.now d.tb else d.sense.accs[k]
  | none => d.sense.accs[k]

/-- What an accumulator comes to hold depends on the image, the clock and the accumulators alone. -/
theorem Dev.accOffered_congr {d e : Dev} (htile : e.tile = d.tile) (hclk : e.clk = d.clk) (haccs : e.sense.accs = d.sense.accs) (q : QuadIx)
    (n : Fin 40) (x : Option Int) (k : AccIx) : e.accOffered q n x k = d.accOffered q n x k := by
  simp only [Dev.accOffered, Dev.tb, htile, hclk, haccs]

theorem Dev.offerAccs_get (d : Dev) (q : QuadIx) (e : Fin 40) (x : Option Int) (k : AccIx) :
    (d.offerAccs q e.val x).sense.accs[k] = d.accOffered q e x k := by
  rw [Dev.offerAccs, Dev.foldl_offerAcc_get x d.clk.now k _ d (boundTo_nodup _ _ _)]
  simp only [mem_boundTo, Dev.accOffered, Dev.accN, Fin.val_inj]
  cases d.tile.cur.accs[k] with
  | none => simp
  | some b => simp

/-- A code of a single-conversion entry reaches exactly the accumulators bound to it. -/
theorem Dev.offer_reaches (d : Dev) (q : QuadIx) (e : Fin 40) (x : Option Int) (at_ : Tick) :
    d.MovesResults (d.offer q e.val false [(x, at_)]) ∧ ∀ k : AccIx, (d.offer q e.val false [(x, at_)]).sense.accs[k] = d.accOffered q e x k := by
  rw [Dev.offer_one]
  obtain ⟨hmoves, haccs⟩ := Dev.offerTrks_moves [(x, at_)] (boundTo (d.offerAccs q e.val x).tile.cur.trks q e.val) (d.offerAccs q e.val x)
  refine ⟨(d.offerAccs_movesResults q e.val x).trans hmoves, fun k => ?_⟩
  rw [haccs]
  exact d.offerAccs_get q e x k

end Sys2Proof.Machine
end

section
/-! SUPPORT. A request alone in the queue of its quad (R236, R238, R247, R259, R260). -/

namespace Sys2Proof.Machine

open Sys2Proof

/-! ## The quad -/

@[simp] theorem Dev.updQuad_get_same (d : Dev) (q : QuadIx) (f : Quad → Quad) : (d.updQuad q f).sense.quads[q.val] = f d.sense.quads[q.val] :=
  upd_get_same _ _ _

theorem Dev.updQuad_get_ne (d : Dev) {q k : QuadIx} (f : Quad → Quad) (h : k ≠ q) : (d.updQuad q f).sense.quads[k] = d.sense.quads[k] :=
  upd_get_ne _ _ _ _ h

theorem Dev.updQuad_onlyIn (d : Dev) (q : QuadIx) (f : Quad → Quad) : d.onlyIn (d.updQuad q f) [.sense] := d.onlyIn_sense _

/-- Nothing but the sensing has moved, and of it no accumulator. -/
def Dev.KeepsAccs (d d' : Dev) : Prop := d'.sense.accs = d.sense.accs ∧ d.onlyIn d' [.sense]

theorem Dev.KeepsAccs.refl (d : Dev) : d.KeepsAccs d := ⟨rfl, d.onlyIn_refl _⟩

theorem Dev.KeepsAccs.trans {a b c : Dev} (h : a.KeepsAccs b) (k : b.KeepsAccs c) : a.KeepsAccs c := ⟨k.1.trans h.1, h.2.thenIn k.2⟩

theorem Dev.updQuad_keepsAccs (d : Dev) (q : QuadIx) (f : Quad → Quad) : d.KeepsAccs (d.updQuad q f) := ⟨rfl, d.updQuad_onlyIn q f⟩

theorem Dev.markDegraded_keeps (d : Dev) (q : QuadIx) : d.KeepsAccs (d.markDegraded q) ∧ (d.markDegraded q).sense.quads[q].queue = d.sense.quads[q].queue ∧
    (d.markDegraded q).sense.quads[q].convs = d.sense.quads[q].convs ∧ ∀ k : QuadIx, k ≠ q → (d.markDegraded q).sense.quads[k] = d.sense.quads[k] :=
  ⟨d.updQuad_keepsAccs q _, by simp [Dev.markDegraded], by simp [Dev.markDegraded], fun _ hk => d.updQuad_get_ne _ hk⟩

/-- The first slot that holds a slice. -/
theorem Quad.served_first {x : Quad} {j : Fin 4} {i : Fin 5} (hj : x.slots[j] = some i) (hk : ∀ k : Fin 4, k < j → x.slots[k] = none) :
    x.served.take 1 = [j] := by
  have hfind : (List.finRange 4).find? (fun k => (x.slots[k]).isSome) = some j := by
    rw [← Fin.find?_eq_find?_finRange, Fin.find?_eq_some_iff]
    exact ⟨by simp [hj], fun k h => by simp [hk k h]⟩
  rw [List.take_one, Quad.served, List.head?_filter, hfind]
  rfl

/-! ## A conversion begins -/

/-- The conversion that begins on a single slot. -/
def Dev.singleConv (d : Dev) (q : QuadIx) (r : Req) (y : SeqEntry) (j : Fin 4) (i : Fin 5) : Conv :=
  let low := d.sense.quads[q].lowPower
  { req := r, slots := [j], slices := [i], sampleAt := d.clk.now, slotsFree := d.clk.now + (if low then 48 else 6),
    ready := d.clk.now + (if low then 66 else 18), count := 1, interleaved := false, step2 := if low then 96 else 12, ent := y, low := low }

theorem Dev.convOf_single {d : Dev} {q : QuadIx} (r : Req) {y : SeqEntry} {j : Fin 4} {i : Fin 5} (hy : y.slices = 0) (hj : d.sense.quads[q].slots[j] = some i) :
    d.convOf q r [j] y = d.singleConv q r y j i := by
  have hslices : [j].filterMap (fun k : Fin 4 => d.sense.quads[q].slots[k]) = [i] :=
    List.filterMap_cons_some (f := fun k : Fin 4 => d.sense.quads[q].slots[k]) (l := []) hj
  dsimp only [Dev.convOf, Dev.singleConv]
  rw [hslices]
  cases d.sense.quads[q].lowPower <;> simp [hy]

/-- The request is served: it leaves the queue, and its conversion runs. -/
def Quad.beginConv (r : Req) (c : Conv) (x : Quad) : Quad := { x with queue := x.queue.erase r, convs := x.convs ++ [c] }

theorem Quad.beginConv_alone {x : Quad} {r : Req} (hq : x.queue = [r]) (hc : x.convs = []) (c : Conv) :
    (x.beginConv r c).queue = [] ∧ (x.beginConv r c).convs = [c] := by
  simp [Quad.beginConv, hq, hc]

def Dev.beginConv (d : Dev) (q : QuadIx) (r : Req) (c : Conv) : Dev := d.updQuad q (Quad.beginConv r c)

/-- A request that stands for an entry alone settles nothing of a pass. -/
theorem Dev.settleReq_ent {r : Req} (h : r.kind = .ent) (d : Dev) (q : QuadIx) (samples : Bool) : d.settleReq q r samples = d := by
  simp [Dev.settleReq, h]

/-- A request alone in its queue, for a single conversion of an entry that exists, has waited two ticks, no conversion runs, and slot `j` is the
    first that holds a slice (R234, R236, R248, R259). -/
structure Dev.CanBegin (d : Dev) (q : QuadIx) (r : Req) (y : SeqEntry) (j : Fin 4) (i : Fin 5) : Prop where
  queue : d.sense.quads[q].queue = [r]
  kind : r.kind = .ent
  entry : (d.seqOf q).entry r.entry.val = some y
  single : y.slices = 0
  waited : r.tick + 2 ≤ d.clk.now
  converting : d.converting = true
  port : d.noPort q y.input = false
  convs : d.sense.quads[q].convs = []
  slot : d.sense.quads[q].slots[j] = some i
  first : ∀ k : Fin 4, k < j → d.sense.quads[q].slots[k] = none

theorem Dev.serveReq_begins {d : Dev} {q : QuadIx} {r : Req} {y : SeqEntry} {j : Fin 4} {i : Fin 5} (h : d.CanBegin q r y j i) :
    d.serveReq q 0 r = (d.beginConv q r (d.singleConv q r y j i), 0) := by
  obtain ⟨hq, hk, he, hy, ht, hc, hp, hconvs, hj, hlow⟩ := h
  have hhead := Quad.served_first hj hlow
  have hmem : j ∈ d.sense.quads[q].served := List.mem_of_mem_take (hhead ▸ List.mem_singleton_self j)
  unfold Dev.serveReq
  extract_lets x now dropped settled free hard holder
  rw [he]
  dsimp -zeta only
  extract_lets need wanted aborted held slots conv begun
  have hfree : ∀ k ∈ x.served, free x k = true := fun k hks => by
    have hsome : (x.slots[k]).isSome = true := by simpa [Quad.served] using hks
    have hbusy : x.busy now k = false := by rw [Quad.busy, show x.convs = [] from hconvs, List.any_nil]
    simp only [free, hsome, hbusy]
    simp
  have hqueue : x.queue = [r] := hq
  have hany : (x.served.any fun k => free x k) = true := List.any_eq_true.2 ⟨j, hmem, hfree j hmem⟩
  have hserved : x.served.isEmpty = false := List.isEmpty_eq_false_iff_exists_mem.2 ⟨j, hmem⟩
  have hnow : ¬now < r.tick + 2 := Nat.not_lt.2 ht
  rw [if_neg (by simp [hqueue, hnow]), if_neg (by simp [hserved, hc, hp])]
  have hwanted : wanted = [] := by simp only [wanted, hy, hany, if_true]
  have haborted : aborted = d := by simp only [aborted, hwanted, List.foldl_nil, ite_self]
  have hheld : held = x := congrArg (fun e : Dev => e.sense.quads[q]) haborted
  have hslots : slots = [j] := by
    simp only [slots, hy, if_true, hheld, List.filter_eq_self.2 hfree]
    exact hhead
  have hbegun : begun = d.beginConv q r (d.singleConv q r y j i) := by
    rw [← Dev.convOf_single r hy hj]
    simp only [begun, conv, hslots, haborted]
    rfl
  rw [if_pos (by simp [hslots, hheld, hfree j hmem]), Dev.settleReq_ent hk, hbegun]

/-- The class of a request alone in the queue serves it, and the other class nothing. -/
theorem Dev.serveClass_alone {d : Dev} {q : QuadIx} {r : Req} (hq : d.sense.quads[q].queue = [r]) (inj : Bool) :
    d.serveClass q inj 0 = if r.inj = inj then d.serveReq q 0 r else (d, 0) := by
  unfold Dev.serveClass
  rw [hq]
  split
  next h =>
    rw [List.filter_cons_of_pos (by simp [h])]
    rfl
  next h =>
    rw [List.filter_cons_of_neg (by simp [h])]
    rfl

theorem Dev.serveClass_empty {d : Dev} {q : QuadIx} (hq : d.sense.quads[q].queue = []) (inj : Bool) (taken : BitVec 4) :
    d.serveClass q inj taken = (d, taken) := by
  unfold Dev.serveClass
  rw [hq]
  rfl

/-- At an edge a request alone is served, of whichever class it is (R259). -/
theorem Dev.serveEdge_alone {d e : Dev} {q : QuadIx} {r : Req} (hq : d.sense.quads[q].queue = [r]) (hs : d.serveReq q 0 r = (e, 0))
    (he : e.sense.quads[q].queue = []) : d.serveEdge q = e.markDegraded q := by
  unfold Dev.serveEdge
  rw [Dev.serveClass_alone hq, hs]
  cases hr : r.inj with
  | true =>
    rw [if_pos rfl]
    dsimp only
    rw [Dev.serveClass_empty he]
  | false =>
    rw [if_neg (by decide)]
    dsimp only
    rw [Dev.serveClass_alone hq, hr, if_pos rfl, hs]

/-- A request alone that can begin at an edge does. -/
theorem Dev.serveEdge_begins {d : Dev} {q : QuadIx} {r : Req} {y : SeqEntry} {j : Fin 4} {i : Fin 5} (h : d.CanBegin q r y j i) :
    (d.serveEdge q).sense.quads[q].queue = [] ∧ (d.serveEdge q).sense.quads[q].convs = [d.singleConv q r y j i] ∧
      (∀ k : QuadIx, k ≠ q → (d.serveEdge q).sense.quads[k] = d.sense.quads[k]) ∧ d.KeepsAccs (d.serveEdge q) := by
  have hserved := Dev.serveReq_begins h
  generalize d.singleConv q r y j i = c at *
  obtain ⟨hqueue, hconv⟩ := Quad.beginConv_alone h.queue h.convs c
  have hbegun : (d.beginConv q r c).sense.quads[q] = d.sense.quads[q].beginConv r c := d.updQuad_get_same q _
  rw [Dev.serveEdge_alone h.queue hserved (by rw [hbegun]; exact hqueue)]
  obtain ⟨hkept, hmarkQueue, hmarkConvs, hothers⟩ := (d.beginConv q r c).markDegraded_keeps q
  refine ⟨?_, ?_, fun k hk => (hothers k hk).trans (d.updQuad_get_ne _ hk), (d.updQuad_keepsAccs q _).trans hkept⟩
  · rw [hmarkQueue, hbegun, hqueue]
  · rw [hmarkConvs, hbegun, hconv]

/-! ## A request is discarded late (R260) -/

/-- A conversion of a single-conversion entry is offered as invalid. -/
theorem Dev.offerInvalid_single {d : Dev} {q : QuadIx} {e : Nat} {y : SeqEntry} (he : (d.seqOf q).entry e = some y) (hy : y.slices = 0) :
    d.offerInvalid q e = d.offer q e false [(none, d.clk.now)] := by
  unfold Dev.offerInvalid
  rw [he]
  simp [hy]

/-- The late request is out of the queue, and counted. -/
def Quad.dropLateReq (r : Req) (x : Quad) : Quad := { x with queue := x.queue.erase r, dropLate := x.dropLate + 1 }

theorem Quad.dropLateReq_alone {x : Quad} {r : Req} (hq : x.queue = [r]) : x.dropLateReq r = { x with queue := [], dropLate := x.dropLate + 1 } := by
  rw [Quad.dropLateReq, hq, List.erase_cons_head]

/-- The device with the late request dropped, and its event raised. -/
def Dev.dropLateReq (d : Dev) (q : QuadIx) (r : Req) : Dev := (d.updQuad q (Quad.dropLateReq r)).raiseEvent (srcSeqMiss q) 0

theorem Dev.dropLateReq_spec (d : Dev) (q : QuadIx) (r : Req) : d.onlyIn (d.dropLateReq q r) [.sense, .fault] ∧
    (d.dropLateReq q r).sense.accs = d.sense.accs ∧ (d.dropLateReq q r).sense.quads[q] = d.sense.quads[q].dropLateReq r := by
  have hraised := (d.updQuad q (Quad.dropLateReq r)).raiseEvent_onlyIn (srcSeqMiss q) 0 []
  have hsense : (d.dropLateReq q r).sense = (d.updQuad q (Quad.dropLateReq r)).sense := hraised .sense (by decide)
  refine ⟨(d.updQuad_onlyIn q _).into.thenIn hraised, by rw [hsense]; rfl, ?_⟩
  rw [hsense]
  exact d.updQuad_get_same q _

theorem Dev.discardLate_alone {d : Dev} {q : QuadIx} {r : Req} (hq : d.sense.quads[q].queue = [r]) (hk : r.kind = .ent) (hh : r.waitHeld = false)
    (hw : r.waitFrom + 480 ≤ d.clk.now) : d.discardLate q =
      ((d.dropLateReq q r).offerInvalid q r.entry.val).eventAt (0x0200 + 0x40 * q.val + r.entry.val) ((d.dropLateReq q r).offerInvalid q r.entry.val).cycleTick := by
  have hlate : (sortReqs d.sense.quads[q].queue).filter (fun r => !r.waitHeld && decide (r.waitFrom + 480 ≤ d.clk.now)) = [r] := by
    rw [hq, show sortReqs [r] = [r] from rfl]
    simp [hh, hw]
  unfold Dev.discardLate
  rw [hlate, List.foldl_cons, List.foldl_nil, if_neg (by rw [hq]; simp)]
  exact Dev.settleReq_ent hk _ _ _

/-- The late request leaves the queue, is counted, and reaches the accumulators bound to its entry as invalid. -/
theorem Dev.discardLate_reaches {d : Dev} {q : QuadIx} {r : Req} {y : SeqEntry} (hq : d.sense.quads[q].queue = [r]) (hk : r.kind = .ent)
    (he : (d.seqOf q).entry r.entry.val = some y) (hy : y.slices = 0) (hh : r.waitHeld = false) (hw : r.waitFrom + 480 ≤ d.clk.now) :
    (d.discardLate q).sense.quads[q] = { d.sense.quads[q] with queue := [], dropLate := d.sense.quads[q].dropLate + 1 } ∧
      (∀ k : AccIx, (d.discardLate q).sense.accs[k] = d.accOffered q r.entry none k) ∧ d.onlyIn (d.discardLate q) [.sense, .fault] := by
  obtain ⟨hframe, haccs, hquad⟩ := d.dropLateReq_spec q r
  have htile : (d.dropLateReq q r).tile = d.tile := hframe .tile (by decide)
  have hclk : (d.dropLateReq q r).clk = d.clk := hframe .clk (by decide)
  have hentry : ((d.dropLateReq q r).seqOf q).entry r.entry.val = some y := by rw [Dev.seqOf, htile]; exact he
  rw [Dev.discardLate_alone hq hk hh hw, Dev.offerInvalid_single hentry hy]
  obtain ⟨hmoves, hreaches⟩ := (d.dropLateReq q r).offer_reaches q r.entry none (d.dropLateReq q r).clk.now
  refine ⟨?_, fun k => (hreaches k).trans (Dev.accOffered_congr htile hclk haccs q r.entry none k), (hframe.thenIn hmoves.2).thenIn (Dev.onlyIn_fault _ _)⟩
  exact (congrArg (fun v : Vector Quad 4 => v[q]) hmoves.1).trans (hquad.trans (Quad.dropLateReq_alone hq))

end Sys2Proof.Machine
end

section
/-! SUPPORT. The code of a rail's voltage (R239, R252, R265). -/

namespace Sys2Proof.Machine

open Sys2Proof

/-- A conversion of a rail's voltage by slice `i`, requested for its entry alone and not lost. -/
structure Conv.OfRail (c : Conv) (q : QuadIx) (r : RailIx) (i : Fin 5) : Prop where
  kind : c.req.kind = .ent
  count : c.count = 1
  slices : c.slices = [i]
  lost : c.lost = false
  interleaved : c.interleaved = false
  source : sourceOf q c.ent.input = .vsns r

/-- The instant of a conversion's first sample. -/
theorem Conv.instant_zero (c : Conv) : c.instant 0 = c.sampleAt := by
  unfold Conv.instant
  cases c.slow <;> simp

/-- The code of a rail's voltage, and whether it was forced to an end of its range. -/
def Dev.railCode (d : Dev) (q : QuadIx) (c : Conv) (i : Fin 5) (z : Sample) : Int × Bool :=
  let slice := d.sense.quads[q].coef i c.sampleAt
  let input := d.calAt q c c.sampleAt
  codeOf z.raw slice.1 slice.2 input.1 input.2 false

/-- A code that was forced is counted. -/
def Dev.countClip (d : Dev) (q : QuadIx) (clip : Bool) : Dev := if clip then d.updQuad q fun x => { x with clips := x.clips + 1 } else d

theorem Dev.countClip_spec (d : Dev) (q : QuadIx) (clip : Bool) : d.KeepsAccs (d.countClip q clip) ∧
    (d.countClip q clip).sense.quads[q].convs = d.sense.quads[q].convs ∧ (d.countClip q clip).sense.quads[q].queue = d.sense.quads[q].queue := by
  unfold Dev.countClip
  split
  · exact ⟨d.updQuad_keepsAccs q _, by simp, by simp⟩
  · exact ⟨.refl d, rfl, rfl⟩

theorem Dev.codesOf_rail {d : Dev} {q : QuadIx} {c : Conv} {r : RailIx} {i : Fin 5} (h : c.OfRail q r i) (z : Sample) :
    d.codesOf q c [z] = ([(some (d.railCode q c i z).1, c.sampleAt)], d.countClip q (d.railCode q c i z).2) := by
  have hcode : d.sampleCode q c 0 c.sampleAt z = (some (d.railCode q c i z).1, d.countClip q (d.railCode q c i z).2) := by
    unfold Dev.sampleCode Dev.railCode Dev.countClip
    simp [h.source, h.slices, h.lost]
  unfold Dev.codesOf
  rw [h.count, show List.range 1 = [0] from rfl, List.foldl_cons, List.foldl_nil, c.instant_zero]
  dsimp only [List.getElem?_cons_zero]
  rw [hcode]
  rfl

/-- The conversion has left the quad. -/
def Dev.endConv (d : Dev) (q : QuadIx) (c : Conv) : Dev := (d.updQuad q fun x => { x with convs := x.convs.erase c }).markDegraded q

theorem Dev.endConv_spec (d : Dev) (q : QuadIx) (c : Conv) : d.KeepsAccs (d.endConv q c) ∧
    (d.endConv q c).sense.quads[q].convs = d.sense.quads[q].convs.erase c ∧ (d.endConv q c).sense.quads[q].queue = d.sense.quads[q].queue := by
  obtain ⟨hkept, hqueue, hconvs, -⟩ := (d.updQuad q fun x => { x with convs := x.convs.erase c }).markDegraded_keeps q
  exact ⟨(d.updQuad_keepsAccs q _).trans hkept, hconvs.trans (by simp), hqueue.trans (by simp)⟩

theorem Dev.updQuad_coef (d : Dev) (q : QuadIx) {f : Quad → Quad} {i : Fin 5} {at_ : Tick} (hf : ∀ x, (f x).coef i at_ = x.coef i at_) :
    (d.updQuad q f).sense.quads[q].coef i at_ = d.sense.quads[q].coef i at_ :=
  (congrArg (Quad.coef · i at_) (d.updQuad_get_same q f)).trans (hf _)

theorem Dev.endConv_coef (d : Dev) (q : QuadIx) (c : Conv) (i : Fin 5) (at_ : Tick) :
    (d.endConv q c).sense.quads[q].coef i at_ = d.sense.quads[q].coef i at_ := by
  unfold Dev.endConv Dev.markDegraded
  rw [Dev.updQuad_coef, Dev.updQuad_coef]
  · exact fun _ => rfl
  · exact fun _ => rfl

/-- The coefficients of a sample are those of its slice and its input, whatever else runs. -/
theorem Dev.railCode_endConv (d : Dev) (q : QuadIx) (c : Conv) (i : Fin 5) (z : Sample) : (d.endConv q c).railCode q c i z = d.railCode q c i z := by
  have hcal : (d.endConv q c).calAt q c c.sampleAt = d.calAt q c c.sampleAt := rfl
  simp only [Dev.railCode, Dev.endConv_coef, hcal]

theorem Dev.codesReady_rail {d : Dev} {q : QuadIx} {c : Conv} {r : RailIx} {i : Fin 5} (h : c.OfRail q r i) (z : Sample) : d.codesReady q c [z] =
      (((d.endConv q c).countClip q (d.railCode q c i z).2).offer q c.req.entry.val false [(some (d.railCode q c i z).1, c.sampleAt)]).event
        (0x0200 + 0x40 * q.val + c.req.entry.val) := by
  have hcodes : (d.endConv q c).codesOf q c [z] = ([(some (d.railCode q c i z).1, c.sampleAt)], (d.endConv q c).countClip q (d.railCode q c i z).2) := by
    rw [Dev.codesOf_rail h, Dev.railCode_endConv]
  unfold Dev.codesReady
  rw [show (d.updQuad q fun x => { x with convs := x.convs.erase c }).markDegraded q = d.endConv q c from rfl]
  simp [hcodes, h.kind, h.interleaved, Dev.skewRun]

/-- The conversion ready longest of one that runs alone is that one. -/
theorem Dev.conversionReady_alone {d : Dev} {q : QuadIx} {c : Conv} (hc : (d.quadEdges q).sense.quads[q].convs = [c])
    (hr : c.ready ≤ (d.quadEdges q).clk.now) (xs : List Sample) : d.conversionReady q xs = (d.quadEdges q).codesReady q c xs := by
  unfold Dev.conversionReady
  dsimp only
  rw [hc, List.filter_cons_of_pos (by simpa using hr)]
  rfl

/-- A code that is ready takes the tick of its own (R299). -/
theorem Dev.event_entry (d : Dev) (q : QuadIx) (e : Fin 40) :
    d.event (0x0200 + 0x40 * q.val + e.val) = d.eventAt (0x0200 + 0x40 * q.val + e.val) d.clk.now := by
  have hown : ownTick (0x0200 + 0x40 * q.val + e.val) = true := by
    simp only [ownTick, Bool.or_eq_true, Bool.and_eq_true, decide_eq_true_eq]
    omega
  rw [Dev.event, hown, if_pos rfl]

/-- The code that is ready reaches the accumulators bound to its entry, and the entry's event follows. -/
theorem Dev.codesReady_reaches {d : Dev} {q : QuadIx} {c : Conv} {r : RailIx} {i : Fin 5} (hc : d.sense.quads[q].convs = [c]) (h : c.OfRail q r i)
    (z : Sample) :
    (d.codesReady q c [z]).sense.quads[q].convs = [] ∧ (d.codesReady q c [z]).sense.quads[q].queue = d.sense.quads[q].queue ∧
      (d.codesReady q c [z]).fault.events = d.fault.events ++ [(BitVec.ofNat 16 (0x0200 + 0x40 * q.val + c.req.entry.val), d.clk.now)] ∧
      (∀ k : AccIx, (d.codesReady q c [z]).sense.accs[k] = d.accOffered q c.req.entry (some (d.railCode q c i z).1) k) ∧
      d.onlyIn (d.codesReady q c [z]) [.sense, .fault] := by
  obtain ⟨hended, hendConvs, hendQueue⟩ := d.endConv_spec q c
  obtain ⟨hclipped, hclipConvs, hclipQueue⟩ := (d.endConv q c).countClip_spec q (d.railCode q c i z).2
  rw [Dev.codesReady_rail h]
  generalize (d.endConv q c).countClip q (d.railCode q c i z).2 = e at *
  have hkept : d.KeepsAccs e := hended.trans hclipped
  obtain ⟨hmoves, hreaches⟩ := e.offer_reaches q c.req.entry (some (d.railCode q c i z).1) c.sampleAt
  generalize e.offer q c.req.entry.val false [(some (d.railCode q c i z).1, c.sampleAt)] = f at *
  have hframe : d.onlyIn f [.sense] := hkept.2.thenIn hmoves.2
  have hclk : f.clk = d.clk := hframe .clk (by decide)
  have hfault : f.fault = d.fault := hframe .fault (by decide)
  rw [Dev.event_entry, hclk]
  refine ⟨?_, ?_, ?_, fun k => ?_, hframe.into.thenIn (f.onlyIn_fault _)⟩
  · refine (congrArg (fun v : Vector Quad 4 => v[q].convs) hmoves.1).trans ?_
    rw [hclipConvs, hendConvs, hc, List.erase_cons_head]
  · refine (congrArg (fun v : Vector Quad 4 => v[q].queue) hmoves.1).trans ?_
    rw [hclipQueue, hendQueue]
  · rw [Dev.eventAt, hfault]
  · exact (hreaches k).trans (Dev.accOffered_congr (hkept.2 .tile (by decide)) (hkept.2 .clk (by decide)) hkept.1 q _ _ k)

end Sys2Proof.Machine

open Sys2Proof Sys2Proof.Machine

/-- Settles O33: the start by `Dev.serveReq_begins` at an edge, the discard by `Dev.discardLate_reaches`, the ready code by
    `Dev.codesReady_reaches`; exactly the accumulators bound to the entry take a code by `Dev.offer_reaches`. -/
theorem conversionsReachTheirAccumulators : Obligations.ConversionsReachTheirAccumulators := by
  refine ⟨?begins, ?still, ?late, ?ready⟩
  case begins =>
    intro s t q r y d x halive hq hk he hy j i hedge htick hconv hport hconvs hj hlow
    obtain ⟨hqueue, hbegun, hothers, haccs, hframe⟩ := Dev.serveEdge_begins ⟨hq, hk, he, hy, htick, hconv, hport, hconvs, hj, hlow⟩
    exact ⟨d.serveEdge q, State.runLive_next halive (if_pos hedge), hqueue, hbegun, hothers, haccs, hframe⟩
  case still =>
    intro s t q d halive hedge
    exact State.runLive_next halive (if_neg (by simpa using hedge))
  case late =>
    intro s t q r y d x halive hq hk he hy hheld hwait
    obtain ⟨hquad, hreaches, hframe⟩ := Dev.discardLate_reaches hq hk he hy hheld hwait
    exact ⟨d.discardLate q, State.runLive_next halive rfl, hquad, hreaches, hframe⟩
  case ready =>
    intro s t q c r i z d x slice input code halive hc hready hk hl hi hn hs hv
    refine ⟨fun hcals => ?_, d.codesReady q c [z], State.runLive_next halive (Dev.conversionReady_alone hc hready [z]),
      Dev.codesReady_reaches hc ⟨hk, hn, hs, hl, hi, hv⟩ z⟩
    simp only [input, Dev.calAt, hcals, hv]
    rfl

end

section
/-! SUPPORT. When a transaction of the host link executes, and how its response is formed. -/

namespace Sys2Proof.Machine

open Sys2Proof

/-- A transaction of the host link is one of two forms: on the device alone, or on the scratchpad too, where a refusal in boot hold
    carries the payload `raw` asks for (R471). -/
theorem transaction_forms {c : Instr} {t : Tick} {inHold : Bool} {payload : List Byte} (h : c.transaction = some (t, inHold, payload)) (s : State) :
    (payload = [] ∧ ∃ f : Dev → Dev, exec c s = s.run t fun d => d.host c inHold f) ∨
      ∃ (raw : List Byte) (f : List Host.Cell → Dev → Dev × List Host.Cell × Byte × List Byte),
        payload = (if byteAt raw 0 = 4 then indexBytes 0 else []) ∧ exec c s = s.runMem t fun d m => d.hostMem m c inHold raw (f m) := by
  cases c <;> simp only [Instr.transaction, reduceCtorEq, Option.some.injEq, Prod.mk.injEq] at h <;> obtain ⟨rfl, rfl, rfl⟩ := h
  case write a v => exact .inr ⟨[], fun m d => ((d.writeWord m a.toNat v).1, (d.writeWord m a.toNat v).2.1, (d.writeWord m a.toNat v).2.2, []), rfl, rfl⟩
  case atomicAdd a x => exact .inr ⟨[], fun m d => d.atomic m a.toNat (· + x), rfl, rfl⟩
  case atomicSwap a x => exact .inr ⟨[], fun m d => d.atomic m a.toNat fun _ => x, rfl, rfl⟩
  case writeBurst a ws => exact .inr ⟨[4], fun m d => d.writeBurst m a.toNat ws, rfl, rfl⟩
  all_goals exact .inl ⟨rfl, _, rfl⟩

/-- A link that is held, or that has answered in the present LOOP_CLK cycle, or whose window asks for another command: time passes. -/
theorem exec_transaction_still {c : Instr} {s : State} {t : Tick} {inHold : Bool} {payload : List Byte}
    (hc : c.transaction = some (t, inHold, payload)) (h : ((s.dev.advance t).linkBlocked || !(s.dev.advance t).asked c) = true) :
    exec c s = .next (s.after t (s.dev.advance t)) := by
  obtain ⟨-, f, hexec⟩ | ⟨raw, f, -, hexec⟩ := transaction_forms hc s
  · exact hexec.trans (State.run_next (if_pos h))
  · rw [hexec, State.runMem, Dev.hostMem, if_pos h]
    rfl

/-- In boot hold a transaction that R137 does not list is refused. -/
theorem exec_transaction_refused {c : Instr} {s : State} {t : Tick} {payload : List Byte} (hc : c.transaction = some (t, false, payload))
    (hl : (s.dev.advance t).linkBlocked = false) (ha : (s.dev.advance t).asked c = true) (hb : (s.dev.advance t).sys.bootHold = true) :
    exec c s = .next (s.after t ((s.dev.advance t).reply stState payload)) := by
  obtain ⟨rfl, f, hexec⟩ | ⟨raw, f, rfl, hexec⟩ := transaction_forms hc s
  · exact hexec.trans (State.run_next (Dev.host_refused hl ha hb))
  · rw [hexec, State.runMem, Dev.hostMem, if_neg (by simp [hl, ha]), if_pos (by simp [hb])]
    rfl

/-- The first transaction of the window that has not executed is the one taken. -/
theorem takeFirst_append {pre post : List Taken} {x : Taken} (hpre : ∀ y ∈ pre, y.done = true) (hx : x.done = false) :
    takeFirst (pre ++ x :: post) = (pre ++ { x with done := true } :: post, some x) := by
  induction pre with
  | nil => simp [takeFirst, hx]
  | cons y pre ih =>
    rw [List.cons_append, takeFirst, if_pos (hpre y List.mem_cons_self), ih fun z hz => hpre z (List.mem_cons_of_mem y hz)]
    rfl

/-- The response of a transaction: its number and status, with the expectation and the epoch that stand (R461). -/
def Dev.responseTo (d : Dev) (x : Taken) (st : Byte) (data : List Byte) : Response :=
  { seq := x.seq, status := st, expect := d.link.expect, epoch := d.link.epoch.setWidth 8, op := byteAt x.payload 0, payload := data }

/-- With no transaction that waits, a response leaves the window and what is to be sent alone. -/
theorem Dev.reply_none {d : Dev} (st : Byte) (data : List Byte) (h : ∀ x ∈ d.link.window, x.done = true) : d.reply st data =
    { d with link := { d.link with lastStatus := st, lastData := data, holding := false, doneCycle := some d.cycle } } := by
  unfold Dev.reply
  dsimp only
  rw [takeFirst_none _ h]

/-- A response marks its transaction executed and joins the transmitter and the replay store (R461, R464, R467). -/
theorem Dev.reply_first {d : Dev} (st : Byte) (data : List Byte) {w : List Taken} {x : Taken} (h : takeFirst d.link.window = (w, some x)) :
    d.reply st data = { d with link := { d.link with
      lastStatus := st, lastData := data, holding := false, doneCycle := some d.cycle, window := w, tx := d.link.tx ++ [.response (d.responseTo x st data)]
      replay := (d.link.replay ++ [d.responseTo x st data]).drop ((d.link.replay ++ [d.responseTo x st data]).length - 8) } } := by
  unfold Dev.reply
  dsimp only
  rw [h]
  rfl

/-- What a response leaves alone of the link, and that it closes the transaction. -/
theorem Dev.reply_link (d : Dev) (st : Byte) (data : List Byte) : (d.reply st data).link.doneCycle = some d.cycle ∧
    (d.reply st data).link.expect = d.link.expect ∧ (d.reply st data).link.frames = d.link.frames ∧ (d.reply st data).link.epoch = d.link.epoch := by
  unfold Dev.reply
  dsimp only
  split <;> exact ⟨rfl, rfl, rfl, rfl⟩

end Sys2Proof.Machine

open Sys2Proof Sys2Proof.Machine

/-- Settles O3: when a transaction executes by `transaction_forms`, how its response is formed by `Dev.reply_none` and `Dev.reply_first`. -/
theorem transactionsWaitAndAreAnsweredOnce : Obligations.TransactionsWaitAndAreAnsweredOnce := by
  refine ⟨fun c s t inHold payload hc => ⟨fun h => exec_transaction_still hc (by simpa using h), fun hl ha hb hhold => ?_, fun h => ?_⟩,
    fun d st data => ⟨d.reply_lastStatus st data, d.reply_lastData st data, d.reply_holding st data, ?_⟩⟩
  · subst hhold
    exact exec_transaction_refused hc hl ha hb
  · exact exec_transaction_still hc (by simp [Dev.linkBlocked, h])
  · obtain ⟨hdone, hexpect, hframes, hepoch⟩ := d.reply_link st data
    refine ⟨hdone, d.reply_onlyIn st data, hexpect, hframes, hepoch, fun h => ?_, fun pre post x hw hpre hx => ?_⟩
    · rw [Dev.reply_none st data h]
      exact ⟨rfl, rfl, rfl⟩
    · rw [Dev.reply_first st data (w := pre ++ { x with done := true } :: post) (x := x) (by rw [hw, takeFirst_append hpre hx])]
      refine ⟨rfl, rfl, ?_⟩
      dsimp only
      rw [List.length_append]
      rfl

end

section
/-! SUPPORT. What no command changes: the queue behind it, and, but for the transactions on the scratchpad and the three operations that
    zero it, the scratchpad. -/

namespace Sys2Proof.Machine

open Sys2Proof

/-- A command answers with a device and a scratchpad, and leaves the queue; one that is none of R133, R512 and R529 leaves the scratchpad too. -/
theorem exec_keeps (c : Instr) (s : State) : ∃ (d : Dev) (m : List Host.Cell), exec c s = .next { s with dev := d, mem := m } ∧
    (c.keepsScratch = true → m = s.mem) := by
  cases c
  case coldStart | warmStart | fullBistDone | write | writeBurst | atomicAdd | atomicSwap => exact ⟨_, _, rfl, fun h => absurd h Bool.false_ne_true⟩
  all_goals exact ⟨_, _, rfl, fun _ => rfl⟩

end Sys2Proof.Machine

open Sys2Proof Sys2Proof.Machine

/-- Settles O7, by `exec_keeps`. -/
theorem otherCommandsKeepScratchpadAndQueue : Obligations.OtherCommandsKeepScratchpadAndQueue := by
  intro c s s' h
  obtain ⟨d, m, hexec, hmem⟩ := exec_keeps c s
  obtain rfl := Host.Outcome.next.inj (h.symm.trans hexec)
  exact ⟨rfl, hmem⟩

end

section
/-! SUPPORT. The window of boot failures, and RETRY in boot hold. -/

namespace Sys2Proof.Machine

open Sys2Proof

/-! ## The window of R135 -/

theorem Dev.windowDue_iff (d : Dev) : d.windowDue = true ↔
    (∃ k, d.clk.tbAt (d.clk.now - if d.clk.onBackup then 12 else 1) < 4800000000 * k ∧ 4800000000 * k ≤ d.tb) ∨ d.tb = 0 := by
  simp only [Dev.windowDue, Bool.or_eq_true, decide_eq_true_eq, beq_iff_eq]
  generalize d.clk.tbAt (d.clk.now - if d.clk.onBackup then 12 else 1) = before
  refine or_congr_left ⟨fun h => ⟨d.tb / 4800000000, ?_, ?_⟩, fun ⟨k, hlt, hle⟩ => ?_⟩ <;> omega

/-- A unit of the window: an open one grows to 60 and closes there, unless three failures stand. -/
theorem BootCtl.tick_eq (b : BootCtl) : b.tick = if b.windowOpen = false then b
    else if (b.window = 59 ∨ b.window = 60) ∧ b.failCount ≠ 3 then { b with window := 0, windowOpen := false, failCount := 0, failCauses := [] }
    else { b with window := if b.window.toNat < 60 then b.window + 1 else b.window } := by
  have hfull : (if b.window.toNat < 60 then b.window + 1 else b.window) = 60 ↔ b.window = 59 ∨ b.window = 60 := by
    split <;> bv_omega
  unfold BootCtl.tick
  dsimp only
  simp only [hfull, Bool.not_eq_true']

theorem exec_bootWindowTick_due {s : State} {t : Tick} (h : (s.dev.advance t).windowDue = true) : exec (.bootWindowTick t) s =
    .next (s.after t { s.dev.advance t with sys := { (s.dev.advance t).sys with boot := (s.dev.advance t).sys.boot.tick } }) :=
  exec_bootWindowTick.trans (State.run_next (if_pos h))

theorem exec_bootWindowTick_between {s : State} {t : Tick} (h : ¬(s.dev.advance t).windowDue = true) :
    exec (.bootWindowTick t) s = .next (s.after t (s.dev.advance t)) :=
  exec_bootWindowTick.trans (State.run_next (if_neg h))

/-! ## RETRY (R138) -/

/-- The window, the failures and HOLD are cleared, and the cold start is asked for. -/
def Sys.retried (s : Sys) : Sys :=
  { s with boot := { s.boot with window := 0, windowOpen := false, hold := false, failCount := 0, failCauses := [] }, retryPending := true }

theorem Dev.writeBootCtrl_retry {d : Dev} {v : Word} (hv : v.getLsbD 0 = true) (hb : d.sys.bootHold = true) :
    ∃ e : Dev, d.writeBootCtrl v = (e, stOk) ∧ e.sys = d.sys.retried ∧ d.onlyIn e [.sys, .lantern, .fault] := by
  unfold Dev.writeBootCtrl
  rw [if_neg (by simp [hv]), if_neg (by simp [hb])]
  extract_lets cleared noted persisted
  have hnoted : cleared.onlyIn noted [.lantern, .fault] := cleared.note_onlyIn _ _ _ _
  have hcleared : d.onlyIn cleared [.sys] := d.onlyIn_sys _
  have hpersisted : noted.onlyIn persisted [.lantern] := noted.onlyIn_lantern _
  have hsys : persisted.sys = cleared.sys := hnoted .sys (by decide)
  refine ⟨_, rfl, ?_, hcleared.into.thenIn hnoted |>.thenIn hpersisted |>.thenIn (persisted.onlyIn_sys _)⟩
  exact congrArg (fun x : Sys => { x with retryPending := true }) hsys

/-- A transaction's own response waits for the transmitter once it is formed. -/
theorem Dev.reply_responding {d : Dev} {c : Instr} (h : d.asked c = true) (st : Byte) (data : List Byte) : (d.reply st data).link.responding = true := by
  obtain ⟨w, x, hx⟩ : ∃ w x, takeFirst d.link.window = (w, some x) := by
    unfold Dev.asked at h
    split at h
    · exact ⟨_, _, Prod.ext rfl ‹_›⟩
    · exact absurd h Bool.false_ne_true
  rw [Dev.reply_first st data hx]
  simp [Link.responding, TxFrame.isResponse]

theorem Dev.startRetry_of_responding {d : Dev} (h : d.link.responding = true) : d.startRetry = d := by
  simp [Dev.startRetry, h]

theorem Dev.asked_of_link {d e : Dev} (h : e.link = d.link) (c : Instr) : e.asked c = d.asked c := by
  simp only [Dev.asked, h]

end Sys2Proof.Machine

open Sys2Proof Sys2Proof.Machine

/-- Settles O13: the window by `Dev.windowDue_iff` and `BootCtl.tick_eq`, RETRY by `Dev.writeBootCtrl_retry`; the cold start waits while the
    response has not left. -/
theorem bootWindowAndRetry : Obligations.BootWindowAndRetry := by
  refine ⟨fun s t => ⟨fun hk h0 => exec_bootWindowTick_between fun h => ?between, fun k hk hle => ?due⟩, ?retry⟩
  case between =>
    obtain ⟨k, hpassed⟩ | hzero := (Dev.windowDue_iff _).1 h
    · exact hk k hpassed
    · exact h0 hzero
  case due =>
    have hdue := (Dev.windowDue_iff (s.dev.advance t)).2 (hk.imp (fun hlt => ⟨k, hlt, hle⟩) id)
    rw [exec_bootWindowTick_due hdue, BootCtl.tick_eq]
  case retry =>
    intro s t v d hl ha hb hv
    obtain ⟨e, hwrite, hsys, hframe⟩ := Dev.writeBootCtrl_retry hv hb
    have hlink : e.link = d.link := hframe .link (by decide)
    have hstays : (e.reply stOk).startRetry = e.reply stOk :=
      Dev.startRetry_of_responding (Dev.reply_responding (c := .retry t v) ((Dev.asked_of_link hlink _).trans ha) _ _)
    have hsys' : (e.reply stOk).sys = d.sys.retried := (e.reply_sys _ _).trans hsys
    refine ⟨e.reply stOk, exec_retry.trans (State.run_next ?_), e.reply_lastStatus _ _, ?_, ?_, ?_, hframe.into.thenIn (e.reply_onlyIn _ _)⟩
    · refine (Dev.host_inHold hl ha).trans ?_
      dsimp only
      rw [show (s.dev.advance t).writeBootCtrl v = (e, stOk) from hwrite, hstays]
    · rw [hsys']; rfl
    · rw [hsys']; exact hb
    · rw [hsys']; rfl

end

section
/-! SUPPORT. The cold starts that do not run on: one that fails in step 2, and one that finds HOLD set. -/

namespace Sys2Proof.Machine

open Sys2Proof

/-! ## The entry into BOOT (R117, R118) -/

theorem Dev.cutWrite_onlyIn (d : Dev) : d.onlyIn d.cutWrite [.tile, .free] := by
  unfold Dev.cutWrite
  split
  · exact Dev.onlyIn_ite ((d.onlyIn_free _).andThen (Dev.onlyIn_tile _ _))
  · exact d.onlyIn_refl _

theorem Dev.cutToken_onlyIn (d : Dev) : d.onlyIn d.cutToken [.trust, .free] := by
  unfold Dev.cutToken
  split
  · exact Dev.onlyIn_ite ((d.onlyIn_free _).andThen (Dev.onlyIn_trust _ _))
  · exact d.onlyIn_refl _

theorem Dev.tearRow_onlyIn (d : Dev) : d.onlyIn d.tearRow [.lantern, .free] := by
  refine Dev.onlyIn_ite ?_
  have hfresh : d.onlyIn d.fresh.2 [.free] := d.onlyIn_free _
  exact hfresh.into.thenIn (Dev.onlyIn_ite (d.fresh.2.onlyIn_lantern _))

/-- What enters BOOT for a cold start: the start to run is named with its cause, and the boot control words stand. -/
theorem Dev.enterBoot_cold (d : Dev) (cause : BitVec 4) (trip : BitVec 5) (failStep : BitVec 4) : let e := d.enterBoot true cause trip failStep
    e.sys.devState = .boot ∧ e.sys.start = some { cold := true } ∧ e.sys.cause = cause ∧ e.sys.failStep = failStep ∧ e.sys.boot = d.sys.boot := by
  unfold Dev.enterBoot
  extract_lets prev cut entered named clocked untiled railed
  have hcut : d.onlyIn cut [.tile, .trust, .lantern, .free] :=
    (d.cutWrite_onlyIn.andThen (Dev.cutToken_onlyIn _) (es := [.tile, .trust, .lantern, .free])).thenIn (Dev.tearRow_onlyIn _)
  have hsys : cut.sys = d.sys := hcut .sys (by decide)
  have hboot : entered.sys.boot = d.sys.boot := by
    rw [← hsys]
    dsimp only [entered]
    split
    · rfl
    · rw [Dev.setState_sys]
  exact ⟨rfl, rfl, rfl, rfl, hboot⟩

/-! ## A failure in step 2 (R119, R121) -/

theorem Dev.coldSteps_fails {d : Dev} {o : ColdOutcome} (escalated : Bool) (ticks : Nat) (h : o.failStep = 2) :
    d.coldSteps o escalated ticks = (d.pinsTaken.fatal 2 0, false) := by
  unfold Dev.coldSteps
  exact if_pos h

/-! ## The wait in boot hold (R136) -/

theorem BootCtl.count_keepsHold {b : BootCtl} (h : b.hold = true) (cause : BitVec 4) : (b.count cause).hold = true := by
  have hcount : (b.count cause).hold = (b.hold || (if b.failCount = 3 then b.failCount else b.failCount + 1) == 3) := rfl
  rw [hcount, h, Bool.true_or]

/-- The count of a start leaves a HOLD that is set, the device state and the lock. -/
theorem Dev.countStart_held {d : Dev} (h : d.sys.boot.hold = true) : d.onlyIn d.countStart [.sys] ∧ d.countStart.sys.boot.hold = true ∧
    d.countStart.sys.devState = d.sys.devState ∧ d.countStart.locked = d.locked := by
  unfold Dev.countStart
  split
  next p hp =>
    split
    · exact ⟨d.onlyIn_refl _, h, rfl, rfl⟩
    · refine ⟨d.onlyIn_sys _, ?_, rfl, ?_⟩
      · dsimp only [Dev.updSys]
        split
        · exact BootCtl.count_keepsHold h _
        · exact h
      · simp [Dev.locked, Dev.updSys, hp]
  next => exact ⟨d.onlyIn_refl _, h, rfl, rfl⟩

theorem Dev.pinsTaken_devState (d : Dev) : d.pinsTaken.sys.devState = d.sys.devState := by
  unfold Dev.pinsTaken
  split <;> rfl

theorem Dev.coldCounted_held {d : Dev} (h : d.sys.boot.hold = true) : d.onlyIn d.coldCounted [.sys, .prot] ∧ d.coldCounted.sys.boot.hold = true ∧
    d.coldCounted.sys.devState = d.sys.devState ∧ d.coldCounted.locked = d.locked := by
  obtain ⟨hpins, hboot, hlocked, -⟩ := d.pinsTaken_spec
  obtain ⟨hcountF, hhold, hstate, hcounted⟩ := Dev.countStart_held (d := d.pinsTaken) (by rw [hboot, h])
  exact ⟨(hpins.thenIn hcountF).thenIn (Dev.onlyIn_sys _ _), hhold, hstate.trans d.pinsTaken_devState, hcounted.trans hlocked⟩

/-- A cold start that finds HOLD set goes from step 4 to the wait. -/
theorem Dev.coldSteps_hold {d : Dev} {o : ColdOutcome} (escalated : Bool) (ticks : Nat) (hstep : o.failStep = 0) (hcut : o.cut = false)
    (hboth : (o.badBoot1 && o.badBoot2) = false) (hh : d.coldCounted.sys.boot.hold = true) :
    ∃ early, d.coldSteps o escalated ticks = ((d.coldCounted.coldBegun o).coldHold o escalated early, false) := by
  refine ⟨d.coldCounted.earlyEvents, ?_⟩
  unfold Dev.coldSteps
  extract_lets taken counted both run early locked held base
  have hne : ∀ k : BitVec 4, k ≠ 0 → o.failStep ≠ k := fun k hk => hstep ▸ hk.symm
  have hheld : held = locked := if_neg (by simp [both, hboth])
  rw [if_neg (hne 2 (by decide)), if_neg (fun h => hne 3 (by decide) h.1), if_neg (by simp [hcut]), if_neg (hne 3 (by decide)), fatalStep_none hstep]
  have hbase : base = d.coldCounted.coldBegun o := congrArg (fun e : Dev => e.coldBase.scanned o) hheld
  dsimp only
  rw [hbase, if_pos]
  · rfl
  · rw [(d.coldCounted.coldBegun_begun o).boot, hh]

theorem Dev.waitHold_spec (d : Dev) : d.onlyIn d.waitHold [.tile, .sys, .lantern, .fault] ∧ d.waitHold.tile.tiled = false ∧ d.waitHold.sys =
    { d.sys with bootHold := true, start := none, duration := 0, fallback := false, sigSkipped := false, rdyLowStart := false } := by
  unfold Dev.waitHold
  extract_lets held causes
  have hheld : d.onlyIn held [.tile, .sys] := (d.onlyIn_tile _).andThen (Dev.onlyIn_sys _ _)
  have hnoted := held.noteNext_onlyIn 0x0013 1 0xFFFF ((List.range 3).map fun i => (causes.getD i 0).setWidth 8)
  generalize held.noteNext 0x0013 1 0xFFFF _ = noted at *
  refine ⟨hheld.into.thenIn hnoted, ?_, hnoted .sys (by decide)⟩
  rw [show noted.tile = held.tile from hnoted .tile (by decide)]
  rfl

/-- Step 9 and the wait leave the clock and the link as steps 3 and 4 have left them, and no image runs. -/
theorem Dev.coldHold_spec (d : Dev) (o : ColdOutcome) (escalated : Bool) (early : List StartEvent) : let e := d.coldHold o escalated early
    e.clk = d.clk ∧ e.link = d.link ∧ e.tile.tiled = false ∧ e.sys.devState = d.sys.devState ∧ e.sys.bootHold = true ∧ e.sys.start = none ∧
      e.sys.rdyLowStart = false ∧ e.sys.boot.hold = d.sys.boot.hold := by
  unfold Dev.coldHold
  extract_lets imaged recorded waited
  obtain ⟨resume, hrecorded⟩ : ∃ resume, (imaged.recorded resume).KeepsStart recorded := imaged.coldRecords_keepsStart o _
  obtain ⟨hframe, htiled, hsys⟩ := (recorded.updSys fun s => { s with escalated := escalated, kindWarm := false, warmCount := 0 }).waitHold_spec
  have hmade : recorded.sys = (imaged.recorded resume).sys := hrecorded.sys
  refine ⟨(hframe .clk (by decide)).trans hrecorded.clk, (hframe .link (by decide)).trans hrecorded.link, htiled, ?_, ?_, ?_, ?_, ?_⟩
  all_goals dsimp only [waited]; rw [hsys]
  · exact (congrArg Sys.devState hmade :)
  · exact (congrArg (fun s : Sys => s.boot.hold) hmade :)

/-! ## The cold start as an instruction -/

/-- A cold start whose banks have not been tested leaves the scratchpad. -/
theorem exec_coldStart_ends {s : State} {t : Tick} {o : ColdOutcome} {p : StartPending} {d : Dev} (hs : (s.dev.advance t).sys.start = some p)
    (hp : p.cold = true) (h : (s.dev.advance t).coldSteps o (s.dev.advance t).sys.cameFromWarm o.ticks = (d, false)) :
    exec (.coldStart t o) s = .next { s.after t d with mem := s.mem } := by
  rw [exec_coldStart, execColdStart, State.runMem]
  simp only [hs, hp, h]
  rfl

end Sys2Proof.Machine

open Sys2Proof Sys2Proof.Machine

/-- Settles O11: the failure in step 2 by `Dev.enterBoot_cold`, the wait by `Dev.coldCounted_held`, `Dev.coldBegun_begun` and
    `Dev.coldHold_spec`. -/
theorem failedAndHeldColdStarts : Obligations.FailedAndHeldColdStarts := by
  intro s t o p d hs hp
  refine ⟨fun hfail => ?fails, fun hstep hcut hboth hhold => ?held⟩
  case fails =>
    obtain ⟨hpins, hboot, -, -⟩ := d.pinsTaken_spec
    obtain ⟨hstate, hstart, hcause, hfailed, hctl⟩ := (d.pinsTaken.updSys fun s =>
      { s with boot := { s.boot with startFails := s.boot.startFails ++ [{ step := 2, tick := 0 }] } }).enterBoot_cold 6 0 2
    refine ⟨d.pinsTaken.fatal 2 0, exec_coldStart_ends hs hp (Dev.coldSteps_fails _ _ hfail), hstate, hstart, hcause, hfailed, hctl.trans ?_⟩
    exact congrArg (fun b : BootCtl => { b with startFails := b.startFails ++ [({ step := 2, tick := 0 } : StartFail)] }) hboot
  case held =>
    obtain ⟨hcountF, hheld, hstate, hlocked⟩ := Dev.coldCounted_held hhold
    obtain ⟨early, hsteps⟩ := Dev.coldSteps_hold d.sys.cameFromWarm o.ticks hstep hcut hboth hheld
    have hbegun := d.coldCounted.coldBegun_begun o
    have hbegunState : (d.coldCounted.coldBegun o).sys.devState = d.coldCounted.sys.devState := rfl
    obtain ⟨hclk, hlink, htiled, hdev, hwaits, hstart, hrdy, hkept⟩ := (d.coldCounted.coldBegun o).coldHold_spec o d.sys.cameFromWarm early
    refine ⟨_, exec_coldStart_ends hs hp hsteps, hdev.trans (hbegunState.trans hstate), hwaits, hstart, htiled, hrdy, ?_, ?_, ?_⟩
    · rw [hkept, hbegun.boot, hheld]
    · rw [hclk, hbegun.clk]
    · rw [hlink, hbegun.epoch, hlocked, show d.coldCounted.link = d.link from hcountF .link (by decide)]

end

section
/-! SUPPORT. A consequence of a command that writes a register of the host: the mask bits that an event of the cycle has set. -/

namespace Sys2Proof.Machine

open Sys2Proof

/-- A device in whose present cycle phase 0 was parked, and whose card 0 waits for an offset check that has nothing to check. -/
def Dev.offsetDue : Dev :=
  let d := State.reset.dev
  { d with cards := d.cards.set 0 { d.cards[0] with state := .qualifying, qual := .offset }, cyc := { no := d.cycle, masks := [(0, { unused := false, park := true })] } }

theorem Dev.offsetDue_park : Dev.offsetDue.kept.pwm[(0 : PhaseIx)].mask.park = false := by decide +kernel

theorem Dev.finish_offsetDue_park : (Dev.finish Dev.offsetDue Dev.offsetDue).kept.pwm[(0 : PhaseIx)].mask.park = true := by decide +kernel

end Sys2Proof.Machine

open Sys2Proof Sys2Proof.Machine

/-- Refutes O4: a change of any mask bit sets again the bits that events of the present LOOP_CLK cycle have set (R221). Where card 0 passes
    its offset check as a command ends, its CARD bit is cleared so, and with it phase 0 takes the PARK bit that the cycle's record names. No run of the device leaves that bit out of
    the mask while the record names it; the statement is about every state. -/
theorem not_consequencesKeepTheRest : ¬ Obligations.ConsequencesKeepTheRest := by
  rintro ⟨hfinish, -⟩
  have hkept := congrArg (fun e => e.pwm[(0 : PhaseIx)].mask.park) (hfinish Dev.offsetDue Dev.offsetDue)
  exact absurd (Dev.offsetDue_park.symm.trans (hkept.symm.trans Dev.finish_offsetDue_park)) (by decide)

end

section
/-! SUPPORT. Tokens: the checks, what a completed one leaves, and the CLEAR record (R436, R443 to R448). -/

namespace Sys2Proof.Machine

open Sys2Proof

/-! ## A record takes its number (R423) -/

theorem mem_of_mem_dropFirst {α : Type} {p : α → Bool} {x : α} : ∀ {xs : List α}, x ∈ dropFirst p xs → x ∈ xs
  | [], h => h
  | y :: ys, h => by
    rw [dropFirst] at h
    split at h
    · exact List.mem_cons_of_mem y h
    · rcases List.mem_cons.mp h with rfl | h
      · exact List.mem_cons_self
      · exact List.mem_cons_of_mem y (mem_of_mem_dropFirst h)

/-- Two journals that count, write and were cleared alike. -/
def Lantern.sameCounts (l l' : Lantern) : Prop := l'.next = l.next ∧ l'.writePtr = l.writePtr ∧ l'.clears = l.clears

theorem Lantern.closeNewest_counts (l : Lantern) : l.sameCounts l.closeNewest := by
  unfold Lantern.closeNewest
  split
  · split <;> exact ⟨rfl, rfl, rfl⟩
  · exact ⟨rfl, rfl, rfl⟩

theorem Lantern.closeNewest_seqs (l : Lantern) : l.closeNewest.ram.map (·.seq) = l.ram.map (·.seq) := by
  unfold Lantern.closeNewest
  split
  · split
    · dsimp only [Lantern.updSeq]
      rw [List.map_map]
      refine List.map_congr_left fun r _ => ?_
      dsimp only [Function.comp]
      split <;> rfl
    · rfl
  · rfl

theorem Lantern.setBucket_counts (l : Lantern) (b : Bucket) : l.sameCounts (l.setBucket b) ∧ (l.setBucket b).ram = l.ram := by
  unfold Lantern.setBucket
  dsimp only
  split <;> exact ⟨⟨rfl, rfl, rfl⟩, rfl⟩

theorem Lantern.freeEntry_counts (l : Lantern) : l.sameCounts l.freeEntry ∧ ∀ r ∈ l.freeEntry.ram, r ∈ l.ram := by
  unfold Lantern.freeEntry
  split
  · exact ⟨⟨rfl, rfl, rfl⟩, fun _ h => h⟩
  · exact ⟨⟨rfl, rfl, rfl⟩, fun _ h => mem_of_mem_dropFirst h⟩

/-- A record that is numbered is the last of RAM, behind records that were there, and carries the next number. -/
theorem Lantern.number_ram (l : Lantern) (i : RecIn) (clk : Clk) : ∃ older r, (l.number i clk).1.ram = older ++ [r] ∧
    (∀ x ∈ older, x.seq ∈ l.ram.map (·.seq)) ∧ r.seq = l.next ∧ r.code = BitVec.ofNat 16 i.code ∧ r.persisted = false ∧ r.snapRef = i.snap ∧
      (isFaultCode (BitVec.ofNat 16 i.code) = false → r.isOpen = false) := by
  unfold Lantern.number
  extract_lets closed p code b open_ r linked bucketed freed resv
  obtain ⟨hnext, -, -⟩ := l.closeNewest_counts
  obtain ⟨-, hbucketed⟩ := closed.setBucket_counts { b with suppressed := 0 }
  refine ⟨freed.ram, linked, rfl, fun x hx => ?_, ?_⟩
  · rw [← l.closeNewest_seqs]
    exact List.mem_map_of_mem (hbucketed ▸ (bucketed.freeEntry_counts).2 x hx)
  · have hr : r.seq = l.next ∧ r.code = code ∧ r.persisted = false ∧ r.snapRef = i.snap ∧ (isFaultCode code = false → r.isOpen = false) :=
      ⟨hnext, rfl, rfl, rfl, fun hcode => by simp only [r, open_, hcode, Bool.false_and]⟩
    dsimp only [linked]
    split <;> exact hr

theorem Lantern.number_counts (l : Lantern) (i : RecIn) (clk : Clk) : (l.number i clk).2 = l.next ∧ (l.number i clk).1.next = l.next + 1 ∧
    (l.number i clk).1.writePtr = l.writePtr ∧ (l.number i clk).1.clears = l.clears := by
  unfold Lantern.number
  extract_lets closed p code b open_ r linked bucketed freed resv
  obtain ⟨hnext, hptr, hclears⟩ := l.closeNewest_counts
  obtain ⟨⟨hnext', hptr', hclears'⟩, -⟩ := closed.setBucket_counts { b with suppressed := 0 }
  obtain ⟨⟨hnext'', hptr'', hclears''⟩, -⟩ := bucketed.freeEntry_counts
  have hseq : linked.seq = l.next := by
    dsimp only [linked]
    split <;> exact hnext
  exact ⟨hseq, congrArg (· + 1) (hnext''.trans (hnext'.trans hnext)), hptr''.trans (hptr'.trans hptr), hclears''.trans (hclears'.trans hclears)⟩

/-! ## The clear (R436) -/

/-- The only record of RAM, closed and without a snapshot, is persisted into the empty store. -/
theorem Lantern.persist_only {l : Lantern} {r : Record} (hram : l.ram = [r]) (hopen : r.isOpen = false) (hpers : r.persisted = false)
    (hsnap : r.snapRef = none) (hdropped : l.droppedSeqs = []) (hstore : l.store = []) : l.persist =
      { l with ram := [{ r with persisted := true, lost := l.lostPend }], store := [(l.writePtr, { r with persisted := true, lost := l.lostPend })], torn := l.torn.filter (· != l.writePtr), writePtr := (l.writePtr + 1) % 32768, lostPend := 0 } := by
  have hwaiting : l.waiting = [r] := by simp [Lantern.waiting, hram, hopen, hpers, hdropped]
  have hout : l.nextOut = some r := by
    unfold Lantern.nextOut
    rw [hwaiting]
    dsimp only
    split
    · next q hq => exact congrArg some (List.mem_singleton.mp (List.mem_of_find?_eq_some hq))
    · rfl
  have hslot : l.findSlot r.level 32768 l.writePtr = some l.writePtr := by
    rw [Lantern.findSlot, hstore]
    rfl
  unfold Lantern.persist
  rw [hout]
  dsimp only
  rw [hslot]
  simp [hsnap, hram, hstore]

/-- The CLEAR record, and the journal in which it alone is left, before it is persisted. -/
def Dev.clearRecord (d : Dev) (slot : Nat) : RecIn :=
  let l := d.lantern.closeNewest
  { code := 0x0002, level := 1, source := slot, data := leBytes 6 l.tail ++ leBytes 6 l.head ++ leBytes 4 l.seqs.eraseDups.length, ts := d.clk.now }

def Dev.clearedLantern (d : Dev) (slot : Nat) : Lantern :=
  let x := d.lantern.closeNewest.number (d.clearRecord slot) d.clk
  { x.1 with ram := x.1.ram.filter fun r => r.seq == x.2, store := [], torn := [], droppedSeqs := [], snaps := [], staging := Vector.replicate 16 none, floor := x.2, clears := x.1.clears + 1 }

theorem Dev.clearLantern_eq (d : Dev) (slot : Nat) : d.clearLantern slot =
    ({ d with lantern := (d.clearedLantern slot).persist, cyc := { d.cyc with notes := 0 } } : Dev).alert
      (d.lantern.closeNewest.number (d.clearRecord slot) d.clk).2 true := rfl

theorem Dev.clearLantern_onlyIn (d : Dev) (slot : Nat) : d.onlyIn (d.clearLantern slot) [.lantern, .fault] := fun b hb => by
  cases b <;> first | rfl | (simp at hb)

theorem Dev.clearedLantern_ram (d : Dev) (slot : Nat) (hnew : ∀ r ∈ d.lantern.ram, r.seq < d.lantern.next) :
    ∃ r, (d.clearedLantern slot).ram = [r] ∧ r.seq = d.lantern.next ∧ r.code = 0x0002 ∧ r.persisted = false ∧ r.snapRef = none ∧ r.isOpen = false := by
  obtain ⟨hnext, -, -⟩ := d.lantern.closeNewest_counts
  obtain ⟨hseq, -, -, -⟩ := d.lantern.closeNewest.number_counts (d.clearRecord slot) d.clk
  obtain ⟨older, r, hram, holder, hrseq, hcode, hpers, hsnap, hopen⟩ := d.lantern.closeNewest.number_ram (d.clearRecord slot) d.clk
  refine ⟨r, ?_, hrseq.trans hnext, hcode, hpers, hsnap, hopen (show isFaultCode 2 = false by decide)⟩
  have hold : ∀ x ∈ older, ¬(x.seq == d.lantern.closeNewest.next) = true := fun x hx => by
    obtain ⟨y, hy, hyx⟩ := List.mem_map.mp (d.lantern.closeNewest_seqs ▸ holder x hx)
    have hlt := hnew y hy
    simp only [beq_iff_eq]
    omega
  unfold Dev.clearedLantern
  dsimp only
  rw [hseq, hram, List.filter_append, List.filter_eq_nil_iff.mpr hold]
  simp [hrseq]

/-- After CLEAR only its record is left, persisted, and TAIL and the floor name it. -/
theorem Dev.clearLantern_lantern (d : Dev) (slot : Nat) (hnew : ∀ r ∈ d.lantern.ram, r.seq < d.lantern.next) : let l := (d.clearLantern slot).lantern
    l.floor = d.lantern.next ∧ l.tail = d.lantern.next ∧ l.clears = d.lantern.clears + 1 ∧ l.next = d.lantern.next + 1 ∧
      ∃ r, l.store = [(d.lantern.writePtr, r)] ∧ r.seq = d.lantern.next ∧ r.code = 0x0002 ∧ r.persisted = true := by
  obtain ⟨r, hram, hseq, hcode, hpers, hsnap, hopen⟩ := d.clearedLantern_ram slot hnew
  obtain ⟨hnext, hptr, hclears⟩ := d.lantern.closeNewest_counts
  obtain ⟨hfloor, hnext', hptr', hclears'⟩ := d.lantern.closeNewest.number_counts (d.clearRecord slot) d.clk
  have hl : (d.clearLantern slot).lantern = (d.clearedLantern slot).persist := rfl
  rw [hl, Lantern.persist_only hram hopen hpers hsnap rfl rfl]
  refine ⟨hfloor.trans hnext, ?_, congrArg (· + 1) (hclears'.trans hclears), hnext'.trans (congrArg (· + 1) hnext),
    ⟨{ r with persisted := true, lost := (d.clearedLantern slot).lostPend }, ?_, hseq, hcode, rfl⟩⟩
  · simp [Lantern.tail, Lantern.seqs, minOf, hseq]
  · dsimp only
    rw [show (d.clearedLantern slot).writePtr = d.lantern.writePtr from hptr'.trans hptr]

/-! ## A token that completes (R443, R447) -/

theorem Dev.tokenEnd_link (d : Dev) (bs : List Byte) (status : Byte) (reason : Nat) :
    (d.tokenEnd bs status reason).link.lastStatus = status ∧ (d.tokenEnd bs status reason).link.holding = false :=
  ⟨Dev.reply_lastStatus _ _ _, Dev.reply_holding _ _ _⟩

theorem Dev.tokenEnd_trust (d : Dev) (bs : List Byte) (status : Byte) (reason : Nat) : (d.tokenEnd bs status reason).trust =
    { d.trust with lastStatus := status, lastReason := BitVec.ofNat 8 reason, lastSigner := (tokenOf bs).signer, lastKind := BitVec.ofNat 8 (tokenOf bs).kind, chalCount := if status = stLeave then d.trust.chalCount else d.trust.chalCount + 1, accepted := if status = stOk then d.trust.accepted + 1 else d.trust.accepted, refused := if 2 ≤ reason then d.trust.refused + 1 else d.trust.refused } := by
  unfold Dev.tokenEnd
  extract_lets k told noted
  have hnoted : told.onlyIn noted [.lantern, .fault] := Dev.onlyIn_ite (told.note_onlyIn _ _ _ _)
  exact (noted.reply_onlyIn status [] .trust (by decide)).trans (hnoted .trust (by decide))

/-- For no reason above 1 no record is made. -/
theorem Dev.tokenEnd_unnoted (d : Dev) (bs : List Byte) (status : Byte) {reason : Nat} (h : reason < 2) :
    d.onlyIn (d.tokenEnd bs status reason) [.trust, .link] := by
  unfold Dev.tokenEnd
  extract_lets k told noted
  have hnoted : noted = told := if_neg (by omega)
  rw [hnoted]
  exact (d.onlyIn_trust _).andThen (told.reply_onlyIn status [])

/-- A check that fails says REFUSED_STATE or REFUSED_AUTH, and why. -/
theorem Trust.tokenCheck_some {t : Trust} {bs : List Byte} {reason : Nat} {status : Byte} (h : t.tokenCheck bs = some (reason, status)) :
    status ≠ stLeave ∧ 1 ≤ reason := by
  have hval : (reason, status) ∈ [(1, stState), (2, stAuth), (3, stAuth), (4, stAuth), (5, stState)] := by
    unfold Trust.tokenCheck at h
    dsimp only at h
    repeat' split at h
    all_goals cases h <;> decide
  simp only [List.mem_cons, Prod.mk.injEq, List.not_mem_nil, or_false] at hval
  obtain ⟨rfl, rfl⟩ | ⟨rfl, rfl⟩ | ⟨rfl, rfl⟩ | ⟨rfl, rfl⟩ | ⟨rfl, rfl⟩ := hval <;> exact ⟨by decide, by decide⟩

/-! ## What an accepted token does (R448) -/

theorem Dev.tokenEffect_onlyIn (d : Dev) (k : Token) : d.onlyIn (d.tokenEffect k) [.trust, .lantern, .fault, .sense] := by
  unfold Dev.tokenEffect
  split
  · exact (d.clearLantern_onlyIn _).into
  · exact (d.onlyIn_trust _).andThen (Dev.note_onlyIn _ _ _ _ _)
  · exact (d.onlyIn_trust _).andThen (Dev.note_onlyIn _ _ _ _ _)
  · exact (d.onlyIn_trust _).andThen (Dev.note_onlyIn _ _ _ _ _)
  · exact (d.onlyIn_sense _).andThen (Dev.note_onlyIn _ _ _ _ _)

/-- The owner slots and CLAIM_OPEN after an accepted token. -/
def Trust.afterToken (t : Trust) (k : Token) : Trust := match k.kind with
  | 2 | 3 => { (t.updSlot k.slot fun _ => { st := .installed, key := k.key }) with claimOpen := false }
  | 4 => t.updSlot k.slot fun x => { x with st := .revoked }
  | _ => t

theorem Dev.tokenEffect_trust (d : Dev) (k : Token) : (d.tokenEffect k).trust = d.trust.afterToken k := by
  unfold Dev.tokenEffect Trust.afterToken
  split
  · next h => rw [h]; rfl
  · next h => rw [h]; exact Dev.note_onlyIn _ _ _ _ _ .trust (by decide)
  · next h => rw [h]; exact Dev.note_onlyIn _ _ _ _ _ .trust (by decide)
  · next h => rw [h]; exact Dev.note_onlyIn _ _ _ _ _ .trust (by decide)
  · next h1 h2 h3 h4 =>
    split
    · next h => exact absurd h h2
    · next h => exact absurd h h3
    · next h => exact absurd h h4
    · exact Dev.note_onlyIn _ _ _ _ _ .trust (by decide)

/-! ## The commands -/

/-- A TOKEN transaction, of whatever kind. -/
theorem exec_token {s : State} {t : Tick} {bs : List Byte} {c : Instr}
    (hc : c = .tokenClear t bs ∨ c = .tokenClaim t bs ∨ c = .tokenInstall t bs ∨ c = .tokenRevoke t bs ∨ c = .tokenUnlock t bs) :
    exec c s = s.token t c bs := by
  obtain rfl | rfl | rfl | rfl | rfl := hc <;> rfl

theorem Dev.token_boot {d : Dev} {bs : List Byte} (h : d.sys.devState = .boot) : d.token bs = d.tokenEnd bs stState 0 := if_pos h

theorem Dev.token_fails {d : Dev} {bs : List Byte} {reason : Nat} {status : Byte} (h : d.sys.devState ≠ .boot)
    (hcheck : d.trust.tokenCheck bs = some (reason, status)) : d.token bs = d.tokenEnd bs status reason := by
  rw [Dev.token, if_neg h, hcheck]

/-- A token that passes checks 1 to 5 asks leave for its verification and holds the link. -/
theorem Dev.token_asks {d : Dev} {bs : List Byte} (h : d.sys.devState ≠ .boot) (hcheck : d.trust.tokenCheck bs = none)
    (hroom : d.leave.queue.length < 32) (hbudget : 300 ≤ d.leave.budget.toNat) : d.token bs =
      { d with link := { d.link with holding := true }, trust := { d.trust with waiting := d.trust.waiting ++ [.token bs] }, leave := { d.leave with queue := d.joinQueue { kind := .signature, target := 0xFF, arrival := d.clk.now } } } := by
  rw [Dev.token, if_neg h, hcheck]
  dsimp only
  rw [Dev.askTrust_joins d _ hroom hbudget]
  rfl

theorem Dev.markDirty_onlyIn (d : Dev) (was : Bool) : d.onlyIn (d.markDirty was) [.tile] := Dev.onlyIn_ite (d.onlyIn_tile _)

/-- The verification of a token has completed: its leave is given up and the job gone. -/
def Dev.tokenReleased (d : Dev) (rest : List TrustJob) : Dev :=
  (d.releaseLeave .signature leaveAll).updTrust fun t => { t with running := rest }

theorem Dev.tokenReleased_onlyIn (d : Dev) (rest : List TrustJob) : d.onlyIn (d.tokenReleased rest) [.leave, .trust] := fun b hb => by
  cases b <;> first | rfl | (simp at hb)

theorem Dev.trustOpDone_token {d : Dev} {bs : List Byte} {rest : List TrustJob} (h : d.trust.running = .token bs :: rest) :
    d.trustOpDone = ((d.tokenReleased rest).tokenVerified bs).markDirty (d.signerHeld d.tile.image.signer) := by
  unfold Dev.trustOpDone
  rw [h]
  rfl

theorem Trust.afterToken_counts (t : Trust) (k : Token) :
    (t.afterToken k).running = t.running ∧ (t.afterToken k).accepted = t.accepted ∧ (t.afterToken k).chalCount = t.chalCount := by
  unfold Trust.afterToken
  split <;> exact ⟨rfl, rfl, rfl⟩

/-- No token changes another slot than the one it names. -/
theorem Trust.afterToken_others (t : Trust) (k : Token) {j : Fin 4} (h : j ≠ Fin.ofNat 4 k.slot) : (t.afterToken k).slots[j] = t.slots[j] := by
  unfold Trust.afterToken
  split
  · exact upd_get_ne _ _ _ _ h
  · exact upd_get_ne _ _ _ _ h
  · exact upd_get_ne _ _ _ _ h
  · rfl

theorem Trust.afterToken_installs (t : Trust) (k : Token) (h : k.kind = 2 ∨ k.kind = 3) :
    (t.afterToken k).slots[Fin.ofNat 4 k.slot] = { st := .installed, key := k.key } ∧ (t.afterToken k).claimOpen = false := by
  obtain h | h := h <;> (unfold Trust.afterToken; rw [h]; exact ⟨upd_get_same _ _ _, rfl⟩)

theorem Trust.afterToken_revokes (t : Trust) (k : Token) (h : k.kind = 4) :
    (t.afterToken k).slots[Fin.ofNat 4 k.slot] = { t.slots[Fin.ofNat 4 k.slot] with st := .revoked } ∧ (t.afterToken k).claimOpen = t.claimOpen := by
  unfold Trust.afterToken
  rw [h]
  exact ⟨upd_get_same _ _ _, rfl⟩

theorem Trust.afterToken_clears (t : Trust) (k : Token) (h : k.kind = 1 ∨ k.kind = 5) : t.afterToken k = t := by
  obtain h | h := h <;> (unfold Trust.afterToken; rw [h]; rfl)

/-- A TOKEN whose signature does not verify. -/
theorem Dev.trustOpDone_refused {d : Dev} {bs : List Byte} {rest : List TrustJob} (h : d.trust.running = .token bs :: rest)
    (hverify : ecdsaVerify (tokenOf bs).pub (bs.take 0xB0) (tokenOf bs).sig = false) :
    d.trustOpDone = ((d.tokenReleased rest).tokenEnd bs stAuth 6).markDirty (d.signerHeld d.tile.image.signer) := by
  rw [Dev.trustOpDone_token h, Dev.tokenVerified, hverify]
  rfl

/-- A TOKEN whose signature verifies. -/
theorem Dev.trustOpDone_accepted {d : Dev} {bs : List Byte} {rest : List TrustJob} (h : d.trust.running = .token bs :: rest)
    (hverify : ecdsaVerify (tokenOf bs).pub (bs.take 0xB0) (tokenOf bs).sig = true) : d.trustOpDone =
      (((d.tokenReleased rest).tokenEffect (tokenOf bs)).tokenEnd bs stOk 0).markDirty (d.signerHeld d.tile.image.signer) := by
  rw [Dev.trustOpDone_token h, Dev.tokenVerified, hverify]
  rfl

/-- What the completion of a token leaves of its effect, in the blocks that its report does not touch. -/
theorem Dev.tokenEnd_dirty (e : Dev) (bs : List Byte) (status : Byte) (reason : Nat) (was : Bool) :
    let d' := (e.tokenEnd bs status reason).markDirty was
    d'.trust = (e.tokenEnd bs status reason).trust ∧ d'.link.lastStatus = status ∧ d'.link.holding = false ∧ d'.leave = e.leave ∧ d'.sense = e.sense ∧
      (reason < 2 → d'.lantern = e.lantern) ∧ e.onlyIn d' [.trust, .lantern, .fault, .link, .tile] := by
  intro d'
  have hend := e.tokenEnd_onlyIn bs status reason
  have hdirty : (e.tokenEnd bs status reason).onlyIn d' [.tile] := Dev.markDirty_onlyIn _ was
  have hall : e.onlyIn d' [.trust, .lantern, .fault, .link, .tile] := hend.andThen hdirty
  obtain ⟨hstatus, hholding⟩ := e.tokenEnd_link bs status reason
  have hlink : d'.link = (e.tokenEnd bs status reason).link := hdirty .link (by decide)
  exact ⟨hdirty .trust (by decide), hlink ▸ hstatus, hlink ▸ hholding, hall .leave (by decide), hall .sense (by decide),
    fun h => (hdirty .lantern (by decide)).trans (e.tokenEnd_unnoted bs status h .lantern (by decide)), hall⟩

/-- The trust engine works off the PLL's clock. -/
theorem exec_trustOpDone_runs {s : State} {t : Tick} (hclk : (s.dev.advance t).clk.onBackup = false) :
    exec (.trustOpDone t) s = .next (s.after t (s.dev.advance t).trustOpDone) :=
  State.run_next (if_neg (by rw [hclk]; decide))

theorem Dev.tokenUnlock_sense (d : Dev) (k : Token) (h : k.kind = 5) :
    (d.tokenEffect k).sense.unlockUntil = some (d.cycleTick + k.arg * 480000000) := by
  have hunlock : d.tokenEffect k = d.tokenUnlock k := by rw [Dev.tokenEffect, h]; rfl
  have hsense : (d.tokenUnlock k).sense = { d.sense with unlockUntil := some (d.cycleTick + k.arg * 1000 * msTicks) } :=
    Dev.note_onlyIn _ _ _ _ _ .sense (by decide)
  rw [hunlock, hsense]
  simp only [msTicks, Nat.mul_assoc]

/-- What a TOKEN leaves whose signature does not verify. -/
theorem Dev.trustOpDone_refused_leaves {d : Dev} {bs : List Byte} {rest : List TrustJob} (h : d.trust.running = .token bs :: rest)
    (hverify : ecdsaVerify (tokenOf bs).pub (bs.take 0xB0) (tokenOf bs).sig = false) : let d' := d.trustOpDone
    d'.trust.running = rest ∧ d'.trust.chalCount = d.trust.chalCount + 1 ∧ d'.link.holding = false ∧
      d'.leave.grants = d.leave.grants.erase { kind := .signature, target := 0xFF } ∧ d'.link.lastStatus = stAuth ∧ d'.trust.lastReason = 6 ∧
      d'.trust.slots = d.trust.slots ∧ d'.trust.refused = d.trust.refused + 1 ∧ d.onlyIn d' [.trust, .lantern, .fault, .link, .leave, .tile] := by
  intro d'
  have hd' : d' = _ := Dev.trustOpDone_refused h hverify
  obtain ⟨htrust, hstatus, hholding, hleave, -, -, hframe⟩ := (d.tokenReleased rest).tokenEnd_dirty bs stAuth 6 (d.signerHeld d.tile.image.signer)
  rw [Dev.tokenEnd_trust] at htrust
  rw [← hd'] at htrust hstatus hholding hleave hframe
  rw [htrust, hleave]
  exact ⟨rfl, rfl, hholding, rfl, hstatus, rfl, rfl, rfl, (d.tokenReleased_onlyIn rest).andThen hframe⟩

/-- What a TOKEN leaves whose signature verifies: its effect, and its report. -/
theorem Dev.trustOpDone_accepted_leaves {d : Dev} {bs : List Byte} {rest : List TrustJob} (h : d.trust.running = .token bs :: rest)
    (hverify : ecdsaVerify (tokenOf bs).pub (bs.take 0xB0) (tokenOf bs).sig = true) : let d' := d.trustOpDone
    let e := (d.tokenReleased rest).tokenEffect (tokenOf bs)
    d'.trust.running = rest ∧ d'.trust.chalCount = d.trust.chalCount + 1 ∧ d'.link.holding = false ∧
      d'.leave.grants = d.leave.grants.erase { kind := .signature, target := 0xFF } ∧ d'.link.lastStatus = stOk ∧ d'.trust.lastReason = 0 ∧
      d'.trust.accepted = d.trust.accepted + 1 ∧ d'.trust.slots = (d.trust.afterToken (tokenOf bs)).slots ∧
      d'.trust.claimOpen = (d.trust.afterToken (tokenOf bs)).claimOpen ∧ d'.lantern = e.lantern ∧ d'.sense = e.sense ∧
      d.onlyIn d' [.trust, .lantern, .fault, .link, .leave, .tile, .sense] := by
  intro d' e
  have hd' : d' = _ := Dev.trustOpDone_accepted h hverify
  obtain ⟨htrust, hstatus, hholding, hleave, hsense, hlantern, hframe⟩ := e.tokenEnd_dirty bs stOk 0 (d.signerHeld d.tile.image.signer)
  have heffect := (d.tokenReleased rest).tokenEffect_onlyIn (tokenOf bs)
  have hetrust : e.trust = (d.tokenReleased rest).trust.afterToken (tokenOf bs) := Dev.tokenEffect_trust _ _
  have heleave : e.leave = (d.tokenReleased rest).leave := heffect .leave (by decide)
  obtain ⟨hrun, hacc, hchal⟩ := (d.tokenReleased rest).trust.afterToken_counts (tokenOf bs)
  rw [Dev.tokenEnd_trust, hetrust] at htrust
  rw [← hd'] at htrust hstatus hholding hleave hsense hlantern hframe
  rw [htrust, hleave, heleave]
  refine ⟨hrun, congrArg (· + 1) hchal, hholding, rfl, hstatus, rfl, congrArg (· + 1) hacc, ?_, ?_, hlantern (by decide), hsense,
    ((d.tokenReleased_onlyIn rest).andThen heffect (es := [.trust, .lantern, .fault, .link, .leave, .tile, .sense])).thenIn hframe⟩
  · unfold Trust.afterToken
    split <;> rfl
  · unfold Trust.afterToken
    split <;> rfl

end Sys2Proof.Machine

open Sys2Proof Sys2Proof.Machine

/-- Settles O54: the transaction by the three lemmas on `Dev.token`, its end by `Dev.trustOpDone_refused_leaves` and
    `Dev.trustOpDone_accepted_leaves`, whose effect `Trust.afterToken`, `Dev.clearLantern_lantern` and `Dev.tokenUnlock_sense` name. -/
theorem tokensAreCheckedThenTakeEffect : Obligations.TokensAreCheckedThenTakeEffect := by
  constructor
  · intro s t bs c d hc
    refine ⟨fun hl ha hboot => ⟨d.token bs, (exec_token hc).trans (State.run_next (Dev.host_inHold hl ha)), ?_⟩, fun hh hboot => ⟨?_, ?_⟩⟩
    · rw [Dev.token_boot hboot]
      exact ⟨(d.tokenEnd_link bs stState 0).1, d.tokenEnd_trust bs stState 0, d.tokenEnd_unnoted bs stState (by decide)⟩
    · intro reason status hcheck
      refine ⟨d.token bs, (exec_token hc).trans (State.host_next hh rfl), ?_⟩
      obtain ⟨hleave, hreason⟩ := Trust.tokenCheck_some hcheck
      rw [Dev.token_fails hboot hcheck, Dev.tokenEnd_trust]
      refine ⟨(d.tokenEnd_link bs status reason).1, rfl, rfl, if_neg hleave, ?_, rfl, rfl, d.tokenEnd_onlyIn bs status reason⟩
      dsimp only
      by_cases h : reason = 1
      · rw [if_pos h, if_neg (by omega)]
        simp only [BitVec.ofNat_eq_ofNat, BitVec.add_zero]
      · rw [if_neg h, if_pos (by omega)]
    · exact fun hcheck hroom hbudget => (exec_token hc).trans (State.host_next hh (Dev.token_asks hboot hcheck hroom hbudget))
  · intro s t bs rest d k slot hclk hrun
    refine ⟨d.trustOpDone, exec_trustOpDone_runs hclk, ?_⟩
    cases hverify : ecdsaVerify k.pub (bs.take 0xB0) k.sig with
    | false =>
      obtain ⟨hrest, hchal, hholding, hgrants, hrefused⟩ := Dev.trustOpDone_refused_leaves hrun hverify
      exact ⟨hrest, hchal, hholding, hgrants, fun _ => hrefused, fun h => absurd h (by decide)⟩
    | true =>
      obtain ⟨hrest, hchal, hholding, hgrants, hstatus, hreason, haccepted, hslots, hclaim, hlantern, hsense, hframe⟩ :=
        Dev.trustOpDone_accepted_leaves hrun hverify
      refine ⟨hrest, hchal, hholding, hgrants, fun h => absurd h (by decide), fun _ => ⟨hstatus, hreason, haccepted, fun j hj => ?_, hframe,
        fun hkind hnew => ?_, fun hkind => ?_, fun hkind => ?_, fun hkind => ?_⟩⟩
      · rw [hslots]
        exact Trust.afterToken_others _ _ hj
      · have heffect : (d.tokenReleased rest).tokenEffect (tokenOf bs) = (d.tokenReleased rest).clearLantern (tokenOf bs).signer.toNat := by
          rw [Dev.tokenEffect, show (tokenOf bs).kind = 1 from hkind]
          rfl
        rw [hslots, hclaim, Trust.afterToken_clears _ _ (.inl hkind), hlantern, heffect]
        exact ⟨rfl, rfl, (d.tokenReleased rest).clearLantern_lantern _ hnew⟩
      · rw [hslots, hclaim]
        exact Trust.afterToken_installs _ _ hkind
      · rw [hslots, hclaim]
        exact Trust.afterToken_revokes _ _ hkind
      · rw [hslots, Trust.afterToken_clears _ _ (.inr hkind), hsense]
        exact ⟨Dev.tokenUnlock_sense (d.tokenReleased rest) _ hkind, rfl⟩

end

section
/-! SUPPORT. A retry's cold start in the LOOP_CLK cycle of a transition that it drops (R40, R138). -/

namespace Sys2Proof.Machine

open Sys2Proof

/-- The device of `justRunning` with a retry asked for, whose transmitter holds a NAK and no response. -/
def retryAsked : Dev := { justRunning with sys := { devState := .run, start := none, retryPending := true }, link := { tx := [.nak stNakCrc 0] } }

theorem retryAsked_advance : retryAsked.advance 0 = retryAsked := by
  rw [Dev.advance_idle (Dev.stirs_idle rfl rfl rfl) rfl rfl]
  rfl

/-- The retry's start begins as the frame has left, and goes from STANDBY. -/
theorem retryAsked_frameSent : retryAsked.frameSent.sys.devState = .boot ∧ retryAsked.frameSent.sys.prevState = DevState.standby.code := by
  decide +kernel

end Sys2Proof.Machine

open Sys2Proof Sys2Proof.Machine

/-- Refutes O56: the cold start of a retry that begins in the LOOP_CLK cycle in which the device has gone from STANDBY to RUN drops that
    transition and goes from the state of the cycle's start (R40), so that SYS.RESET.PREV_STATE is STANDBY, where the last clause on
    RESPONSE_SENT asks for the state that stands, RUN. Only boot hold takes a RETRY, so that a run of the device does not meet such a state; the
    clause is about every state. -/
theorem not_framesAreTakenOnceInOrder : ¬Obligations.FramesAreTakenOnceInOrder := by
  rintro ⟨hline, -⟩
  have hsent := hline { dev := retryAsked } 0 0 [] [] 0
  dsimp only at hsent
  rw [retryAsked_advance] at hsent
  obtain ⟨-, -, -, -, -, -, -, -, -, -, -, -, -, -, -, -, hframe, -⟩ := hsent
  obtain ⟨-, -, -, hretry⟩ := hframe (.nak stNakCrc 0) [] (by decide +kernel) rfl
  obtain ⟨d', hexec, hboot⟩ := hretry rfl rfl (by simp)
  obtain ⟨hstate, hprev⟩ := retryAsked_frameSent
  obtain ⟨-, -, -, hasked⟩ := hboot.report
  have hstart : exec (.responseSent 0) { dev := retryAsked } = .next (State.after { dev := retryAsked } 0 retryAsked.frameSent) :=
    exec_responseSent.trans (State.run_next (by rw [retryAsked_advance]))
  have hdev := State.finish_of_after (Host.Outcome.next.inj (hexec.symm.trans hstart))
  have hsys : d'.sys = retryAsked.frameSent.sys := by
    rw [← Dev.finish_boot _ hboot.state.1, hdev, Dev.finish_boot _ hstate]
  rw [hsys, hprev] at hasked
  exact absurd hasked (by decide)

end

section
/-! SUPPORT. Causes, forces and acknowledgements of fault sources, and which reaction wins (R400 to R412). -/

namespace Sys2Proof.Machine

open Sys2Proof

/-! ## What a record leaves of the fault manager (R416) -/

/-- Of the fault manager `d'` differs from `d` in the alert latch alone. -/
def Dev.AlertsAlone (d d' : Dev) : Prop := d'.fault = { d.fault with pend := d'.fault.pend, alertSeq := d'.fault.alertSeq }

theorem Dev.AlertsAlone.refl (d : Dev) : d.AlertsAlone d := rfl

theorem Dev.AlertsAlone.trans {a b c : Dev} (h : a.AlertsAlone b) (k : b.AlertsAlone c) : a.AlertsAlone c := by
  unfold Dev.AlertsAlone at *
  rw [k, h]

theorem Dev.alertsAlone_of_fault {d d' : Dev} (h : d'.fault = d.fault) : d.AlertsAlone d' := by
  unfold Dev.AlertsAlone
  rw [h]

theorem Dev.alert_alertsAlone (d : Dev) (seq : Nat) (on : Bool) : d.AlertsAlone (d.alert seq on) := by
  unfold Dev.alert
  split <;> rfl

theorem Dev.journal_alertsAlone (d : Dev) (i : RecIn) : d.AlertsAlone (d.journal i).1 := by
  unfold Dev.journal
  dsimp only
  split
  · rfl
  · split
    · rfl
    · split
      · rfl
      · exact Dev.AlertsAlone.trans (Dev.alertsAlone_of_fault rfl) (Dev.alert_alertsAlone _ _ _)

theorem Dev.realert_alertsAlone (d : Dev) (k : Nat) : d.AlertsAlone (d.realert k) := by
  unfold Dev.realert
  split <;> rfl

theorem Dev.placed_alertsAlone (d x : Dev) : x.AlertsAlone (d.placed x) := by
  unfold Dev.placed
  extract_lets k
  split
  · rfl
  · dsimp only
    split
    · exact Dev.AlertsAlone.trans (Dev.alertsAlone_of_fault rfl) (Dev.realert_alertsAlone _ _)
    · rfl

theorem Dev.note_alertsAlone (d : Dev) (code : Nat) (level : Fin 5) (source : Nat) (data : List Byte) :
    d.AlertsAlone (d.note code level source data) := (Dev.journal_alertsAlone d _).trans (Dev.placed_alertsAlone d _)

/-! ## Causes (R400, R402) -/

/-- The cause of a phase of a source is present, whether it is real or forced, without the events of the cycle. -/
def Dev.held (d : Dev) (k : SrcIx) (i : PhaseIx) : Bool :=
  d.fault.src[k].cause.getLsbD i.val || (d.fault.src[k].force && (!srcPerPhase k || d.fault.src[k].forcedInst == i))

/-- The fault that a rise of a cause is. -/
def Dev.faultOf (d : Dev) (k : SrcIx) (i : PhaseIx) : Seen :=
  { src := k, inst := i, tick := d.clk.now, forced := false, detail := [], tbu := d.clk.tbUncertain }

/-- The faults that stand when a cause ends: not one that is only to come (R128). -/
def Dev.pastSeen (d : Dev) (k : SrcIx) (i : PhaseIx) (xs : List Seen) : List Seen :=
  xs.filter fun x => !(x.src == k && x.inst == i && decide (d.clk.now < x.tick))

theorem Dev.setCause_rises {d : Dev} {k : SrcIx} (i : PhaseIx) (h : d.srcLives k = true) : (d.setCause k i true).fault.seen =
    if d.held k i = false ∧ d.faultNow k i = false then d.fault.seen ++ [d.faultOf k i] else d.fault.seen := by
  unfold Dev.setCause
  simp only [h, Bool.and_true, Bool.true_and, Bool.not_true, Bool.false_and, Bool.not_false, List.filter_true]
  refine if_congr ?_ rfl rfl
  simp only [Dev.held, Bool.and_eq_true, Bool.not_eq_true', Bool.or_eq_false_iff]

theorem Dev.setCause_ends (d : Dev) (k : SrcIx) (i : PhaseIx) : (d.setCause k i false).fault.seen = d.pastSeen k i d.fault.seen := by
  unfold Dev.setCause Dev.pastSeen
  simp only [Bool.false_and, Bool.not_false, Bool.true_and, Bool.false_eq_true, if_false]

theorem Dev.pastSeen_append (d : Dev) (k : SrcIx) (i : PhaseIx) (xs : List Seen) :
    d.pastSeen k i (xs ++ [d.faultOf k i]) = d.pastSeen k i xs ++ [d.faultOf k i] := by
  simp [Dev.pastSeen, Dev.faultOf]

theorem setBit_setBit {w : Nat} (x : BitVec w) (i : Fin w) (a b : Bool) : setBit (setBit x i.val a) i.val b = setBit x i.val b := by
  refine BitVec.eq_of_getLsbD_eq fun j hj => ?_
  have hbit := fun (y : BitVec w) (b : Bool) => setBit_getLsbD y i ⟨j, hj⟩ b
  dsimp only at hbit
  rw [hbit, hbit, hbit]
  split <;> rfl

/-- A source that is no event: its cause follows what is said of it, and a rise is a fault. -/
theorem Dev.faultRaise_level {d : Dev} {k : SrcIx} (inst : PhaseIx) (on : Bool) (hb : d.sys.devState ≠ .boot) (hd : srcDefined k = true)
    (hl : d.srcLives k = true) (he : srcEvent k = false) : d.faultRaise k inst on = d.setCause k (if srcPerPhase k then inst else 0) on := by
  simp [Dev.faultRaise, hb, hd, hl, he]

theorem Dev.faultRaise_event {d : Dev} {k : SrcIx} (inst : PhaseIx) (hb : d.sys.devState ≠ .boot) (hd : srcDefined k = true)
    (hl : d.srcLives k = true) (he : srcEvent k = true) : d.faultRaise k inst true = d.raiseEvent k (if srcPerPhase k then inst else 0) := by
  simp [Dev.faultRaise, hb, hd, hl, he]

theorem Dev.raiseEvent_fault (d : Dev) (k : SrcIx) (i : PhaseIx) : (d.raiseEvent k i).fault = ((d.setCause k i true).setCause k i false).fault := by
  unfold Dev.raiseEvent
  dsimp only
  split <;> rfl

/-- An event's cause is present in its cycle alone. -/
theorem Dev.raiseEvent_src (d : Dev) (k k' : SrcIx) (i : PhaseIx) : (d.raiseEvent k i).fault.src[k'.val] =
    if k' = k then { d.fault.src[k.val] with cause := setBit d.fault.src[k.val].cause i.val false } else d.fault.src[k'.val] := by
  rw [Dev.raiseEvent_fault, Dev.setCause_src]
  split
  · rw [Dev.setCause_src, if_pos rfl, Bool.false_and]
    dsimp only
    rw [setBit_setBit]
  · next h => rw [Dev.setCause_src, if_neg h]

theorem Dev.raiseEvent_seen {d : Dev} {k : SrcIx} (i : PhaseIx) (h : d.srcLives k = true) : (d.raiseEvent k i).fault.seen =
    if d.held k i = false ∧ d.faultNow k i = false then d.pastSeen k i d.fault.seen ++ [d.faultOf k i] else d.pastSeen k i d.fault.seen := by
  rw [Dev.raiseEvent_fault, Dev.setCause_ends, Dev.setCause_rises i h]
  split
  · exact d.pastSeen_append k i _
  · rfl

theorem Dev.raiseEvent_causeOf {d : Dev} {k : SrcIx} (i : PhaseIx) (h : d.srcLives k = true) (hc : d.cyc.no = d.cycle) : (d.raiseEvent k i).causeOf k i = true := by
  have hnow : (d.raiseEvent k i).eventNow k i = true := by
    unfold Dev.raiseEvent
    dsimp only
    rw [if_pos (show ((d.setCause k i true).setCause k i false).srcLives k = true from h)]
    have hno : (d.cyc.no == d.cycle) = true := beq_iff_eq.mpr hc
    have hraised : ((k, i) :: d.cyc.raised).contains (k, i) = true := by simp
    exact Bool.and_eq_true_iff.mpr ⟨hno, hraised⟩
  rw [Dev.causeOf, hnow, Bool.or_true, Bool.true_or]

/-- What FAULT_RAISE comes to for a source that lives. -/
theorem Dev.faultRaise_leaves {d : Dev} {k : SrcIx} {inst : PhaseIx} {on : Bool} (hb : d.sys.devState ≠ .boot) (hd : srcDefined k = true)
    (hl : d.srcLives k = true) (hon : srcEvent k = false ∨ on = true) : let d' := d.faultRaise k inst on
    let i := if srcPerPhase k then inst else 0
    let kept := if on = true ∧ srcEvent k = false then d.fault.seen else d.pastSeen k i d.fault.seen
    (∀ k' : SrcIx, d'.fault.src[k'.val] = if k' = k then { d.fault.src[k.val] with cause := setBit d.fault.src[k.val].cause i.val (on && !srcEvent k) } else d.fault.src[k'.val]) ∧
      (srcEvent k = true → d.cyc.no = d.cycle → d'.causeOf k i = true) ∧
      d'.fault.seen = (if on = true ∧ d.held k i = false ∧ d.faultNow k i = false then kept ++ [d.faultOf k i] else kept) ∧
      d'.fault.events = d.fault.events ∧ d.onlyIn d' [.fault] := by
  intro d' i kept
  cases he : srcEvent k with
  | false =>
    have hd' : d' = d.setCause k i on := Dev.faultRaise_level inst on hb hd hl he
    have hkept : kept = if on = true then d.fault.seen else d.pastSeen k i d.fault.seen := by simp [kept, he]
    rw [hd', hkept]
    refine ⟨fun k' => ?_, fun h => absurd h (by decide), ?_, rfl, d.setCause_onlyIn k i on []⟩
    · rw [Dev.setCause_src, hl, Bool.and_true, Bool.not_false, Bool.and_true]
    · cases on with
      | false => simp [Dev.setCause_ends]
      | true => simp [Dev.setCause_rises i hl]
  | true =>
    obtain rfl : on = true := hon.resolve_left (by rw [he]; decide)
    have hd' : d' = d.raiseEvent k i := Dev.faultRaise_event inst hb hd hl he
    have hkept : kept = d.pastSeen k i d.fault.seen := by simp [kept, he]
    rw [hd', hkept]
    refine ⟨fun k' => d.raiseEvent_src k k' i, fun _ => Dev.raiseEvent_causeOf i hl, ?_, ?_, d.raiseEvent_onlyIn k i []⟩
    · simp [Dev.raiseEvent_seen i hl]
    · rw [Dev.raiseEvent_fault]
      rfl

/-! ## Forces (R405, R419) -/

/-- The phase on which a force of the source acts, and the fault that its rise is. -/
def Dev.forcedFault (d : Dev) (k : SrcIx) : Seen :=
  let i := d.fault.finst k
  { src := k, inst := i, tick := d.clk.now, forced := true, detail := if k = srcInterlock then d.pwm[i].ilkDetail else [], tbu := d.clk.tbUncertain }

/-- The force bit of a source rises with a fault. -/
def Dev.forceRises (d : Dev) (on : Bool) (k : SrcIx) : Bool :=
  srcDefined k && !d.fault.src[k].force && on && !d.causeOf k (d.fault.finst k) && !d.faultNow k (d.fault.finst k)

/-- `e` is `d` after the force bits of the sources `ks` have taken the values `on`. -/
structure Dev.Forced (d e : Dev) (ks : List SrcIx) (on : SrcIx → Bool) : Prop where
  force : ∀ k : SrcIx, e.fault.src[k.val].force = if k ∈ ks ∧ srcDefined k = true then on k else d.fault.src[k.val].force
  cause : ∀ k : SrcIx, e.fault.src[k.val].cause = d.fault.src[k.val].cause ∧ e.fault.src[k.val].status = d.fault.src[k.val].status
  others : ∀ k : SrcIx, k ∉ ks → e.fault.src[k.val] = d.fault.src[k.val]
  seen : e.fault.seen = d.fault.seen ++ (ks.filter fun k => d.forceRises (on k) k).map d.forcedFault
  rest : e = { d with fault := { d.fault with src := e.fault.src, seen := e.fault.seen } }

theorem Dev.forced_nil (d : Dev) (on : SrcIx → Bool) : d.Forced d [] on where
  force k := by simp
  cause k := ⟨rfl, rfl⟩
  others k _ := rfl
  seen := by simp
  rest := rfl

/-- One source's force bit depends on nothing that the force bits of others change. -/
theorem Dev.Forced.forceRises_eq {d e : Dev} {ks : List SrcIx} {on : SrcIx → Bool} (h : d.Forced e ks on) {k : SrcIx} (hk : k ∉ ks) (b : Bool) :
    e.forceRises b k = d.forceRises b k := by
  have hrest := h.rest
  have hsrc := h.others k hk
  have hfinst : e.fault.finst k = d.fault.finst k := by rw [hrest]; rfl
  have hcause : e.causeOf k (d.fault.finst k) = d.causeOf k (d.fault.finst k) := by
    have hnow : e.eventNow k (d.fault.finst k) = d.eventNow k (d.fault.finst k) := by rw [hrest]; rfl
    simp only [Dev.causeOf, hnow, Fin.getElem_fin, hsrc]
  have hnew : (((ks.filter fun k => d.forceRises (on k) k).map d.forcedFault).any fun x =>
      x.src == k && x.inst == d.fault.finst k && decide (x.tick ≤ d.clk.now) && d.clk.cycleAt x.tick == d.cycle) = false := by
    rw [List.any_eq_false]
    intro x hx
    obtain ⟨j, hj, rfl⟩ := List.mem_map.mp hx
    have hne : j ≠ k := fun hjk => hk (hjk ▸ List.mem_of_mem_filter hj)
    simp [Dev.forcedFault, hne]
  have hfault : e.faultNow k (d.fault.finst k) = d.faultNow k (d.fault.finst k) := by
    have hdue : e.fault.due = d.fault.due := by rw [hrest]
    have hclk : e.clk = d.clk := by rw [hrest]
    unfold Dev.faultNow Dev.cycle
    rw [hdue, hclk, h.seen, ← List.append_assoc, List.any_append]
    exact (congrArg _ hnew).trans (Bool.or_false _)
  simp only [Dev.forceRises, hfinst, hcause, hfault, Fin.getElem_fin, hsrc]

theorem Dev.forceBit_same {d : Dev} {k : SrcIx} {on : Bool} (h : srcDefined k = true → d.fault.src[k.val].force = on) : d.forceBit k on = d := by
  refine if_pos ?_
  cases hd : srcDefined k with
  | false => rfl
  | true => simp [h hd]

theorem Dev.forceBit_changes {d : Dev} {k : SrcIx} {on : Bool} (hd : srcDefined k = true) (h : d.fault.src[k.val].force = !on) : d.forceBit k on =
    { d with fault := { d.fault with
      src := upd d.fault.src k fun f => { f with force := on, forcedInst := if on then d.fault.finst k else f.forcedInst }
      seen := if d.forceRises on k then d.fault.seen ++ [d.forcedFault k] else d.fault.seen } } := by
  have hrises : d.forceRises on k = (on && !d.causeOf k (d.fault.finst k) && !d.faultNow k (d.fault.finst k)) := by
    cases on <;> simp [Dev.forceRises, hd, h]
  unfold Dev.forceBit
  rw [if_neg (by cases on <;> simp [hd, h]), hrises]
  by_cases hr : (on && !d.causeOf k (d.fault.finst k) && !d.faultNow k (d.fault.finst k)) = true
  · rw [if_pos hr]
    exact if_pos hr
  · rw [if_neg hr]
    exact if_neg hr

/-- A force bit that takes its value: what it changes, and when it is a fault. -/
theorem Dev.forceBit_forced (d : Dev) (k : SrcIx) (on : SrcIx → Bool) : d.Forced (d.forceBit k (on k)) [k] on := by
  by_cases h : srcDefined k = true → d.fault.src[k.val].force = on k
  · rw [Dev.forceBit_same h]
    have hrises : d.forceRises (on k) k = false := by
      cases hd : srcDefined k with
      | false => simp [Dev.forceRises, hd]
      | true => simp [Dev.forceRises, hd, h hd]
    refine ⟨fun j => ?_, fun j => ⟨rfl, rfl⟩, fun j _ => rfl, ?_, rfl⟩
    · split
      · next hj =>
        obtain rfl := List.mem_singleton.mp hj.1
        exact h hj.2
      · rfl
    · simp [hrises]
  · obtain ⟨hd, hforce⟩ := Classical.not_imp.mp h
    rw [Dev.forceBit_changes hd (Bool.eq_not.mpr hforce)]
    refine ⟨fun j => ?_, fun j => ?_, fun j hj => ?_, ?_, rfl⟩
    · by_cases hj : j = k
      · subst hj
        simp [hd]
      · simp [hj]
    · by_cases hj : j = k
      · subst hj
        simp
      · simp [hj]
    · exact upd_get_ne _ _ _ _ fun h => hj (by simp [h])
    · dsimp only
      cases hr : d.forceRises (on k) k <;> simp [hr]

theorem Dev.Forced.append {d e x : Dev} {ks : List SrcIx} {k : SrcIx} {on : SrcIx → Bool} (h : d.Forced e ks on) (hk : k ∉ ks) (hx : e.Forced x [k] on) :
    d.Forced x (ks ++ [k]) on where
  force j := by
    rw [hx.force]
    by_cases hj : j = k
    · subst hj
      simp [h.others j hk]
    · simp [hj, h.force]
  cause j := ⟨(hx.cause j).1.trans (h.cause j).1, (hx.cause j).2.trans (h.cause j).2⟩
  others j hj := by
    simp only [List.mem_append, not_or] at hj
    exact (hx.others j hj.2).trans (h.others j hj.1)
  seen := by
    have hfault : e.forcedFault k = d.forcedFault k := by rw [h.rest]; rfl
    rw [hx.seen, h.seen, List.filter_append, List.map_append, List.append_assoc]
    congr 2
    rw [List.filter_cons, List.filter_cons, h.forceRises_eq hk]
    split <;> simp [hfault]
  rest := by
    rw [hx.rest, h.rest]

/-- The force bits of different sources, written one after the other. -/
theorem Dev.Forced.foldl {d : Dev} {on : SrcIx → Bool} : ∀ (js ks : List SrcIx) (e : Dev), d.Forced e ks on → (ks ++ js).Nodup →
    d.Forced (js.foldl (fun e k => e.forceBit k (on k)) e) (ks ++ js) on
  | [], ks, e, h, _ => by
    rw [List.append_nil]
    exact h
  | k :: js, ks, e, h, hn => by
    have hk : k ∉ ks := fun hk => by
      rw [List.nodup_append] at hn
      exact hn.2.2 k hk k List.mem_cons_self rfl
    have hstep := Dev.Forced.foldl js (ks ++ [k]) (e.forceBit k (on k)) (h.append hk (e.forceBit_forced k on))
    rw [List.append_assoc, List.singleton_append] at hstep
    exact hstep hn

/-- The sources of FAULT.FORCE[i], and the bit of each in a written word. -/
def forceSources (i : Fin 8) : List SrcIx := (List.finRange 32).map fun j => Fin.ofNat 256 (32 * i.val + j.val)
def forceOf (v : Word) (k : SrcIx) : Bool := v.getLsbD (k.val % 32)

theorem forceSources_val (i : Fin 8) (j : Fin 32) : (Fin.ofNat 256 (32 * i.val + j.val)).val = 32 * i.val + j.val := by
  rw [Fin.val_ofNat]
  omega

theorem forceSources_nodup (i : Fin 8) : (forceSources i).Nodup := by
  refine List.Nodup.map (fun a b hab => ?_) (List.nodup_finRange 32)
  have hval := congrArg Fin.val hab
  rw [forceSources_val, forceSources_val] at hval
  omega

theorem mem_forceSources (i : Fin 8) (k : SrcIx) : k ∈ forceSources i ↔ k.val / 32 = i.val := by
  simp only [forceSources, List.mem_map, List.mem_finRange, true_and]
  constructor
  · rintro ⟨j, rfl⟩
    rw [forceSources_val]
    omega
  · intro h
    refine ⟨⟨k.val % 32, by omega⟩, Fin.ext ?_⟩
    rw [forceSources_val]
    dsimp only
    omega

theorem Dev.writeForce_forced (d : Dev) (i : Fin 8) (v : Word) : d.Forced (d.writeForce i v).1 (forceSources i) (forceOf v) := by
  have hbit : ∀ j : Fin 32, forceOf v (Fin.ofNat 256 (32 * i.val + j.val)) = v.getLsbD j.val := fun j => by
    rw [forceOf, forceSources_val, show (32 * i.val + j.val) % 32 = j.val by omega]
  have hfold : (d.writeForce i v).1 = (forceSources i).foldl (fun e k => e.forceBit k (forceOf v k)) d := by
    unfold Dev.writeForce forceSources
    rw [List.foldl_map]
    simp only [hbit]
  rw [hfold]
  exact Dev.Forced.foldl (forceSources i) [] d (d.forced_nil _) (forceSources_nodup i)

/-! ## Acknowledgement (R412) -/

/-- An acknowledged class has no entry left on its rail. -/
theorem Dev.ackEntry_leaves (d : Dev) (r : RailIx) (c : BitVec 5) : let d' := d.ackEntry r c
    d'.fault.entries[r.val] = d.fault.entries[r.val].filter (fun e => e.1 != c) ∧ (∀ k : RailIx, k ≠ r → d'.fault.entries[k.val] = d.fault.entries[k.val]) ∧
      d'.fault.src = d.fault.src ∧ d.onlyIn d' [.fault, .lantern] := by
  unfold Dev.ackEntry
  split
  · next h =>
    refine ⟨(List.filter_eq_self.mpr fun e he => ?_).symm, fun k _ => rfl, rfl, d.onlyIn_refl _⟩
    have hne := List.find?_eq_none.mp (Option.map_eq_none_iff.mp h) e he
    simpa using hne
  · next e h =>
    dsimp only
    have hfault := Dev.note_alertsAlone { d with fault := { d.fault with entries := upd d.fault.entries r fun es => es.filter fun x => x.1 != c } }
      0x0050 0 r.val ([c.setWidth 8] ++ leBytes 6 e.seq ++ leBytes 2 e.merges.toNat ++ [e.escalations])
    rw [Dev.AlertsAlone] at hfault
    rw [hfault]
    exact ⟨upd_get_same _ _ _, fun k hk => upd_get_ne _ _ _ _ hk, rfl, (d.onlyIn_fault _).andThen (Dev.note_onlyIn _ _ _ _ _)⟩

/-- The acknowledgement of the classes below `n` that a word names. -/
def Dev.ackBits (d : Dev) (r : RailIx) (v : Word) (n : Nat) : Dev :=
  (List.range n).foldl (fun d c => if v.getLsbD c then d.ackEntry r (BitVec.ofNat 5 c) else d) d

theorem Dev.ackBits_succ (d : Dev) (r : RailIx) (v : Word) (n : Nat) :
    d.ackBits r v (n + 1) = if v.getLsbD n then (d.ackBits r v n).ackEntry r (BitVec.ofNat 5 n) else d.ackBits r v n := by
  rw [Dev.ackBits, List.range_succ, List.foldl_append]
  rfl

theorem Dev.ackBits_leaves (d : Dev) (r : RailIx) (v : Word) : ∀ n : Nat, n ≤ 32 → let d' := d.ackBits r v n
    d'.fault.entries[r.val] = d.fault.entries[r.val].filter (fun e => !(decide (e.1.toNat < n) && v.getLsbD e.1.toNat)) ∧
      (∀ k : RailIx, k ≠ r → d'.fault.entries[k.val] = d.fault.entries[k.val]) ∧ d'.fault.src = d.fault.src ∧ d.onlyIn d' [.fault, .lantern]
  | 0, _ => ⟨by simp [Dev.ackBits], fun _ _ => rfl, rfl, d.onlyIn_refl _⟩
  | n + 1, hn => by
    obtain ⟨hentries, hothers, hsrc, hframe⟩ := d.ackBits_leaves r v n (by omega)
    rw [Dev.ackBits_succ]
    have hclass : ∀ c : BitVec 5, (c != BitVec.ofNat 5 n) = !decide (c.toNat = n) := fun c => by
      have hc : c = BitVec.ofNat 5 n ↔ c.toNat = n := ⟨fun h => by rw [h, BitVec.toNat_ofNat]; omega, fun h => by rw [← h, BitVec.ofNat_toNat, BitVec.setWidth_eq]⟩
      simp [bne, Bool.beq_eq_decide_eq, hc]
    split
    · next hbit =>
      obtain ⟨hentries', hothers', hsrc', hframe'⟩ := (d.ackBits r v n).ackEntry_leaves r (BitVec.ofNat 5 n)
      refine ⟨?_, fun k hk => (hothers' k hk).trans (hothers k hk), hsrc'.trans hsrc, hframe.thenIn hframe'⟩
      rw [hentries', hentries, List.filter_filter]
      refine List.filter_congr fun e _ => ?_
      rw [hclass]
      by_cases he : e.1.toNat = n
      · simp [he, hbit]
      · have hlt : e.1.toNat < n + 1 ↔ e.1.toNat < n := by omega
        simp [he, hlt]
    · next hbit =>
      refine ⟨?_, hothers, hsrc, hframe⟩
      rw [hentries]
      refine List.filter_congr fun e _ => ?_
      by_cases he : e.1.toNat = n
      · simp [he, hbit]
      · have hlt : e.1.toNat < n + 1 ↔ e.1.toNat < n := by omega
        simp [hlt]

theorem Dev.ackMask_leaves (d : Dev) (r : RailIx) (v : Word) : let d' := d.ackMask r v
    d'.fault.entries[r.val] = d.fault.entries[r.val].filter (fun e => !v.getLsbD e.1.toNat) ∧
      (∀ k : RailIx, k ≠ r → d'.fault.entries[k.val] = d.fault.entries[k.val]) ∧ d'.fault.src = d.fault.src ∧ d.onlyIn d' [.fault, .lantern] := by
  obtain ⟨hentries, hrest⟩ := d.ackBits_leaves r v 32 (le_refl _)
  refine ⟨hentries.trans (List.filter_congr fun e _ => ?_), hrest⟩
  simp [e.1.isLt]

/-! ## A fault that is seen, and the cycle of its reaction (R400, R409) -/

theorem Dev.markFault_leaves (d : Dev) (k : SrcIx) : let d' := d.markFault k
    d'.fault = { d.fault with src := upd d.fault.src k fun f => { f with status := true, faults := f.faults + 1 }, events := d'.fault.events } ∧
      d'.fault.events.map (·.1) = d.fault.events.map (·.1) ++ (if d.fault.src[k.val].status = true then [] else [BitVec.ofNat 16 (0x600 + k.val)]) ∧
      d.onlyIn d' [.fault] := by
  unfold Dev.markFault
  split
  · next h => exact ⟨rfl, by rw [if_pos (show d.fault.src[k.val].status = true from h), List.append_nil]; rfl, fun b hb => by cases b <;> first | rfl | (simp at hb)⟩
  · next h => exact ⟨rfl, by rw [if_neg (show ¬d.fault.src[k.val].status = true from h)]; exact List.map_append, fun b hb => by cases b <;> first | rfl | (simp at hb)⟩

/-- The one fault that stands is seen, and its reaction is due. -/
theorem Dev.takeSeen_one {d : Dev} {x : Seen} (hb : d.sys.devState ≠ .boot) (hs : d.fault.seen = [x]) (ht : x.tick < d.nextCycle) :
    d.takeSeen = ({ d with fault := { d.fault with seen := [], due := d.fault.due ++ [x] } } : Dev).markFault x.src := by
  have hseen : d.seenBy x = true := decide_eq_true ht
  rw [Dev.takeSeen, if_neg hb, hs]
  simp [hseen, sortBy, insertBy]

theorem Dev.nextCycle_gt (d : Dev) : d.clk.now < d.nextCycle := by
  unfold Dev.nextCycle
  dsimp only
  split_ifs <;> exact Nat.lt_add_of_pos_right (by decide)

/-- On the PLL's clock time comes to the next cycle itself. -/
theorem Dev.clockTo_nextCycle {d : Dev} (h : d.clk.backupFrom = none) : (d.clockTo d.nextCycle).cycle = d.clk.cycleAt d.nextCycle := by
  have hreach : d.clk.reach d.nextCycle = d.nextCycle := by
    unfold Clk.reach
    rw [h]
    exact max_eq_right d.nextCycle_gt.le
  unfold Dev.cycle
  rw [Dev.clockTo_clk, hreach]
  rfl

/-- A reaction that is due starts in the next LOOP_CLK cycle (R409). -/
theorem Dev.advance_reacts {d : Dev} {t : Tick} (hdue : d.fault.due ≠ []) (hended : d.loop.ended = []) (hclk : d.clk.backupFrom = none)
    (ht : d.nextCycle ≤ t) (hcycle : d.clk.cycleAt d.nextCycle ≠ d.cycle) : let n := d.clockTo d.nextCycle
    d.advance t = (((Dev.finish n n.reactDue).turns t 7).passTo t).endRdyLow := by
  intro n
  have hstirs : d.stirs = true := by
    have hne : d.fault.due.isEmpty = false := by simpa using hdue
    simp [Dev.stirs, hne]
  have hpass : d.passTo (min t d.nextCycle) = n := by
    rw [Nat.min_eq_right ht, Dev.passTo, hended]
    rfl
  have hn : n.cycle ≠ d.cycle := by
    rw [Dev.clockTo_nextCycle hclk]
    exact hcycle
  have hturns : d.turns t 8 = (Dev.finish n n.reactDue).turns t 7 := by
    rw [Dev.turns, if_neg (by rw [hstirs]; decide)]
    dsimp only
    rw [hpass, if_neg hn, if_neg hn]
  rw [Dev.advance, hturns]

/-! ## Which reaction wins (R407) -/

/-- The best reaction so far, after one more entry. -/
def betterOf (k : SrcIx) (cls : Nat) (b : Option (Nat × Reaction)) (p : Reaction × Nat) : Option (Nat × Reaction) :=
  if p.1.hits k cls then
    match b with
    | some (_, y) => if y.action < p.1.action then some (p.2, p.1) else b
    | none => some (p.2, p.1)
  else b

/-- Of the entries `xs` the best one is `b`, by its index: it hits, none that hits acts more, and it is the first of its action. -/
def IsBest (xs : List Reaction) (k : SrcIx) (cls : Nat) (b : Option (Nat × Reaction)) : Prop :=
  (∀ (i : Nat) (y : Reaction), b = some (i, y) → xs[i]? = some y ∧ y.hits k cls = true ∧
    ∀ (j : Nat) (z : Reaction), xs[j]? = some z → z.hits k cls = true → z.action ≤ y.action ∧ (z.action = y.action → i ≤ j)) ∧
  (b = none ↔ ∀ z ∈ xs, z.hits k cls = false)

theorem isBest_nil (k : SrcIx) (cls : Nat) : IsBest [] k cls none := ⟨fun _ _ h => by simp at h, by simp⟩

/-- An entry that does not hit, or does not act more, leaves the best one. -/
theorem IsBest.keep {xs : List Reaction} {k : SrcIx} {cls : Nat} {b : Option (Nat × Reaction)} {x : Reaction} (h : IsBest xs k cls b)
    (hx : x.hits k cls = true → ∃ i y, b = some (i, y) ∧ x.action ≤ y.action) : IsBest (xs ++ [x]) k cls b := by
  obtain ⟨hbest, hnone⟩ := h
  refine ⟨fun i y hb => ?_, ?_⟩
  · obtain ⟨hi, hhit, hmax⟩ := hbest i y hb
    have hlt : i < xs.length := (List.getElem?_eq_some_iff.mp hi).1
    refine ⟨by rw [List.getElem?_append_left hlt, hi], hhit, fun j z hz hzhit => ?_⟩
    by_cases hj : j < xs.length
    · rw [List.getElem?_append_left hj] at hz
      exact hmax j z hz hzhit
    · obtain rfl : z = x := by
        rw [List.getElem?_append_right (by omega)] at hz
        exact (List.mem_singleton.mp (List.mem_of_getElem? hz))
      obtain ⟨i', y', hb', hle⟩ := hx hzhit
      obtain ⟨rfl, rfl⟩ : i = i' ∧ y = y' := by simpa [hb] using hb'
      exact ⟨hle, fun _ => by omega⟩
  · rw [hnone]
    constructor
    · intro hall z hz
      rcases List.mem_append.mp hz with hz | hz
      · exact hall z hz
      · obtain rfl := List.mem_singleton.mp hz
        cases hhit : z.hits k cls with
        | false => rfl
        | true =>
          obtain ⟨i, y, hb, -⟩ := hx hhit
          rw [hnone.mpr hall] at hb
          simp at hb
    · exact fun hall z hz => hall z (List.mem_append_left _ hz)

/-- An entry that hits and acts more than every one before it is the best one. -/
theorem IsBest.take {xs : List Reaction} {k : SrcIx} {cls : Nat} {b : Option (Nat × Reaction)} {x : Reaction} (h : IsBest xs k cls b)
    (hx : x.hits k cls = true) (hlt : ∀ i y, b = some (i, y) → y.action < x.action) : IsBest (xs ++ [x]) k cls (some (xs.length, x)) := by
  obtain ⟨hbest, hnone⟩ := h
  refine ⟨fun i y hb => ?_, ?_⟩
  · obtain ⟨rfl, rfl⟩ : xs.length = i ∧ x = y := by simpa using hb
    refine ⟨by simp, hx, fun j z hz hzhit => ?_⟩
    by_cases hj : j < xs.length
    · rw [List.getElem?_append_left hj] at hz
      have hbelow : z.action < x.action := by
        cases hb' : b with
        | none => exact absurd hzhit (by rw [hnone.mp hb' z (List.mem_of_getElem? hz)]; decide)
        | some p => exact lt_of_le_of_lt ((hbest p.1 p.2 hb').2.2 j z hz hzhit).1 (hlt p.1 p.2 hb')
      exact ⟨le_of_lt hbelow, fun heq => absurd heq (ne_of_lt hbelow)⟩
    · obtain rfl : z = x := by
        rw [List.getElem?_append_right (by omega)] at hz
        exact (List.mem_singleton.mp (List.mem_of_getElem? hz))
      exact ⟨le_refl _, fun _ => by omega⟩
  · simp [hx]

theorem IsBest.step {xs : List Reaction} {k : SrcIx} {cls : Nat} {b : Option (Nat × Reaction)} (h : IsBest xs k cls b) (x : Reaction) :
    IsBest (xs ++ [x]) k cls (betterOf k cls b (x, xs.length)) := by
  unfold betterOf
  dsimp only
  split
  · next hhit =>
    split
    · next i y =>
      split
      · next hlt =>
        refine h.take hhit fun i' y' hb => ?_
        obtain ⟨-, rfl⟩ : i = i' ∧ y = y' := by simpa using hb
        exact hlt
      · next hge => exact h.keep fun _ => ⟨i, y, rfl, not_lt.mp hge⟩
    · exact h.take hhit fun i y hb => by simp at hb
  · next hmiss => exact h.keep fun hhit => absurd hhit hmiss

theorem isBest_foldl (k : SrcIx) (cls : Nat) : ∀ (ys xs : List Reaction) (b : Option (Nat × Reaction)), IsBest xs k cls b →
    IsBest (xs ++ ys) k cls ((ys.zipIdx xs.length).foldl (betterOf k cls) b)
  | [], xs, b, h => by
    rw [List.append_nil]
    exact h
  | y :: ys, xs, b, h => by
    have hstep := isBest_foldl k cls ys (xs ++ [y]) _ (h.step y)
    rw [List.append_assoc, List.singleton_append, List.length_append] at hstep
    exact hstep

/-- Of the reactions that hit, the one with the highest action wins, and of those the first (R407). -/
theorem bestReaction_wins (xs : List Reaction) (k : SrcIx) (cls : Nat) : WinsReaction xs k cls :=
  isBest_foldl k cls xs [] none (isBest_nil k cls)

end Sys2Proof.Machine
end

section
/-! SUPPORT. What a rail action leaves of the open entries, of the modes and of the device state (R408, R410). -/

namespace Sys2Proof.Machine

open Sys2Proof

/-! ## The open entries and the counts of reactions -/

/-- The open entries stand, and no merge and no reaction is counted. -/
def Dev.KeepsOpen (d d' : Dev) : Prop :=
  d'.fault.entries = d.fault.entries ∧ d'.fault.merges = d.fault.merges ∧ d'.fault.reactions = d.fault.reactions

theorem Dev.KeepsOpen.refl (d : Dev) : d.KeepsOpen d := ⟨rfl, rfl, rfl⟩

theorem Dev.KeepsOpen.trans {a b c : Dev} (h : a.KeepsOpen b) (k : b.KeepsOpen c) : a.KeepsOpen c :=
  ⟨k.1.trans h.1, k.2.1.trans h.2.1, k.2.2.trans h.2.2⟩

theorem Dev.keepsOpen_of_onlyIn {d d' : Dev} {bs : List Block} (h : d.onlyIn d' bs) (hb : Block.fault ∉ bs := by decide) : d.KeepsOpen d' := by
  have hfault : d'.fault = d.fault := h .fault hb
  exact ⟨by rw [hfault], by rw [hfault], by rw [hfault]⟩

theorem Dev.AlertsAlone.keepsOpen {d d' : Dev} (h : d.AlertsAlone d') : d.KeepsOpen d' := by
  unfold Dev.AlertsAlone at h
  exact ⟨by rw [h], by rw [h], by rw [h]⟩

theorem Dev.keepsOpen_ite {d a : Dev} {c : Prop} [Decidable c] (h : d.KeepsOpen a) : d.KeepsOpen (if c then a else d) := by
  split
  · exact h
  · exact .refl d

theorem Dev.keepsOpen_ite' {d a : Dev} {c : Prop} [Decidable c] (h : d.KeepsOpen a) : d.KeepsOpen (if c then d else a) := by
  split
  · exact .refl d
  · exact h

theorem Dev.keepsOpen_foldl {α : Type} (f : Dev → α → Dev) (h : ∀ (d : Dev) (x : α), d.KeepsOpen (f d x)) :
    ∀ (xs : List α) (d : Dev), d.KeepsOpen (xs.foldl f d) :=
  foldl_related (P := Dev.KeepsOpen) .refl .trans h

theorem Dev.setCause_keepsOpen (d : Dev) (k : SrcIx) (i : PhaseIx) (on : Bool) (l : List Byte) : d.KeepsOpen (d.setCause k i on l) := ⟨rfl, rfl, rfl⟩

theorem Dev.event_keepsOpen (d : Dev) (code : Nat) : d.KeepsOpen (d.event code) := ⟨rfl, rfl, rfl⟩

theorem Dev.note_keepsOpen (d : Dev) (code : Nat) (level : Fin 5) (source : Nat) (data : List Byte) : d.KeepsOpen (d.note code level source data) :=
  (d.note_alertsAlone code level source data).keepsOpen

theorem Dev.checkUnderphased_keepsOpen (d : Dev) (r : RailIx) : d.KeepsOpen (d.checkUnderphased r) := by
  unfold Dev.checkUnderphased
  exact Dev.keepsOpen_ite' (d.setCause_keepsOpen _ _ _ _)

theorem Dev.takeSector_keepsOpen (d : Dev) (c : CtxIx) (w : Fin 8) : d.KeepsOpen (d.takeSector c w) := by
  unfold Dev.takeSector
  exact ((Dev.keepsOpen_of_onlyIn (Dev.updCtx_onlyIn _ c _)).trans (Dev.event_keepsOpen _ _)).trans (Dev.keepsOpen_of_onlyIn (Dev.preload_onlyIn _ _ _ _ _))

theorem Dev.evalNow_keepsOpen (d : Dev) (c : CtxIx) : d.KeepsOpen (d.evalNow c) := by
  unfold Dev.evalNow
  extract_lets w waited
  have hwaited : d.KeepsOpen waited := Dev.keepsOpen_of_onlyIn (d.updCtx_onlyIn c _)
  clear_value waited w
  refine hwaited.trans ?_
  split
  · exact Dev.keepsOpen_ite' (waited.takeSector_keepsOpen _ _)
  · exact Dev.keepsOpen_ite (waited.takeSector_keepsOpen _ _)

theorem Dev.syncCtx_keepsOpen (d : Dev) (r : RailIx) : d.KeepsOpen (d.syncCtx r) := by
  refine Dev.keepsOpen_foldl _ (fun e c => ?_) _ d
  dsimp only
  split
  · exact (Dev.keepsOpen_of_onlyIn (e.updCtx_onlyIn c _)).trans (Dev.evalNow_keepsOpen _ c)
  · exact Dev.keepsOpen_ite (Dev.keepsOpen_of_onlyIn (e.idleCtx_onlyIn c))

theorem Dev.evalRail_keepsOpen (d : Dev) (r : RailIx) : d.KeepsOpen (d.evalRail r) :=
  Dev.keepsOpen_foldl _ (fun e c => Dev.keepsOpen_ite (e.evalNow_keepsOpen c)) _ d

theorem Dev.startDiv_keepsOpen (d : Dev) (r : RailIx) : d.KeepsOpen (d.startDiv r) := by
  unfold Dev.startDiv Dev.railDiv
  extract_lets freed div
  have hfreed : d.KeepsOpen freed := .refl d
  refine hfreed.trans (Dev.keepsOpen_ite (Dev.keepsOpen_ite' ?_))
  split
  · exact (freed.event_keepsOpen _).trans ⟨rfl, rfl, rfl⟩
  · exact ⟨rfl, rfl, rfl⟩

theorem Dev.changeMode_keepsOpen (d : Dev) (r : RailIx) (m : RailMode) : d.KeepsOpen (d.changeMode r m) := by
  unfold Dev.changeMode
  extract_lets old unshed keeps stays put trips div ovr
  have hput : d.KeepsOpen put := Dev.keepsOpen_of_onlyIn (d.putMode_onlyIn r m)
  have htrips : put.KeepsOpen trips := Dev.keepsOpen_ite (Dev.keepsOpen_of_onlyIn (put.switchTrips_onlyIn r))
  have hdiv : trips.KeepsOpen div := Dev.keepsOpen_ite (trips.startDiv_keepsOpen r)
  have hovr : div.KeepsOpen ovr := Dev.keepsOpen_ite (Dev.keepsOpen_of_onlyIn (div.endHostOvrRail_onlyIn r))
  exact (((hput.trans htrips).trans hdiv).trans hovr).trans
    (((ovr.syncCtx_keepsOpen r).trans (Dev.evalRail_keepsOpen _ r)).trans (Dev.keepsOpen_of_onlyIn (Dev.setRt_onlyIn _ r)))

theorem Dev.cutFlare_keepsOpen (d : Dev) (r : RailIx) : d.KeepsOpen (d.cutFlare r) := by
  unfold Dev.cutFlare
  refine Dev.keepsOpen_ite' ((d.event_keepsOpen (0x0498 + r.val)).trans ?_)
  exact (Dev.keepsOpen_of_onlyIn (Dev.updRail_onlyIn _ r _)).trans
    (Dev.keepsOpen_foldl _ (fun e n => Dev.keepsOpen_of_onlyIn (e.updPwm_onlyIn n _)) _ _)

theorem Dev.shedOne_keepsOpen (d : Dev) (n : PhaseIx) : d.KeepsOpen (d.shedOne n) :=
  (Dev.keepsOpen_of_onlyIn (d.markShed_onlyIn n)).trans (Dev.event_keepsOpen _ _)

theorem Dev.dropTo_keepsOpen (r : RailIx) (count : Nat) : ∀ (k : Nat) (d : Dev), d.KeepsOpen (d.dropTo r count k)
  | 0, d => .refl d
  | k + 1, d => by
    unfold Dev.dropTo
    refine Dev.keepsOpen_ite' ?_
    split
    · exact (d.shedOne_keepsOpen _).trans (Dev.dropTo_keepsOpen r count k _)
    · exact .refl d

theorem Dev.fitMembers_keepsOpen (d : Dev) (p : PortIx) (r : RailIx) : d.KeepsOpen (d.fitMembers p r) := by
  unfold Dev.fitMembers Dev.shedDown
  extract_lets fitted
  have hfitted : d.KeepsOpen fitted := Dev.keepsOpen_ite'
    (((Dev.dropTo_keepsOpen r _ 64 d).trans (Dev.keepsOpen_of_onlyIn (Dev.respread_onlyIn _ r))).trans (Dev.syncCtx_keepsOpen _ r))
  exact hfitted.trans (Dev.keepsOpen_ite (Dev.keepsOpen_of_onlyIn (fitted.withdrawAdd_onlyIn r)))

theorem Dev.setPhase_keepsOpen (d : Dev) (p : PortIx) (r : RailIx) (ph : StPhase) (cause : BitVec 2) : d.KeepsOpen (d.setPhase p r ph cause) := by
  unfold Dev.setPhase
  extract_lets x put noted
  have hput : d.KeepsOpen put := .refl d
  have hnoted : put.KeepsOpen noted := Dev.keepsOpen_ite' (put.note_keepsOpen _ _ _ _)
  have hcauses : noted.KeepsOpen (noted.portCauses p) := ⟨rfl, rfl, rfl⟩
  exact (((hput.trans hnoted).trans hcauses).trans (Dev.fitMembers_keepsOpen _ p r)).trans (Dev.syncCtx_keepsOpen _ r)

theorem Dev.portStop_keepsOpen (d : Dev) (p : PortIx) (r : RailIx) : d.KeepsOpen (d.portStop p r) := by
  unfold Dev.portStop
  extract_lets reset
  have hreset : d.KeepsOpen reset := Dev.keepsOpen_of_onlyIn (d.updPort_onlyIn p _)
  exact (hreset.trans (reset.setCause_keepsOpen (srcStoreTemp p) 0 false [])).trans (Dev.setPhase_keepsOpen _ p r .none 0)

theorem Dev.noteEvent_keepsOpen (d : Dev) (r : RailIx) (m : RailMode) : d.KeepsOpen (d.noteEvent r m) :=
  Dev.keepsOpen_ite' ⟨rfl, rfl, rfl⟩

theorem Dev.stopRail_keepsOpen (d : Dev) (r : RailIx) (m : RailMode) : d.KeepsOpen (d.stopRail r m) := by
  unfold Dev.stopRail
  extract_lets old noted idle now stopped changed port cause cyc marked
  have hnoted : d.KeepsOpen noted :=
    (d.noteEvent_keepsOpen r m).trans (Dev.keepsOpen_ite (Dev.keepsOpen_of_onlyIn (Dev.updRail_onlyIn _ r _)))
  have hidle : noted.KeepsOpen idle := (noted.cutFlare_keepsOpen r).trans (Dev.keepsOpen_of_onlyIn (Dev.withdrawAdd_onlyIn _ r))
  have hstopped : idle.KeepsOpen stopped := Dev.keepsOpen_of_onlyIn (idle.updRail_onlyIn r _)
  have hchanged : stopped.KeepsOpen changed := (Dev.keepsOpen_of_onlyIn (stopped.shedAll_onlyIn r)).trans (Dev.changeMode_keepsOpen _ r m)
  have hport : changed.KeepsOpen port := by
    dsimp only [port]
    split
    · exact Dev.keepsOpen_ite (changed.portStop_keepsOpen _ r)
    · exact .refl changed
  have hcause : port.KeepsOpen cause := Dev.keepsOpen_ite' (port.setCause_keepsOpen _ _ _ _)
  have hmarked : cause.KeepsOpen marked := Dev.keepsOpen_ite' (Dev.keepsOpen_of_onlyIn (cause.onlyIn_cyc _ []))
  exact (((((((hnoted.trans hidle).trans hstopped).trans hchanged).trans hport).trans hcause).trans hmarked).trans
    (Dev.keepsOpen_of_onlyIn (marked.respread_onlyIn r))).trans (Dev.checkUnderphased_keepsOpen _ r)

/-! ## The mode in which a rail action leaves the rail (R408) -/

theorem Dev.sameModes_ite {d a : Dev} {c : Prop} [Decidable c] {r : RailIx} (h : d.SameModes a r) : d.SameModes (if c then a else d) r := by
  split
  · exact h
  · exact .refl d r

theorem Dev.cutFlare_sameModes (d : Dev) (r : RailIx) : d.SameModes (d.cutFlare r) r := by
  unfold Dev.cutFlare
  split
  · exact .refl d r
  · extract_lets cut
    have hcut : d.SameModes cut r := (Dev.sameModes_of_onlyIn r (d.event_onlyIn _)).trans (Dev.updRail_sameModes _ r _ rfl)
    exact hcut.trans (Dev.sameModes_of_onlyIn r (Dev.onlyIn_foldl (bs := [.pwm]) _ (fun e n => e.updPwm_onlyIn n _) _ cut))

theorem Dev.portStop_sameModes (d : Dev) (p : PortIx) (r : RailIx) : d.SameModes (d.portStop p r) r := by
  unfold Dev.portStop
  extract_lets reset
  have hreset : d.onlyIn reset [.ports] := d.updPort_onlyIn p _
  obtain ⟨e, he, hphase⟩ := (reset.setCause (srcStoreTemp p) 0 false).setPhase_spec p r .none 0
  rw [hphase]
  have hpre : d.SameModes e r :=
    ((Dev.sameModes_of_onlyIn r hreset).trans (Dev.sameModes_of_onlyIn r (reset.setCause_onlyIn _ _ _ _))).trans (Dev.sameModes_of_onlyIn r he)
  exact (hpre.trans (e.fitMembers_sameModes p r)).trans (Dev.sameModes_of_onlyIn r (Dev.syncCtx_onlyIn _ r))

/-- A stopped rail is in the mode named, and every other rail in the mode in which it was. -/
theorem Dev.stopRail_modes (d : Dev) (r : RailIx) (m : RailMode) :
    (d.stopRail r m).rails[r.val].mode = m ∧ ∀ k : RailIx, k ≠ r → (d.stopRail r m).rails[k] = d.rails[k] := by
  unfold Dev.stopRail
  extract_lets old noted idle now stopped changed port cause cyc marked
  have hnoted : d.SameModes noted r := by
    have hnote : d.SameModes (d.noteEvent r m) r := by
      unfold Dev.noteEvent
      split <;> exact .refl _ r
    exact hnote.trans (Dev.sameModes_ite (Dev.updRail_sameModes _ r _ rfl))
  have hidle : noted.SameModes idle r := (noted.cutFlare_sameModes r).trans (Dev.withdrawAdd_sameModes _ r)
  have hstopped : idle.SameModes stopped r := idle.updRail_sameModes r _ rfl
  have hbefore : d.SameModes (stopped.shedAll r) r :=
    ((hnoted.trans hidle).trans hstopped).trans (Dev.sameModes_of_onlyIn r (stopped.shedAll_onlyIn r))
  obtain ⟨since, olt, hrails⟩ := (stopped.shedAll r).changeMode_rails r m
  have hport : changed.SameModes port r := by
    dsimp only [port]
    split
    · exact Dev.sameModes_ite (changed.portStop_sameModes _ r)
    · exact .refl changed r
  have hcause : port.onlyIn cause [.fault] := Dev.onlyIn_ite' (port.setCause_onlyIn _ _ _ _)
  have hmarked : cause.onlyIn marked [] := Dev.onlyIn_ite' (cause.onlyIn_cyc _ [])
  have hafter : changed.SameModes ((marked.respread r).checkUnderphased r) r :=
    (((hport.trans (Dev.sameModes_of_onlyIn r hcause)).trans (Dev.sameModes_of_onlyIn r hmarked)).trans (marked.respread_sameModes r)).trans
      (Dev.sameModes_of_onlyIn r (Dev.checkUnderphased_onlyIn _ r))
  refine ⟨hafter.1.trans ?_, fun k hk => (hafter.2 k hk).trans ?_⟩
  · rw [show changed.rails = _ from hrails]
    simp
  · have hne : r.val ≠ k.val := fun h => hk (Fin.ext h.symm)
    rw [show changed.rails = _ from hrails, ← hbefore.2 k hk]
    simp [hne]

theorem Dev.stopRail_sys (d : Dev) (r : RailIx) (m : RailMode) : (d.stopRail r m).sys = d.sys := by
  have hnote : (d.noteEvent r m).sys = d.sys := by
    unfold Dev.noteEvent
    split <;> rfl
  exact ((d.noteEvent_stopRail r m) .sys (by decide)).trans hnote

/-- The step from `d` to `d'` does `f` to the modes, and leaves SYS and the open entries alone. -/
structure Dev.Acted (d d' : Dev) (f : RailIx → RailMode → RailMode) : Prop where
  modes : ∀ r : RailIx, d'.rails[r.val].mode = f r d.rails[r.val].mode
  sys : d'.sys = d.sys
  keeps : d.KeepsOpen d'

theorem Dev.acted_refl {d : Dev} {f : RailIx → RailMode → RailMode} (h : ∀ r : RailIx, f r d.rails[r.val].mode = d.rails[r.val].mode) : d.Acted d f :=
  ⟨fun r => (h r).symm, rfl, .refl d⟩

/-- A stop that strikes the rail (R408). -/
theorem Dev.stopRail_acted (d : Dev) (r : RailIx) (m : RailMode) (c : Cyc) {f : RailIx → RailMode → RailMode} (hr : f r d.rails[r.val].mode = m)
    (hother : ∀ k : RailIx, k ≠ r → f k d.rails[k.val].mode = d.rails[k.val].mode) : d.Acted { d.stopRail r m with cyc := c } f := by
  obtain ⟨hmode, hothers⟩ := d.stopRail_modes r m
  refine ⟨fun k => ?_, d.stopRail_sys r m, d.stopRail_keepsOpen r m⟩
  by_cases hk : k = r
  · subst hk
    exact hmode.trans hr.symm
  · rw [hother k hk]
    exact congrArg Rail.mode (hothers k hk)

/-- What an action does to the mode of one rail. -/
theorem Dev.railAction_acted (d : Dev) (r : RailIx) (a : Nat) : d.Acted (d.railAction r a) fun k m => if k = r then actedMode a m else m := by
  unfold Dev.railAction Dev.mode
  dsimp only
  split
  · next ha =>
    split
    · next hm => exact d.stopRail_acted r .hiccup _ (by simp only [if_true, actedMode, Fin.getElem_fin] at hm ⊢; simp [ha, hm]) fun k hk => if_neg hk
    · next hm =>
      refine Dev.acted_refl fun k => ?_
      split
      · next hk => subst hk; simp only [Fin.getElem_fin] at hm; simp [actedMode, ha, hm]
      · rfl
  · next ha =>
    split
    · next ha' =>
      split
      · next hm =>
        refine d.stopRail_acted r .hold _ ?_ fun k hk => if_neg hk
        simp only [if_true, actedMode, Fin.getElem_fin, Bool.or_eq_true, beq_iff_eq] at hm ⊢
        simp [ha, ha', hm]
      · next hm =>
        refine Dev.acted_refl fun k => ?_
        split
        · next hk =>
          subst hk
          simp only [Fin.getElem_fin, Bool.or_eq_true, beq_iff_eq] at hm
          simp [actedMode, ha, hm]
        · rfl
    · next ha' =>
      refine Dev.acted_refl fun k => ?_
      split
      · simp [actedMode, ha, ha']
      · rfl

/-- Every rail takes its action. -/
theorem Dev.railActions_acted (d : Dev) (act : RailIx → Nat) :
    d.Acted (allRails.foldl (fun d r => d.railAction r (act r)) d) fun r m => actedMode (act r) m := by
  obtain ⟨⟨hsys, hkeeps⟩, hmodes⟩ := foldl_component (P := fun e : Dev => e.sys = d.sys ∧ d.KeepsOpen e) (get := fun e (r : RailIx) => e.rails[r.val].mode)
    (step := fun e r => e.railAction r (act r)) (f := fun r m => actedMode (act r) m)
    (fun e r ⟨hs, hk⟩ => ⟨(e.railAction_acted r (act r)).sys.trans hs, hk.trans (e.railAction_acted r (act r)).keeps⟩)
    (fun e r _ => ((e.railAction_acted r (act r)).modes r).trans (if_pos rfl))
    (fun e r j _ hj => ((e.railAction_acted r (act r)).modes j).trans (if_neg hj)) allRails allRails_nodup d ⟨rfl, .refl d⟩
  exact ⟨fun r => (hmodes r).trans (if_pos (mem_allRails r)), hsys, hkeeps⟩

theorem Dev.setStateAt_keepsOpen (d : Dev) (st : DevState) (ts : Tick) (tbu : Bool) : d.KeepsOpen (d.setStateAt st ts tbu) := by
  unfold Dev.setStateAt Dev.changeTo
  extract_lets data gone sys moved written cyc
  have hmoved : d.KeepsOpen moved := .refl d
  have hwritten : moved.KeepsOpen written := (moved.journal_alertsAlone _).keepsOpen
  clear_value gone
  cases gone with
  | some r => exact hmoved.trans (Dev.keepsOpen_of_onlyIn (moved.onlyIn_lantern _))
  | none => exact (hmoved.trans hwritten).trans (Dev.keepsOpen_of_onlyIn (written.onlyIn_cyc _ []))

/-- A device whose rails are held enters LATCHED. -/
theorem Dev.latched_leaves {d held : Dev} (chain : Bool) (ts : Tick) (tbu : Bool) (h : d.Acted held fun _ m => actedMode 4 m) :
    let d' := ({ held with sys := { held.sys with latchCause := if chain then 2 else 1 }, cyc := { held.cyc with latched := true } } : Dev).setStateAt .latched ts tbu
    (∀ r : RailIx, d'.rails[r.val].mode = actedMode 4 d.rails[r.val].mode) ∧ d.KeepsOpen d' ∧ d'.sys.devState = .latched ∧
      d'.sys.latchCause = if chain then 2 else 1 := by
  intro d'
  obtain ⟨hsys, hframe⟩ := Dev.setStateAt_parts { held with sys := { held.sys with latchCause := if chain then 2 else 1 }, cyc := { held.cyc with latched := true } }
    .latched ts tbu
  have hrails : d'.rails = held.rails := hframe .rails (by decide)
  have hcaused : d.KeepsOpen { held with sys := { held.sys with latchCause := if chain then 2 else 1 }, cyc := { held.cyc with latched := true } } := h.keeps
  refine ⟨fun r => by rw [hrails, h.modes r], hcaused.trans (Dev.setStateAt_keepsOpen _ .latched ts tbu), ?_, ?_⟩
  · exact congrArg Sys.devState hsys
  · exact congrArg Sys.latchCause hsys

/-- Every rail held. -/
def Dev.allHeld (d : Dev) : Dev := allRails.foldl (fun d r => d.railAction r 4) d

theorem Dev.deviceAction_latches (d : Dev) (chain : Bool) (ts : Tick) (tbu : Bool) (h : d.sys.devState = .standby ∨ d.sys.devState = .run) :
    d.deviceAction chain ts tbu = ({ d.allHeld with sys := { d.allHeld.sys with latchCause := if chain then 2 else 1 }, cyc := { d.allHeld.cyc with latched := true } } : Dev).setStateAt .latched ts tbu := by
  have hheld : d.allHeld.sys.devState = d.sys.devState := congrArg Sys.devState (d.railActions_acted fun _ => 4).sys
  unfold Dev.deviceAction
  rw [show allRails.foldl (fun d r => d.railAction r 4) d = d.allHeld from rfl]
  dsimp only
  split
  · rfl
  · rfl
  · next hs =>
    rw [← hheld, hs] at h
    exact absurd h (by decide)
  · next hstandby hrun _ =>
    rw [← hheld] at h
    exact absurd h (not_or.mpr ⟨hstandby, hrun⟩)

theorem Dev.deviceAction_stays (d : Dev) (chain : Bool) (ts : Tick) (tbu : Bool) (h : ¬(d.sys.devState = .standby ∨ d.sys.devState = .run)) :
    ∃ cause, d.deviceAction chain ts tbu = { d.allHeld with sys := { d.allHeld.sys with latchCause := cause } } := by
  have hheld : d.allHeld.sys.devState = d.sys.devState := congrArg Sys.devState (d.railActions_acted fun _ => 4).sys
  unfold Dev.deviceAction
  rw [show allRails.foldl (fun d r => d.railAction r 4) d = d.allHeld from rfl]
  generalize d.allHeld = held at hheld ⊢
  dsimp only
  split
  · next hs => exact absurd (.inl (hheld.symm.trans hs)) h
  · next hs => exact absurd (.inr (hheld.symm.trans hs)) h
  · split
    · exact ⟨2, rfl⟩
    · exact ⟨held.sys.latchCause, rfl⟩
  · exact ⟨held.sys.latchCause, rfl⟩

/-- A device action holds every rail, and takes a device that runs to LATCHED (R36, R408). -/
theorem Dev.deviceAction_leaves (d : Dev) (chain : Bool) (ts : Tick) (tbu : Bool) : let d' := d.deviceAction chain ts tbu
    (∀ r : RailIx, d'.rails[r.val].mode = actedMode 4 d.rails[r.val].mode) ∧ d.KeepsOpen d' ∧
      (d.sys.devState = .standby ∨ d.sys.devState = .run → d'.sys.devState = .latched ∧ d'.sys.latchCause = if chain then 2 else 1) ∧
      (d.sys.devState = .maint → d'.sys.devState = .maint) := by
  have hheld : d.Acted d.allHeld fun _ m => actedMode 4 m := d.railActions_acted fun _ => 4
  by_cases h : d.sys.devState = .standby ∨ d.sys.devState = .run
  · rw [Dev.deviceAction_latches d chain ts tbu h]
    generalize d.allHeld = held at hheld ⊢
    obtain ⟨hmodes, hkeeps, hlatched⟩ := Dev.latched_leaves chain ts tbu hheld
    refine ⟨hmodes, hkeeps, fun _ => hlatched, fun hm => ?_⟩
    rw [hm] at h
    exact absurd h (by decide)
  · obtain ⟨cause, heq⟩ := d.deviceAction_stays chain ts tbu h
    rw [heq]
    generalize d.allHeld = held at hheld ⊢
    obtain ⟨hmodes, hsys, hopen⟩ := hheld
    have hcaused : held.KeepsOpen { held with sys := { held.sys with latchCause := cause } } := Dev.keepsOpen_of_onlyIn (held.onlyIn_sys _)
    exact ⟨hmodes, hopen.trans hcaused, fun hs => absurd hs h, fun hm => (congrArg Sys.devState hsys).trans hm⟩

end Sys2Proof.Machine
end

section
/-! SUPPORT. The records of a reaction, and the entries that it opens, merges or escalates (R406 to R411). -/

namespace Sys2Proof.Machine

open Sys2Proof

/-! ## What a record leaves -/

/-- A step that writes records and snapshots: the open entries stand, and nothing else changes but what records are made of. -/
def Dev.Recorded (d d' : Dev) : Prop := d.KeepsOpen d' ∧ d.onlyIn d' [.lantern, .fault, .free, .banks]

theorem Dev.Recorded.refl (d : Dev) : d.Recorded d := ⟨.refl d, d.onlyIn_refl _⟩

theorem Dev.Recorded.trans {a b c : Dev} (h : a.Recorded b) (k : b.Recorded c) : a.Recorded c := ⟨h.1.trans k.1, h.2.thenIn k.2⟩

theorem Dev.recorded_of_onlyIn {d d' : Dev} {bs : List Block} (h : d.onlyIn d' bs) (hb : Block.fault ∉ bs := by decide)
    (hs : bs ⊆ [.lantern, .fault, .free, .banks] := by decide) : d.Recorded d' := ⟨Dev.keepsOpen_of_onlyIn h hb, h.into hs⟩

theorem Dev.recorded_of_journal {d d' : Dev} {i : RecIn} {n : Option Nat} (h : d.journal i = (d', n)) : d.Recorded d' := by
  have hd' : (d.journal i).1 = d' := congrArg Prod.fst h
  exact hd' ▸ ⟨(d.journal_alertsAlone i).keepsOpen, (d.journal_onlyIn i).into⟩

theorem Dev.seqOr_recorded (d : Dev) (n : Option Nat) : d.Recorded (d.seqOr n).2 := by
  unfold Dev.seqOr
  split
  · exact .refl d
  · exact Dev.recorded_of_onlyIn (d.onlyIn_free _)

theorem Dev.onlyIn_banks (d : Dev) (x : Banks) : d.onlyIn { d with banks := x } [.banks] := fun b hb => by
  cases b <;> simp_all [Dev.same]

theorem Dev.endLease_recorded (d : Dev) (revoked : Bool) : d.Recorded (d.endLease revoked) := by
  unfold Dev.endLease
  split
  · exact .refl d
  · exact Dev.recorded_of_onlyIn (d.onlyIn_banks _)

theorem Dev.lostSnap_recorded (d : Dev) : d.Recorded d.lostSnap := Dev.recorded_of_onlyIn (d.onlyIn_lantern _)

theorem Dev.takeSnap_recorded (d : Dev) (i : Fin 8) (level : Fin 5) (trigger : BitVec 48) (values : List Word) (fabric : Bool) (ts : Tick) (tbu : Bool) :
    d.Recorded (d.takeSnap i level trigger values fabric ts tbu) := by
  unfold Dev.takeSnap
  split
  · exact d.lostSnap_recorded
  · extract_lets serial s
    split
    next d' n hj =>
    refine (Dev.recorded_of_journal hj).trans ?_
    split
    · exact d'.lostSnap_recorded
    · exact (Dev.recorded_of_onlyIn (d'.onlyIn_lantern _)).trans (Dev.endLease_recorded _ true)

theorem Dev.writeFault_recorded (d : Dev) (x : Seen) (merged : Option OpenEnt) (top : Nat) (acts : List (RailIx × Nat)) (snap : Option (Fin 8)) :
    d.Recorded (d.writeFault x merged top acts snap).1 := by
  unfold Dev.writeFault
  extract_lets level rec_
  clear_value rec_
  split
  · exact Dev.recorded_of_journal rfl
  · split
    next d' n hj =>
    split
    · extract_lets values
      split
      next q e hq =>
      have he := d'.seqOr_recorded n
      rw [hq] at he
      exact ((Dev.recorded_of_journal hj).trans he).trans (Dev.takeSnap_recorded _ _ _ _ _ _ _ _)
    · split
      next e m hj' =>
      refine (Dev.recorded_of_journal hj').trans ?_
      dsimp only
      split
      · exact (Dev.recorded_of_onlyIn (e.onlyIn_lantern _)).trans (Dev.lostSnap_recorded _)
      · exact e.lostSnap_recorded

theorem Dev.setLast_recorded (d : Dev) (k : SrcIx) (n : Option Nat) : d.Recorded (d.setLast k n) := by
  unfold Dev.setLast
  split
  · exact ⟨⟨rfl, rfl, rfl⟩, (d.onlyIn_fault _).into⟩
  · exact .refl d

/-- The FAULT record, LAST of the source and the number that the REACT records name (R400, R415). -/
def Dev.faultRecord (d : Dev) (x : Seen) (merged : Option OpenEnt) (top : Nat) (acts : List (RailIx × Nat)) (snap : Option (Fin 8)) : BitVec 48 × Dev :=
  let w := d.writeFault x merged top acts snap
  (w.1.setLast x.src w.2).seqOr w.2

theorem Dev.faultRecord_recorded (d : Dev) (x : Seen) (merged : Option OpenEnt) (top : Nat) (acts : List (RailIx × Nat)) (snap : Option (Fin 8)) :
    d.Recorded (d.faultRecord x merged top acts snap).2 :=
  ((d.writeFault_recorded x merged top acts snap).trans (Dev.setLast_recorded _ _ _)).trans (Dev.seqOr_recorded _ _)

/-! ## The entries of one rail -/

/-- The entry of a class in a rail's list, and the list with an entry put. -/
def entryIn (c : BitVec 5) (es : List (BitVec 5 × OpenEnt)) : Option OpenEnt := (es.find? fun e => e.1 == c).map (·.2)
def putIn (c : BitVec 5) (e : OpenEnt) (es : List (BitVec 5 × OpenEnt)) : List (BitVec 5 × OpenEnt) :=
  es.filter (fun x => x.1.toNat < c.toNat) ++ (c, e) :: es.filter fun x => c.toNat < x.1.toNat

theorem entryIn_putIn (c : BitVec 5) (e : OpenEnt) (es : List (BitVec 5 × OpenEnt)) : entryIn c (putIn c e es) = some e := by
  have hbefore : (es.filter fun x => decide (x.1.toNat < c.toNat)).find? (fun x => x.1 == c) = none := by
    rw [List.find?_eq_none]
    intro x hx
    have hlt : x.1.toNat < c.toNat := by simpa using List.of_mem_filter hx
    simp only [beq_iff_eq]
    rintro rfl
    omega
  unfold entryIn putIn
  rw [List.find?_append, hbefore, List.find?_cons]
  simp

/-- A loop over different indices whose steps each change their own component alone. -/
theorem foldl_pointwise {σ ι α : Type} [DecidableEq ι] {get : σ → ι → α} {step : σ → ι → σ} {R : ι → α → α → Prop}
    (same : ∀ s i, R i (get s i) (get (step s i) i)) (other : ∀ s i j, j ≠ i → get (step s i) j = get s j) :
    ∀ (xs : List ι), xs.Nodup → ∀ s i, (i ∈ xs → R i (get s i) (get (xs.foldl step s) i)) ∧ (i ∉ xs → get (xs.foldl step s) i = get s i)
  | [], _, s, i => ⟨fun h => absurd h List.not_mem_nil, fun _ => rfl⟩
  | x :: xs, hn, s, i => by
    obtain ⟨hx, hn⟩ := List.nodup_cons.1 hn
    obtain ⟨hin, hout⟩ := foldl_pointwise same other xs hn (step s x) i
    rw [List.foldl_cons]
    by_cases hi : i = x
    · subst hi
      exact ⟨fun _ => by rw [hout hx]; exact same s i, fun h => absurd List.mem_cons_self h⟩
    · have hstep := other s x i hi
      exact ⟨fun h => by rw [← hstep]; exact hin ((List.mem_cons.mp h).resolve_left hi), fun h => by rw [hout fun h' => h (List.mem_cons_of_mem x h'), hstep]⟩

/-- A step that writes entries and records: no merge and no reaction is counted, and nothing else changes but what records are made of. -/
def Dev.Entered (d d' : Dev) : Prop :=
  d'.fault.merges = d.fault.merges ∧ d'.fault.reactions = d.fault.reactions ∧ d.onlyIn d' [.lantern, .fault, .free, .banks]

theorem Dev.Entered.refl (d : Dev) : d.Entered d := ⟨rfl, rfl, d.onlyIn_refl _⟩

theorem Dev.Entered.trans {a b c : Dev} (h : a.Entered b) (k : b.Entered c) : a.Entered c :=
  ⟨k.1.trans h.1, k.2.1.trans h.2.1, h.2.2.thenIn k.2.2⟩

theorem Dev.Recorded.entered {d d' : Dev} (h : d.Recorded d') : d.Entered d' := ⟨h.1.2.1, h.1.2.2, h.2⟩

/-- The list of a rail's entries after a fault has been counted on it: merged, or escalated (R410). -/
def RailHit.counted (h : RailHit) (c : BitVec 5) (es : List (BitVec 5 × OpenEnt)) : List (BitVec 5 × OpenEnt) :=
  match h.found, entryIn c es with
  | .merges, some e => putIn c { e with merges := satInc e.merges } es
  | .escalates, some e => putIn c { e with escalations := satInc e.escalations } es
  | _, _ => es

theorem Dev.putEntry_entries (d : Dev) (r k : RailIx) (c : BitVec 5) (e : OpenEnt) :
    (d.putEntry r c e).fault.entries[k.val] = if k = r then putIn c e d.fault.entries[k.val] else d.fault.entries[k.val] := by
  unfold Dev.putEntry
  split
  · next h =>
    subst h
    exact upd_get_same _ _ _
  · next h => exact upd_get_ne _ _ _ _ h

theorem Dev.putEntry_entered (d : Dev) (r : RailIx) (c : BitVec 5) (e : OpenEnt) : d.Entered (d.putEntry r c e) := ⟨rfl, rfl, (d.onlyIn_fault _).into⟩

theorem Dev.alert_recorded (d : Dev) (seq : Nat) (on : Bool) : d.Recorded (d.alert seq on) := by
  refine ⟨(d.alert_alertsAlone seq on).keepsOpen, ?_⟩
  unfold Dev.alert
  split
  · exact (d.onlyIn_fault _).into.thenIn (Dev.onlyIn_cyc _ _ [])
  · exact d.onlyIn_refl _

/-- An entry that is put changes the rail's list alone. -/
theorem Dev.entries_put {d e : Dev} {r : RailIx} {c : BitVec 5} {x : OpenEnt} {es : List (BitVec 5 × OpenEnt) → List (BitVec 5 × OpenEnt)}
    (h : (d.putEntry r c x).Recorded e) (hes : es d.fault.entries[r.val] = putIn c x d.fault.entries[r.val]) : d.Entered e ∧
      ∀ k : RailIx, e.fault.entries[k.val] = if k = r then es d.fault.entries[k.val] else d.fault.entries[k.val] := by
  refine ⟨(d.putEntry_entered r c x).trans h.entered, fun k => ?_⟩
  rw [h.1.1, Dev.putEntry_entries]
  by_cases hk : k = r
  · subst hk
    rw [if_pos rfl, if_pos rfl, hes]
  · rw [if_neg hk, if_neg hk]

theorem Dev.entries_same {d : Dev} {r : RailIx} {es : List (BitVec 5 × OpenEnt) → List (BitVec 5 × OpenEnt)} (hes : es d.fault.entries[r.val] = d.fault.entries[r.val]) :
    d.Entered d ∧ ∀ k : RailIx, d.fault.entries[k.val] = if k = r then es d.fault.entries[k.val] else d.fault.entries[k.val] := by
  refine ⟨.refl d, fun k => ?_⟩
  by_cases hk : k = r
  · subst hk
    rw [if_pos rfl, hes]
  · rw [if_neg hk]

theorem Dev.countEntry_leaves (d : Dev) (c : BitVec 5) (h : RailHit) : d.Entered (d.countEntry c h) ∧
    ∀ k : RailIx, (d.countEntry c h).fault.entries[k.val] = if k = h.rail then h.counted c d.fault.entries[k.val] else d.fault.entries[k.val] := by
  have hentry : d.entryOf h.rail c = entryIn c d.fault.entries[h.rail.val] := rfl
  unfold Dev.countEntry
  rw [hentry]
  split
  · next e hfound he =>
    refine Dev.entries_put ((Dev.recorded_of_onlyIn (Dev.onlyIn_lantern _ _)).trans (Dev.alert_recorded _ _ _)) ?_
    rw [RailHit.counted, hfound, he]
  · next e hfound he =>
    refine Dev.entries_put (.refl _) ?_
    rw [RailHit.counted, hfound, he]
  · next hmerges hescalates =>
    refine Dev.entries_same ?_
    unfold RailHit.counted
    split
    · next e hfound he => exact absurd he (hmerges e hfound)
    · next e hfound he => exact absurd he (hescalates e hfound)
    · rfl

/-- An entry that a fault opens on its rail is new, with the level given. -/
def RailHit.Opened (h : RailHit) (c : BitVec 5) (level : Nat) (es es' : List (BitVec 5 × OpenEnt)) : Prop :=
  (h.found = .opens → ∃ q, entryIn c es' = some { level := Fin.ofNat 5 level, seq := q }) ∧ (h.found ≠ .opens → es' = es)

theorem Dev.openEntry_leaves (d : Dev) (c : BitVec 5) (h : RailHit) (q : BitVec 48) {r : RailIx} (hr : h.rail = r) : d.Entered (d.openEntry c h q) ∧
    h.Opened c h.level d.fault.entries[r.val] (d.openEntry c h q).fault.entries[r.val] ∧
    ∀ k : RailIx, k ≠ r → (d.openEntry c h q).fault.entries[k.val] = d.fault.entries[k.val] := by
  subst hr
  unfold Dev.openEntry
  split
  · next hfound =>
    refine ⟨d.putEntry_entered _ _ _, ⟨fun _ => ⟨q.toNat, ?_⟩, fun h' => absurd hfound h'⟩, fun k hk => ?_⟩
    · rw [Dev.putEntry_entries, if_pos rfl, entryIn_putIn]
    · rw [Dev.putEntry_entries, if_neg hk]
  · next hfound => exact ⟨.refl d, ⟨fun h' => absurd h' hfound, fun _ => rfl⟩, fun _ _ => rfl⟩

/-! ## The REACT records (R410, R411) -/

/-- The REACT record of one rail, with the entry that it opens. -/
def Dev.reactRail (d : Dev) (x : Seen) (c : BitVec 5) (entry : Option Nat) (fault : BitVec 48) (h : RailHit) : Dev :=
  if h.found = .merges then d
  else
    let w := d.writeReact x h.level h.rail.val h.action entry (h.found == .escalates) fault
    let s := w.1.seqOr w.2
    s.2.openEntry c h s.1

theorem Dev.reactRails_eq (d : Dev) (x : Seen) (c : BitVec 5) (entry : Option Nat) (fault : BitVec 48) (hs : List RailHit) :
    d.reactRails x c entry fault hs = hs.foldl (fun d h => d.reactRail x c entry fault h) d := rfl

theorem Dev.reactRail_leaves (d : Dev) (x : Seen) (c : BitVec 5) (entry : Option Nat) (fault : BitVec 48) (h : RailHit) {r : RailIx}
    (hr : h.rail = r) : d.Entered (d.reactRail x c entry fault h) ∧
    h.Opened c h.level d.fault.entries[r.val] (d.reactRail x c entry fault h).fault.entries[r.val] ∧
    ∀ k : RailIx, k ≠ r → (d.reactRail x c entry fault h).fault.entries[k.val] = d.fault.entries[k.val] := by
  unfold Dev.reactRail
  split
  · next hm => exact ⟨.refl d, ⟨fun ho => absurd (hm.symm.trans ho) (by decide), fun _ => rfl⟩, fun _ _ => rfl⟩
  · extract_lets w s
    have hs : d.Recorded s.2 := (Dev.recorded_of_journal (show d.journal _ = (w.1, w.2) from rfl)).trans (w.1.seqOr_recorded w.2)
    obtain ⟨hentered, hopened, hothers⟩ := s.2.openEntry_leaves c h s.1 hr
    rw [hs.1.1] at hopened hothers
    exact ⟨hs.entered.trans hentered, hopened, hothers⟩

/-! ## The entries of the rails that a fault reaches -/

/-- From `d` to `e` the entries of the rails `rs` have changed as `R` says, and no other rail's. -/
def Dev.EntriesChanged (d e : Dev) (rs : List RailIx) (R : RailIx → List (BitVec 5 × OpenEnt) → List (BitVec 5 × OpenEnt) → Prop) : Prop :=
  d.Entered e ∧ ∀ r : RailIx, (r ∈ rs → R r d.fault.entries[r.val] e.fault.entries[r.val]) ∧ (r ∉ rs → e.fault.entries[r.val] = d.fault.entries[r.val])

/-- A step for one rail, taken for each of different rails. -/
theorem Dev.entriesChanged_foldl {step : Dev → RailIx → Dev} {R : RailIx → List (BitVec 5 × OpenEnt) → List (BitVec 5 × OpenEnt) → Prop}
    (h : ∀ (e : Dev) (r : RailIx), e.Entered (step e r) ∧ R r e.fault.entries[r.val] (step e r).fault.entries[r.val] ∧
      ∀ k : RailIx, k ≠ r → (step e r).fault.entries[k.val] = e.fault.entries[k.val]) {rs : List RailIx} (hn : rs.Nodup) (d : Dev) :
    d.EntriesChanged (rs.foldl step d) rs R :=
  ⟨foldl_related (P := Dev.Entered) .refl .trans (fun e r => (h e r).1) rs d,
    foldl_pointwise (get := fun e (r : RailIx) => e.fault.entries[r.val]) (fun e r => (h e r).2.1) (fun e r k hk => (h e r).2.2 k hk) rs hn d⟩

theorem Dev.countEntries_changed (d : Dev) (c : BitVec 5) {hit : RailIx → RailHit} (hrail : ∀ r, (hit r).rail = r) {rs : List RailIx} (hn : rs.Nodup) :
    d.EntriesChanged ((rs.map hit).foldl (fun e h => e.countEntry c h) d) rs fun r es es' => es' = (hit r).counted c es := by
  rw [List.foldl_map]
  refine Dev.entriesChanged_foldl (fun e r => ?_) hn d
  obtain ⟨hentered, hentries⟩ := e.countEntry_leaves c (hit r)
  rw [hrail] at hentries
  exact ⟨hentered, (hentries r).trans (if_pos rfl), fun k hk => (hentries k).trans (if_neg hk)⟩

theorem Dev.reactRails_changed (d : Dev) (x : Seen) (c : BitVec 5) (entry : Option Nat) (fault : BitVec 48) {hit : RailIx → RailHit}
    (hrail : ∀ r, (hit r).rail = r) {rs : List RailIx} (hn : rs.Nodup) :
    d.EntriesChanged (d.reactRails x c entry fault (rs.map hit)) rs fun r => (hit r).Opened c (hit r).level := by
  rw [Dev.reactRails_eq, List.foldl_map]
  exact Dev.entriesChanged_foldl (fun e r => e.reactRail_leaves x c entry fault (hit r) (hrail r)) hn d

theorem Dev.reactDevice_changed (d : Dev) (x : Seen) (c : BitVec 5) (entry : Option Nat) (fault : BitVec 48) (top : Nat) {hit : RailIx → RailHit}
    (hrail : ∀ r, (hit r).rail = r) {rs : List RailIx} (hn : rs.Nodup) :
    ∃ level, d.EntriesChanged (d.reactDevice x c entry fault (rs.map hit) top) rs fun r => (hit r).Opened c level := by
  unfold Dev.reactDevice
  extract_lets level
  split
  next e n he =>
  have hentered := Dev.recorded_of_journal he
  split
  next q f hf =>
  have hseq := e.seqOr_recorded n
  rw [hf] at hseq
  have hrecorded : d.Recorded f := hentered.trans hseq
  rw [List.foldl_map]
  have hopen := Dev.entriesChanged_foldl (step := fun e r => e.openEntry c { hit r with level := level } q) (R := fun r => (hit r).Opened c level)
    (fun e r => e.openEntry_leaves c { hit r with level := level } q (hrail r)) hn f
  refine ⟨level, hrecorded.entered.trans hopen.1, fun r => ?_⟩
  rw [← hrecorded.1.1]
  exact hopen.2 r

/-! ## The reaction to one fault -/

/-- The entry that wins for a fault, its ACTION, the class of the fault, the rails that it reaches and what it finds on one. -/
def Dev.winOf (d : Dev) (x : Seen) : Option (Nat × Reaction) := bestReaction d.tile.cur.reactions x.src (d.srcClass x.src)
def Dev.winAction (d : Dev) (x : Seen) : Nat := ((d.winOf x).map fun p => p.2.action.val).getD 0
def Dev.clsOf (d : Dev) (x : Seen) : BitVec 5 := BitVec.ofNat 5 (d.srcClass x.src)
def Dev.reachedBy (d : Dev) (x : Seen) : List RailIx :=
  d.reached x.src x.inst (((d.winOf x).map fun p => p.2.railMask).getD 0) (d.winAction x) (d.srcLevel x.src)
def Dev.hitOn (d : Dev) (x : Seen) (r : RailIx) : RailHit := d.railHit x.src (d.clsOf x) (d.srcLevel x.src) (d.winAction x) r

/-- The most severe action of a fault, and the actions of 2 and above that it calls for by rail. -/
def Dev.topOf (d : Dev) (x : Seen) : Nat :=
  (((d.reachedBy x).map (d.hitOn x)).map (·.action)).foldl max (max (d.winAction x)
    (if 3 ≤ d.srcLevel x.src then d.srcLevel x.src + 1 else if d.srcLevel x.src = 2 then 0 else d.srcLevel x.src))
def Dev.actsOf (d : Dev) (x : Seen) : List (RailIx × Nat) :=
  (((d.reachedBy x).map (d.hitOn x)).filter fun h => decide (2 ≤ h.action)).map fun h => (h.rail, h.action)

/-- The rails on which a fault opens, merges or escalates an entry: those it reaches, of a level above 0. -/
def Dev.entered (d : Dev) (x : Seen) : List RailIx := if d.srcLevel x.src = 0 then [] else d.reachedBy x

/-- The fault counted in its entries, and one merge with any (R410). -/
def Dev.countFault (d : Dev) (x : Seen) : Dev :=
  let e := ((d.entered x).map (d.hitOn x)).foldl (fun e h => e.countEntry (d.clsOf x) h) d
  if ((d.entered x).map (d.hitOn x)).any fun h => h.found == .merges then { e with fault := { e.fault with merges := e.fault.merges + 1 } } else e

/-- The entry that the FAULT record names: of the first rail on which the fault merges. -/
def Dev.mergedEntry (d : Dev) (x : Seen) : Option OpenEnt := match ((d.entered x).map (d.hitOn x)).find? fun h => h.found == .merges with
  | some h => (d.countFault x).entryOf h.rail (d.clsOf x)
  | none => none

/-- The records of a fault and of its reaction, with the entries that open. -/
def Dev.recordFault (d : Dev) (x : Seen) : Dev :=
  let w := (d.countFault x).faultRecord x (d.mergedEntry x) (d.topOf x) (d.actsOf x) (match d.winOf x with
    | some p => p.2.snap
    | none => none)
  if 4 ≤ d.topOf x then w.2.reactDevice x (d.clsOf x) ((d.winOf x).map (·.1)) w.1 ((d.entered x).map (d.hitOn x)) (d.topOf x)
  else w.2.reactRails x (d.clsOf x) ((d.winOf x).map (·.1)) w.1 ((d.entered x).map (d.hitOn x))

/-- A reaction of action 2 and above is counted. -/
def Dev.countReaction (e : Dev) (top : Nat) : Dev :=
  if 2 ≤ top then { e with fault := { e.fault with reactions := e.fault.reactions + 1 } } else e

/-- What is noted of a reaction: its count, the reach of its source, and the stop of a retile (R183, R322). -/
def Dev.noteReaction (e : Dev) (x : Seen) (top level : Nat) (acts : List (RailIx × Nat)) (hs : List RailHit) : Dev :=
  ((e.countReaction top).addReach x.src (if 4 ≤ top then allRails.filter (e.countReaction top).railDefined else acts.map (·.1))).stopByFault level hs

theorem Dev.reactOne_eq {d : Dev} (x : Seen) (h : d.tile.tiled = true) : d.reactOne x =
    let e := (d.recordFault x).noteReaction x (d.topOf x) (d.srcLevel x.src) (d.actsOf x) ((d.entered x).map (d.hitOn x))
    if 4 ≤ d.topOf x then
      (if d.topOf x = 5 then (e.deviceAction (d.topOf x == 5) x.tick x.tbu).markHold else e.deviceAction (d.topOf x == 5) x.tick x.tbu, [])
    else (e, d.actsOf x) := by
  have hentered : (d.entered x).map (d.hitOn x) = if d.srcLevel x.src = 0 then [] else (d.reachedBy x).map (d.hitOn x) := by
    unfold Dev.entered
    split <;> rfl
  unfold Dev.reactOne
  rw [h]
  unfold Dev.recordFault Dev.mergedEntry Dev.countFault
  rw [hentered]
  rfl

end Sys2Proof.Machine
end

section
/-! SUPPORT. What the reaction to one fault comes to (R406 to R411). -/

namespace Sys2Proof.Machine

open Sys2Proof

/-! ## The rails that a fault reaches -/

theorem allRails_filter_nodup (p : RailIx → Bool) : (allRails.filter p).Nodup := allRails_nodup.filter p

theorem Dev.railDomain_nodup {d : Dev} {r : RailIx} {rs : List RailIx} (h : d.railDomain r = .rails rs) : rs.Nodup := by
  unfold Dev.railDomain at h
  cases h
  split
  · exact List.nodup_singleton r
  · exact List.nodup_nil

/-- A domain names no rail twice. -/
theorem Dev.domain_nodup {d : Dev} {k : SrcIx} {i : PhaseIx} {rs : List RailIx} (h : d.domain k i = .rails rs) : rs.Nodup := by
  have hslot : ∀ {s : CardIx}, d.slotDomain s = .rails rs → rs.Nodup := fun h => by
    cases h
    exact allRails_filter_nodup _
  have hempty : Domain.rails [] = .rails rs → rs.Nodup := fun h => by
    cases h
    exact List.nodup_nil
  unfold Dev.domain at h
  dsimp only at h
  split_ifs at h
  · split at h
    · exact Dev.railDomain_nodup h
    · exact hempty h
  · exact Dev.railDomain_nodup h
  · cases h
    exact allRails_filter_nodup _
  · split at h
    · exact Dev.railDomain_nodup h
    · cases h
  · exact hslot h
  · exact hslot h
  · split at h
    · exact Dev.railDomain_nodup h
    · exact hempty h

theorem Dev.reachedBy_nodup (d : Dev) (x : Seen) : (d.reachedBy x).Nodup := by
  unfold Dev.reachedBy Dev.reached
  split
  · exact allRails_filter_nodup _
  · split
    · next rs h => exact Dev.domain_nodup h
    · split
      · exact allRails_filter_nodup _
      · exact List.nodup_nil

theorem Dev.entered_nodup (d : Dev) (x : Seen) : (d.entered x).Nodup := by
  unfold Dev.entered
  split
  · exact List.nodup_nil
  · exact d.reachedBy_nodup x

/-! ## The actions -/

theorem le_foldl_max_iff (n : Nat) : ∀ (xs : List Nat) (a : Nat), n ≤ xs.foldl max a ↔ n ≤ a ∨ ∃ y ∈ xs, n ≤ y
  | [], a => by simp
  | y :: ys, a => by
    rw [List.foldl_cons, le_foldl_max_iff n ys]
    simp only [le_max_iff, List.mem_cons, exists_eq_or_imp]
    tauto

/-- The level and the action that a fault meets on a rail: an open entry of a wide rail raises the level by one (R410). -/
def Dev.wideRail (d : Dev) (r : RailIx) : Bool := decide (16 < d.domainSize r) || d.domainSpans r
def Dev.metLevel (d : Dev) (x : Seen) (r : RailIx) : Nat :=
  if d.srcLevel x.src = 0 then 0 else if (d.entryOf r (d.clsOf x)).isSome && d.wideRail r then min 4 (d.srcLevel x.src + 1) else d.srcLevel x.src
def Dev.metAction (d : Dev) (x : Seen) (r : RailIx) : Nat := max (d.winAction x) (d.leastAction x.src r (d.metLevel x r))

theorem Dev.hitOn_found (d : Dev) (x : Seen) (r : RailIx) : (d.hitOn x r).found =
    if (d.entryOf r (d.clsOf x)).isNone then .opens else if d.wideRail r then .escalates else .merges := by
  unfold Dev.hitOn Dev.railHit Dev.wideRail
  dsimp only
  split
  · rfl
  · by_cases h : d.domainSize r ≤ 16
    · have hlt : ¬16 < d.domainSize r := by omega
      cases hs : d.domainSpans r <;> simp [h, hlt]
    · have hlt : 16 < d.domainSize r := by omega
      simp [h, hlt]

theorem Dev.hitOn_level (d : Dev) (x : Seen) (r : RailIx) : (d.hitOn x r).level = d.metLevel x r := by
  have hlevel : (d.hitOn x r).level = if d.srcLevel x.src = 0 then 0 else if (d.hitOn x r).found = .escalates then min 4 (d.srcLevel x.src + 1) else d.srcLevel x.src := rfl
  rw [hlevel, Dev.hitOn_found]
  unfold Dev.metLevel
  cases d.entryOf r (d.clsOf x) <;> cases d.wideRail r <;> simp

theorem Dev.hitOn_action (d : Dev) (x : Seen) (r : RailIx) : (d.hitOn x r).action = d.metAction x r := by
  have haction : (d.hitOn x r).action = max (d.winAction x) (d.leastAction x.src r (d.hitOn x r).level) := rfl
  rw [haction, Dev.hitOn_level]
  rfl

theorem Dev.le_topOf (d : Dev) (x : Seen) (n : Nat) : n ≤ d.topOf x ↔ n ≤ d.winAction x ∨
    n ≤ (if 3 ≤ d.srcLevel x.src then d.srcLevel x.src + 1 else if d.srcLevel x.src = 2 then 0 else d.srcLevel x.src) ∨ ∃ r ∈ d.reachedBy x, n ≤ d.metAction x r := by
  unfold Dev.topOf
  rw [le_foldl_max_iff]
  simp only [le_max_iff, List.mem_map, exists_exists_and_eq_and, Dev.hitOn_action]
  tauto

theorem Dev.srcLevel_le {d : Dev} (k : SrcIx) (h : d.tile.tiled = true) : d.srcLevel k ≤ 4 := by
  unfold Dev.srcLevel
  rw [if_pos h]
  exact Nat.lt_succ_iff.mp (Fin.isLt _)

/-- The reaction to the fault acts on the device, and on the chain (R408). -/
def Dev.deviceReacts (d : Dev) (x : Seen) : Prop := 4 ≤ d.winAction x ∨ 3 ≤ d.srcLevel x.src ∨ ∃ r ∈ d.reachedBy x, 4 ≤ d.metAction x r
def Dev.chainReacts (d : Dev) (x : Seen) : Prop := 5 ≤ d.winAction x ∨ d.srcLevel x.src = 4 ∨ ∃ r ∈ d.reachedBy x, 5 ≤ d.metAction x r

theorem Dev.topOf_device {d : Dev} (x : Seen) (h : d.tile.tiled = true) : 4 ≤ d.topOf x ↔ d.deviceReacts x := by
  have hlevel := d.srcLevel_le x.src h
  rw [Dev.le_topOf, Dev.deviceReacts, show (4 ≤ if 3 ≤ d.srcLevel x.src then d.srcLevel x.src + 1 else if d.srcLevel x.src = 2 then 0 else d.srcLevel x.src) ↔
    3 ≤ d.srcLevel x.src by split_ifs <;> omega]

theorem Dev.topOf_chain {d : Dev} (x : Seen) (h : d.tile.tiled = true) : 5 ≤ d.topOf x ↔ d.chainReacts x := by
  have hlevel := d.srcLevel_le x.src h
  rw [Dev.le_topOf, Dev.chainReacts, show (5 ≤ if 3 ≤ d.srcLevel x.src then d.srcLevel x.src + 1 else if d.srcLevel x.src = 2 then 0 else d.srcLevel x.src) ↔
    d.srcLevel x.src = 4 by split_ifs <;> omega]

theorem Dev.winAction_le (d : Dev) (x : Seen) : d.winAction x ≤ 5 := by
  unfold Dev.winAction
  cases d.winOf x with
  | none => exact Nat.zero_le 5
  | some p => exact Nat.lt_succ_iff.mp p.2.action.isLt

theorem Dev.metLevel_le {d : Dev} (x : Seen) (r : RailIx) (h : d.tile.tiled = true) : d.metLevel x r ≤ 4 := by
  have hlevel := d.srcLevel_le x.src h
  unfold Dev.metLevel
  split_ifs <;> omega

theorem Dev.metAction_le {d : Dev} (x : Seen) (r : RailIx) (h : d.tile.tiled = true) : d.metAction x r ≤ 5 := by
  have hlevel := Dev.metLevel_le x r h
  refine max_le (d.winAction_le x) ?_
  unfold Dev.leastAction
  split_ifs <;> omega

theorem Dev.topOf_le {d : Dev} (x : Seen) (h : d.tile.tiled = true) : d.topOf x ≤ 5 := by
  have hlevel := d.srcLevel_le x.src h
  have hwin := d.winAction_le x
  by_contra hgt
  obtain hn | hn | ⟨r, -, hn⟩ := (d.le_topOf x 6).mp (by omega)
  · omega
  · split_ifs at hn <;> omega
  · have hmet := Dev.metAction_le x r h
    omega

/-- The most severe action that the fault calls for on a rail: 0, or one of 2 and above. -/
theorem Dev.le_worst (d : Dev) (x : Seen) (r : RailIx) (n : Nat) (hn : 1 ≤ n) :
    n ≤ worst (d.actsOf x) r ↔ r ∈ d.reachedBy x ∧ 2 ≤ d.metAction x r ∧ n ≤ d.metAction x r := by
  unfold worst
  rw [le_foldl_max_iff]
  constructor
  · rintro (h | ⟨y, hy, h⟩)
    · omega
    · obtain ⟨a, ha, rfl⟩ := List.mem_map.mp hy
      obtain ⟨hmem, hrail⟩ := List.mem_filter.mp ha
      obtain ⟨g, hg, rfl⟩ := List.mem_map.mp hmem
      obtain ⟨hhit, hsevere⟩ := List.mem_filter.mp hg
      obtain ⟨k, hk, rfl⟩ := List.mem_map.mp hhit
      obtain rfl : k = r := beq_iff_eq.mp hrail
      rw [decide_eq_true_eq, Dev.hitOn_action] at hsevere
      exact ⟨hk, hsevere, (Dev.hitOn_action d x k) ▸ h⟩
  · rintro ⟨hr, hsevere, h⟩
    refine .inr ⟨d.metAction x r, List.mem_map.mpr ⟨(r, d.metAction x r), List.mem_filter.mpr ⟨List.mem_map.mpr ⟨d.hitOn x r, ?_, ?_⟩, by simp⟩, rfl⟩, h⟩
    · exact List.mem_filter.mpr ⟨List.mem_map_of_mem hr, by rw [Dev.hitOn_action]; exact decide_eq_true hsevere⟩
    · rw [Dev.hitOn_action]
      rfl

theorem actedMode_low {a : Nat} (h : a < 2) (m : RailMode) : actedMode a m = m := by
  unfold actedMode
  rw [if_neg (by omega), if_neg (by omega)]

theorem Dev.worst_reached (d : Dev) (x : Seen) {r : RailIx} (hr : r ∈ d.reachedBy x) (m : RailMode) :
    actedMode (worst (d.actsOf x) r) m = actedMode (d.metAction x r) m := by
  by_cases h : 2 ≤ d.metAction x r
  · have hle := (d.le_worst x r (d.metAction x r) (by omega)).mpr ⟨hr, h, le_refl _⟩
    have hge := fun hn => ((d.le_worst x r (worst (d.actsOf x) r) hn).mp (le_refl _)).2.2
    rw [le_antisymm (hge (by omega)) hle]
  · have hworst : worst (d.actsOf x) r < 2 := by
      by_contra hn
      exact h ((d.le_worst x r 2 (by omega)).mp (by omega)).2.1
    rw [actedMode_low hworst, actedMode_low (by omega)]

theorem Dev.worst_unreached (d : Dev) (x : Seen) {r : RailIx} (hr : r ∉ d.reachedBy x) (m : RailMode) : actedMode (worst (d.actsOf x) r) m = m := by
  refine actedMode_low ?_ m
  by_contra hn
  exact hr ((d.le_worst x r 2 (by omega)).mp (by omega)).1

/-! ## The entries after the reaction -/

/-- The entries of a rail before and after a fault that it takes: one opens, escalates or merges (R410). -/
def Dev.EntryTaken (d d' : Dev) (x : Seen) (r : RailIx) (level : Nat) : Prop :=
  (d.entryOf r (d.clsOf x) = none → ∃ q, d'.entryOf r (d.clsOf x) = some { level := Fin.ofNat 5 level, seq := q }) ∧
  ∀ e : OpenEnt, d.entryOf r (d.clsOf x) = some e →
    (d.wideRail r = true → d'.entryOf r (d.clsOf x) = some { e with escalations := satInc e.escalations }) ∧
    (d.wideRail r = false → d'.entryOf r (d.clsOf x) = some { e with merges := satInc e.merges })

/-- A fault counted on a rail, and then opened there. -/
theorem Dev.entryTaken_of_steps {d d' : Dev} {x : Seen} {r : RailIx} {level : Nat}
    (h : (d.hitOn x r).Opened (d.clsOf x) level ((d.hitOn x r).counted (d.clsOf x) d.fault.entries[r.val]) d'.fault.entries[r.val]) :
    d.EntryTaken d' x r level := by
  obtain ⟨hopen, hkeep⟩ := h
  have hfound := d.hitOn_found x r
  have hentry : ∀ e : Dev, e.entryOf r (d.clsOf x) = entryIn (d.clsOf x) e.fault.entries[r.val] := fun _ => rfl
  refine ⟨fun hnone => ?_, fun e hsome => ⟨fun hwide => ?_, fun hwide => ?_⟩⟩
  · rw [hnone] at hfound
    exact hopen hfound
  · rw [hsome, hwide] at hfound
    simp only [Option.isNone_some, Bool.false_eq_true, if_true, if_false] at hfound
    have hne : (d.hitOn x r).found ≠ .opens := by rw [hfound]; decide
    rw [hentry, hkeep hne, RailHit.counted, hfound, ← hentry, hsome]
    exact entryIn_putIn _ _ _
  · rw [hsome, hwide] at hfound
    simp only [Option.isNone_some, Bool.false_eq_true, if_false] at hfound
    have hne : (d.hitOn x r).found ≠ .opens := by rw [hfound]; decide
    rw [hentry, hkeep hne, RailHit.counted, hfound, ← hentry, hsome]
    exact entryIn_putIn _ _ _

/-- The fault is counted once as a merge, with any rail on which it merges. -/
theorem Dev.merges_any (d : Dev) (x : Seen) : (((d.entered x).map (d.hitOn x)).any fun h => h.found == .merges) =
    (d.entered x).any fun r => (d.entryOf r (d.clsOf x)).isSome && !d.wideRail r := by
  rw [List.any_map]
  refine congrArg (d.entered x).any (funext fun r => ?_)
  dsimp only [Function.comp]
  rw [Dev.hitOn_found]
  cases d.entryOf r (d.clsOf x) <;> cases d.wideRail r <;> rfl

/-- The merges counted after the fault. -/
def Dev.mergesAfter (d : Dev) (x : Seen) : BitVec 16 :=
  if (d.entered x).any fun r => (d.entryOf r (d.clsOf x)).isSome && !d.wideRail r then d.fault.merges + 1 else d.fault.merges

theorem Dev.countFault_leaves (d : Dev) (x : Seen) : let c := d.countFault x
    (∀ r : RailIx, (r ∈ d.entered x → c.fault.entries[r.val] = (d.hitOn x r).counted (d.clsOf x) d.fault.entries[r.val]) ∧
      (r ∉ d.entered x → c.fault.entries[r.val] = d.fault.entries[r.val])) ∧
    c.fault.merges = d.mergesAfter x ∧ c.fault.reactions = d.fault.reactions ∧ d.onlyIn c [.lantern, .fault, .free, .banks] := by
  obtain ⟨⟨hmerges, hreactions, hframe⟩, hentries⟩ :=
    d.countEntries_changed (d.clsOf x) (hit := d.hitOn x) (fun _ => rfl) (d.entered_nodup x)
  unfold Dev.countFault Dev.mergesAfter
  rw [Dev.merges_any]
  by_cases hany : ((d.entered x).any fun r => (d.entryOf r (d.clsOf x)).isSome && !d.wideRail r) = true
  · rw [if_pos hany, if_pos hany]
    exact ⟨hentries, congrArg (· + 1) hmerges, hreactions, hframe.thenIn (Dev.onlyIn_fault _ _)⟩
  · rw [if_neg hany, if_neg hany]
    exact ⟨hentries, hmerges, hreactions, hframe⟩

/-- The records of a reaction open an entry on each rail on which the fault finds none. -/
theorem Dev.recordFault_opens (d : Dev) (x : Seen) : ∃ level : RailIx → Nat, (¬4 ≤ d.topOf x → ∀ r, level r = d.metLevel x r) ∧
    (d.countFault x).EntriesChanged (d.recordFault x) (d.entered x) fun r => (d.hitOn x r).Opened (d.clsOf x) (level r) := by
  unfold Dev.recordFault
  extract_lets w
  have hw : (d.countFault x).Recorded w.2 := (d.countFault x).faultRecord_recorded x _ _ _ _
  clear_value w
  have hafter : ∀ {e : Dev} {R : RailIx → List (BitVec 5 × OpenEnt) → List (BitVec 5 × OpenEnt) → Prop}, w.2.EntriesChanged e (d.entered x) R →
      (d.countFault x).EntriesChanged e (d.entered x) R := fun h => by
    refine ⟨hw.entered.trans h.1, fun r => ?_⟩
    rw [← hw.1.1]
    exact h.2 r
  split
  · next htop =>
    obtain ⟨level, h⟩ := w.2.reactDevice_changed x (d.clsOf x) ((d.winOf x).map (·.1)) w.1 (d.topOf x) (hit := d.hitOn x) (fun _ => rfl) (d.entered_nodup x)
    exact ⟨fun _ => level, fun hn => absurd htop hn, hafter h⟩
  · have h := w.2.reactRails_changed x (d.clsOf x) ((d.winOf x).map (·.1)) w.1 (hit := d.hitOn x) (fun _ => rfl) (d.entered_nodup x)
    exact ⟨fun r => (d.hitOn x r).level, fun _ r => d.hitOn_level x r, hafter h⟩

theorem Dev.countReaction_leaves (e : Dev) (top : Nat) : let d' := e.countReaction top
    d'.fault.entries = e.fault.entries ∧ d'.fault.merges = e.fault.merges ∧ (2 ≤ top → d'.fault.reactions = e.fault.reactions + 1) ∧ e.onlyIn d' [.fault] := by
  unfold Dev.countReaction
  split
  · exact ⟨rfl, rfl, fun _ => rfl, e.onlyIn_fault _⟩
  · next h => exact ⟨rfl, rfl, fun h' => absurd h' h, e.onlyIn_refl _⟩

theorem Dev.stopByFault_onlyIn (d : Dev) (level : Nat) (hs : List RailHit) : d.onlyIn (d.stopByFault level hs) [.tile] := by
  unfold Dev.stopByFault
  exact Dev.onlyIn_ite (d.onlyIn_tile _)

theorem Dev.noteReaction_leaves (e : Dev) (x : Seen) (top level : Nat) (acts : List (RailIx × Nat)) (hs : List RailHit) :
    let d' := e.noteReaction x top level acts hs
    d'.fault.entries = e.fault.entries ∧ d'.fault.merges = e.fault.merges ∧ (2 ≤ top → d'.fault.reactions = e.fault.reactions + 1) ∧ e.onlyIn d' [.fault, .tile] := by
  obtain ⟨hentries, hmerges, hreactions, hframe⟩ := e.countReaction_leaves top
  unfold Dev.noteReaction
  generalize e.countReaction top = counted at hentries hmerges hreactions hframe ⊢
  have hreach : e.onlyIn (counted.addReach x.src (if 4 ≤ top then allRails.filter counted.railDefined else acts.map (·.1))) [.fault] :=
    hframe.thenIn (counted.onlyIn_fault _)
  have hstop := Dev.stopByFault_onlyIn (counted.addReach x.src (if 4 ≤ top then allRails.filter counted.railDefined else acts.map (·.1))) level hs
  have hfault := hstop .fault (by decide)
  exact ⟨(congrArg FaultMgr.entries hfault).trans hentries, (congrArg FaultMgr.merges hfault).trans hmerges,
    fun h => (congrArg FaultMgr.reactions hfault).trans (hreactions h), hreach.andThen hstop⟩

/-- The device after a fault has been matched and recorded, before its actions. -/
def Dev.matched (d : Dev) (x : Seen) : Dev :=
  (d.recordFault x).noteReaction x (d.topOf x) (d.srcLevel x.src) (d.actsOf x) ((d.entered x).map (d.hitOn x))

theorem Dev.matched_leaves (d : Dev) (x : Seen) : let e := d.matched x
    (∀ r : RailIx, (r ∈ d.entered x → ∃ level, d.EntryTaken e x r level ∧ (¬4 ≤ d.topOf x → level = d.metLevel x r)) ∧
      (r ∉ d.entered x → e.fault.entries[r.val] = d.fault.entries[r.val])) ∧
    e.fault.merges = d.mergesAfter x ∧ (2 ≤ d.topOf x → e.fault.reactions = d.fault.reactions + 1) ∧ e.rails = d.rails ∧ e.sys = d.sys := by
  obtain ⟨hcounted, hmerges, hreactions, hframe⟩ := d.countFault_leaves x
  obtain ⟨level, hlevel, ⟨hmerges', hreactions', hframe'⟩, hopened⟩ := d.recordFault_opens x
  obtain ⟨hentries, hmerges'', hreactions'', hframe''⟩ := (d.recordFault x).noteReaction_leaves x (d.topOf x) (d.srcLevel x.src) (d.actsOf x)
    ((d.entered x).map (d.hitOn x))
  refine ⟨fun r => ⟨fun hr => ⟨level r, Dev.entryTaken_of_steps ?_, fun h => hlevel h r⟩, fun hr => ?_⟩, ?_, fun h => ?_, ?_, ?_⟩
  · have hopen := (hopened r).1 hr
    rw [(hcounted r).1 hr] at hopen
    rw [Dev.matched, hentries]
    exact hopen
  · rw [Dev.matched, hentries, (hopened r).2 hr, (hcounted r).2 hr]
  · exact hmerges''.trans (hmerges'.trans hmerges)
  · exact (hreactions'' h).trans (congrArg (· + 1) (hreactions'.trans hreactions))
  · exact (hframe'' .rails (by decide)).trans ((hframe' .rails (by decide)).trans (hframe .rails (by decide)))
  · exact (hframe'' .sys (by decide)).trans ((hframe' .sys (by decide)).trans (hframe .sys (by decide)))

/-! ## The reaction as a whole -/

theorem Dev.markHold_onlyIn (d : Dev) : d.onlyIn d.markHold [.chord] := by
  unfold Dev.markHold
  split
  · exact d.onlyIn_chord _
  · exact Dev.onlyIn_ite (d.onlyIn_chord _)

theorem worst_nil (r : RailIx) : worst [] r = 0 := rfl

/-- What remains of a device that reacts to one fault, with the actions taken (R408, R411). -/
def Dev.reactTo (d : Dev) (x : Seen) : Dev := allRails.foldl (fun e r => e.railAction r (worst (d.reactOne x).2 r)) (d.reactOne x).1

theorem Dev.reactDue_one {d : Dev} {x : Seen} (hb : d.sys.devState ≠ .boot) (hdue : d.fault.due = [x]) (ht : x.tick < d.cycleTick) :
    d.reactDue = ({ d with fault := { d.fault with due := [] } } : Dev).reactTo x := by
  have hpast : decide (x.tick < d.cycleTick) = true := decide_eq_true ht
  unfold Dev.reactDue
  rw [if_neg hb, hdue]
  simp only [List.filter_cons, hpast, if_true, List.filter_nil, Bool.not_true, Bool.false_eq_true, if_false,
    show sortBy seenKey [x] = [x] from rfl, List.foldl_cons, List.foldl_nil, List.nil_append]
  rfl

theorem Dev.reactTo_rails {d : Dev} {x : Seen} (h : d.tile.tiled = true) (htop : ¬4 ≤ d.topOf x) :
    d.reactTo x = allRails.foldl (fun e r => e.railAction r (worst (d.actsOf x) r)) (d.matched x) := by
  have hone : d.reactOne x = (d.matched x, d.actsOf x) := (Dev.reactOne_eq x h).trans (if_neg htop)
  rw [Dev.reactTo, hone]

theorem Dev.reactTo_device {d : Dev} {x : Seen} (h : d.tile.tiled = true) (htop : 4 ≤ d.topOf x) : ∃ e : Dev,
    ((d.matched x).deviceAction (d.topOf x == 5) x.tick x.tbu).onlyIn e [.chord] ∧
      d.reactTo x = allRails.foldl (fun e r => e.railAction r (worst [] r)) e := by
  refine ⟨if d.topOf x = 5 then ((d.matched x).deviceAction (d.topOf x == 5) x.tick x.tbu).markHold
    else (d.matched x).deviceAction (d.topOf x == 5) x.tick x.tbu, Dev.onlyIn_ite (Dev.markHold_onlyIn _), ?_⟩
  have hone := (Dev.reactOne_eq x h).trans (if_pos htop)
  rw [Dev.reactTo, hone]
  rfl

/-- What the actions of a fault leave: the modes, the device state, and the entries as the match left them (R408). -/
theorem Dev.reactTo_leaves {d : Dev} (x : Seen) (h : d.tile.tiled = true) : let d' := d.reactTo x
    (d.matched x).KeepsOpen d' ∧
    (¬d.deviceReacts x → d'.sys.devState = d.sys.devState ∧ ∀ r : RailIx, d'.rails[r.val].mode = actedMode (worst (d.actsOf x) r) d.rails[r.val].mode) ∧
    (d.deviceReacts x → (∀ r : RailIx, d'.rails[r.val].mode = actedMode 4 d.rails[r.val].mode) ∧
      (d.sys.devState = .standby ∨ d.sys.devState = .run →
        d'.sys.devState = .latched ∧ (d.chainReacts x → d'.sys.latchCause = 2) ∧ (¬d.chainReacts x → d'.sys.latchCause = 1)) ∧
      (d.sys.devState = .maint → d'.sys.devState = .maint)) := by
  obtain ⟨-, -, -, hrails, hsys⟩ := d.matched_leaves x
  rw [← Dev.topOf_device x h, ← Dev.topOf_chain x h]
  by_cases htop : 4 ≤ d.topOf x
  · obtain ⟨e, he, hreact⟩ := Dev.reactTo_device h htop
    obtain ⟨hmodes, hkeeps, hlatched, hmaint⟩ := (d.matched x).deviceAction_leaves (d.topOf x == 5) x.tick x.tbu
    obtain ⟨hmodes', hsys', hkeeps'⟩ := e.railActions_acted fun r => worst [] r
    rw [← hreact] at hmodes' hsys' hkeeps'
    have hdevice : (d.reactTo x).sys = ((d.matched x).deviceAction (d.topOf x == 5) x.tick x.tbu).sys := hsys'.trans (he .sys (by decide))
    refine ⟨(hkeeps.trans (Dev.keepsOpen_of_onlyIn he)).trans hkeeps', fun hn => absurd htop hn, fun _ => ⟨fun r => ?_, fun hs => ?_, fun hs => ?_⟩⟩
    · rw [hmodes' r, actedMode_low (by rw [worst_nil]; decide), he.rails_eq, hmodes r, hrails]
    · rw [← hsys] at hs
      obtain ⟨hstate, hcause⟩ := hlatched hs
      rw [hdevice]
      have hle := Dev.topOf_le x h
      refine ⟨hstate, fun hc => ?_, fun hc => ?_⟩
      · rw [hcause, if_pos (by rw [beq_iff_eq]; omega)]
      · rw [hcause, if_neg (by rw [beq_iff_eq]; omega)]
    · rw [hdevice]
      exact hmaint (by rw [hsys]; exact hs)
  · obtain ⟨hmodes, hsys', hkeeps⟩ := (d.matched x).railActions_acted fun r => worst (d.actsOf x) r
    rw [← Dev.reactTo_rails h htop] at hmodes hsys' hkeeps
    refine ⟨hkeeps, fun _ => ⟨?_, fun r => ?_⟩, fun hn => absurd hn htop⟩
    · rw [hsys', hsys]
    · rw [hmodes r, hrails]

theorem Dev.EntryTaken.of_entries {d e d' : Dev} {x : Seen} {r : RailIx} {level : Nat} (h : d.EntryTaken e x r level) (he : d'.fault.entries = e.fault.entries) :
    d.EntryTaken d' x r level := by
  have hentry : d'.entryOf r (d.clsOf x) = e.entryOf r (d.clsOf x) := by rw [Dev.entryOf, he, Dev.entryOf]
  rw [Dev.EntryTaken, hentry]
  exact h

theorem Dev.metLevel_opens {d : Dev} {x : Seen} {r : RailIx} (h : d.entryOf r (d.clsOf x) = none) : d.metLevel x r = d.srcLevel x.src := by
  unfold Dev.metLevel
  rw [h]
  simp only [Option.isSome_none, Bool.false_and, Bool.false_eq_true, if_false]
  split
  · next h0 => exact h0.symm
  · rfl

theorem Dev.entered_of_level {d : Dev} {x : Seen} (h : d.srcLevel x.src ≠ 0) : d.entered x = d.reachedBy x := if_neg h
theorem Dev.entered_of_level_zero {d : Dev} {x : Seen} (h : d.srcLevel x.src = 0) : d.entered x = [] := if_pos h

/-- The entries of a rail that a fault of a level above 0 reaches. -/
theorem Dev.EntryTaken.opens_or_counts {d d' : Dev} {x : Seen} {r : RailIx} {level : Nat} (h : d.EntryTaken d' x r level) (ht : d.tile.tiled = true)
    (hl : ¬4 ≤ d.topOf x → level = d.metLevel x r) :
    (d.entryOf r (d.clsOf x) = none → ∃ e, d'.entryOf r (d.clsOf x) = some e ∧ e.merges = 0 ∧ e.escalations = 0 ∧ (¬d.deviceReacts x → e.level.val = d.srcLevel x.src)) := by
  intro hnone
  obtain ⟨q, hq⟩ := h.1 hnone
  refine ⟨_, hq, rfl, rfl, fun hdevice => ?_⟩
  have hlevel := d.srcLevel_le x.src ht
  rw [hl (by rw [Dev.topOf_device x ht]; exact hdevice), Dev.metLevel_opens hnone]
  exact Nat.mod_eq_of_lt (by omega)

/-- A reaction is counted when it acts on the device, or on a rail with an action of 2 and above. -/
theorem Dev.topOf_counts {d : Dev} {x : Seen} (h : d.tile.tiled = true) (hact : d.deviceReacts x ∨ ∃ r ∈ d.reachedBy x, 2 ≤ d.metAction x r) : 2 ≤ d.topOf x := by
  obtain hdevice | hrail := hact
  · have htop := (Dev.topOf_device x h).mpr hdevice
    omega
  · exact (d.le_topOf x 2).mpr (.inr (.inr hrail))

/-- The reaction to a fault comes to what `Dev.Reacted` says. -/
theorem Dev.reactTo_reacted {d : Dev} (x : Seen) (h : d.tile.tiled = true) : d.Reacted (d.reactTo x) x := by
  obtain ⟨hkeeps, hrails, hdevice⟩ := Dev.reactTo_leaves x h
  obtain ⟨hentries, hmerges, hreactions, -, -⟩ := d.matched_leaves x
  obtain ⟨hentries', hmerges', hreactions'⟩ := hkeeps
  refine ⟨fun hn => ⟨(hrails hn).1, fun r hr => ((hrails hn).2 r).trans (d.worst_reached x hr _), fun r hr => ((hrails hn).2 r).trans (d.worst_unreached x hr _)⟩,
    hdevice, fun hact => hreactions'.trans (hreactions (Dev.topOf_counts h hact)), fun h0 => ⟨?_, ?_⟩, fun hl => ⟨fun r hr => ?_, fun r hr => ?_, ?_⟩⟩
  · rw [hentries']
    refine Vector.ext fun i hi => (hentries ⟨i, hi⟩).2 ?_
    rw [Dev.entered_of_level_zero h0]
    exact List.not_mem_nil
  · rw [hmerges', hmerges, Dev.mergesAfter, Dev.entered_of_level_zero h0]
    rfl
  · refine (congrArg (fun v : Vector _ 8 => v[r.val]) hentries').trans ((hentries r).2 ?_)
    rw [Dev.entered_of_level hl]
    exact hr
  · obtain ⟨level, htaken, hlevel⟩ := (hentries r).1 (by rw [Dev.entered_of_level hl]; exact hr)
    have htaken' := htaken.of_entries hentries'
    exact ⟨htaken'.opens_or_counts h hlevel, htaken'.2⟩
  · rw [hmerges', hmerges, Dev.mergesAfter, Dev.entered_of_level hl]
    rfl

end Sys2Proof.Machine
end

section
/-! SUPPORT. The commands of fault collection. -/

namespace Sys2Proof.Machine

open Sys2Proof

/-- In BOOT, and of a source that is not there, nothing is said. -/
theorem Dev.faultRaise_absent {d : Dev} {k : SrcIx} (inst : PhaseIx) (on : Bool) (h : d.sys.devState = .boot ∨ srcDefined k = false ∨ d.srcLives k = false) :
    d.faultRaise k inst on = d := by
  refine if_pos ?_
  obtain h | h | h := h <;> simp [h]

/-- The end of an event is no event. -/
theorem Dev.faultRaise_eventEnd (d : Dev) {k : SrcIx} (inst : PhaseIx) (h : srcEvent k = true) : d.faultRaise k inst false = d := by
  unfold Dev.faultRaise
  dsimp only
  rw [h]
  split <;> rfl

theorem exec_faultRaise_runs (s : State) (t : Tick) (k : SrcIx) (inst : PhaseIx) (on : Bool) :
    exec (.faultRaise t k inst on) s = .next (s.after t ((s.dev.advance t).faultRaise k inst on)) := rfl

/-- A register write of the host that is always taken. -/
theorem exec_faultForce_runs {s : State} {t : Tick} {w : Fin 8} {v : Word} (h : (s.dev.advance t).takesHost (.faultForce t w v)) :
    exec (.faultForce t w v) s = .next (s.after t (((s.dev.advance t).writeForce w v).1.reply stOk)) :=
  exec_faultForce.trans (State.hostWrite_next h rfl)

theorem exec_faultAck_runs {s : State} {t : Tick} {r : RailIx} {v : Word} (h : (s.dev.advance t).takesHost (.faultAck t r v)) :
    exec (.faultAck t r v) s = .next (s.after t (((s.dev.advance t).ackMask r v).reply stOk)) :=
  exec_faultAck.trans (State.hostWrite_next h rfl)

/-- The response to a write leaves the fault manager alone. -/
theorem Dev.reply_fault (d : Dev) (st : Byte) (data : List Byte) : (d.reply st data).fault = d.fault := d.reply_onlyIn st data .fault (by decide)

theorem Dev.Forced.onlyIn {d e : Dev} {ks : List SrcIx} {on : SrcIx → Bool} (h : d.Forced e ks on) : d.onlyIn e [.fault] := by
  rw [h.rest]
  exact d.onlyIn_fault _

/-- The faults that the forces have raised. -/
theorem Dev.Forced.mem_seen {d e : Dev} {ks : List SrcIx} {on : SrcIx → Bool} (h : d.Forced e ks on) {f : Seen} :
    f ∈ e.fault.seen ↔ f ∈ d.fault.seen ∨ ∃ k ∈ ks, d.forceRises (on k) k = true ∧ d.forcedFault k = f := by
  rw [h.seen]
  simp only [List.mem_append, List.mem_map, List.mem_filter, and_assoc]

theorem Dev.forceRises_iff (d : Dev) (on : Bool) (k : SrcIx) : d.forceRises on k = true ↔ srcDefined k = true ∧ d.fault.src[k.val].force = false ∧ on = true ∧
    d.causeOf k (d.fault.finst k) = false ∧ d.faultNow k (d.fault.finst k) = false := by
  simp [Dev.forceRises, and_assoc]

end Sys2Proof.Machine

open Sys2Proof Sys2Proof.Machine

/-- Settles O49: causes by `Dev.faultRaise_leaves`, forces by `Dev.writeForce_forced`, acknowledgements by `Dev.ackMask_leaves`, the fault seen by
    `Dev.takeSeen_one`, and its reaction by `Dev.advance_reacts`, `bestReaction_wins` and `Dev.reactTo_reacted`. -/
theorem causesForcesAndAcknowledgements : Obligations.CausesForcesAndAcknowledgements := by
  refine ⟨?_, ?_, ?_, ?_, fun d t => Dev.advance_reacts, bestReaction_wins, ?_⟩
  · intro s t k inst on d i f present fault
    have hraise := exec_faultRaise_runs s t k inst on
    refine ⟨fun h => ?_, fun he hon => ?_, fun hb hd hl hon => ⟨d.faultRaise k inst on, hraise, ?_⟩⟩
    · rw [hraise, Dev.faultRaise_absent inst on h]
    · rw [hraise, hon, Dev.faultRaise_eventEnd _ inst he]
    · obtain ⟨hsrc, hcause, hseen, hevents, hframe⟩ := Dev.faultRaise_leaves (inst := inst) hb hd hl hon
      exact ⟨(hsrc k).trans (if_pos rfl), fun k' hk => (hsrc k').trans (if_neg hk), hcause, hseen, hevents, hframe⟩
  · intro s t w v d hh
    have hforced := d.writeForce_forced w v
    refine ⟨(d.writeForce w v).1.reply stOk, exec_faultForce_runs hh, Dev.reply_lastStatus _ _ _, ?_⟩
    rw [Dev.reply_fault]
    refine ⟨fun k => ?_, fun k hk hd hbit hforce hcause hnow => ?_, fun f hf hnew => ?_, hforced.cause, hforced.onlyIn.andThen (Dev.reply_onlyIn _ _ _)⟩
    · exact (hforced.force k).trans (if_congr (and_congr_left' (mem_forceSources w k)) rfl rfl)
    · exact ⟨d.forcedFault k, hforced.mem_seen.mpr (.inr ⟨k, (mem_forceSources w k).mpr hk, (d.forceRises_iff _ k).mpr ⟨hd, hforce, hbit, hcause, hnow⟩, rfl⟩),
        rfl, rfl, rfl, rfl⟩
    · obtain ⟨k, hk, hrises, rfl⟩ := (hforced.mem_seen.mp hf).resolve_left hnew
      obtain ⟨-, -, hbit, hcause, -⟩ := (d.forceRises_iff _ k).mp hrises
      exact ⟨rfl, (mem_forceSources w k).mp hk, hbit, hcause⟩
  · intro s t r v d hh
    obtain ⟨hentries, hothers, hsrc, hframe⟩ := d.ackMask_leaves r v
    refine ⟨(d.ackMask r v).reply stOk, exec_faultAck_runs hh, Dev.reply_lastStatus _ _ _, ?_⟩
    rw [Dev.reply_fault]
    exact ⟨hentries, hothers, hsrc, hframe.andThen (Dev.reply_onlyIn _ _ _)⟩
  · intro d x hb hs ht d'
    have hd' : d' = _ := Dev.takeSeen_one hb hs ht
    obtain ⟨hfault, hevents, hframe⟩ :=
      ({ d with fault := { d.fault with seen := [], due := d.fault.due ++ [x] } } : Dev).markFault_leaves x.src
    rw [← hd'] at hfault hevents hframe
    refine ⟨by rw [hfault], by rw [hfault], ?_, hevents, (d.onlyIn_fault _).thenIn hframe⟩
    rw [hfault]
    exact upd_get_same _ _ _
  · intro d x hb ht hdue hpast
    rw [Dev.reactDue_one hb hdue hpast]
    exact Dev.reactTo_reacted (d := { d with fault := { d.fault with due := [] } }) x ht

end

section
/-! SUPPORT. The units of an image load. -/

-- The declarations are elaborated one after the other: as tasks of their own they take more threads than the check has memory for.
set_option Elab.async false

namespace Sys2Proof.Machine

open Sys2Proof

/-! ## The units of a load (R160, R161) -/

/-- The device takes units, and the unit has a length that a unit may have. -/
structure Dev.TakesUnit (d : Dev) (data : List Byte) : Prop where
  state : d.sys.devState ≠ .boot
  loading : d.tile.loading = none
  verify : d.tile.verify = none
  retile : d.tile.rt.active = false
  completing : d.tile.completing = false
  words : data.length % 4 = 0
  nonempty : data.length ≠ 0
  most : data.length ≤ 128

theorem Dev.TakesUnit.guard {d : Dev} {data : List Byte} (h : d.TakesUnit data) :
    (d.sys.devState == .boot || d.tile.loading.isSome || d.tile.verify.isSome || d.tile.rt.active || d.tile.completing ||
      data.isEmpty || data.length % 4 != 0 || decide (128 < data.length)) = false := by
  have hne : data ≠ [] := fun e => h.nonempty (by simp [e])
  simp [h.state, h.loading, h.verify, h.retile, h.completing, h.words, h.most, hne]

theorem Dev.tileBlock_first {d : Dev} {data : List Byte} (h : d.TakesUnit data) : d.tileBlock 0 data = d.openLoad data := by
  simp only [Dev.tileBlock, h.guard]; rfl

theorem Dev.tileBlock_next {d : Dev} {data : List Byte} {off : Nat} {l : Load} (h : d.TakesUnit data) (ho : off ≠ 0) (hl : d.tile.load = some l) :
    d.tileBlock off data = d.addUnit l off data := by
  simp only [Dev.tileBlock, h.guard, if_neg ho, hl]; rfl

theorem Dev.openLoad_opens (d : Dev) {data : List Byte} (hlen : data.length = 128) (hc : headerCheck data none = 0) : d.openLoad data =
    Dev.reply { d with tile := { d.tile with load := some { bytes := data, total := imgLen data } } } stOk := by
  simp [Dev.openLoad, hlen, hc, Dev.updTile]

theorem Dev.addUnit_misplaced (d : Dev) {l : Load} {off : Nat} (data : List Byte) (h : off ≠ l.bytes.length) : d.addUnit l off data = d.reply stState :=
  if_pos (Or.inl h)

/-- A unit in its place, of a length that it may have there: the last completes the load, one before it joins. -/
theorem Dev.addUnit_inPlace (d : Dev) {l : Load} {data : List Byte} (hfits : l.bytes.length + data.length ≤ l.total)
    (hlen : data.length = 128 ∨ l.bytes.length + data.length = l.total) : d.addUnit l l.bytes.length data =
    if l.bytes.length + data.length = l.total then d.completeLoad { l with bytes := l.bytes ++ data }
    else Dev.reply { d with tile := { d.tile with load := some { l with bytes := l.bytes ++ data } } } stOk := by
  have hplaced : ¬(l.bytes.length ≠ l.bytes.length ∨ l.total < l.bytes.length + data.length ∨
      (data.length ≠ 128 ∧ l.bytes.length + data.length ≠ l.total)) := by omega
  unfold Dev.addUnit
  rw [if_neg hplaced]
  rfl

/-- The image of a complete load passes its checks: it waits for leave to be verified, and the link waits with it. -/
theorem Dev.completeLoad_asks (d : Dev) {l : Load} {full : List Byte} (hc : loadCheck l.bytes d.tile.runBytes = .ok full)
    (hq : d.leave.queue.length < 32) (hb : 300 ≤ d.leave.budget.toNat) : d.completeLoad l = { d with
      tile := { d.tile with load := some { l with stage := some .leaveSig, full := full } }
      leave := { d.leave with queue := d.joinQueue { kind := .signature, target := leaveAll, arrival := d.clk.now } }
      trust := { d.trust with waiting := d.trust.waiting ++ [.load] }, link := { d.link with holding := true } } := by
  unfold Dev.completeLoad
  extract_lets held
  have hcheck : loadCheck l.bytes held.tile.runBytes = .ok full := hc
  rw [hcheck]
  dsimp only
  rw [held.askTrust_joins .load hq hb]
  rfl

theorem exec_tileBlock_next {s : State} {t : Tick} {off : Word} {data : List Byte} {d : Dev} (hh : (s.dev.advance t).takesHost (.tileBlock t off data))
    (h : (s.dev.advance t).tileBlock off.toNat data = d) : exec (.tileBlock t off data) s = .next (s.after t d) := by
  rw [exec_tileBlock]
  exact State.host_next hh h

end Sys2Proof.Machine

open Sys2Proof Sys2Proof.Machine

/-- Settles O17: the first unit by `Dev.openLoad_opens`, the next and the last by `Dev.addUnit_inPlace` and `Dev.completeLoad_asks`. -/
theorem imageLoadsTakeTheirUnits : Obligations.ImageLoadsTakeTheirUnits := by
  intro s t off data d hh hstate hloading hverify hretile hcompleting hwords hne hmost
  have hunit : d.TakesUnit data := ⟨hstate, hloading, hverify, hretile, hcompleting, hwords, hne, hmost⟩
  have hzero : ∀ {x : Word}, x ≠ 0 → x.toNat ≠ 0 := fun hx h => hx (BitVec.eq_of_toNat_eq h)
  refine ⟨fun ho hlen hc => exec_tileBlock_next hh ?_, fun l hl hplace ho hlen hmore => exec_tileBlock_next hh ?_,
    fun l full hl hplace ho hlast hc hq hb => exec_tileBlock_next hh ?_, fun l hl hplace ho => exec_tileBlock_next hh ?_⟩
  · subst ho
    exact (Dev.tileBlock_first hunit).trans (d.openLoad_opens hlen hc)
  · rw [Dev.tileBlock_next hunit (hzero ho) hl, hplace, d.addUnit_inPlace (by omega) (Or.inl hlen), if_neg (by omega)]
  · rw [Dev.tileBlock_next hunit (hzero ho) hl, hplace, d.addUnit_inPlace hlast.le (Or.inr hlast), if_pos hlast, Dev.completeLoad_asks d hc hq hb]
  · rw [Dev.tileBlock_next hunit (hzero ho) hl, d.addUnit_misplaced data hplace]

end

section
/-! SUPPORT. The end of an image's write to MRAM, ABORT and VERIFY. -/

-- The declarations are elaborated one after the other: as tasks of their own they take more threads than the check has memory for.
set_option Elab.async false

namespace Sys2Proof.Machine

open Sys2Proof

/-! ## Slots -/

@[simp] theorem Tile.updSlot_same (t : Tile) (b : Bool) (f : Slot → Slot) : (t.updSlot b f).slot b = f (t.slot b) := by
  cases b <;> rfl

/-! ## The end of a load (R161, R162) -/

/-- A record and the response that follows it say what has happened, and change nothing of an image or of a leave. -/
theorem Dev.note_reply_leaves (d : Dev) (code : Nat) (level : Fin 5) (source : Nat) (data : List Byte) (st : Byte) :
    let d' := (d.note code level source data).reply st
    d'.tile = d.tile ∧ d'.leave = d.leave ∧ d'.link.lastStatus = st ∧ d.onlyIn d' [.lantern, .fault, .link] := by
  have h : d.onlyIn ((d.note code level source data).reply st) [.lantern, .fault, .link] := (d.note_onlyIn code level source data).andThen (Dev.reply_onlyIn _ _ _)
  exact ⟨h.tile_eq, h .leave (by decide), Dev.reply_lastStatus _ _ _, h⟩

/-- The write of a load has ended: its leave is released, the load is over, and the load slot stands as `f` makes it. -/
def Dev.endWrite (d : Dev) (f : Slot → Slot) : Dev :=
  (d.releaseLeave .mram leaveAll).updTile fun t => { t.updSlot d.tile.loadB f with load := none }

theorem Dev.endWrite_onlyIn (d : Dev) (f : Slot → Slot) : d.onlyIn (d.endWrite f) [.tile, .leave] :=
  (d.onlyIn_leave _).andThen (Dev.onlyIn_tile _ _)

theorem Dev.endWrite_slot (d : Dev) (f : Slot → Slot) : (d.endWrite f).tile.slot d.tile.loadB = f (d.tile.slot d.tile.loadB) :=
  d.tile.updSlot_same d.tile.loadB f

theorem Dev.endWrite_other (d : Dev) (f : Slot → Slot) : (d.endWrite f).tile.slot (!d.tile.loadB) = d.tile.slot (!d.tile.loadB) :=
  d.tile.updSlot_other d.tile.loadB f

theorem Dev.mramDone_written {d : Dev} {l : Load} (hl : d.tile.load = some l) (hstage : l.stage = some .mram) (hs : l.silent = false) : d.mramDone true =
    ((d.endWrite fun s => { s with bytes := l.full, recLen := some l.full.length, state := .valid }).note 0x0020 0 (slotNum d.tile.loadB)
      (leBytes 4 (imgGen l.full).toNat ++ [imgSigner l.full] ++ (imgDigest l.full).take 8)).reply stOk := by
  simp only [Dev.mramDone, hl, hstage, Load.answer, hs]
  rfl

theorem Dev.mramDone_failed {d : Dev} {l : Load} (hl : d.tile.load = some l) (hstage : l.stage = some .mram) (hs : l.silent = false) : d.mramDone false =
    (((d.endWrite fun s => { s with bytes := overlay l.full s.bytes, state := .invalid, reject := 18 }).updTile fun t => { t with lastReject := 18 }).note
      0x0021 1 0xFFFF [18]).reply (rejectStatus 18) := by
  simp only [Dev.mramDone, hl, hstage, Dev.rejectLoad, Load.answer, hs]
  rfl

theorem exec_mramBurstDone_next {s : State} {t : Tick} {ok : Bool} {d : Dev} (h : (s.dev.advance t).mramDone ok = d) :
    exec (.mramBurstDone t ok) s = .next (s.after t d) := by
  rw [exec_mramBurstDone]
  exact State.run_next h

/-! ## VERIFY (R163) -/

/-- The load slot is BUSY, what it was before is kept, and leave for the verification is asked for. -/
def Dev.askVerify (d : Dev) : Dev := { d with
  tile := { d.tile.updSlot d.tile.loadB fun s => { s with state := .busy, reject := 0 } with
    verify := some .leaveSig, verifyB := d.tile.loadB, verifyPrev := d.tile.loadSlot.state, verifyReject := d.tile.loadSlot.reject }
  leave := { d.leave with queue := d.joinQueue { kind := .signature, target := leaveAll, arrival := d.clk.now } }
  trust := { d.trust with waiting := d.trust.waiting ++ [.verify] } }

theorem Dev.askVerify_onlyIn (d : Dev) : d.onlyIn d.askVerify [.tile, .leave, .trust] := fun b hb => by
  cases b <;> simp_all [Dev.same, Dev.askVerify]

theorem Dev.tileVerify_asks {d : Dev} (hb : d.sys.devState ≠ .boot) (hl : d.tile.loading = none) (hv : d.tile.verify = none)
    (hc : d.tile.completing = false) (hr : d.tile.loadSlot.recLen.isSome = true) (hq : d.leave.queue.length < 32) (hbudget : 300 ≤ d.leave.budget.toNat) :
    d.tileVerify = (d.askVerify, stOk) := by
  have hrec : d.tile.loadSlot.recLen.isNone = false := by simpa using hr
  have hguard : (d.sys.devState == .boot || d.tile.loading.isSome || d.tile.verify.isSome || d.tile.completing || d.tile.loadSlot.recLen.isNone) = false := by
    simp [hb, hl, hv, hc, hrec]
  unfold Dev.tileVerify
  extract_lets t slot busy
  rw [if_neg (by rw [hguard]; exact Bool.false_ne_true), busy.askTrust_joins .verify hq hbudget]
  rfl

end Sys2Proof.Machine

open Sys2Proof Sys2Proof.Machine

/-- Settles O18: the end of a write by `Dev.mramDone_written` and `Dev.mramDone_failed`, whose record and answer leave the slots alone, and VERIFY
    by `Dev.tileVerify_asks`. That ABORT leaves a load whose cut-off write goes on is the model's choice (assumption 108). -/
theorem imageWriteAbortAndVerify : Obligations.ImageWriteAbortAndVerify := by
  refine ⟨?_, ?_⟩
  · intro s t l d hl hstage hs b
    refine ⟨⟨_, exec_mramBurstDone_next (Dev.mramDone_written hl hstage hs), ?_⟩, ⟨_, exec_mramBurstDone_next (Dev.mramDone_failed hl hstage hs), ?_⟩⟩
    · obtain ⟨htile, hleave, hstatus, hframe⟩ := Dev.note_reply_leaves
        (d.endWrite fun s => { s with bytes := l.full, recLen := some l.full.length, state := .valid }) 0x0020 0 (slotNum d.tile.loadB)
        (leBytes 4 (imgGen l.full).toNat ++ [imgSigner l.full] ++ (imgDigest l.full).take 8) stOk
      rw [htile, hleave]
      exact ⟨rfl, hstatus, d.endWrite_slot _, d.endWrite_other _, rfl, (d.endWrite_onlyIn _).andThen hframe⟩
    · obtain ⟨htile, -, hstatus, hframe⟩ := Dev.note_reply_leaves
        ((d.endWrite fun s => { s with bytes := overlay l.full s.bytes, state := .invalid, reject := 18 }).updTile fun t => { t with lastReject := 18 })
        0x0021 1 0xFFFF [18] (rejectStatus 18)
      rw [htile]
      exact ⟨rfl, hstatus, rfl, d.endWrite_slot _, d.endWrite_other _, ((d.endWrite_onlyIn _).thenIn (Dev.onlyIn_tile _ _)).andThen hframe⟩
  · intro s t d
    refine ⟨fun hh => ?_, fun hh hstate hloading hverify hcompleting hrec hq hbudget => ?_⟩
    · rw [exec_tileAbort]
      exact State.hostWrite_next hh rfl
    · have hasks := Dev.tileVerify_asks hstate hloading hverify hcompleting hrec hq hbudget
      have hreply := d.askVerify.reply_onlyIn stOk []
      have htrust : (d.askVerify.reply stOk).trust = d.askVerify.trust := hreply .trust (by decide)
      have hleave : (d.askVerify.reply stOk).leave = d.askVerify.leave := hreply .leave (by decide)
      refine ⟨_, exec_tileVerify.trans (State.hostWrite_next hh hasks), Dev.reply_lastStatus _ _ _, ?_⟩
      rw [hreply.tile_eq, htrust, hleave]
      exact ⟨rfl, d.tile.updSlot_same d.tile.loadB _, d.tile.updSlot_other d.tile.loadB _, rfl, rfl, d.askVerify_onlyIn.andThen hreply⟩

end

section
/-! SUPPORT. COMMIT, the structure that is loaded, and the exchange of the slots. -/

-- The declarations are elaborated one after the other: as tasks of their own they take more threads than the check has memory for.
set_option Elab.async false

namespace Sys2Proof.Machine

open Sys2Proof

/-! ## COMMIT (R164, R169, R182) -/

/-- The higher of two generations, as a comparison keeps it. -/
theorem ite_toNat_lt_eq_max {w : Nat} (x y : BitVec w) : (if x.toNat < y.toNat then y else x) = BitVec.ofNat w (max x.toNat y.toNat) := by
  split
  · rw [max_eq_right (by omega), BitVec.ofNat_toNat, BitVec.setWidth_eq]
  · rw [max_eq_left (by omega), BitVec.ofNat_toNat, BitVec.setWidth_eq]

/-- The mark names the load slot with the next count, and HIGH_GEN rises to its generation. -/
theorem Dev.markCommit_eq (d : Dev) : let m : Mark := { slotB := d.tile.loadB, count := d.tile.mark.count + 1 }
    d.markCommit = { d with tile := { d.tile with mark1 := m, mark2 := m, highGen := BitVec.ofNat 32 (max d.tile.highGen.toNat (imgGen d.tile.loadSlot.bytes).toNat) } } := by
  intro m
  rw [← ite_toNat_lt_eq_max]
  rfl

/-- A load, a verification or a retile is under way. -/
def Tile.busy (t : Tile) : Bool := t.loading.isSome || t.verify.isSome || t.rt.active

theorem Tile.commit_barred (t : Tile) : (t.loadSlot.state != .valid || t.loading.isSome || t.verify.isSome || t.rt.active) = true ↔
    t.loadSlot.state ≠ .valid ∨ t.busy = true := by
  simp [Tile.busy, or_assoc]

theorem Dev.tileCommit_refused {d : Dev} (h : d.tile.loadSlot.state ≠ .valid ∨ d.tile.busy = true) : d.tileCommit = (d, stState) :=
  if_pos (d.tile.commit_barred.mpr h)

theorem Dev.tileCommit_marks {d : Dev} (hv : d.tile.loadSlot.state = .valid) (hb : d.tile.busy = false)
    (hs : d.sys.devState = .untiled ∨ d.sys.devState = .standby ∨ d.sys.devState = .maint) : d.tileCommit = (d.markCommit.startLoading .commit, stOk) := by
  unfold Dev.tileCommit
  rw [if_neg (mt d.tile.commit_barred.mp (by simp [hv, hb]))]
  obtain hs | hs | hs := hs <;> rw [hs]

theorem Dev.tileCommit_plans {d : Dev} (hv : d.tile.loadSlot.state = .valid) (hb : d.tile.busy = false) (hs : d.sys.devState = .run)
    (hstopped : d.tile.rt.state ≠ .stopped) (hpartial : d.tile.rt.isPartial = false) : d.tileCommit =
      (d.updTile fun t => { t with rt := { t.rt with state := .planning, toward := false, stopAsked := none, goal := tilingOf t.loadSlot.content, goalId := imgId t.loadSlot.content } }, stOk) := by
  unfold Dev.tileCommit
  rw [if_neg (mt d.tile.commit_barred.mp (by simp [hv, hb])), hs]
  exact if_neg (by simp [hstopped, hpartial])

/-! ## The structure that is loaded (R165) -/

theorem Dev.structMasks_onlyIn (d : Dev) : d.onlyIn d.structMasks [.pwm, .leave] := by
  refine Dev.onlyIn_foldl _ (fun e n => ?_) _ d
  split
  · exact (e.setMask_onlyIn n _).into
  · exact (e.endHostOvr_onlyIn n).thenIn (Dev.setMask_onlyIn _ n _)

theorem Dev.placeAnew_onlyIn (d : Dev) : d.onlyIn (d.placeAll true) [.rails, .pwm] := by
  have hspread : d.onlyIn (allRails.foldl (fun d r => if d.railDefined r then d.respread r else d) d) [.rails, .pwm] :=
    Dev.onlyIn_foldl _ (fun e r => Dev.onlyIn_ite (e.respread_onlyIn r)) _ d
  refine hspread.thenIn (cs := [.pwm]) (Dev.onlyIn_foldl _ (fun e n => ?_) _ _)
  split
  · exact e.seat_onlyIn _ n
  · exact e.updPwm_onlyIn n _

/-- Every window of a tracker stays as it was written, and no calibration value changes. -/
theorem Sense.restart_leaves (x : Sense) (t : Tiling) (now : Tick) :
    (x.restart t now).cal = x.cal ∧ ∀ k : TrkIx, (x.restart t now).trks[k].win = x.trks[k].win :=
  ⟨rfl, fun k => by simp [Sense.restart]⟩

/-- The running structure is `t`, and its bindings begin afresh. -/
theorem Dev.loadStructure_leaves (d : Dev) (t : Tiling) : let d' := d.loadStructure t
    d'.tile = { d.tile with cur := t, rt := { d.tile.rt with isPartial := false, step := none, plan := [] } } ∧
      d'.sense = d.sense.restart t d.cycleTick ∧ d.onlyIn d' [.tile, .ports, .fault, .sense, .pwmg, .rails, .pwm, .leave, .loop] := by
  unfold Dev.loadStructure
  extract_lets now old installed sensed carried railed placed cleared d'
  have hports : (d.updTile fun x => { x with cur := t, rt := { x.rt with isPartial := false, step := none, plan := [] } }).onlyIn installed [.ports, .fault] :=
    Dev.dropPorts_onlyIn _ old
  have hrailed : sensed.onlyIn railed [.pwmg, .rails] := (sensed.onlyIn_pwmg _).andThen (carried.onlyIn_rails _)
  have hplaced : railed.onlyIn placed [.rails, .pwm, .leave, .loop] :=
    (railed.structMasks_onlyIn.andThen (Dev.placeAnew_onlyIn _) (es := [.rails, .pwm, .leave])).andThen (Dev.resetCtxs_onlyIn _)
  have hcleared : placed.onlyIn cleared [.loop, .fault] := placed.clearFabric_onlyIn
  have hcauses : cleared.onlyIn d' [.fault] :=
    (Dev.onlyIn_foldl _ (fun e r => e.setCause_onlyIn (srcLoopInput r) 0 false []) allRails cleared).thenIn (Dev.trimCauses_onlyIn _)
  have hplace : sensed.onlyIn d' [.pwmg, .rails, .pwm, .leave, .loop, .fault] :=
    (hrailed.andThen hplaced (es := [.pwmg, .rails, .pwm, .leave, .loop])).andThen (hcleared.thenIn hcauses)
  refine ⟨hplace.tile_eq.trans hports.tile_eq, (hplace .sense (by decide)).trans ?_, ?_⟩
  · exact congrArg (fun x : Sense => x.restart t now) (hports .sense (by decide))
  · exact (((d.onlyIn_tile _).andThen hports (es := [.tile, .ports, .fault])).andThen (installed.onlyIn_sense _) (es := [.tile, .ports, .fault, .sense])).andThen hplace

/-! ## The slots exchange (R165) -/

theorem Dev.exchange_leaves (d : Dev) (t : Tiling) : let d' := d.exchange t
    let id := imgId d.tile.loadSlot.content
    d'.tile = { d.tile with
      runB := d.tile.loadB, tiled := true, image := id, committed := t, cur := t, keptDigest := id.digest, keptGen := id.gen, dirty := !d.signerHeld id.signer
      rt := { d.tile.rt with isPartial := false, step := none, plan := [] } } ∧ d.onlyIn d' [.tile, .lantern, .fault] := by
  unfold Dev.exchange
  extract_lets b old id dirty exchanged dig d'
  have hnote : exchanged.onlyIn d' [.lantern, .fault] := exchanged.note_onlyIn _ _ _ _
  exact ⟨hnote.tile_eq, (d.onlyIn_tile _).andThen hnote⟩

theorem Dev.signerHeld_of_trust {d e : Dev} (h : e.trust = d.trust) (signer : Byte) : e.signerHeld signer = d.signerHeld signer := by
  simp only [Dev.signerHeld, h]

/-! ## The end of a direct commit (R165) -/

/-- The load slot's structure is loaded and its image runs; a retile that was refused or stopped before it is forgotten. -/
def Dev.takeLoadSlot (d : Dev) : Dev :=
  ((d.loadStructure (tilingOf d.tile.loadSlot.content)).exchange (tilingOf d.tile.loadSlot.content)).updTile fun x =>
    { x with rt := { x.rt with state := if x.rt.active then x.rt.state else .idle } }

/-- UNTILED ends with the first image. -/
def Dev.leaveUntiled (d : Dev) : Dev := if d.sys.devState = .untiled then d.setState .standby else d

/-- Nothing is loaded any more, and RDY is low for it no longer. -/
def Dev.endLoading (d : Dev) : Dev := (d.updTile fun t => { t with loading := none }).updSys fun s => { s with rdyLowCommit := false }

@[simp] theorem Dev.endLoading_tile (d : Dev) : d.endLoading.tile = { d.tile with loading := none } := rfl
@[simp] theorem Dev.endLoading_sys (d : Dev) : d.endLoading.sys = { d.sys with rdyLowCommit := false } := rfl
@[simp] theorem Dev.endLoading_sense (d : Dev) : d.endLoading.sense = d.sense := rfl

theorem Dev.endLoading_onlyIn (d : Dev) : d.onlyIn d.endLoading [.tile, .sys] := (d.onlyIn_tile _).andThen (Dev.onlyIn_sys _ _)

theorem Dev.loadingDone_commit {d : Dev} (h : d.tile.loading = some .commit) : d.loadingDone = d.takeLoadSlot.leaveUntiled.endLoading := by
  unfold Dev.loadingDone
  rw [h]
  unfold Dev.endLoading Dev.leaveUntiled Dev.takeLoadSlot
  rfl

theorem Dev.takeLoadSlot_leaves (d : Dev) : let d' := d.takeLoadSlot
    let x := tilingOf d.tile.loadSlot.content
    let id := imgId d.tile.loadSlot.content
    d'.tile = { d.tile with
      runB := d.tile.loadB, tiled := true, image := id, committed := x, cur := x, keptDigest := id.digest, keptGen := id.gen, dirty := !d.signerHeld id.signer
      rt := { d.tile.rt with isPartial := false, step := none, plan := [], state := if d.tile.rt.active then d.tile.rt.state else .idle } } ∧
    d'.sense = d.sense.restart x d.cycleTick ∧ d.onlyIn d' [.tile, .ports, .fault, .sense, .pwmg, .rails, .pwm, .leave, .loop, .lantern] := by
  obtain ⟨hloadTile, hloadSense, hloadFrame⟩ := d.loadStructure_leaves (tilingOf d.tile.loadSlot.content)
  obtain ⟨hexchTile, hexchFrame⟩ := (d.loadStructure (tilingOf d.tile.loadSlot.content)).exchange_leaves (tilingOf d.tile.loadSlot.content)
  unfold Dev.takeLoadSlot
  generalize d.loadStructure (tilingOf d.tile.loadSlot.content) = loaded at *
  rw [hloadTile, Dev.signerHeld_of_trust (hloadFrame .trust (by decide))] at hexchTile
  generalize loaded.exchange (tilingOf d.tile.loadSlot.content) = exchanged at *
  refine ⟨?_, (hexchFrame .sense (by decide)).trans hloadSense, (hloadFrame.andThen hexchFrame).thenIn (exchanged.onlyIn_tile _)⟩
  rw [Dev.updTile_tile, hexchTile]
  rfl

theorem Dev.leaveUntiled_leaves (d : Dev) :
    d.leaveUntiled.sys = { d.sys with devState := if d.sys.devState = .untiled then .standby else d.sys.devState } ∧
      d.onlyIn d.leaveUntiled [.sys, .lantern, .fault] := by
  refine ⟨?_, Dev.onlyIn_ite (d.setState_onlyIn _)⟩
  unfold Dev.leaveUntiled
  split
  · exact d.setState_sys _
  · rfl

theorem exec_tileCommit_next {s : State} {t : Tick} {d : Dev} {st : Byte} (hh : (s.dev.advance t).takesHost (.tileCommit t))
    (h : (s.dev.advance t).tileCommit = (d, st)) : exec (.tileCommit t) s = .next (s.after t (d.reply st)) := by
  rw [exec_tileCommit]
  exact State.hostWrite_next hh h

end Sys2Proof.Machine

open Sys2Proof Sys2Proof.Machine

/-- Settles O19: COMMIT by `Dev.tileCommit_marks`, `Dev.tileCommit_plans` and `Dev.tileCommit_refused`, and the end of a direct commit by
    `Dev.takeLoadSlot_leaves` and `Dev.leaveUntiled_leaves`. -/
theorem commitsMarkThenInstall : Obligations.CommitsMarkThenInstall := by
  refine ⟨?_, ?_⟩
  · intro s t d slot mark busy hh
    refine ⟨fun hv hb hs => exec_tileCommit_next hh ?_, fun hv hb hs hstopped hpartial => exec_tileCommit_next hh ?_, fun h => exec_tileCommit_next hh ?_⟩
    · rw [Dev.tileCommit_marks hv hb hs, Dev.markCommit_eq]
      rfl
    · exact Dev.tileCommit_plans hv hb hs hstopped hpartial
    · exact Dev.tileCommit_refused h
  · intro s t d halive hl x
    obtain ⟨htile, hsense, hframe⟩ := d.takeLoadSlot_leaves
    obtain ⟨hsys, hstate⟩ := d.takeLoadSlot.leaveUntiled_leaves
    have hmarked : d.takeLoadSlot.leaveUntiled.tile = _ := hstate.tile_eq.trans htile
    have hsensed : d.takeLoadSlot.leaveUntiled.sense = _ := (hstate .sense (by decide)).trans hsense
    rw [hframe .sys (by decide)] at hsys
    refine ⟨_, exec_directCommitDone.trans (State.runLive_next halive (Dev.loadingDone_commit hl)), ?_⟩
    generalize d.takeLoadSlot.leaveUntiled = left at *
    obtain ⟨hcal, hwin⟩ := d.sense.restart_leaves x d.cycleTick
    rw [Dev.endLoading_tile, Dev.endLoading_sys, Dev.endLoading_sense, hmarked, hsys, hsensed]
    exact ⟨rfl, rfl, rfl, rfl, rfl, rfl, rfl, rfl, rfl, rfl, rfl, rfl, rfl, hwin, hcal, (hframe.andThen hstate).thenIn left.endLoading_onlyIn⟩

end

section
/-! SUPPORT. What the steps of a retile touch. -/

-- The declarations are elaborated one after the other: as tasks of their own they take more threads than the check has memory for.
set_option Elab.async false

namespace Sys2Proof.Machine

open Sys2Proof

/-! ## Frames of what the steps do (R172, R175, R179) -/

theorem Dev.updCur_onlyIn (d : Dev) (f : Tiling → Tiling) : d.onlyIn (d.updCur f) [.tile] := d.onlyIn_tile _
theorem Dev.updRt_onlyIn (d : Dev) (f : Retile → Retile) : d.onlyIn (d.updRt f) [.tile] := d.onlyIn_tile _

theorem Dev.dropAdd_onlyIn (d : Dev) (n : PhaseIx) : d.onlyIn (d.dropAdd n) [.leave, .rails] := by
  unfold Dev.dropAdd
  split
  · exact Dev.onlyIn_ite (d.withdrawAdd_onlyIn _)
  · exact d.onlyIn_refl _

theorem Dev.resettle_onlyIn (d old : Dev) (n : PhaseIx) : d.onlyIn (d.resettle old n) [.prot] := d.updTrip_onlyIn n _

theorem Dev.joinCarrier_onlyIn (d : Dev) (r : RailIx) (n : PhaseIx) : d.onlyIn (d.joinCarrier r n) [.pwm] := by
  unfold Dev.joinCarrier
  extract_lets p ref len next
  split
  · exact d.seat_onlyIn r n
  · exact d.updPwm_onlyIn n _

theorem Dev.dropFull_onlyIn (d : Dev) (q : QuadIx) : d.onlyIn (d.dropFull q) [.sense, .fault] :=
  (d.updQuad_onlyIn q _).andThen (Dev.raiseEvent_onlyIn _ _ _ _)

theorem Dev.runPass_onlyIn (q : QuadIx) (inj : Bool) : ∀ (fuel i : Nat) (now : Tick) (d : Dev), d.onlyIn (d.runPass q inj i now fuel) [.sense, .fault]
  | 0, _, _, d => d.onlyIn_refl _
  | fuel + 1, i, now, d => by
    unfold Dev.runPass
    extract_lets x e put pend ended told
    have hput : d.onlyIn put [.sense, .fault] := (d.updQuad_onlyIn q _).into
    have htold : d.onlyIn told [.sense, .fault] := (d.updQuad_onlyIn q _).andThen (ended.event_onlyIn _)
    split
    · split
      · exact (d.updQuad_onlyIn q _).into
      · split
        · exact (hput.thenIn (put.dropFull_onlyIn q)).thenIn (Dev.runPass_onlyIn q inj fuel _ _ _)
        · exact hput.thenIn (put.updQuad_onlyIn q _)
    · split
      · exact htold.thenIn (Dev.runPass_onlyIn q inj fuel _ _ _)
      · exact htold

theorem Dev.releaseInj_onlyIn (d : Dev) (q : QuadIx) : d.onlyIn (d.releaseInj q) [.sense, .fault] := by
  unfold Dev.releaseInj
  extract_lets x freed
  have hfreed : d.onlyIn freed [.sense, .fault] := (d.updQuad_onlyIn q _).into
  split
  · exact d.onlyIn_refl _
  · split
    · exact (hfreed.thenIn (freed.updQuad_onlyIn q _)).thenIn (Dev.runPass_onlyIn q false _ _ _ _)
    · exact hfreed

theorem Dev.settleReq_onlyIn (d : Dev) (q : QuadIx) (r : Req) (samples : Bool) : d.onlyIn (d.settleReq q r samples) [.sense, .fault] := by
  unfold Dev.settleReq
  extract_lets i passed
  have hpassed : d.onlyIn passed [.sense, .fault] := Dev.onlyIn_ite' (Dev.runPass_onlyIn q _ _ _ _ d)
  refine Dev.onlyIn_ite' ?_
  split
  · exact hpassed.thenIn (passed.releaseInj_onlyIn q)
  · exact hpassed

theorem Dev.dropRemoved_onlyIn (d : Dev) (q : QuadIx) (a b : SeqEnt) : d.onlyIn (d.dropRemoved q a b) [.sense, .fault] := by
  unfold Dev.dropRemoved
  extract_lets stays gone kept
  have hkept : d.onlyIn kept [.sense, .fault] := (d.updQuad_onlyIn q _).into
  clear_value gone
  split
  · exact hkept.thenIn (kept.settleReq_onlyIn q _ _)
  · exact hkept

/-- Of the running structure the new sequence is installed in, only the measuring side moves. -/
theorem Dev.installSeq_onlyIn (d : Dev) (q : QuadIx) (t : Tiling) : (d.updCur fun _ => t).onlyIn (d.installSeq q t) [.sense, .fault] := by
  unfold Dev.installSeq
  extract_lets old a b put timed bound
  exact ((put.updQuad_onlyIn q _).thenIn (timed.onlyIn_sense _)).into.thenIn (Dev.dropRemoved_onlyIn _ q a b)

theorem Dev.dropHeld_onlyIn (d : Dev) (old routes : List Route) : d.onlyIn (d.dropHeld old routes).1 [.loop] := d.onlyIn_loop _

theorem Dev.reloadCtx_onlyIn (d : Dev) (c : CtxIx) : d.onlyIn (d.reloadCtx c) [.loop, .fault] := by
  unfold Dev.reloadCtx
  split
  · exact Dev.onlyIn_ite (d.idleCtx_onlyIn c).into
  · extract_lets held w old loaded
    exact ((d.updCtx_onlyIn c _).into.thenIn (cs := [.fault]) (Dev.onlyIn_ite' (loaded.event_onlyIn _))).thenIn (Dev.preload_onlyIn _ _ _ _ _)

theorem Dev.dipRdy_onlyIn (d : Dev) (most : Nat) : d.onlyIn (d.dipRdy most) [.sys, .free] := (d.onlyIn_free _).andThen (Dev.onlyIn_sys _ _)

theorem Dev.endParks_onlyIn (d : Dev) : d.onlyIn d.endParks [.pwm] :=
  Dev.onlyIn_foldl _ (fun e n => Dev.onlyIn_ite (((e.onlyIn_cyc _ [.pwm]).thenIn (Dev.updPwm_onlyIn _ n _)).thenIn (Dev.setMask_onlyIn _ n _))) _ d

theorem Dev.clearDrained_onlyIn (d : Dev) : d.onlyIn d.clearDrained [.rails] := d.onlyIn_rails _

end Sys2Proof.Machine

end

section
/-! SUPPORT. A retile step, and what the last one ends with. -/

-- The declarations are elaborated one after the other: as tasks of their own they take more threads than the check has memory for.
set_option Elab.async false

namespace Sys2Proof.Machine

open Sys2Proof

/-! ## A step of the plan (R172, R176 to R178) -/

/-- What a step may touch besides the structure itself. -/
abbrev stepBlocks : List Block := [.pwm, .pwmg, .sense, .loop, .rails, .prot, .ports, .fault, .lantern, .leave]

/-- The running structure has become `t`, and of what a step may touch nothing else is said. -/
def Dev.Restructured (d d' : Dev) (t : Tiling) : Prop := d'.tile = { d.tile with cur := t } ∧ d.onlyIn d' (.tile :: stepBlocks)

/-- The structure changes between what comes before it and what follows. -/
theorem Dev.restructured {d e d' : Dev} {t : Tiling} (hb : d.onlyIn e stepBlocks) (ha : (e.updCur fun _ => t).onlyIn d' stepBlocks) : d.Restructured d' t := by
  refine ⟨ha.tile_eq.trans ?_, (hb.andThen (e.updCur_onlyIn _) (es := .tile :: stepBlocks)).thenIn ha⟩
  rw [Dev.updCur_tile, hb.tile_eq]

/-- A PARK withdraws what waits for the phase, idles its context, and lets the phase go from its rail (R172, R522). -/
theorem Dev.applyStep_park {d : Dev} {s : RtStep} (h : s.kind = .park) : d.Restructured (d.applyStep s).1 (d.tile.cur.after d.tile.rt.goal s) := by
  simp only [Dev.applyStep, h]
  have hbefore := (d.dropAdd_onlyIn (targetPhase s.target)).into (cs := stepBlocks)
  exact Dev.restructured (hbefore.thenIn (cs := [.loop]) (Dev.onlyIn_ite (Dev.idleCtx_onlyIn _ _)))
    ((((Dev.endStart_onlyIn _ _).into.thenIn (Dev.updPwm_onlyIn _ _ _)).thenIn (Dev.resettle_onlyIn _ _ _)).thenIn (Dev.setMask_onlyIn _ _ _))

theorem Dev.applyStep_join {d : Dev} {s : RtStep} (h : s.kind = .join) : d.Restructured (d.applyStep s).1 (d.tile.cur.after d.tile.rt.goal s) := by
  simp only [Dev.applyStep, h]
  refine Dev.restructured (d.onlyIn_refl _) (Dev.onlyIn.thenIn (bs := stepBlocks) (cs := [.loop, .fault]) ?_ (Dev.onlyIn_ite (Dev.evalNow_onlyIn _ _)))
  refine ((Dev.onlyIn.thenIn (bs := stepBlocks) ?_ (Dev.updPwm_onlyIn _ _ _)).thenIn (Dev.resettle_onlyIn _ _ _)).thenIn (Dev.setMask_onlyIn _ _ _)
  have hloaded := (Dev.updPwm_onlyIn (d.updCur fun _ => d.tile.cur.after d.tile.rt.goal s) (targetPhase s.target) fun p => { p with arcTgt := (d.tile.rt.goal.phases[targetPhase s.target]).arc }).andThen
    (Dev.updCtx_onlyIn _ (innerIx (targetPhase s.target)) fun x => { x with sector := none, candidate := none, wins := 0 }) (es := stepBlocks)
  split
  · exact hloaded.thenIn (Dev.joinCarrier_onlyIn _ _ _)
  · exact hloaded

theorem Dev.applyStep_restructures (d : Dev) (s : RtStep) : d.Restructured (d.applyStep s).1 (d.tile.cur.after d.tile.rt.goal s) := by
  have hstays := d.onlyIn_refl stepBlocks
  cases h : s.kind with
  | park => exact Dev.applyStep_park h
  | join => exact Dev.applyStep_join h
  | define | undefine =>
    simp only [Dev.applyStep, h]
    exact Dev.restructured hstays ((Dev.onlyIn_pwmg _ _).into.thenIn (Dev.trimCauses_onlyIn _))
  | widen | narrow =>
    simp only [Dev.applyStep, h]
    exact Dev.restructured hstays (d.installSeq_onlyIn _ _).into
  | arc =>
    simp only [Dev.applyStep, h]
    exact Dev.restructured hstays ((Dev.onlyIn_foldl (bs := [.pwm, .leave]) _ (fun e n => (e.endHostOvr_onlyIn n).thenIn (Dev.setMask_onlyIn _ n _)) _ _).into.thenIn
      (Dev.respread_onlyIn _ _))
  | loops =>
    simp only [Dev.applyStep, h]
    exact Dev.restructured hstays ((Dev.onlyIn_foldl _ Dev.reloadCtx_onlyIn _ _).into.thenIn (Dev.syncCtx_onlyIn _ _))
  | fabric =>
    simp only [Dev.applyStep, h]
    exact Dev.restructured hstays (Dev.dropHeld_onlyIn _ _ _).into
  | storage =>
    simp only [Dev.applyStep, h]
    exact Dev.restructured hstays ((Dev.dropPorts_onlyIn _ _).into.thenIn (Dev.trimCauses_onlyIn _))
  | set =>
    simp only [Dev.applyStep, h]
    refine Dev.restructured hstays ?_
    split
    · exact (Dev.onlyIn_ite (Dev.fitMembers_onlyIn _ _ _)).into
    · exact Dev.onlyIn_refl _ _
  | chord =>
    simp only [Dev.applyStep, h]
    exact Dev.restructured hstays (Dev.onlyIn_refl _ _)

/-- The step is applied, counted and recorded, and the next one is named; the retile may pause after it (R177, R178, R181). -/
def Dev.takeStep (d : Dev) (x : RtStep) (rest : List RtStep) : Dev :=
  let applied := (d.dipRdy (10 * usTicks)).applyStep x
  let k := d.tile.rt.done + 1
  let rails := fun (x : Option RailIx) => (railNib x).setWidth 8 ||| (if x.isNone then 0xF0 else 0)
  (applied.1.updRt fun y => { y with plan := rest, done := k, step := rest.head?, stepAt := applied.1.clk.now, state := if y.pauseAtPark && pausesAfter x rest then .paused else .running }).note
    0x0026 0 k.toNat ([x.kind.code, x.target, rails x.fromRail, rails x.toRail] ++ leBytes 2 applied.2)

theorem Dev.retileStep_takes {d : Dev} {x : RtStep} {rest : List RtStep} (hplan : d.tile.rt.plan = x :: rest) (hrun : d.tile.rt.state = .running)
    (hstop : d.tile.rt.stopAsked = none) (hready : d.stepReady x = true) (hcycle : d.clk.cycleAt d.tile.rt.stepAt ≠ d.cycle)
    (hcap : d.shortRail d.tile.cur (d.tile.cur.after d.tile.rt.goal x) = none) (hctx : contextsOk (d.tile.cur.after d.tile.rt.goal x) d.tile.rt.goal rest = true)
    (hspread : ∀ r : RailIx, d.interleaveOk r none = true) :
    d.retileStep = if rest.isEmpty then (d.takeStep x rest).retileEnd else d.takeStep x rest := by
  have hall : (allRails.all fun r => d.interleaveOk r none) = true := List.all_eq_true.mpr fun r _ => hspread r
  simp only [Dev.retileStep, hplan, hrun, hstop, hready, hcap, hctx, hall, beq_eq_false_iff_ne.mpr hcycle]
  rfl

/-- What a step may touch, with the structure, RDY and the free values. -/
theorem Dev.takeStep_leaves (d : Dev) (x : RtStep) (rest : List RtStep) : let d' := d.takeStep x rest
    d'.tile = { d.tile with
      cur := d.tile.cur.after d.tile.rt.goal x
      rt := { d.tile.rt with plan := rest, done := d.tile.rt.done + 1, step := rest.head?, stepAt := d.clk.now, state := if d.tile.rt.pauseAtPark && pausesAfter x rest then .paused else .running } } ∧
    d.onlyIn d' (.sys :: .free :: .tile :: stepBlocks) := by
  unfold Dev.takeStep
  extract_lets applied k rails d'
  have hdip := d.dipRdy_onlyIn (10 * usTicks)
  have hstep : (d.dipRdy (10 * usTicks)).Restructured applied.1 _ := Dev.applyStep_restructures _ x
  obtain ⟨htile, hframe⟩ := hstep
  rw [hdip.tile_eq] at htile
  have hclk : applied.1.clk = d.clk := (hframe .clk (by decide)).trans (hdip .clk (by decide))
  clear_value applied
  have hnote : (applied.1.updRt fun y => { y with plan := rest, done := k, step := rest.head?, stepAt := applied.1.clk.now, state := if y.pauseAtPark && pausesAfter x rest then .paused else .running }).onlyIn
    d' [.lantern, .fault] := Dev.note_onlyIn _ _ _ _ _
  refine ⟨hnote.tile_eq.trans ?_, ((hdip.andThen hframe (es := .sys :: .free :: .tile :: stepBlocks)).thenIn (Dev.updRt_onlyIn _ _)).thenIn hnote⟩
  rw [Dev.updRt_tile, htile, hclk]

/-! ## The end of a retile (R166, R177) -/

/-- The load slot of a tiled device stays the same slot when the mark comes to name it. -/
theorem Tile.setMark_loadB {t : Tile} (h : t.tiled = true) : (t.setMark t.loadB).loadB = t.loadB := by
  unfold Tile.loadB
  split <;> simp_all [Tile.setMark, Tile.mark]

/-- The goal runs, no phase is parked or drained for it any more, and no rail waits to come or go. -/
def Dev.reachGoal (d : Dev) : Dev :=
  ((d.updCur fun _ => d.tile.rt.goal).endParks.clearDrained).updRt fun x => { x with defines := 0, undefines := 0 }

theorem Dev.reachGoal_leaves (d : Dev) : d.reachGoal.tile = { d.tile with cur := d.tile.rt.goal, rt := { d.tile.rt with defines := 0, undefines := 0 } } ∧
    d.onlyIn d.reachGoal [.tile, .pwm, .rails] := by
  have hparks : (d.updCur fun _ => d.tile.rt.goal).onlyIn (d.updCur fun _ => d.tile.rt.goal).endParks.clearDrained [.pwm, .rails] :=
    (Dev.endParks_onlyIn _).andThen (Dev.clearDrained_onlyIn _)
  refine ⟨?_, ((d.updCur_onlyIn _).andThen hparks).thenIn (Dev.updRt_onlyIn _ _)⟩
  unfold Dev.reachGoal
  rw [Dev.updRt_tile, hparks.tile_eq]
  rfl

/-- A REVERT ends: the committed structure runs again, and nothing is marked. -/
theorem Dev.retileEnd_reverts {d : Dev} (h : d.tile.rt.toward = true) : d.retileEnd.tile = { d.tile with
      cur := d.tile.rt.goal, rt := { d.tile.rt with defines := 0, undefines := 0, state := .idle, isPartial := false, step := none } } ∧
    d.onlyIn d.retileEnd [.tile, .pwm, .rails, .lantern, .fault] := by
  obtain ⟨htile, hframe⟩ := d.reachGoal_leaves
  have hend : d.retileEnd = (d.reachGoal.updRt fun x => { x with state := .idle, isPartial := false, step := none }).note 0x0029 0 0xFFFF (leBytes 2 d.tile.rt.done.toNat) := if_pos h
  have hnote := (d.reachGoal.updRt fun x => { x with state := .idle, isPartial := false, step := none }).note_onlyIn 0x0029 0 0xFFFF (leBytes 2 d.tile.rt.done.toNat)
  rw [hend]
  refine ⟨hnote.tile_eq.trans ?_, (hframe.thenIn (Dev.updRt_onlyIn _ _)).andThen hnote⟩
  rw [Dev.updRt_tile, htile]

/-- The commit point: the goal runs and is committed, and the mark names its slot. -/
theorem Dev.retileEnd_commits {d : Dev} (h : d.tile.rt.toward = false) (ht : d.tile.tiled = true) : let d' := d.retileEnd
    let m : Mark := { slotB := d.tile.loadB, count := d.tile.mark.count + 1 }
    d'.tile.cur = d.tile.rt.goal ∧ d'.tile.committed = d.tile.rt.goal ∧ d'.tile.runB = d.tile.loadB ∧ d'.tile.mark1 = m ∧ d'.tile.mark2 = m ∧
      d'.tile.highGen = BitVec.ofNat 32 (max d.tile.highGen.toNat (imgGen d.tile.loadSlot.bytes).toNat) ∧
      d'.tile.rt = { d.tile.rt with defines := 0, undefines := 0, state := .idle, isPartial := false, step := none, plan := [] } ∧
      d.onlyIn d' [.sys, .free, .tile, .pwm, .rails, .lantern, .fault] := by
  intro d' m
  obtain ⟨htile, hframe⟩ := d.reachGoal_leaves
  have hmarked : d.reachGoal.markCommit.tile = { d.tile with
      cur := d.tile.rt.goal, rt := { d.tile.rt with defines := 0, undefines := 0 }, mark1 := m, mark2 := m
      highGen := BitVec.ofNat 32 (max d.tile.highGen.toNat (imgGen d.tile.loadSlot.bytes).toNat) } := by
    rw [Dev.markCommit_eq, htile]
    rfl
  have hslot : d.reachGoal.markCommit.tile.loadB = d.tile.loadB := by
    rw [hmarked]
    exact Tile.setMark_loadB ht
  have hmarkFrame : d.reachGoal.onlyIn d.reachGoal.markCommit [.tile] := Dev.onlyIn_tile _ _
  obtain ⟨hexch, hexchFrame⟩ := d.reachGoal.markCommit.exchange_leaves d.tile.rt.goal
  rw [hslot, hmarked] at hexch
  have hdip := (d.reachGoal.markCommit.exchange d.tile.rt.goal).dipRdy_onlyIn (40 * usTicks)
  have hend : d' = ((d.reachGoal.markCommit.exchange d.tile.rt.goal).dipRdy (40 * usTicks)).updRt fun x => { x with state := .idle } :=
    if_neg (by simp [h])
  have hfinal : d'.tile = _ := (congrArg Dev.tile hend).trans (congrArg (fun y : Tile => { y with rt := { y.rt with state := .idle } }) (hdip.tile_eq.trans hexch))
  refine ⟨congrArg Tile.cur hfinal, congrArg Tile.committed hfinal, congrArg Tile.runB hfinal, congrArg Tile.mark1 hfinal, congrArg Tile.mark2 hfinal,
    congrArg Tile.highGen hfinal, congrArg Tile.rt hfinal, ?_⟩
  rw [hend]
  exact (((hframe.thenIn hmarkFrame).andThen hexchFrame (es := [.tile, .pwm, .rails, .lantern, .fault])).andThen hdip).thenIn (Dev.updRt_onlyIn _ _)

theorem exec_retileStep_next {s : State} {t : Tick} {d : Dev} (ha : (s.dev.advance t).alive = true) (h : (s.dev.advance t).retileStep = d) :
    exec (.retileStep t) s = .next (s.after t d) := by
  rw [exec_retileStep]
  exact State.runLive_next ha h

end Sys2Proof.Machine

open Sys2Proof Sys2Proof.Machine

/-- Settles O21: the step by `Dev.takeStep_leaves`, and the end after the last one by `Dev.retileEnd_reverts` or `Dev.retileEnd_commits`. -/
theorem retileStepsInstallTheGoal : Obligations.RetileStepsInstallTheGoal := by
  intro s t x rest d rt next mark halive htiled hplan hrun hstop hready hcycle hcap hctx hspread
  obtain ⟨htile, hframe⟩ := d.takeStep_leaves x rest
  have htaken := Dev.retileStep_takes hplan hrun hstop hready hcycle hcap hctx hspread
  have hexec := exec_retileStep_next halive htaken
  refine ⟨_, hexec, ?_⟩
  clear hexec htaken
  generalize d.takeStep x rest = taken at *
  cases rest with
  | cons y ys =>
    have hmore : y :: ys ≠ [] := List.cons_ne_nil y ys
    rw [if_neg (by simp), if_neg (c := _ ∧ _) fun h => hmore h.1, htile]
    exact ⟨rfl, rfl, fun _ => ⟨rfl, rfl, rfl, rfl, rfl⟩, fun h => absurd h hmore, ⟨rfl, rfl, rfl⟩, hframe.into⟩
  | nil =>
    rw [if_pos (by simp)]
    have htoward : taken.tile.rt.toward = rt.toward := by rw [htile]
    cases ht : rt.toward with
    | true =>
      obtain ⟨hend, hendFrame⟩ := Dev.retileEnd_reverts (htoward.trans ht)
      rw [if_neg (c := _ ∧ _) (by simp), hend, htile]
      exact ⟨rfl, rfl, fun h => absurd rfl h, fun _ => ⟨rfl, rfl, rfl, rfl, rfl⟩, ⟨rfl, rfl, rfl⟩, (hframe.thenIn hendFrame).into⟩
    | false =>
      obtain ⟨hcur, hcommitted, hslot, hmark1, hmark2, hgen, hrt, hendFrame⟩ :=
        Dev.retileEnd_commits (htoward.trans ht) ((congrArg Tile.tiled htile).trans htiled)
      rw [htile] at hcur hcommitted hslot hmark1 hmark2 hgen hrt
      rw [if_pos (c := _ ∧ _) ⟨rfl, rfl⟩, hrt]
      exact ⟨rfl, rfl, fun h => absurd rfl h, fun _ => ⟨hcur, rfl, rfl, hcommitted, hslot⟩, ⟨hmark1, hmark2, hgen⟩, (hframe.thenIn hendFrame).into⟩

end

section
/-! SUPPORT. How the planning of a retile ends. -/

-- The declarations are elaborated one after the other: as tasks of their own they take more threads than the check has memory for.
set_option Elab.async false

namespace Sys2Proof.Machine

open Sys2Proof

/-! ## The end of planning (R169, R171, R177) -/

/-- The sequencer moves on and a record says so: of the rest of the device nothing is touched. -/
theorem Dev.updRt_note_leaves (d : Dev) (f : Retile → Retile) (code : Nat) (level : Fin 5) (source : Nat) (data : List Byte) :
    let d' := (d.updRt f).note code level source data
    d'.tile = { d.tile with rt := f d.tile.rt } ∧ d.onlyIn d' [.tile, .lantern, .fault] := by
  have hnote : (d.updRt f).onlyIn ((d.updRt f).note code level source data) [.lantern, .fault] := Dev.note_onlyIn _ _ _ _ _
  exact ⟨hnote.tile_eq, (d.updRt_onlyIn f).andThen hnote⟩

/-- The rails that the steps of one kind name. -/
def railsNamed (plan : List RtStep) (k : StepKind) : Byte :=
  (plan.filter fun s => s.kind == k).foldl (fun (m : Byte) s => setBit m (s.target.toNat % 8) true) 0

theorem foldl_setBit_getLsbD (r : RailIx) : ∀ (xs : List RtStep) (m : Byte),
    (xs.foldl (fun (m : Byte) s => setBit m (s.target.toNat % 8) true) m).getLsbD r.val = (m.getLsbD r.val || xs.any fun s => s.target.toNat % 8 == r.val)
  | [], m => by simp
  | x :: xs, m => by
    have hbit := setBit_getLsbD m ⟨x.target.toNat % 8, Nat.mod_lt _ (by decide)⟩ r true
    rw [List.foldl_cons, foldl_setBit_getLsbD r xs, hbit, List.any_cons]
    by_cases h : x.target.toNat % 8 = r.val
    · simp [h]
    · rw [if_neg fun e => h (congrArg Fin.val e).symm, beq_eq_false_iff_ne.mpr h, Bool.false_or]

theorem railsNamed_getLsbD (steps : List Cand) (k : StepKind) (r : RailIx) :
    (railsNamed (steps.map (·.1)) k).getLsbD r.val = steps.any fun c => c.1.kind == k && c.1.target.toNat % 8 == r.val := by
  rw [railsNamed, foldl_setBit_getLsbD, List.any_filter, List.any_map, show (0 : Byte).getLsbD r.val = false from BitVec.getLsbD_zero, Bool.false_or]
  rfl

/-- The sequencer once a step of its plan has failed. -/
def Retile.refused (x : Retile) (steps : Nat) (failed : RtStep) (reason : Byte) (need have_ : Nat) : Retile :=
  { x with state := .refused, reason := reason, step := some failed, total := BitVec.ofNat 16 steps, done := 0, need := satN 32 need, have_ := satN 32 have_ }

/-- The sequencer with a plan to carry out. -/
def Retile.begun (x : Retile) (plan : List RtStep) : Retile :=
  { x with state := .running, defines := railsNamed plan .define, undefines := railsNamed plan .undefine, plan := plan, step := plan.head?, total := BitVec.ofNat 16 plan.length, done := 0 }

theorem Dev.planDone_refused {d : Dev} {steps : List Cand} {failed : RtStep} {k : Nat} {reason : Byte} {need have_ : Nat}
    (hsteps : d.candidates d.tile.rt.goal = steps) (h : d.planFault d.tile.rt.goal steps d.tile.cur 1 = some (failed, k, reason, need, have_)) :
    d.planDone = (d.updRt fun x => { x.refused steps.length failed reason need have_ with stopAsked := none }).note 0x0028 1 0xFFFF
      (reason :: leBytes 2 k ++ leBytes 4 need ++ leBytes 4 have_) := by
  simp only [Dev.planDone, hsteps, h]
  rfl

/-- The record names the generation that the plan leads to. -/
theorem Dev.planDone_begun {d : Dev} {steps : List Cand} (hsteps : d.candidates d.tile.rt.goal = steps)
    (h : d.planFault d.tile.rt.goal steps d.tile.cur 1 = none) (hne : steps ≠ []) : let plan := steps.map (·.1)
    d.planDone = (d.updRt fun x => x.begun plan).note 0x0025 0 0xFFFF
      (leBytes 4 d.tile.image.gen.toNat ++ leBytes 4 (if d.tile.rt.toward then d.tile.image.gen else d.tile.rt.goalId.gen).toNat ++ leBytes 2 plan.length) := by
  intro plan
  have hplan : plan.isEmpty = false := by simpa [plan] using hne
  simp only [Dev.planDone, hsteps, h]
  exact if_neg (by rw [hplan]; exact Bool.false_ne_true)

theorem exec_retilePlanDone_next {s : State} {t : Tick} (ha : (s.dev.advance t).alive = true) (hplanning : (s.dev.advance t).tile.rt.state = .planning)
    (hstop : (s.dev.advance t).tile.rt.stopAsked = none) : exec (.retilePlanDone t) s = .next (s.after t (s.dev.advance t).planDone) := by
  rw [exec_retilePlanDone]
  have hguard : ((s.dev.advance t).tile.rt.state == .planning && (s.dev.advance t).tile.rt.stopAsked.isNone) = true := by simp [hplanning, hstop]
  exact State.runLive_next ha (if_pos hguard)

end Sys2Proof.Machine

open Sys2Proof Sys2Proof.Machine

/-- Settles O20: a plan with a failing step by `Dev.planDone_refused`, one without by `Dev.planDone_begun`, whose rails to come and to go
    `railsNamed_getLsbD` reads. -/
theorem retilePlanningEnds : Obligations.RetilePlanningEnds := by
  intro s t d g steps halive hplanning hstop
  have hexec := exec_retilePlanDone_next halive hplanning hstop
  refine ⟨fun x k reason need have_ hfault => ⟨_, hexec, ?_⟩, fun hfault hne => ⟨_, hexec, ?_⟩⟩
  · obtain ⟨htile, hframe⟩ := d.updRt_note_leaves (fun y => { y.refused steps.length x reason need have_ with stopAsked := none }) 0x0028 1 0xFFFF
      (reason :: leBytes 2 k ++ leBytes 4 need ++ leBytes 4 have_)
    rw [Dev.planDone_refused rfl hfault]
    refine ⟨htile.trans ?_, hframe⟩
    rw [← hstop]
    rfl
  · have hdone := Dev.planDone_begun (steps := steps) rfl hfault hne
    have hrails := railsNamed_getLsbD steps
    clear_value steps
    rw [hdone]
    obtain ⟨htile, hframe⟩ := d.updRt_note_leaves (fun y => y.begun (steps.map (·.1))) 0x0025 0 0xFFFF
      (leBytes 4 d.tile.image.gen.toNat ++ leBytes 4 (if d.tile.rt.toward then d.tile.image.gen else d.tile.rt.goalId.gen).toNat ++ leBytes 2 (steps.map (·.1)).length)
    rw [htile]
    refine ⟨?_, fun r => ⟨hrails .define r, hrails .undefine r⟩, hframe⟩
    rw [← List.length_map (f := fun c : Cand => c.1)]
    rfl

end

section
/-! SUPPORT. What a retile waits for, how it stops, and the requests of TILE.RT_CTRL. -/

-- The declarations are elaborated one after the other: as tasks of their own they take more threads than the check has memory for.
set_option Elab.async false

namespace Sys2Proof.Machine

open Sys2Proof

/-! ## Drains (R175) -/

/-- Nothing stands against the drain of phase `n` of rail `r`, whose PARK is the next step. -/
structure Dev.DrainsNext (d : Dev) (n : PhaseIx) (r : RailIx) : Prop where
  running : d.tile.rt.state = .running
  unstopped : d.tile.rt.stopAsked = none
  due : d.mustDrain = some (n, r)
  settled : d.respreadBusy r = false
  noNotice : d.rails[r].notice = none
  noFlare : d.rails[r].flare = none
  noLift : d.pwm[n].flareLift = false
  capacity : d.stepShort = none
  interleave : ∀ x : RailIx, d.interleaveOk x (some n) = true
  contexts : contextsOk d.tile.cur d.tile.rt.goal d.tile.rt.plan = true

theorem Dev.drainRequest_begins {d : Dev} {n : PhaseIx} {r : RailIx} (h : d.DrainsNext n r) : d.drainRequest = d.beginNotice r n true := by
  have hspread : (allRails.all fun x => d.interleaveOk x (some n)) = true := List.all_eq_true.mpr fun x _ => h.interleave x
  simp only [Dev.drainRequest, h.running, h.unstopped, h.due, h.settled, h.noNotice, h.noFlare, h.noLift, h.capacity, hspread, h.contexts]
  rfl

theorem Dev.beginNotice_drain (d : Dev) (r : RailIx) (n : PhaseIx) : d.beginNotice r n true = { d with rails := d.rails.set r { d.rails[r] with
    notice := some { phase := n, began := d.clk.now, until_ := d.clk.now + d.rails[r].shedDelay.toNat * 48000, drain := true }, shedSince := none, drained := setBit d.rails[r].drained n true } } := by
  rw [← Nat.mul_assoc d.rails[r].shedDelay.toNat 100 480]
  rfl

/-! ## Waits and stops (R180, R183, R184) -/

theorem Dev.clearDrained_rails (d : Dev) (r : RailIx) : d.clearDrained.rails[r] = { d.rails[r] with drained := 0 } :=
  mapV_get d.rails (fun _ x => { x with drained := 0 }) r

/-- A retile that has stopped, with its cause. -/
def Retile.stopped (x : Retile) (cause : Byte) : Retile :=
  { x with state := .stopped, stopCause := cause, stopAsked := none, isPartial := true, plan := [], defines := 0, undefines := 0, waitSince := none }

theorem Dev.retileStop_leaves (d : Dev) (cause : Byte) : let d' := d.retileStop cause
    d'.tile = { d.tile with rt := d.tile.rt.stopped cause } ∧ (∀ r : RailIx, d'.rails[r] = { d.rails[r] with drained := 0 }) ∧
      d.onlyIn d' [.tile, .rails, .lantern, .fault] := by
  intro d'
  have hnote : (d.updRt fun x => x.stopped cause).clearDrained.onlyIn d' [.lantern, .fault] := Dev.note_onlyIn _ _ _ _ _
  refine ⟨hnote.tile_eq, fun r => ?_, ((d.updRt_onlyIn _).andThen (Dev.clearDrained_onlyIn _) (es := [.tile, .rails])).andThen hnote⟩
  rw [hnote .rails (by decide)]
  exact Dev.clearDrained_rails _ r

theorem Dev.capacityRecheck_passes {d : Dev} (hwaits : d.tile.rt.state = .waiting) (hcap : d.stepShort = none) :
    d.capacityRecheck = d.updRt fun x => { x with state := .running, waitSince := none } := by
  simp [Dev.capacityRecheck, hwaits, hcap]

theorem Dev.waitLimit_stops {d : Dev} {u : Tick} (hwaits : d.tile.rt.state = .waiting) (hsince : d.tile.rt.waitSince = some u)
    (hpast : u + d.tile.rt.waitLimit.toNat * 48000000 ≤ d.clk.now) : d.waitLimit = d.retileStop 4 := by
  have hticks : d.tile.rt.waitLimit.toNat * 100 * msTicks = d.tile.rt.waitLimit.toNat * 48000000 := Nat.mul_assoc _ 100 480000
  have hguard : (d.tile.rt.state == .waiting && decide (u + d.tile.rt.waitLimit.toNat * 100 * msTicks ≤ d.clk.now)) = true := by
    rw [hticks, hwaits, decide_eq_true hpast]
    rfl
  simp only [Dev.waitLimit, hsince]
  exact if_pos hguard

theorem Dev.takeStop_stops {d : Dev} {c : Byte} (hstop : d.tile.rt.stopAsked = some c) (hactive : d.tile.rt.active = true) : d.takeStop = d.retileStop c := by
  simp [Dev.takeStop, hstop, hactive]

/-! ## The requests of TILE.RT_CTRL (R181, R183, R185) -/

/-- A retile that was stopped, or refused after one, in a device that may take it up again. -/
theorem Dev.rtHalted_iff (d : Dev) : d.rtHalted = true ↔ (d.tile.rt.state = .stopped ∨ d.tile.rt.state = .refused ∧ d.tile.rt.isPartial = true) ∧
    (d.sys.devState = .run ∨ d.sys.devState = .standby) ∧ d.tile.loading = none := by
  simp [Dev.rtHalted, and_assoc]

theorem Dev.rtResume_plans {d : Dev} (h : d.rtHalted = true) (hv : d.tile.loadSlot.state = .valid) : d.rtResume =
    (d.updRt fun x => { x with state := .planning, toward := false, stopAsked := none, goal := tilingOf d.tile.loadSlot.content, goalId := imgId d.tile.loadSlot.content }, stOk) :=
  if_pos (by simp [h, hv])

theorem Dev.rtResume_refused {d : Dev} (h : ¬d.rtHalted = true ∨ d.tile.loadSlot.state ≠ .valid) : d.rtResume = (d, stState) :=
  if_neg (by simpa [imp_iff_not_or] using h)

theorem Dev.rtRevert_refused {d : Dev} (h : ¬d.rtHalted = true) : d.rtRevert = (d, stState) := if_pos (by simp [h])

theorem Dev.rtRevert_plans {d : Dev} (h : d.rtHalted = true) (hs : d.sys.devState = .run) : d.rtRevert =
    (d.updRt fun x => { x with state := .planning, toward := true, stopAsked := none, goal := d.tile.committed, goalId := d.tile.image }, stOk) := by
  simp only [Dev.rtRevert, h, hs]
  rfl

theorem Dev.rtRevert_loads {d : Dev} (h : d.rtHalted = true) (hs : d.sys.devState = .standby) :
    d.rtRevert = ({ d with
      tile := { d.tile with rt := { d.tile.rt with toward := true }, loading := some .revert }, sys := { d.sys with rdyLowCommit := true } }, stOk) := by
  unfold Dev.rtRevert
  rw [if_neg (by simp [h]), if_neg (by simp [hs])]
  rfl

end Sys2Proof.Machine

open Sys2Proof Sys2Proof.Machine

/-- Settles O22: the drain by `Dev.drainRequest_begins`, the ends of a wait by `Dev.capacityRecheck_passes` and `Dev.waitLimit_stops`, a stop by
    `Dev.retileStop_leaves`, and the requests by what `Dev.rtResume` and `Dev.rtRevert` do in each state. -/
theorem retilesWaitStopAndResume : Obligations.RetilesWaitStopAndResume := by
  refine ⟨?_, ?_⟩
  · intro s t d
    refine ⟨fun n r halive hrun hstop hdue hsettled hnotice hflare hlift hcap hspread hctx => ?_, fun halive hwaits hstop hcap => ?_,
      fun u halive hwaits hsince hpast => ⟨_, exec_retileWaitLimit.trans (State.runLive_next halive (Dev.waitLimit_stops hwaits hsince hpast)), d.retileStop_leaves 4⟩,
      fun c hstop hactive => ⟨_, exec_retileStop.trans (State.run_next (Dev.takeStop_stops hstop hactive)), d.retileStop_leaves c⟩⟩
    · have hdrains : d.DrainsNext n r := ⟨hrun, hstop, hdue, hsettled, hnotice, hflare, hlift, hcap, hspread, hctx⟩
      rw [← d.beginNotice_drain r n]
      exact exec_retileDrainRequest.trans (State.runLive_next halive (Dev.drainRequest_begins hdrains))
    · have hunstopped : ¬d.tile.rt.stopAsked.isSome = true := by simp [hstop]
      exact exec_retileCapacityRecheck.trans (State.runLive_next halive ((if_neg hunstopped).trans (Dev.capacityRecheck_passes hwaits hcap)))
  · intro s t d rt halted answer
    have hhalted : halted ↔ d.rtHalted = true := d.rtHalted_iff.symm
    refine ⟨fun hh => exec_rtStop.trans ?_, fun hh => exec_rtContinue.trans ?_,
      fun hh h hv => exec_rtResume.trans (State.hostWrite_next hh (Dev.rtResume_plans (hhalted.mp h) hv)),
      fun hh h hs => exec_rtRevert.trans (State.hostWrite_next hh (Dev.rtRevert_plans (hhalted.mp h) hs)),
      fun hh h hs => exec_rtRevert.trans (State.hostWrite_next hh (Dev.rtRevert_loads (hhalted.mp h) hs)),
      fun hh h => exec_rtResume.trans (State.hostWrite_next hh (Dev.rtResume_refused (h.imp_left (mt hhalted.mpr)))),
      fun hh h => exec_rtRevert.trans (State.hostWrite_next hh (Dev.rtRevert_refused (mt hhalted.mpr h)))⟩
    · split
      · next hactive => exact State.hostWrite_next hh (if_pos hactive)
      · next hidle => exact State.hostWrite_next hh (if_neg hidle)
    · split
      · next hpaused => exact State.hostWrite_next hh (if_pos hpaused)
      · next hgoes => exact State.hostWrite_next hh (if_neg hgoes)

end

section
/-! SUPPORT. Stages A and B of a phase: what an edge of HI and the beginning of a pulse do to one record, and the edges as commands. An index is
    written with its bound (`d.pwm[n]'n.2`) here and below: a text of this length cannot afford the search for the bound at every place. -/

namespace Sys2Proof.Machine

open Sys2Proof

/-! ## Stage B (R211, R214) -/

/-- The rise of HI: GL is off, a GL that was due is none, and GH is due DTR later; stage C's bookkeeping of GL is all else it touches. -/
theorem Pwm.hiUp_spec (p : Pwm) (pos : Int) : ∃ (c : StageC) (tap : Nat) (w : BitVec 16), p.hiUp pos =
    { p with hi := true, gl := false, glAt := none, ghAt := some (pos + (dtFloor p.dtr).toNat), cLo := c, tapLo := tap, swallowLo := w } := by
  have hrise : ∀ q : Pwm, ∃ (c : StageC) (tap : Nat), { q.endGl pos with hi := true, glAt := none, ghAt := some (pos + (dtFloor q.dtr).toNat) } =
      { q with hi := true, gl := false, glAt := none, ghAt := some (pos + (dtFloor q.dtr).toNat), cLo := c, tapLo := tap } := fun q => by
    unfold Pwm.endGl
    split
    · exact ⟨_, _, rfl⟩
    · next h => exact ⟨q.cLo, q.tapLo, by rw [← Bool.eq_false_iff.2 h]⟩
  unfold Pwm.hiUp
  split_ifs
  · obtain ⟨c, tap, h⟩ := hrise (p.swallow false)
    exact ⟨c, tap, _, h⟩
  · obtain ⟨c, tap, h⟩ := hrise p
    exact ⟨c, tap, _, h⟩

/-- The fall of HI: GH is off, a GH that was due is none, and GL is due DTF later; stage C's bookkeeping of GH is all else it touches. -/
theorem Pwm.hiDown_spec {p : Pwm} (hi : p.hi = true) (pos : Int) (cut : Bool) : ∃ (c : StageC) (tap : Nat) (w : BitVec 16), p.hiDown pos cut =
    { p with hi := false, gh := false, ghAt := none, glAt := some (pos + (dtFloor p.dtf).toNat), cHi := c, tapHi := tap, swallowHi := w } := by
  have hfall : ∀ q : Pwm, ∃ (c : StageC) (tap : Nat), { q.endGh pos with hi := false, ghAt := none, glAt := some (pos + (dtFloor q.dtf).toNat) } =
      { q with hi := false, gh := false, ghAt := none, glAt := some (pos + (dtFloor q.dtf).toNat), cHi := c, tapHi := tap } := fun q => by
    unfold Pwm.endGh
    split
    · exact ⟨_, _, rfl⟩
    · next h => exact ⟨q.cHi, q.tapHi, by rw [← Bool.eq_false_iff.2 h]⟩
  unfold Pwm.hiDown
  rw [if_neg (by simp [hi])]
  split_ifs
  · obtain ⟨c, tap, h⟩ := hfall (p.swallow true)
    exact ⟨c, tap, _, h⟩
  · obtain ⟨c, tap, h⟩ := hfall p
    exact ⟨c, tap, _, h⟩

/-- Where HI is off its fall does nothing. -/
theorem Pwm.hiDown_low {p : Pwm} (hi : p.hi = false) (pos : Int) (cut : Bool) : p.hiDown pos cut = p := if_pos (by simp [hi])

theorem Pwm.hiDown_hi (p : Pwm) (pos : Int) (cut : Bool) : (p.hiDown pos cut).hi = false := by
  cases hi : p.hi
  · rw [p.hiDown_low hi]
    exact hi
  · obtain ⟨c, tap, w, h⟩ := p.hiDown_spec hi pos cut
    rw [h]

theorem Pwm.beginGh_short {p : Pwm} {pos : Int} (h : tooShort pos (p.hiEnd pos) = true) :
    p.beginGh pos = { p with ghAt := none, swallowHi := if p.cHi.passes then p.swallowHi + 1 else p.swallowHi } := if_pos h

theorem Pwm.beginGh_emitted {p : Pwm} {pos : Int} (h : tooShort pos (p.hiEnd pos) = false) :
    p.beginGh pos = { p with gh := true, ghAt := none, tapHi := p.lineHi.tap pos } := if_neg (by simp [h])

theorem Pwm.beginGl_short {p : Pwm} {pos : Int} (h : tooShort pos (p.nextRise pos) = true) :
    p.beginGl pos = { p with glAt := none, swallowLo := if p.cLo.passes then p.swallowLo + 1 else p.swallowLo } := if_pos h

theorem Pwm.beginGl_emitted {p : Pwm} {pos : Int} (h : tooShort pos (p.nextRise pos) = false) :
    p.beginGl pos = { p with gl := true, glAt := none, tapLo := p.lineLo.tap pos } := if_neg (by simp [h])

/-! ## GH and GL apart (R211) -/

/-- GH is on, or due, only under HI, and GL only without it. -/
def Pwm.Apart (p : Pwm) : Prop :=
  (p.gh = true → p.hi = true) ∧ (p.hi = true → p.gl = false) ∧ (p.ghAt.isSome = true → p.hi = true) ∧ (p.glAt.isSome = true → p.hi = false)

theorem Pwm.Apart.not_both {p : Pwm} (h : p.Apart) : ¬(p.gh = true ∧ p.gl = true) := fun ⟨hgh, hgl⟩ => by
  obtain ⟨hhi, hlo, -, -⟩ := h
  simp [hlo (hhi hgh)] at hgl

theorem Pwm.hiUp_apart (p : Pwm) (pos : Int) : (p.hiUp pos).Apart := by
  obtain ⟨c, tap, w, h⟩ := p.hiUp_spec pos
  simp [h, Pwm.Apart]

theorem Pwm.Apart.hiDown {p : Pwm} (h : p.Apart) (pos : Int) (cut : Bool) : (p.hiDown pos cut).Apart := by
  cases hi : p.hi
  · rwa [p.hiDown_low hi]
  · obtain ⟨c, tap, w, hd⟩ := p.hiDown_spec hi pos cut
    simp [hd, Pwm.Apart]

theorem Pwm.Apart.beginGh {p : Pwm} (h : p.Apart) (hdue : p.ghAt.isSome = true) (pos : Int) : (p.beginGh pos).Apart := by
  obtain ⟨hgh, hhi, hghAt, hglAt⟩ := h
  cases hs : tooShort pos (p.hiEnd pos)
  · rw [Pwm.beginGh_emitted hs]
    exact ⟨fun _ => hghAt hdue, hhi, fun _ => hghAt hdue, hglAt⟩
  · rw [Pwm.beginGh_short hs]
    exact ⟨hgh, hhi, fun _ => hghAt hdue, hglAt⟩

theorem Pwm.Apart.beginGl {p : Pwm} (h : p.Apart) (hdue : p.glAt.isSome = true) (pos : Int) : (p.beginGl pos).Apart := by
  obtain ⟨hgh, hhi, hghAt, hglAt⟩ := h
  have hlow := hglAt hdue
  cases hs : tooShort pos (p.nextRise pos)
  · rw [Pwm.beginGl_emitted hs]
    exact ⟨hgh, fun h => absurd (h.symm.trans hlow) (by decide), hghAt, fun _ => hlow⟩
  · rw [Pwm.beginGl_short hs]
    exact ⟨hgh, hhi, hghAt, fun _ => hlow⟩

/-! ## The edges (R188, R332, R345, R351) -/

/-- The position that places an edge: the rise and the fall of HI by the carrier, GH and GL where they are due. -/
def Pwm.placeOf (p : Pwm) : EdgeKind → Option Int
  | .hiRise => if p.cmd then none else p.edgeAt
  | .hiFall => if p.cmd then p.edgeAt else none
  | .ghRise => p.ghAt
  | .glRise => p.glAt
  | .ghFall | .glFall => none

theorem dueNow_of_due {pos : Option Int} {x : Int} {now : Tick} (h : pos = some x) (hx : x / 64 = now) : dueNow pos now = some x := by
  subst h
  exact if_pos hx

theorem dueNow_none {pos : Option Int} {now : Tick} (h : ∀ x : Int, pos = some x → x / 64 ≠ now) : dueNow pos now = none := by
  cases pos with
  | none => rfl
  | some x => exact if_neg (h x rfl)

theorem Dev.edge_still {d : Dev} {n : PhaseIx} {e : EdgeKind} (h : ∀ x : Int, (d.pwm[n]'n.2).placeOf e = some x → x / 64 ≠ d.clk.now) : d.edge n e = d := by
  unfold Dev.edge
  cases e with
  | hiRise =>
    by_cases hc : (d.pwm[n]'n.2).cmd = true
    · simp only [hc, if_true]
      split <;> rfl
    · simp only [Pwm.placeOf, hc, Bool.false_eq_true, if_false] at h
      simp only [dueNow_none h]
  | hiFall =>
    by_cases hc : (d.pwm[n]'n.2).cmd = true
    · simp only [Pwm.placeOf, hc, if_true] at h
      simp only [dueNow_none h]
    · simp only [hc, Bool.false_eq_true, if_false]
      split <;> rfl
  | ghRise =>
    have hnone : dueNow (d.pwm[n]'n.2).ghAt d.clk.now = none := dueNow_none h
    simp only [hnone]
  | glRise =>
    have hnone : dueNow (d.pwm[n]'n.2).glAt d.clk.now = none := dueNow_none h
    simp only [hnone]
  | ghFall => rfl
  | glFall => rfl

/-- What a due edge does. -/
def Dev.edgeMade (d : Dev) (n : PhaseIx) (e : EdgeKind) (x : Int) : Dev := match e with
  | .hiRise => d.hiRise n x
  | .hiFall => d.hiFall n x
  | .ghRise => d.updPwm n fun p => p.beginGh x
  | .glRise => d.updPwm n fun p => p.beginGl x
  | .ghFall | .glFall => d

theorem Dev.edge_due {d : Dev} {n : PhaseIx} {e : EdgeKind} {x : Int} (h : (d.pwm[n]'n.2).placeOf e = some x) (hx : x / 64 = d.clk.now) :
    d.edge n e = d.edgeMade n e x := by
  unfold Dev.edge
  cases e with
  | hiRise =>
    by_cases hc : (d.pwm[n]'n.2).cmd = true
    · simp only [Pwm.placeOf, hc, if_true, reduceCtorEq] at h
    · simp only [Pwm.placeOf, hc, Bool.false_eq_true, if_false] at h
      simp only [dueNow_of_due h hx, hc]
      rfl
  | hiFall =>
    by_cases hc : (d.pwm[n]'n.2).cmd = true
    · simp only [Pwm.placeOf, hc, if_true] at h
      simp only [dueNow_of_due h hx, hc]
      rfl
    · simp only [Pwm.placeOf, hc, Bool.false_eq_true, if_false, reduceCtorEq] at h
  | ghRise =>
    have hdue : dueNow (d.pwm[n]'n.2).ghAt d.clk.now = some x := dueNow_of_due h hx
    simp only [hdue]
    rfl
  | glRise =>
    have hdue : dueNow (d.pwm[n]'n.2).glAt d.clk.now = some x := dueNow_of_due h hx
    simp only [hdue]
    rfl
  | ghFall => cases h
  | glFall => cases h

/-- Stage A's command at an edge, with the next one behind it. -/
def Pwm.turned (p : Pwm) (on : Bool) (x : Int) : Pwm := { p with cmd := on, edgeAt := p.nextEdge on x }

/-- A phase's record after a rise of HI that nothing holds off. -/
def Pwm.risen (p : Pwm) (x : Int) : Pwm := if p.hi then p.turned true x else (p.turned true x).hiUp x

/-- A phase's record after a due fall of HI: a Flare on-pulse ends, and HI goes on as the carrier forms it. -/
def Pwm.fallen (p : Pwm) (x : Int) : Pwm :=
  let on := p.flarePulse && p.level x
  let q := { p.turned on x with flarePulse := false }
  if on then q else q.hiDown x false

theorem Dev.updPwm_get (d : Dev) (n : PhaseIx) (f : Pwm → Pwm) : (d.updPwm n f).pwm[n]'n.2 = f (d.pwm[n]'n.2) := upd_get_same d.pwm n f

theorem Dev.updPwm_get_ne (d : Dev) {n m : PhaseIx} (f : Pwm → Pwm) (h : m ≠ n) : (d.updPwm n f).pwm[m]'m.2 = d.pwm[m]'m.2 := upd_get_ne d.pwm n m f h

/-- A rise of HI that a hold keeps off: stage A's command rises, and that is all. -/
theorem Dev.hiRise_held {d : Dev} {n : PhaseIx} (x : Int) (h : d.heldOff n = true) : d.hiRise n x = d.updPwm n fun p => p.turned true x := if_pos h

theorem Dev.hiRise_free {d : Dev} {n : PhaseIx} (x : Int) (h : d.heldOff n = false) :
    d.hiRise n x = (d.updTrip n fun t => { t with active := false, hold := false }).updPwm n fun p => p.risen x := by
  have hset : upd (upd d.pwm n fun p => p.turned true x) n (fun p => if p.hi then p else p.hiUp x) = upd d.pwm n fun p => p.risen x := by
    simp only [upd, Fin.getElem_fin, Vector.getElem_set_self, Vector.set_set]
    rfl
  have hfree : (d.updPwm n fun p => p.turned true x).heldOff n = false := h
  refine (if_neg (by rw [Bool.not_eq_true]; exact hfree)).trans ?_
  exact congrArg (fun v => { d.updTrip n fun t => { t with active := false, hold := false } with pwm := v }) hset

theorem Dev.hiFall_eq (d : Dev) (n : PhaseIx) (x : Int) : d.hiFall n x = d.updPwm n fun p => p.fallen x := rfl

theorem Pwm.risen_hi (p : Pwm) (x : Int) : (p.risen x).cmd = true ∧ (p.risen x).edgeAt = p.nextEdge true x ∧ (p.risen x).hi = true := by
  unfold Pwm.risen
  split
  · next h => exact ⟨rfl, rfl, h⟩
  · obtain ⟨c, tap, w, h⟩ := (p.turned true x).hiUp_spec x
    rw [h]
    exact ⟨rfl, rfl, rfl⟩

theorem Pwm.risen_gates {p : Pwm} (h : p.hi = false) (x : Int) : (p.risen x).gl = false ∧ (p.risen x).gh = p.gh ∧ (p.risen x).glAt = none ∧
    (p.risen x).ghAt = some (x + (dtFloor p.dtr).toNat) := by
  unfold Pwm.risen
  rw [if_neg (by simp [h])]
  obtain ⟨c, tap, w, hup⟩ := (p.turned true x).hiUp_spec x
  rw [hup]
  exact ⟨rfl, rfl, rfl, rfl⟩

theorem Pwm.Apart.risen {p : Pwm} (h : p.Apart) (x : Int) : (p.risen x).Apart := by
  unfold Pwm.risen
  split
  · exact h
  · exact Pwm.hiUp_apart _ x

/-- A fall of HI touches stage B alone, whatever it finds there. -/
theorem Pwm.hiDown_carrier (p : Pwm) (pos : Int) (cut : Bool) : (p.hiDown pos cut).flarePulse = p.flarePulse ∧ (p.hiDown pos cut).cmd = p.cmd ∧
    (p.hiDown pos cut).edgeAt = p.edgeAt := by
  cases hi : p.hi
  · rw [p.hiDown_low hi]
    exact ⟨rfl, rfl, rfl⟩
  · obtain ⟨c, tap, w, h⟩ := p.hiDown_spec hi pos cut
    rw [h]
    exact ⟨rfl, rfl, rfl⟩

theorem Pwm.hiDown_gates {p : Pwm} (hi : p.hi = true) (pos : Int) (cut : Bool) : (p.hiDown pos cut).gh = false ∧ (p.hiDown pos cut).gl = p.gl ∧
    (p.hiDown pos cut).ghAt = none ∧ (p.hiDown pos cut).glAt = some (pos + (dtFloor p.dtf).toNat) := by
  obtain ⟨c, tap, w, h⟩ := p.hiDown_spec hi pos cut
  rw [h]
  exact ⟨rfl, rfl, rfl, rfl⟩

/-- Without a Flare on-pulse HI falls, and GH with it. -/
theorem Pwm.fallen_plain {p : Pwm} (h : p.flarePulse = false) (x : Int) : (p.fallen x).cmd = false ∧ (p.fallen x).edgeAt = p.nextEdge false x ∧
    (p.fallen x).hi = false ∧ (p.hi = true → (p.fallen x).gh = false ∧ (p.fallen x).gl = p.gl ∧ (p.fallen x).ghAt = none ∧
      (p.fallen x).glAt = some (x + (dtFloor p.dtf).toNat)) := by
  have hfall : p.fallen x = ({ p.turned false x with flarePulse := false } : Pwm).hiDown x false := by
    simp only [Pwm.fallen, h, Bool.false_and, Bool.false_eq_true, if_false]
  rw [hfall]
  obtain ⟨-, hcmd, hedge⟩ := Pwm.hiDown_carrier { p.turned false x with flarePulse := false } x false
  exact ⟨hcmd, hedge, Pwm.hiDown_hi _ x false, fun hi => Pwm.hiDown_gates (p := { p.turned false x with flarePulse := false }) hi x false⟩

/-- At the end of a Flare on-pulse HI goes on as the carrier forms it. -/
theorem Pwm.fallen_flare {p : Pwm} (h : p.flarePulse = true) (x : Int) : (p.fallen x).flarePulse = false ∧ (p.fallen x).cmd = p.level x ∧
    (p.fallen x).edgeAt = p.nextEdge (p.level x) x := by
  unfold Pwm.fallen
  simp only [h, Bool.true_and]
  split
  · exact ⟨rfl, rfl, rfl⟩
  · exact Pwm.hiDown_carrier _ x false

theorem Pwm.Apart.fallen {p : Pwm} (h : p.Apart) (x : Int) : (p.fallen x).Apart := by
  unfold Pwm.fallen
  dsimp only
  split
  · exact h
  · exact Pwm.Apart.hiDown (p := { p.turned (p.flarePulse && p.level x) x with flarePulse := false }) h x false

theorem Dev.edgeMade_onlyIn (d : Dev) (n : PhaseIx) (e : EdgeKind) (x : Int) : d.onlyIn (d.edgeMade n e x) [.pwm, .prot] ∧
    ∀ m : PhaseIx, m ≠ n → (d.edgeMade n e x).pwm[m]'m.2 = d.pwm[m]'m.2 ∧ (d.edgeMade n e x).prot.trips[m]'m.2 = d.prot.trips[m]'m.2 := by
  have hupd : ∀ f : Pwm → Pwm, d.onlyIn (d.updPwm n f) [.pwm, .prot] ∧
      ∀ m : PhaseIx, m ≠ n → (d.updPwm n f).pwm[m]'m.2 = d.pwm[m]'m.2 ∧ (d.updPwm n f).prot.trips[m]'m.2 = d.prot.trips[m]'m.2 :=
    fun f => ⟨(d.updPwm_onlyIn n f).into, fun m hm => ⟨d.updPwm_get_ne f hm, rfl⟩⟩
  cases e with
  | hiRise =>
    show d.onlyIn (d.hiRise n x) _ ∧ ∀ m : PhaseIx, m ≠ n → (d.hiRise n x).pwm[m]'m.2 = _ ∧ (d.hiRise n x).prot.trips[m]'m.2 = _
    cases h : d.heldOff n
    · rw [d.hiRise_free x h]
      exact ⟨(d.updTrip_onlyIn n _).andThen (Dev.updPwm_onlyIn _ n _), fun m hm => ⟨Dev.updPwm_get_ne _ _ hm, upd_get_ne d.prot.trips n m _ hm⟩⟩
    · rw [d.hiRise_held x h]
      exact hupd _
  | hiFall => exact hupd fun p => p.fallen x
  | ghRise => exact hupd _
  | glRise => exact hupd _
  | ghFall => exact ⟨d.onlyIn_refl _, fun _ _ => ⟨rfl, rfl⟩⟩
  | glFall => exact ⟨d.onlyIn_refl _, fun _ _ => ⟨rfl, rfl⟩⟩

/-- No edge that is due turns GH and GL both on. -/
theorem Dev.edgeMade_apart {d : Dev} {n : PhaseIx} {e : EdgeKind} {x : Int} (h : (d.pwm[n]'n.2).placeOf e = some x) (ha : (d.pwm[n]'n.2).Apart) :
    ((d.edgeMade n e x).pwm[n]'n.2).Apart := by
  have hupd : ∀ f : Pwm → Pwm, (f (d.pwm[n]'n.2)).Apart → ((d.updPwm n f).pwm[n]'n.2).Apart := fun f hf => by rwa [d.updPwm_get n f]
  cases e with
  | hiRise =>
    show ((d.hiRise n x).pwm[n]'n.2).Apart
    cases hh : d.heldOff n
    · rw [d.hiRise_free x hh, Dev.updPwm_get]
      exact ha.risen x
    · rw [d.hiRise_held x hh]
      exact hupd _ ha
  | hiFall => exact hupd _ (ha.fallen x)
  | ghRise => exact hupd _ (ha.beginGh (Option.isSome_of_mem h) x)
  | glRise => exact hupd _ (ha.beginGl (Option.isSome_of_mem h) x)
  | ghFall => cases h
  | glFall => cases h

end Sys2Proof.Machine

open Sys2Proof Sys2Proof.Machine

/-- Settles O25: an edge by its kind, HI's by `Pwm.risen` and `Pwm.fallen`, the pulses by `Pwm.beginGh` and `Pwm.beginGl`, each keeping
    `Pwm.Apart`. -/
theorem edgesNeverOverlap : Obligations.EdgesNeverOverlap := by
  intro s t n e d p place apart halive hrail
  have hplace : place = p.placeOf e := by cases e <;> rfl
  have hruns : ∀ d' : Dev, d.edge n e = d' → exec (.emittedEdge t n e) s = .next (s.after t d') := fun d' h =>
    exec_emittedEdge.trans (State.runLive_next halive ((if_pos hrail).trans h))
  refine ⟨fun h => hruns d (Dev.edge_still fun x hx => h x (hplace.trans hx)), fun x hx hnow => ?_⟩
  have hx' : (d.pwm[n]'n.2).placeOf e = some x := hplace.symm.trans hx
  obtain ⟨hframe, hothers⟩ := d.edgeMade_onlyIn n e x
  refine ⟨d.edgeMade n e x, hruns _ (Dev.edge_due hx' hnow), ?rises, ?held, ?falls, ?flare, ?gh, ?gl,
    fun ha => ⟨Dev.edgeMade_apart hx' ha, (Dev.edgeMade_apart hx' ha).not_both⟩, hothers, hframe⟩
  case rises =>
    rintro rfl hh
    have hget : (d.edgeMade n .hiRise x).pwm[n]'n.2 = p.risen x := by
      rw [show d.edgeMade n .hiRise x = _ from d.hiRise_free x hh]
      exact Dev.updPwm_get _ n _
    obtain ⟨hcmd, hedge, hhi⟩ := p.risen_hi x
    rw [hget]
    refine ⟨?_, hcmd, hedge, hhi, fun h => p.risen_gates h x⟩
    rw [show d.edgeMade n .hiRise x = _ from d.hiRise_free x hh]
    exact upd_get_same d.prot.trips n _
  case held =>
    rintro rfl hh
    exact d.hiRise_held x hh
  case falls =>
    rintro rfl hf
    rw [show d.edgeMade n .hiFall x = _ from d.hiFall_eq n x, d.updPwm_get n fun p => p.fallen x]
    exact Pwm.fallen_plain hf x
  case flare =>
    rintro rfl hf
    rw [show d.edgeMade n .hiFall x = _ from d.hiFall_eq n x, d.updPwm_get n fun p => p.fallen x]
    exact Pwm.fallen_flare hf x
  case gh =>
    rintro rfl
    have hget : (d.edgeMade n .ghRise x).pwm[n]'n.2 = p.beginGh x := upd_get_same d.pwm n _
    rw [hget]
    cases hs : tooShort x (p.hiEnd x)
    · simp [Pwm.beginGh_emitted hs]
    · simp [Pwm.beginGh_short hs]
  case gl =>
    rintro rfl
    have hget : (d.edgeMade n .glRise x).pwm[n]'n.2 = p.beginGl x := upd_get_same d.pwm n _
    rw [hget]
    cases hs : tooShort x (p.nextRise x)
    · simp [Pwm.beginGl_emitted hs]
    · simp [Pwm.beginGl_short hs]

end

section
/-! SUPPORT. LOAD_ALL and HOST_OVR: what one covered phase takes, and that the steps of the others leave it alone. -/

namespace Sys2Proof.Machine

open Sys2Proof

/-! ## A loop's step for one element -/

/-- A loop over distinct elements whose steps for the others are of a relation that composes: the step of `x` falls between two such stretches. -/
theorem foldl_around {σ α : Type} {P : σ → σ → Prop} (hrefl : ∀ s, P s s) (htrans : ∀ {a b c}, P a b → P b c → P a c) {f : σ → α → σ} {x : α}
    (hf : ∀ s y, y ≠ x → P s (f s y)) : ∀ (xs : List α), xs.Nodup → x ∈ xs → ∀ s, ∃ e : σ, P s e ∧ P (f e x) (xs.foldl f s)
  | y :: ys, hn, hx, s => by
    have hothers : ∀ (zs : List α) (s : σ), x ∉ zs → P s (zs.foldl f s) := fun zs => by
      induction zs with
      | nil => exact fun s _ => hrefl s
      | cons z zs ih => exact fun s hz => htrans (hf s z fun h => hz (h ▸ List.mem_cons_self)) (ih _ fun h => hz (List.mem_cons_of_mem z h))
    obtain ⟨hy, hn⟩ := List.nodup_cons.1 hn
    rcases List.mem_cons.1 hx with rfl | hx
    · exact ⟨s, hrefl s, hothers ys _ hy⟩
    · obtain ⟨e, h1, h2⟩ := foldl_around hrefl htrans hf ys hn hx (f s y)
      exact ⟨e, htrans (hf s y fun h => hy (h ▸ hx)) h1, h2⟩

/-! ## Requests of leave in the queue (R521, R522) -/

theorem Dev.mem_joinQueue (d : Dev) (q x : LeaveReq) : x ∈ d.joinQueue q ↔ x = q ∨ x ∈ d.leave.queue := by
  unfold Dev.joinQueue
  extract_lets before
  conv_rhs => rw [← List.takeWhile_append_dropWhile (p := before) (l := d.leave.queue)]
  simp only [List.mem_append, List.mem_cons]
  tauto

theorem phaseTarget_injective {n m : PhaseIx} (h : phaseTarget m = phaseTarget n) : m = n := by
  have h' := congrArg BitVec.toNat h
  simp only [phaseTarget, BitVec.toNat_ofNat] at h'
  exact Fin.ext (by omega)

/-- A request that asks leave for the start of a phase. -/
def LeaveReq.starts (q : LeaveReq) (n : PhaseIx) : Prop := q.kind = .phaseStart ∧ q.target = phaseTarget n

theorem LeaveReq.starts_ne {q : LeaveReq} {n m : PhaseIx} (h : q.starts n) (hm : m ≠ n) : ¬q.starts m := fun h' =>
  hm (phaseTarget_injective (h'.2.symm.trans h.2))

theorem Dev.withdrawLeave_mem (d : Dev) (n : PhaseIx) (q : LeaveReq) :
    q ∈ (d.withdrawLeave .phaseStart (phaseTarget n)).leave.queue ↔ q ∈ d.leave.queue ∧ ¬q.starts n := by
  simp [Dev.withdrawLeave, LeaveReq.starts, imp_iff_not_or]

/-- A request for leave either joins the queue or leaves it as it was; beside LEAVE it touches nothing. -/
theorem Dev.askLeave_spec (d : Dev) (k : LeaveKind) (x : Byte) : ∃ l : Leave, (d.askLeave k x).1 = { d with leave := l } ∧
    ((d.askLeave k x).2 = false → l.queue = d.leave.queue) ∧
    ((d.askLeave k x).2 = true → l.queue = d.joinQueue { kind := k, target := x, arrival := d.clk.now }) := by
  unfold Dev.askLeave
  split
  · exact ⟨_, rfl, fun _ => rfl, fun h => by cases h⟩
  · exact ⟨_, rfl, fun h => by (cases h), fun _ => rfl⟩

/-! ## LOAD_ALL (R197, R200, R522) -/

/-- The staged values stand in the phase's shadow, from the tick given. -/
def Pwm.loaded (p : Pwm) (at_ : Tick) : Pwm := { p with loadShadow := some { per := p.perStaged, duty := p.dutyStaged, at_ := at_ } }

/-- A first non-zero code under HOST_OVR, and a code of 0 while a request waits. -/
def Pwm.asksStart (p : Pwm) : Prop := p.hostOvr = true ∧ p.hostStarted = false ∧ p.hostStartWait = false ∧ p.dutyStaged ≠ 0
def Pwm.endsStart (p : Pwm) : Prop := p.hostStartWait = true ∧ p.dutyStaged = 0

theorem Pwm.asksStart_iff (p : Pwm) : (p.hostOvr && !p.hostStarted && !p.hostStartWait && p.dutyStaged != 0) = true ↔ p.asksStart := by
  simp [Pwm.asksStart, and_assoc]

theorem Pwm.endsStart_iff (p : Pwm) : (p.hostStartWait && p.dutyStaged == 0) = true ↔ p.endsStart := by
  simp [Pwm.endsStart]

theorem Pwm.endsStart.not_asks {p : Pwm} (h : p.endsStart) : ¬p.asksStart := fun ⟨_, _, _, hd⟩ => hd h.2

theorem Dev.loadPhase_asks {d : Dev} {n : PhaseIx} (h : (d.pwm[n]'n.2).asksStart) : d.loadPhase n =
    let a := (d.updPwm n fun p => p.loaded d.cycleTick).askLeave .phaseStart (phaseTarget n)
    if a.2 then a.1.updPwm n fun p => { p with hostStartWait := true } else a.1.updPwm n fun q => { q with loadShadow := (d.pwm[n]'n.2).loadShadow } := by
  exact if_pos ((d.pwm[n]'n.2).asksStart_iff.2 h)

theorem Dev.loadPhase_ends {d : Dev} {n : PhaseIx} (h : (d.pwm[n]'n.2).endsStart) : d.loadPhase n =
    ((d.updPwm n fun p => p.loaded d.cycleTick).withdrawLeave .phaseStart (phaseTarget n)).updPwm n fun p => { p with hostStartWait := false } := by
  exact (if_neg (mt (d.pwm[n]'n.2).asksStart_iff.1 h.not_asks)).trans (if_pos ((d.pwm[n]'n.2).endsStart_iff.2 h))

theorem Dev.loadPhase_plain {d : Dev} {n : PhaseIx} (ha : ¬(d.pwm[n]'n.2).asksStart) (he : ¬(d.pwm[n]'n.2).endsStart) :
    d.loadPhase n = d.updPwm n fun p => p.loaded d.cycleTick :=
  (if_neg (mt (d.pwm[n]'n.2).asksStart_iff.1 ha)).trans (if_neg (mt (d.pwm[n]'n.2).endsStart_iff.1 he))

/-- What the loading of other phases leaves of phase `n`: its record, the clock, and the requests for its start. -/
def Dev.KeepsPhase (n : PhaseIx) (d e : Dev) : Prop :=
  e.pwm[n]'n.2 = d.pwm[n]'n.2 ∧ e.clk = d.clk ∧ (∀ q : LeaveReq, q.starts n → (q ∈ e.leave.queue ↔ q ∈ d.leave.queue))

theorem Dev.KeepsPhase.trans {n : PhaseIx} {a b c : Dev} (h : a.KeepsPhase n b) (k : b.KeepsPhase n c) : a.KeepsPhase n c :=
  ⟨k.1.trans h.1, k.2.1.trans h.2.1, fun q hq => (k.2.2 q hq).trans (h.2.2 q hq)⟩

theorem Dev.updPwm_keepsPhase (d : Dev) {n m : PhaseIx} (f : Pwm → Pwm) (h : m ≠ n) : d.KeepsPhase n (d.updPwm m f) :=
  ⟨d.updPwm_get_ne f h.symm, rfl, fun _ _ => Iff.rfl⟩

theorem Dev.askLeave_keepsPhase (d : Dev) {n m : PhaseIx} (h : m ≠ n) : d.KeepsPhase n (d.askLeave .phaseStart (phaseTarget m)).1 := by
  obtain ⟨l, hl, hno, hyes⟩ := d.askLeave_spec .phaseStart (phaseTarget m)
  rw [hl]
  refine ⟨rfl, rfl, fun q hq => ?_⟩
  show q ∈ l.queue ↔ q ∈ d.leave.queue
  cases ha : (d.askLeave .phaseStart (phaseTarget m)).2
  · rw [hno ha]
  · rw [hyes ha, Dev.mem_joinQueue]
    refine or_iff_right fun hj => LeaveReq.starts_ne hq h ?_
    rw [hj]
    exact ⟨rfl, rfl⟩

theorem Dev.withdrawLeave_keepsPhase (d : Dev) {n m : PhaseIx} (h : m ≠ n) : d.KeepsPhase n (d.withdrawLeave .phaseStart (phaseTarget m)) :=
  ⟨rfl, rfl, fun q hq => (d.withdrawLeave_mem m q).trans (and_iff_left (LeaveReq.starts_ne hq h))⟩

theorem Dev.loadPhase_keepsPhase (d : Dev) {n m : PhaseIx} (h : m ≠ n) : d.KeepsPhase n (d.loadPhase m) := by
  have hload := d.updPwm_keepsPhase (fun p => p.loaded d.cycleTick) h
  by_cases ha : (d.pwm[m]'m.2).asksStart
  · rw [Dev.loadPhase_asks ha]
    have hask := hload.trans (Dev.askLeave_keepsPhase _ h)
    dsimp only
    split
    · exact hask.trans (Dev.updPwm_keepsPhase _ _ h)
    · exact hask.trans (Dev.updPwm_keepsPhase _ _ h)
  · by_cases he : (d.pwm[m]'m.2).endsStart
    · rw [Dev.loadPhase_ends he]
      exact (hload.trans (Dev.withdrawLeave_keepsPhase _ h)).trans (Dev.updPwm_keepsPhase _ _ h)
    · rw [Dev.loadPhase_plain ha he]
      exact hload

theorem Dev.loadPhase_onlyIn (d : Dev) (n : PhaseIx) : d.onlyIn (d.loadPhase n) [.pwm, .leave] := by
  have hload := d.updPwm_onlyIn n fun p => p.loaded d.cycleTick
  by_cases ha : (d.pwm[n]'n.2).asksStart
  · obtain ⟨l, hl, -, -⟩ := (d.updPwm n fun p => p.loaded d.cycleTick).askLeave_spec .phaseStart (phaseTarget n)
    rw [Dev.loadPhase_asks ha]
    dsimp only
    rw [hl]
    have hask : d.onlyIn { d.updPwm n fun p => p.loaded d.cycleTick with leave := l } [.pwm, .leave] := hload.andThen (Dev.onlyIn_leave _ l)
    split
    · exact hask.thenIn (Dev.updPwm_onlyIn _ n _)
    · exact hask.thenIn (Dev.updPwm_onlyIn _ n _)
  · by_cases he : (d.pwm[n]'n.2).endsStart
    · rw [Dev.loadPhase_ends he]
      exact (hload.andThen (Dev.onlyIn_leave _ _) (es := [.pwm, .leave])).thenIn (Dev.updPwm_onlyIn _ n _)
    · rw [Dev.loadPhase_plain ha he]
      exact hload.into

/-- The phases that a LOAD_ALL covers take their staged values, one after another. -/
def Dev.loadCovered (d : Dev) (mask : BitVec 16) : Dev := ((List.finRange 64).filter fun n => d.covered mask n).foldl Dev.loadPhase d

theorem Dev.loadCovered_onlyIn (d : Dev) (mask : BitVec 16) : d.onlyIn (d.loadCovered mask) [.pwm, .leave] :=
  Dev.onlyIn_foldl _ Dev.loadPhase_onlyIn _ d

theorem Dev.loadCovered_uncovered {d : Dev} {mask : BitVec 16} {n : PhaseIx} (h : d.covered mask n = false) : d.KeepsPhase n (d.loadCovered mask) := by
  have hnot : n ∉ (List.finRange 64).filter fun n => d.covered mask n := by simp [h]
  unfold Dev.loadCovered
  generalize (List.finRange 64).filter (fun n => d.covered mask n) = ms at hnot
  clear h
  induction ms generalizing d with
  | nil => exact ⟨rfl, rfl, fun _ _ => Iff.rfl⟩
  | cons m ms ih =>
    obtain ⟨hm, hms⟩ := not_or.1 (List.mem_cons.not.1 hnot)
    exact (d.loadPhase_keepsPhase (Ne.symm hm)).trans (ih hms)

theorem Dev.loadCovered_at {d : Dev} {mask : BitVec 16} {n : PhaseIx} (h : d.covered mask n = true) :
    ∃ e : Dev, d.KeepsPhase n e ∧ (e.loadPhase n).KeepsPhase n (d.loadCovered mask) :=
  foldl_around (P := Dev.KeepsPhase n) (fun _ => ⟨rfl, rfl, fun _ _ => Iff.rfl⟩) Dev.KeepsPhase.trans (fun e _ hm => e.loadPhase_keepsPhase hm) _
    ((List.nodup_finRange 64).filter _) (List.mem_filter.2 ⟨List.mem_finRange n, h⟩) d

/-- A covered phase that neither asks nor withdraws. -/
theorem Dev.loadCovered_plain {d : Dev} {mask : BitVec 16} {n : PhaseIx} (h : d.covered mask n = true) (ha : ¬(d.pwm[n]'n.2).asksStart)
    (he : ¬(d.pwm[n]'n.2).endsStart) : (d.loadCovered mask).pwm[n]'n.2 = (d.pwm[n]'n.2).loaded d.cycleTick := by
  obtain ⟨e, ⟨hp, hc, -⟩, ⟨hp', -, -⟩⟩ := Dev.loadCovered_at h
  rw [← hp] at ha he
  rw [hp', Dev.loadPhase_plain ha he, Dev.updPwm_get, hp, Dev.cycleTick_of_clk hc]

/-- A covered phase whose code of 0 withdraws its request. -/
theorem Dev.loadCovered_ends {d : Dev} {mask : BitVec 16} {n : PhaseIx} (h : d.covered mask n = true) (he : (d.pwm[n]'n.2).endsStart) :
    (d.loadCovered mask).pwm[n]'n.2 = { (d.pwm[n]'n.2).loaded d.cycleTick with hostStartWait := false } ∧
      ∀ q ∈ (d.loadCovered mask).leave.queue, ¬q.starts n := by
  obtain ⟨e, ⟨hp, hc, -⟩, ⟨hp', -, hq'⟩⟩ := Dev.loadCovered_at h
  rw [← hp] at he
  rw [Dev.loadPhase_ends he] at hp' hq'
  refine ⟨?_, fun q hq hs => ?_⟩
  · have hget : ((e.updPwm n fun p => p.loaded e.cycleTick).withdrawLeave .phaseStart (phaseTarget n)).pwm[n]'n.2 = (d.pwm[n]'n.2).loaded d.cycleTick := by
      rw [← hp, ← Dev.cycleTick_of_clk hc]
      exact e.updPwm_get n _
    rw [hp', Dev.updPwm_get, hget]
  · exact ((Dev.withdrawLeave_mem _ n q).1 ((hq' q hs).1 hq)).2 hs

/-- A covered phase whose first non-zero code asks leave: refused, it stands as it was. -/
theorem Dev.loadCovered_asks {d : Dev} {mask : BitVec 16} {n : PhaseIx} (h : d.covered mask n = true) (ha : (d.pwm[n]'n.2).asksStart) :
    (d.loadCovered mask).pwm[n]'n.2 = d.pwm[n]'n.2 ∨ (d.loadCovered mask).pwm[n]'n.2 = { (d.pwm[n]'n.2).loaded d.cycleTick with hostStartWait := true } ∧
      { kind := .phaseStart, target := phaseTarget n, arrival := d.clk.now } ∈ (d.loadCovered mask).leave.queue := by
  obtain ⟨e, ⟨hp, hc, -⟩, ⟨hp', -, hq'⟩⟩ := Dev.loadCovered_at h
  rw [← hp] at ha
  rw [Dev.loadPhase_asks ha] at hp' hq'
  obtain ⟨l, hl, hno, hyes⟩ := (e.updPwm n fun p => p.loaded e.cycleTick).askLeave_spec .phaseStart (phaseTarget n)
  dsimp only at hp' hq'
  rw [hl] at hp' hq'
  cases hok : ((e.updPwm n fun p => p.loaded e.cycleTick).askLeave .phaseStart (phaseTarget n)).2
  · left
    rw [if_neg (by rw [hok]; decide), Dev.updPwm_get, show (Dev.pwm _) = (e.updPwm n fun p => p.loaded e.cycleTick).pwm from rfl, Dev.updPwm_get] at hp'
    rw [hp', ← hp]
    rfl
  · right
    rw [if_pos hok, Dev.updPwm_get, show (Dev.pwm _) = (e.updPwm n fun p => p.loaded e.cycleTick).pwm from rfl, Dev.updPwm_get, hp, Dev.cycleTick_of_clk hc] at hp'
    refine ⟨hp', ?_⟩
    rw [if_pos hok] at hq'
    refine (hq' _ ⟨rfl, rfl⟩).2 ?_
    show _ ∈ l.queue
    rw [hyes hok, Dev.mem_joinQueue]
    exact Or.inl (by rw [← hc]; rfl)

theorem Dev.loadCovered_leave {d : Dev} {mask : BitVec 16} (h : ∀ n : PhaseIx, d.covered mask n = true → ¬(d.pwm[n]'n.2).asksStart ∧ ¬(d.pwm[n]'n.2).endsStart) :
    (d.loadCovered mask).leave = d.leave := by
  have hloop : ∀ (ms : List PhaseIx), ms.Nodup → ∀ e : Dev, (∀ n ∈ ms, ¬(e.pwm[n]'n.2).asksStart ∧ ¬(e.pwm[n]'n.2).endsStart) →
      (ms.foldl Dev.loadPhase e).leave = e.leave := fun ms => by
    induction ms with
    | nil => exact fun _ _ _ => rfl
    | cons m ms ih =>
      intro hn e he
      obtain ⟨hm, hn⟩ := List.nodup_cons.1 hn
      obtain ⟨ha, hend⟩ := he m List.mem_cons_self
      rw [List.foldl_cons, ih hn _ fun k hk => ?_, Dev.loadPhase_plain ha hend]
      · rfl
      · rw [(e.loadPhase_keepsPhase (n := k) (m := m) fun hmk => hm (hmk ▸ hk)).1]
        exact he k (List.mem_cons_of_mem m hk)
  exact hloop _ ((List.nodup_finRange 64).filter _) d fun n hn => h n (List.mem_filter.1 hn).2

/-! ## HOST_OVR (R198, R199) -/

/-- What HOST_OVR may be set for. -/
theorem Dev.mayOvr_iff (d : Dev) (n : PhaseIx) : d.mayOvr n = true ↔ ∃ r : RailIx, d.railOf n = some r ∧ d.tile.cur.phases[n].host = false ∧
    (d.sys.devState = .maint ∨ (d.mode r = .off ∧ (d.rails[r]'r.2).oltEn = true ∧ (d.sys.devState = .standby ∨ d.sys.devState = .run))) := by
  unfold Dev.mayOvr
  cases hr : d.railOf n with
  | none => simp
  | some r => simp [Dev.isLoop, hr, and_assoc]

theorem Dev.writeHostOvr_refused {d : Dev} {n : PhaseIx} {v : Word} (hv : v.getLsbD 0 = true) (h : ¬d.mayOvr n = true) :
    d.writeHostOvr n v = (d, stState) := (if_neg (by simp [hv])).trans (if_pos (by simpa using h))

theorem Dev.writeHostOvr_again {d : Dev} {n : PhaseIx} {v : Word} (hv : v.getLsbD 0 = true) (h : d.mayOvr n = true) (ho : (d.pwm[n]'n.2).hostOvr = true) :
    d.writeHostOvr n v = (d, stOk) := (if_neg (by simp [hv])).trans ((if_neg (by simp [h])).trans (if_pos ho))

theorem Dev.writeHostOvr_taken {d : Dev} {n : PhaseIx} {r : RailIx} {v : Word} (hv : v.getLsbD 0 = true) (h : d.mayOvr n = true)
    (hr : d.railOf n = some r) (ho : (d.pwm[n]'n.2).hostOvr = false) : d.writeHostOvr n v = (d.updPwm n fun p => { p with
      hostOvr := true, hostStartWait := false, hostStarted := false, loadShadow := some { per := d.pwmg.rper[r]'r.2, duty := 0, at_ := d.cycleTick }, zeroDue := false }, stOk) := by
  unfold Dev.writeHostOvr
  rw [if_neg (by simp [hv]), if_neg (by simp [h]), if_neg (by rw [ho]; decide)]
  simp only [hr]

theorem Dev.writeHostOvr_off {d : Dev} {n : PhaseIx} {v : Word} (hv : v.getLsbD 0 = false) : d.writeHostOvr n v = (d.endHostOvr n, stOk) :=
  if_pos (by rw [hv]; rfl)

theorem Dev.endHostOvr_idle {d : Dev} {n : PhaseIx} (h : (d.pwm[n]'n.2).hostOvr = false) : d.endHostOvr n = d := if_neg (by rw [h]; decide)

/-- A mask changes no more of a record than its bits and those that wait. -/
theorem Pwm.setMask_eq (p : Pwm) (now : Tick) (f : MaskBits → MaskBits) : ∃ cs : List MaskChange, p.setMask now f = { p with mask := f p.mask, maskChanges := cs } := by
  unfold Pwm.setMask
  dsimp only
  split
  · exact ⟨_, rfl⟩
  · exact ⟨_, rfl⟩

theorem Dev.endHostOvr_ends {d : Dev} {n : PhaseIx} (h : (d.pwm[n]'n.2).hostOvr = true) : let q := (d.endHostOvr n).pwm[n]'n.2
    q.hostOvr = false ∧ q.loadShadow = none ∧ q.loopShadow = none ∧ q.zeroDue = true ∧ q.mask.shed = true := by
  intro q
  obtain ⟨e, he, hp, -, -⟩ := Dev.setMask_pwm ((d.endStart n).updPwm n fun p =>
    { p with hostOvr := false, hostStartWait := false, hostStarted := false, loadShadow := none, loopShadow := none, zeroDue := true }) n fun m => { m with shed := true }
  have hq : q = _ := congrArg (fun e : Dev => e.pwm[n]'n.2) ((if_pos h : d.endHostOvr n = _).trans he)
  rw [Dev.updPwm_get, hp, Dev.updPwm_get] at hq
  obtain ⟨cs, hcs⟩ := Pwm.setMask_eq (p := { (d.endStart n).pwm[n]'n.2 with
    hostOvr := false, hostStartWait := false, hostStarted := false, loadShadow := none, loopShadow := none, zeroDue := true }) _ _
  rw [hcs] at hq
  rw [hq]
  exact ⟨rfl, rfl, rfl, rfl, rfl⟩

end Sys2Proof.Machine

open Sys2Proof Sys2Proof.Machine

/-- Settles O27: LOAD_ALL by `Dev.loadCovered`, each phase's own step found between the steps of the others, which keep it
    (`Dev.KeepsPhase`); HOST_OVR by the cases of its write and `Dev.endHostOvr_ends`. -/
theorem hostDutyIsTransferred : Obligations.HostDutyIsTransferred := by
  refine ⟨?loadAll, ?hostOvr⟩
  case loadAll =>
    intro s t mask d asks ends taken hh
    have hframe := d.loadCovered_onlyIn mask
    have hg : ∀ b : Block, b ≠ .link → (Dev.same (d.loadAll mask) ((d.loadAll mask).reply stOk) b) := fun b hb => Dev.reply_onlyIn _ _ _ b (by simpa using hb)
    have hpwm : ((d.loadAll mask).reply stOk).pwm = (d.loadCovered mask).pwm := hg .pwm (by decide)
    have hleave : ((d.loadAll mask).reply stOk).leave = (d.loadCovered mask).leave := hg .leave (by decide)
    refine ⟨(d.loadAll mask).reply stOk, exec_loadAll.trans (State.hostWrite_next hh rfl), Dev.reply_lastStatus _ _ _, ?_, fun n hc => ?_, fun n hc ha he => ?_,
      fun n hc he => ?_, fun n hc ha => ?_, fun h => ?_, ?_⟩
    · rw [show ((d.loadAll mask).reply stOk).pwmg = _ from hg .pwmg (by decide)]
      show { (d.loadCovered mask).pwmg with loadCount := (d.loadCovered mask).pwmg.loadCount + 1, loadMask := mask } = _
      rw [show (d.loadCovered mask).pwmg = d.pwmg from hframe .pwmg (by decide)]
    · rw [hpwm]
      exact (Dev.loadCovered_uncovered hc).1
    · rw [hpwm]
      exact Dev.loadCovered_plain hc ha he
    · rw [hpwm, hleave]
      exact Dev.loadCovered_ends hc he
    · rw [hpwm, hleave]
      exact Dev.loadCovered_asks hc ha
    · rw [hleave]
      exact Dev.loadCovered_leave h
    · exact ((hframe.andThen (Dev.onlyIn_pwmg _ _) (es := [.pwm, .pwmg, .leave])).into).thenIn (Dev.reply_onlyIn (d.loadAll mask) stOk [])
  case hostOvr =>
    intro s t n v d p may hh
    have hwrite : ∀ (d' : Dev) (st : Byte), d.writeHostOvr n v = (d', st) → exec (.hostOvrWrite t n v) s = .next (s.after t (d'.reply st)) :=
      fun d' st h => exec_hostOvrWrite.trans (State.hostWrite_next hh h)
    refine ⟨fun r hv hm ho => ?_, fun r hv hm ho => ?_, fun hv hm => ?_, fun hv ho => ?_, fun hv ho => ?_⟩
    · exact hwrite _ _ (Dev.writeHostOvr_taken hv ((d.mayOvr_iff n).2 ⟨r, hm⟩) hm.1 ho)
    · exact hwrite _ _ (Dev.writeHostOvr_again hv ((d.mayOvr_iff n).2 ⟨r, hm⟩) ho)
    · exact hwrite _ _ (Dev.writeHostOvr_refused hv fun h => (d.mayOvr_iff n).1 h |>.elim hm)
    · rw [← Dev.endHostOvr_idle ho]
      exact hwrite _ _ (Dev.writeHostOvr_off hv)
    · have hpwm : ((d.endHostOvr n).reply stOk).pwm = (d.endHostOvr n).pwm := Dev.reply_onlyIn _ _ _ .pwm (by decide)
      obtain ⟨h1, h2, h3, h4, h5⟩ := Dev.endHostOvr_ends ho
      refine ⟨_, hwrite _ _ (Dev.writeHostOvr_off hv), Dev.reply_lastStatus _ _ _, ?_⟩
      rw [hpwm]
      exact ⟨h1, h2, h3, h4, h5, (d.endHostOvr_pwm n).2, ((d.endHostOvr_onlyIn n).into).thenIn (Dev.reply_onlyIn _ stOk [])⟩

end

section
/-! SUPPORT. Triggers, the interlock, blanking windows and the trips behind them, phase starts, and the delay-line calibration. -/

namespace Sys2Proof.Machine

open Sys2Proof

/-! ## Triggers (R225 to R227) -/

/-- A trigger meets its position: it is due in the present period, has not fired in it, and the period reaches so far. -/
def Dev.trigMeets (d : Dev) (n : PhaseIx) (g : Trig) : Prop :=
  (d.carrierRail n).isSome = true ∧ g.enEff = true ∧ g.count = 0 ∧ g.fired = false ∧
    ((d.pwm[n]'n.2).sync d.clk.now).valley + g.posEff.toNat = d.clk.now ∧
    g.posEff.toNat < ((d.pwm[n]'n.2).sync d.clk.now).upLen + ((d.pwm[n]'n.2).sync d.clk.now).downLen

/-- The carrier that goes on has the triggers that stood. -/
theorem Pwm.sync_trigs (p : Pwm) (now : Tick) : (p.sync now).trigA = p.trigA ∧ (p.sync now).trigB = p.trigB := by
  unfold Pwm.sync
  dsimp only
  split <;> exact ⟨rfl, rfl⟩

/-- The test of the model's `Dev.trigHit`. -/
def Dev.trigTest (d : Dev) (n : PhaseIx) (g : Trig) : Bool :=
  (d.carrierRail n).isSome && g.enEff && g.count == 0 && !g.fired && ((d.pwm[n]'n.2).sync d.clk.now).valley + g.posEff.toNat == d.clk.now &&
    decide (g.posEff.toNat < ((d.pwm[n]'n.2).sync d.clk.now).upLen + ((d.pwm[n]'n.2).sync d.clk.now).downLen)

theorem Dev.trigTest_iff (d : Dev) (n : PhaseIx) (g : Trig) : d.trigTest n g = true ↔ d.trigMeets n g := by
  simp [Dev.trigTest, Dev.trigMeets, and_assoc]

theorem Dev.trigHit_a {d : Dev} {n : PhaseIx} (h : d.trigMeets n (d.pwm[n]'n.2).trigA) :
    d.trigHit n false = (d.updPwm n fun p => { p with trigA := { p.trigA with fired := true } }).event n.val := by
  rw [← ((d.pwm[n]'n.2).sync_trigs d.clk.now).1] at h
  have hdue : ¬(!d.trigTest n ((d.pwm[n]'n.2).sync d.clk.now).trigA) = true := by
    rw [(d.trigTest_iff n _).2 h]
    decide
  refine (if_neg hdue).trans ?_
  exact congrArg (Dev.event _) (Nat.zero_add n.val)

theorem Dev.trigHit_b {d : Dev} {n : PhaseIx} (h : d.trigMeets n (d.pwm[n]'n.2).trigB) :
    d.trigHit n true = (d.updPwm n fun p => { p with trigB := { p.trigB with fired := true } }).event (64 + n.val) := by
  rw [← ((d.pwm[n]'n.2).sync_trigs d.clk.now).2] at h
  have hdue : ¬(!d.trigTest n ((d.pwm[n]'n.2).sync d.clk.now).trigB) = true := by
    rw [(d.trigTest_iff n _).2 h]
    decide
  exact if_neg hdue

theorem Dev.trigHit_still {d : Dev} {n : PhaseIx} {b : Bool} (h : ¬d.trigMeets n (if b then (d.pwm[n]'n.2).trigB else (d.pwm[n]'n.2).trigA)) : d.trigHit n b = d := by
  have hg : (if b then ((d.pwm[n]'n.2).sync d.clk.now).trigB else ((d.pwm[n]'n.2).sync d.clk.now).trigA) = if b then (d.pwm[n]'n.2).trigB else (d.pwm[n]'n.2).trigA := by
    rw [((d.pwm[n]'n.2).sync_trigs d.clk.now).1, ((d.pwm[n]'n.2).sync_trigs d.clk.now).2]
  rw [← hg] at h
  have hdue : (!d.trigTest n (if b then ((d.pwm[n]'n.2).sync d.clk.now).trigB else ((d.pwm[n]'n.2).sync d.clk.now).trigA)) = true := by
    rw [Bool.eq_false_iff.2 (mt (d.trigTest_iff n _).1 h)]
    rfl
  exact if_pos hdue

/-! ## The interlock (R223) -/

theorem Dev.interlock_forced {d : Dev} {n : PhaseIx} (h : d.gateForce n = true) : d.interlock n = d := if_pos h

theorem Dev.interlock_latches {d : Dev} {n : PhaseIx} (h : d.gateForce n = false) : let d' := d.interlock n
    d'.pwm = d.pwm.set n { d.pwm[n]'n.2 with ilkLatch := true, ilkCount := satInc (d.pwm[n]'n.2).ilkCount } ∧ d'.emitted n = (false, false) ∧
      d'.causeOf srcInterlock n = true ∧ d.onlyIn d' [.pwm, .fault] := by
  let latched := (d.updPwm n fun p => { p with ilkLatch := true, ilkCount := satInc p.ilkCount }).setsBit (.ilk n)
  have heq : d.interlock n = latched.setCause srcInterlock n true (d.pwm[n]'n.2).ilkDetail := if_neg (by rw [h]; decide)
  have hcause := latched.setCause_onlyIn srcInterlock n true (d.pwm[n]'n.2).ilkDetail
  have hframe : d.onlyIn latched [.pwm] := (d.updPwm_onlyIn n _).thenIn (Dev.onlyIn_cyc _ _ [])
  intro d'
  have hd' : d' = _ := heq
  have hpwm : d'.pwm = d.pwm.set n { d.pwm[n]'n.2 with ilkLatch := true, ilkCount := satInc (d.pwm[n]'n.2).ilkCount } := by rw [hd']; rfl
  refine ⟨hpwm, Dev.emitted_of_gateForce (Dev.gateForce_of_latch (Or.inr ?_)), ?_, ?_⟩
  · rw [hpwm]
    simp
  · rw [hd', Dev.causeOf_setCause, Dev.srcLives_device _ (by decide)]
    rfl
  · rw [hd']
    exact hframe.andThen hcause

/-! ## What a stop of a rail leaves of the trip counters (R320, R346) -/

/-- The limited periods of the phases and their totals stand as they stood. -/
def Dev.KeepsTally (d d' : Dev) : Prop :=
  ∀ n : PhaseIx, (d'.prot.trips[n]'n.2).limited = (d.prot.trips[n]'n.2).limited ∧ (d'.prot.trips[n]'n.2).total = (d.prot.trips[n]'n.2).total

theorem Dev.KeepsTally.trans {a b c : Dev} (h : a.KeepsTally b) (k : b.KeepsTally c) : a.KeepsTally c :=
  fun n => ⟨(k n).1.trans (h n).1, (k n).2.trans (h n).2⟩

theorem Dev.keepsTally_of_trips {d d' : Dev} (h : d'.prot.trips = d.prot.trips) : d.KeepsTally d' := fun n => by simp only [h, and_self]

theorem Dev.keepsTally_of_onlyIn {d d' : Dev} {bs : List Block} (h : d.onlyIn d' bs) (hb : Block.prot ∉ bs := by decide) : d.KeepsTally d' :=
  Dev.keepsTally_of_trips (congrArg Prot.trips (h .prot hb))

theorem Dev.updTrip_get (d : Dev) (n : PhaseIx) (f : Trip → Trip) : (d.updTrip n f).prot.trips[n]'n.2 = f (d.prot.trips[n]'n.2) := upd_get_same d.prot.trips n f

theorem Dev.updTrip_get_ne (d : Dev) {n m : PhaseIx} (f : Trip → Trip) (h : m ≠ n) : (d.updTrip n f).prot.trips[m]'m.2 = d.prot.trips[m]'m.2 :=
  upd_get_ne d.prot.trips n m f h

theorem Dev.updTrip_keepsTally (d : Dev) (n : PhaseIx) (f : Trip → Trip) (hl : ∀ t : Trip, (f t).limited = t.limited) (ht : ∀ t : Trip, (f t).total = t.total) :
    d.KeepsTally (d.updTrip n f) := fun m => by
  rcases eq_or_ne m n with rfl | hm
  · rw [Dev.updTrip_get]
    exact ⟨hl _, ht _⟩
  · rw [Dev.updTrip_get_ne _ _ hm]
    exact ⟨rfl, rfl⟩

theorem Dev.updWin_keepsTally (d : Dev) (r : RailIx) (f : Win → Win) : d.KeepsTally (d.updWin r f) := Dev.keepsTally_of_trips rfl

theorem Dev.switchTrips_keepsTally (d : Dev) (r : RailIx) : d.KeepsTally (d.switchTrips r) :=
  foldl_related (P := Dev.KeepsTally) (fun _ _ => ⟨rfl, rfl⟩) Dev.KeepsTally.trans
    (fun e n => e.updTrip_keepsTally n (fun t => { t with settleUntil := Machine.settle e.clk.now t.thr t.thrSup t.settleUntil }) (fun _ => rfl) fun _ => rfl) _ d

theorem Dev.changeMode_keepsTally (d : Dev) (r : RailIx) (m : RailMode) : d.KeepsTally (d.changeMode r m) := by
  unfold Dev.changeMode
  extract_lets old unshed keeps stays put trips div ovr
  have hput : d.KeepsTally put := Dev.keepsTally_of_onlyIn (d.putMode_onlyIn r m)
  have htrips : put.KeepsTally trips := by
    dsimp only [trips]
    split
    · exact put.switchTrips_keepsTally r
    · exact fun _ => ⟨rfl, rfl⟩
  have hdiv : trips.onlyIn div [.loop, .fault] := Dev.onlyIn_ite (trips.startDiv_onlyIn r)
  have hovr : div.onlyIn ovr [.pwm, .leave] := Dev.onlyIn_ite (div.endHostOvrRail_onlyIn r)
  have hctx : ovr.onlyIn ((ovr.syncCtx r).evalRail r) [.loop, .fault] := (ovr.syncCtx_onlyIn r).thenIn (Dev.evalRail_onlyIn _ r)
  have hrt : ∀ e : Dev, e.KeepsTally (e.setRt r) := fun e => e.updWin_keepsTally r _
  exact (hput.trans htrips).trans ((Dev.keepsTally_of_onlyIn (hdiv.andThen hovr (es := [.loop, .fault, .pwm, .leave]))).trans
    ((Dev.keepsTally_of_onlyIn hctx).trans (hrt _)))

theorem Dev.stopRail_keepsTally (d : Dev) (r : RailIx) (m : RailMode) : d.KeepsTally (d.stopRail r m) := by
  have hnote : d.KeepsTally (d.noteEvent r m) := by
    unfold Dev.noteEvent
    split <;> exact fun _ => ⟨rfl, rfl⟩
  unfold Dev.stopRail
  extract_lets old noted idle now stopped changed port cause cyc marked
  have hnoted : (d.noteEvent r m).onlyIn noted [.rails] := Dev.onlyIn_ite (Dev.updRail_onlyIn _ r _)
  have hidle : noted.onlyIn idle [.fault, .rails, .pwm, .leave] := (noted.cutFlare_spec r).2.2.into.thenIn (Dev.withdrawAdd_onlyIn _ r)
  have hshed : (d.noteEvent r m).onlyIn (stopped.shedAll r) [.fault, .rails, .pwm, .leave] :=
    hnoted.into.thenIn hidle |>.thenIn (idle.updRail_onlyIn r _) |>.thenIn (stopped.shedAll_onlyIn r)
  have hport : changed.onlyIn port [.ports, .lantern, .fault, .pwm, .leave, .rails, .loop] := by
    dsimp only [port]
    split
    · exact Dev.onlyIn_ite (changed.portStop_onlyIn _ r)
    · exact changed.onlyIn_refl _
  have hcause : port.onlyIn cause [.fault] := Dev.onlyIn_ite' (port.setCause_onlyIn _ _ _ _)
  have hmarked : cause.onlyIn marked [] := Dev.onlyIn_ite' (cause.onlyIn_cyc _ [])
  have hafter : changed.onlyIn ((marked.respread r).checkUnderphased r) [.ports, .lantern, .fault, .pwm, .leave, .rails, .loop] :=
    hport.thenIn hcause |>.thenIn hmarked |>.thenIn (marked.respread_onlyIn r) |>.thenIn (Dev.checkUnderphased_onlyIn _ r)
  exact hnote.trans ((Dev.keepsTally_of_onlyIn hshed).trans ((Dev.changeMode_keepsTally _ r m).trans (Dev.keepsTally_of_onlyIn hafter)))

theorem Dev.latchCheck_keepsTally (d : Dev) (n : PhaseIx) : d.KeepsTally (d.latchCheck n) := by
  unfold Dev.latchCheck
  extract_lets t latched
  have hcause : (d.updTrip n fun t => { t with latch := true }).onlyIn latched [.fault] := Dev.setCause_onlyIn _ _ _ _ _
  have hlatched : d.KeepsTally latched := (d.updTrip_keepsTally n (fun t => { t with latch := true }) (fun _ => rfl) fun _ => rfl).trans
    (Dev.keepsTally_of_onlyIn hcause)
  split
  · exact fun _ => ⟨rfl, rfl⟩
  · split
    · split
      · exact hlatched.trans (latched.stopRail_keepsTally _ _)
      · exact hlatched
    · exact hlatched

/-! ## A trip becomes active (R345, R346) -/

/-- The present period of the phase counts for a limit. -/
def Dev.limitCounts (d : Dev) (n : PhaseIx) : Bool :=
  (match d.phaseMode n with
    | some m => m.switching
    | none => false) && (d.pwm[n]'n.2).cHi.passes && !d.gateForce n

theorem Dev.markLimited_limited {d : Dev} {n : PhaseIx} (h : (d.prot.trips[n]'n.2).limited = true) : d.markLimited n = d := by
  refine if_pos ?_
  rw [h, Bool.or_true]

theorem Dev.markLimited_idle {d : Dev} {n : PhaseIx} (h : d.limitCounts n = false) : d.markLimited n = d := by
  have hidle : (!d.limitCounts n || (d.prot.trips[n]'n.2).limited) = true := by
    rw [h]
    rfl
  exact if_pos hidle

theorem Dev.markLimited_counts {d : Dev} {n : PhaseIx} (h : d.limitCounts n = true) (hl : (d.prot.trips[n]'n.2).limited = false) :
    d.markLimited n = (d.updTrip n fun t => ({ t with limited := true, total := t.total + 1 }).recount).latchCheck n := by
  have hcounts : ¬(!d.limitCounts n || (d.prot.trips[n]'n.2).limited) = true := by
    rw [h, hl]
    decide
  exact if_neg hcounts

theorem Dev.latchCheck_latched {d : Dev} {n : PhaseIx} (h : (d.prot.trips[n]'n.2).latch = true) : d.latchCheck n = d := by
  refine if_pos ?_
  rw [h]
  rfl

/-- A phase whose latch stands, or whose period is limited already, has nothing but its own trip record marked. -/
theorem Dev.markLimited_latched {d : Dev} {n : PhaseIx} (h : (d.prot.trips[n]'n.2).latch = true ∨ (d.prot.trips[n]'n.2).limited = true) :
    ∃ f : Trip → Trip, d.markLimited n = d.updTrip n f := by
  have hself : d = d.updTrip n id := by simp [Dev.updTrip, upd]
  rcases h with h | h
  · cases hc : d.limitCounts n
    · exact ⟨id, (Dev.markLimited_idle hc).trans hself⟩
    · cases hl : (d.prot.trips[n]'n.2).limited
      · refine ⟨_, (Dev.markLimited_counts hc hl).trans (Dev.latchCheck_latched ?_)⟩
        rw [Dev.updTrip_get]
        exact h
      · exact ⟨id, (Dev.markLimited_limited hl).trans hself⟩
  · exact ⟨id, (Dev.markLimited_limited h).trans hself⟩

/-- A trip that becomes active, as the statements say it. -/
theorem Dev.tripAct_taken (d : Dev) (n : PhaseIx) : d.TripTaken (d.tripAct n) n := by
  refine ⟨?_, ?_, fun m hl hm hs hc hf => ?_, fun h => ?_⟩
  · exact congrArg Trip.active (Dev.updTrip_get (d.markLimited n) n _)
  · exact (congrArg Pwm.hi (Dev.updPwm_get _ n _)).trans (Pwm.hiDown_hi _ _ true)
  · have hcounts : d.limitCounts n = true := by
      rw [Dev.limitCounts, hm, hc, hf]
      simp [hs]
    have hact : (d.markLimited n).KeepsTally (d.tripAct n) :=
      (Dev.updTrip_keepsTally _ n (fun t => { t with active := true }) (fun _ => rfl) fun _ => rfl).trans
        (Dev.keepsTally_of_onlyIn (Dev.updPwm_onlyIn _ n fun p => p.holdHi _))
    rw [Dev.markLimited_counts hcounts hl] at hact
    obtain ⟨h1, h2⟩ := ((Dev.latchCheck_keepsTally _ n).trans hact) n
    rw [Dev.updTrip_get] at h1 h2
    exact ⟨h1, h2⟩
  · obtain ⟨f, hf⟩ := Dev.markLimited_latched h
    have hact : d.tripAct n = ((d.updTrip n f).updTrip n fun t => { t with active := true }).updPwm n fun p => p.holdHi d.clk.now := by
      rw [Dev.tripAct, hf]
      rfl
    rw [hact]
    refine ⟨fun hi => ?_, fun k hk => ⟨Dev.updPwm_get_ne _ _ hk, ?_⟩, rfl, ?_⟩
    · obtain ⟨hgh, -, hghAt, hglAt⟩ := Pwm.hiDown_gates hi (64 * d.clk.now) true
      rw [Dev.updPwm_get]
      exact ⟨hgh, hghAt, hglAt⟩
    · exact (Dev.updTrip_get_ne _ _ hk).trans (Dev.updTrip_get_ne _ _ hk)
    · exact (((d.updTrip_onlyIn n f).into.thenIn (Dev.updTrip_onlyIn _ n _))).thenIn (Dev.updPwm_onlyIn _ n _)

/-! ## What a stop of a rail leaves of the blanking windows (R228, R320) -/

/-- The blanking windows of the phases stand as they stood. -/
def Dev.KeepsWindows (d d' : Dev) : Prop := ∀ n : PhaseIx, (d'.pwm[n]'n.2).blankUntil = (d.pwm[n]'n.2).blankUntil

theorem Dev.KeepsWindows.trans {a b c : Dev} (h : a.KeepsWindows b) (k : b.KeepsWindows c) : a.KeepsWindows c := fun n => (k n).trans (h n)

theorem Dev.keepsWindows_of_pwm {d d' : Dev} (h : d'.pwm = d.pwm) : d.KeepsWindows d' := fun n => by rw [h]

theorem Dev.keepsWindows_of_onlyIn {d d' : Dev} {bs : List Block} (h : d.onlyIn d' bs) (hb : Block.pwm ∉ bs := by decide) : d.KeepsWindows d' :=
  Dev.keepsWindows_of_pwm (h .pwm hb)

theorem Dev.keepsWindows_ite {d a : Dev} {c : Prop} [Decidable c] (h : d.KeepsWindows a) : d.KeepsWindows (if c then a else d) := by
  split
  · exact h
  · exact fun _ => rfl

theorem Dev.keepsWindows_foldl {α : Type} (f : Dev → α → Dev) (h : ∀ (d : Dev) (x : α), d.KeepsWindows (f d x)) :
    ∀ (xs : List α) (d : Dev), d.KeepsWindows (xs.foldl f d) :=
  foldl_related (P := Dev.KeepsWindows) (fun _ _ => rfl) .trans h

theorem Dev.updPwm_keepsWindows (d : Dev) (n : PhaseIx) (f : Pwm → Pwm) (hf : ∀ p : Pwm, (f p).blankUntil = p.blankUntil) : d.KeepsWindows (d.updPwm n f) := fun m => by
  rcases eq_or_ne m n with rfl | hm
  · rw [Dev.updPwm_get]
    exact hf _
  · rw [Dev.updPwm_get_ne _ _ hm]

theorem Pwm.setMask_blankUntil (p : Pwm) (now : Tick) (f : MaskBits → MaskBits) : (p.setMask now f).blankUntil = p.blankUntil := by
  unfold Pwm.setMask
  dsimp only
  split <;> rfl

theorem Pwm.cutFlare_blankUntil (p : Pwm) (now : Tick) : (p.cutFlare now).blankUntil = p.blankUntil := by
  have hlift : ∀ q : Pwm, (q.endLift now).blankUntil = q.blankUntil := fun q => by
    unfold Pwm.endLift
    split
    · exact Pwm.setMask_blankUntil _ now id
    · rfl
  rw [Pwm.cutFlare, hlift]
  split <;> rfl

theorem Dev.setMask_keepsWindows (d : Dev) (n : PhaseIx) (f : MaskBits → MaskBits) : d.KeepsWindows (d.setMask n f) := by
  obtain ⟨e, he, hp, -, -⟩ := d.setMask_pwm n f
  rw [he]
  exact (Dev.keepsWindows_of_pwm hp).trans (e.updPwm_keepsWindows n _ fun p => p.setMask_blankUntil _ _)

theorem Dev.endStart_keepsWindows (d : Dev) (n : PhaseIx) : d.KeepsWindows (d.endStart n) :=
  (Dev.keepsWindows_of_onlyIn ((d.onlyIn_leave _).andThen (Dev.onlyIn_leave _ _) (es := [.leave]))).trans
    (Dev.updPwm_keepsWindows _ n (fun p => { p with startEdge := none }) fun _ => rfl)

theorem Dev.endHostOvr_keepsWindows (d : Dev) (n : PhaseIx) : d.KeepsWindows (d.endHostOvr n) := by
  refine Dev.keepsWindows_ite (((d.endStart_keepsWindows n).trans (Dev.updPwm_keepsWindows _ n _ fun _ => ?_)).trans (Dev.setMask_keepsWindows _ n _))
  rfl

theorem Dev.shedAll_keepsWindows (d : Dev) (r : RailIx) : d.KeepsWindows (d.shedAll r) := by
  refine Dev.keepsWindows_foldl _ (fun e n => ?_) _ d
  split
  · exact (e.setMask_keepsWindows n _).trans (Dev.endStart_keepsWindows _ n)
  · exact e.endStart_keepsWindows n

theorem Dev.cutFlare_keepsWindows (d : Dev) (r : RailIx) : d.KeepsWindows (d.cutFlare r) := by
  unfold Dev.cutFlare
  split
  · exact fun _ => rfl
  · extract_lets cut
    have hcut : d.onlyIn cut [.fault, .rails] := (d.event_onlyIn _).into.thenIn (Dev.updRail_onlyIn _ r _)
    exact (Dev.keepsWindows_of_onlyIn hcut).trans
      (Dev.keepsWindows_foldl _ (fun e n => e.updPwm_keepsWindows n (fun p => p.cutFlare e.clk.now) fun p => p.cutFlare_blankUntil _) _ cut)

theorem Dev.withdrawAdd_keepsWindows (d : Dev) (r : RailIx) : d.KeepsWindows (d.withdrawAdd r) := by
  unfold Dev.withdrawAdd
  split
  · exact Dev.keepsWindows_of_pwm rfl
  · exact fun _ => rfl

theorem Dev.respread_keepsWindows (d : Dev) (r : RailIx) : d.KeepsWindows (d.respread r) :=
  Dev.respread_related (P := Dev.KeepsWindows) (fun _ _ => rfl) .trans d r (fun e _ => Dev.keepsWindows_of_onlyIn (e.updRail_onlyIn r _))
    fun e n a => e.updPwm_keepsWindows n (fun p => { p with arcTgt := a }) fun _ => rfl

theorem Dev.dropTo_keepsWindows (r : RailIx) (count : Nat) : ∀ (k : Nat) (d : Dev), d.KeepsWindows (d.dropTo r count k)
  | 0, _ => fun _ => rfl
  | k + 1, d => by
    have hshed : ∀ n : PhaseIx, d.KeepsWindows (d.shedOne n) := fun n =>
      ((d.setMask_keepsWindows n _).trans (Dev.endStart_keepsWindows _ n)).trans (Dev.keepsWindows_of_onlyIn (Dev.event_onlyIn _ _))
    unfold Dev.dropTo
    split
    · exact fun _ => rfl
    · split
      · exact (hshed _).trans (Dev.dropTo_keepsWindows r count k _)
      · exact fun _ => rfl

theorem Dev.fitMembers_keepsWindows (d : Dev) (p : PortIx) (r : RailIx) : d.KeepsWindows (d.fitMembers p r) := by
  refine Dev.KeepsWindows.trans ?_ (Dev.keepsWindows_ite (Dev.withdrawAdd_keepsWindows _ r))
  unfold Dev.shedDown
  split
  · exact fun _ => rfl
  · exact ((Dev.dropTo_keepsWindows r _ 64 d).trans (Dev.respread_keepsWindows _ r)).trans (Dev.keepsWindows_of_onlyIn (Dev.syncCtx_onlyIn _ r))

theorem Dev.setPhase_keepsWindows (d : Dev) (p : PortIx) (r : RailIx) (ph : StPhase) (cause : BitVec 2) : d.KeepsWindows (d.setPhase p r ph cause) := by
  obtain ⟨e, he, h⟩ := d.setPhase_spec p r ph cause
  rw [h]
  exact ((Dev.keepsWindows_of_onlyIn he).trans (e.fitMembers_keepsWindows p r)).trans (Dev.keepsWindows_of_onlyIn (Dev.syncCtx_onlyIn _ r))

theorem Dev.portStop_keepsWindows (d : Dev) (p : PortIx) (r : RailIx) : d.KeepsWindows (d.portStop p r) :=
  (Dev.keepsWindows_of_onlyIn ((d.updPort_onlyIn p _).into.thenIn (Dev.setCause_onlyIn _ (srcStoreTemp p) 0 false []) : Dev.onlyIn _ _ [.ports, .fault])).trans
    (Dev.setPhase_keepsWindows _ p r .none _)

theorem Dev.changeMode_keepsWindows (d : Dev) (r : RailIx) (m : RailMode) : d.KeepsWindows (d.changeMode r m) := by
  unfold Dev.changeMode
  extract_lets old unshed keeps stays put trips div ovr
  have hunshed : d.KeepsWindows unshed := Dev.keepsWindows_ite
    (Dev.keepsWindows_foldl _ (fun e n => Dev.keepsWindows_ite (e.setMask_keepsWindows n fun m => { m with shed := false })) _ d)
  have hdiv : unshed.onlyIn div [.rails, .prot, .loop, .fault] :=
    (unshed.updRail_onlyIn r _).into.thenIn (Dev.onlyIn_ite (put.switchTrips_onlyIn r)) |>.thenIn (Dev.onlyIn_ite (trips.startDiv_onlyIn r))
  have hovr : div.KeepsWindows ovr := Dev.keepsWindows_ite (Dev.keepsWindows_foldl _ Dev.endHostOvr_keepsWindows _ div)
  have hctx : ovr.onlyIn (((ovr.syncCtx r).evalRail r).setRt r) [.loop, .fault, .prot] :=
    (ovr.syncCtx_onlyIn r).into.thenIn (Dev.evalRail_onlyIn _ r) |>.thenIn (Dev.setRt_onlyIn _ r)
  exact hunshed.trans ((Dev.keepsWindows_of_onlyIn hdiv).trans (hovr.trans (Dev.keepsWindows_of_onlyIn hctx)))

theorem Dev.stopRail_keepsWindows (d : Dev) (r : RailIx) (m : RailMode) : d.KeepsWindows (d.stopRail r m) := by
  have hnote : d.KeepsWindows (d.noteEvent r m) := by
    unfold Dev.noteEvent
    split <;> exact fun _ => rfl
  unfold Dev.stopRail
  extract_lets old noted idle now stopped changed port cause cyc marked
  have hnoted : (d.noteEvent r m).onlyIn noted [.rails] := Dev.onlyIn_ite (Dev.updRail_onlyIn _ r _)
  have hidle : noted.KeepsWindows stopped := ((noted.cutFlare_keepsWindows r).trans (Dev.withdrawAdd_keepsWindows _ r)).trans
    (Dev.keepsWindows_of_onlyIn (idle.updRail_onlyIn r _))
  have hport : changed.KeepsWindows port := by
    dsimp only [port]
    split
    · exact Dev.keepsWindows_ite (changed.portStop_keepsWindows _ r)
    · exact fun _ => rfl
  have hmarked : port.onlyIn marked [.fault] := (Dev.onlyIn_ite' (port.setCause_onlyIn _ _ _ _)).into.thenIn (Dev.onlyIn_ite' (cause.onlyIn_cyc _ []))
  exact hnote.trans ((Dev.keepsWindows_of_onlyIn hnoted).trans (hidle.trans ((stopped.shedAll_keepsWindows r).trans ((Dev.changeMode_keepsWindows _ r m).trans
    (hport.trans ((Dev.keepsWindows_of_onlyIn hmarked).trans ((marked.respread_keepsWindows r).trans
      (Dev.keepsWindows_of_onlyIn (Dev.checkUnderphased_onlyIn _ r)))))))))

theorem Dev.latchCheck_keepsWindows (d : Dev) (n : PhaseIx) : d.KeepsWindows (d.latchCheck n) := by
  unfold Dev.latchCheck
  extract_lets t latched
  have hlatched : d.onlyIn latched [.prot, .fault] := (d.updTrip_onlyIn n _).into.thenIn (Dev.setCause_onlyIn _ _ _ _ _)
  split
  · exact fun _ => rfl
  · split
    · split
      · exact (Dev.keepsWindows_of_onlyIn hlatched).trans (latched.stopRail_keepsWindows _ _)
      · exact Dev.keepsWindows_of_onlyIn hlatched
    · exact Dev.keepsWindows_of_onlyIn hlatched

theorem Pwm.hiDown_blankUntil (p : Pwm) (x : Int) (b : Bool) : (p.hiDown x b).blankUntil = p.blankUntil := by
  cases hi : p.hi
  · rw [p.hiDown_low hi]
  · obtain ⟨c, tap, w, h⟩ := p.hiDown_spec hi x b
    rw [h]

theorem Dev.tripAct_keepsWindows (d : Dev) (n : PhaseIx) : d.KeepsWindows (d.tripAct n) := by
  have hmark : d.KeepsWindows (d.markLimited n) := by
    unfold Dev.markLimited
    extract_lets counts
    split
    · exact fun _ => rfl
    · exact (Dev.keepsWindows_of_onlyIn (d.updTrip_onlyIn n _)).trans (Dev.latchCheck_keepsWindows _ n)
  exact hmark.trans ((Dev.keepsWindows_of_onlyIn (Dev.updTrip_onlyIn _ n fun t => { t with active := true })).trans
    (Dev.updPwm_keepsWindows _ n (fun p => p.holdHi _) fun p => p.hiDown_blankUntil _ _))

/-! ## A blanking window closes (R228, R229, R344) -/

theorem Dev.blankClose_open {d : Dev} {n : PhaseIx} (h : (d.pwm[n]'n.2).blankUntil = none ∨ ∃ u : Tick, (d.pwm[n]'n.2).blankUntil = some u ∧ d.clk.now < u) :
    d.blankClose n = d := by
  unfold Dev.blankClose
  rcases h with h | ⟨u, h, hu⟩
  · simp only [h]
  · simp only [h]
    exact if_neg (Nat.not_le.2 hu)

/-- The window is closed. -/
def Dev.unblank (d : Dev) (n : PhaseIx) : Dev := d.updPwm n fun p => { p with blankUntil := none }

theorem Dev.blankClose_due {d : Dev} {n : PhaseIx} {u : Tick} (h : (d.pwm[n]'n.2).blankUntil = some u) (hu : u ≤ d.clk.now) :
    d.blankClose n = if ((d.prot.trips[n]'n.2).cmp && !settling (d.prot.trips[n]'n.2).settleUntil d.clk.now) = true then (d.unblank n).tripAct n else d.unblank n := by
  have hopen : (d.unblank n).blanked n = false := by
    rw [Dev.blanked, Dev.unblank, Dev.updPwm_get]
    rfl
  unfold Dev.blankClose
  simp only [h]
  refine (if_pos hu).trans ?_
  show (if ((d.prot.trips[n]'n.2).cmp && !(d.unblank n).blanked n && !settling (d.prot.trips[n]'n.2).settleUntil d.clk.now) = true then _ else _) = _
  rw [hopen, Bool.not_false, Bool.and_true]
  rfl

/-- A trip that becomes active behind the closed window, as the statements say it of the state before. -/
theorem Dev.tripTaken_of_unblank {d d' : Dev} {n : PhaseIx} (h : (d.unblank n).TripTaken d' n) : d.TripTaken d' n := by
  have hget : (d.unblank n).pwm[n]'n.2 = { d.pwm[n]'n.2 with blankUntil := none } := d.updPwm_get n _
  have hcarrier : (d.unblank n).carrierRail n = d.carrierRail n := by
    rw [Dev.carrierRail, hget]
    rfl
  have hforce : (d.unblank n).gateForce n = d.gateForce n := by
    rw [Dev.gateForce, hget, hcarrier]
    rfl
  obtain ⟨hact, hhi, hcount, hlatched⟩ := h
  refine ⟨hact, hhi, fun m hl hm hs hc hf => hcount m hl hm hs (by rw [hget]; exact hc) (hforce.trans hf), fun hl => ?_⟩
  obtain ⟨hgates, hothers, hwins, hframe⟩ := hlatched hl
  rw [hget] at hgates
  exact ⟨hgates, fun k hk => ⟨(hothers k hk).1.trans (Dev.updPwm_get_ne d _ hk), (hothers k hk).2⟩, hwins, (d.updPwm_onlyIn n _).into.thenIn hframe⟩

/-! ## A phase start gives its leave back (R519) -/

theorem Dev.endStart_eq (d : Dev) (n : PhaseIx) : d.endStart n = { d with
    pwm := d.pwm.set n { d.pwm[n]'n.2 with startEdge := none }
    leave := { d.leave with
      queue := d.leave.queue.filter fun q => !(q.kind == .phaseStart && q.target == phaseTarget n)
      grants := d.leave.grants.erase { kind := .phaseStart, target := phaseTarget n } } } := rfl

theorem Dev.startRelease_due {d : Dev} {n : PhaseIx} {u : Tick} (h : (d.pwm[n]'n.2).startEdge = some u) (hu : u + 48000 ≤ d.clk.now) : d.startRelease n = d.endStart n := by
  unfold Dev.startRelease
  simp only [h]
  exact if_pos hu

/-! ## The background calibration of the delay lines (R191, R193) -/

theorem lineOut_iff (b : Byte) : lineOut b = true ↔ b.toNat < 64 ∨ 96 < b.toNat := by simp [lineOut]

/-- The slot of the present phase is measured and the next one's is placed. -/
def Dev.lineMeasured (d : Dev) (m : LineMeas) : Dev :=
  { d with pwmg := { d.pwmg with bgPhase := d.pwmg.bgPhase + 1, bgAt := d.pwmg.bgAt + 7500 } }.updPwm d.pwmg.bgPhase fun p =>
    { p with lineHi := { p.lineHi with meas := m.hi }, lineLo := { p.lineLo with meas := m.lo } }

/-- A phase that has failed the calibration. -/
def Dev.lineFailed (d : Dev) (n : PhaseIx) : Dev := (d.updPwm n fun p => { p with dlFail := true }).setCause srcDline n true

theorem Dev.bgMeasure_due {d : Dev} (h : d.pwmg.bgAt ≤ d.clk.now) (m : LineMeas) : d.bgMeasure m =
    if ((lineOut m.hi || lineOut m.lo) && !((d.lineMeasured m).pwm[d.pwmg.bgPhase]'(d.pwmg.bgPhase).2).dlFail) = true then
      (if (((d.lineMeasured m).lineFailed d.pwmg.bgPhase).carrierRail d.pwmg.bgPhase).isNone = true then ((d.lineMeasured m).lineFailed d.pwmg.bgPhase).failMask d.pwmg.bgPhase
       else (d.lineMeasured m).lineFailed d.pwmg.bgPhase)
    else d.lineMeasured m := if_neg (Nat.not_lt.2 h)

/-- A phase that no rail maps has nothing but its own mask written. -/
theorem Dev.failMask_unmapped {d : Dev} {n : PhaseIx} (h : d.railOf n = none) :
    d.failMask n = d ∨ d.failMask n = d.updPwm n fun p => p.putMask fun m => { m with fail := true } := by
  unfold Dev.failMask
  extract_lets failed
  have hmap : ∀ f : Pwm → Pwm, (d.updPwm n f).railOf n = none := fun _ => h
  have hfailed : failed = d.updPwm n fun p => p.putMask fun m => { m with fail := true } := by
    dsimp only [failed]
    unfold Dev.dropAdd
    simp only [hmap]
  split
  · exact Or.inl rfl
  · rw [hfailed]
    simp only [hmap, or_true]

theorem Dev.railOf_of_carrierRail {d : Dev} {n : PhaseIx} (h : (d.carrierRail n).isNone = true) : d.railOf n = none := by
  unfold Dev.carrierRail at h
  cases hr : d.railOf n with
  | none => rfl
  | some r => simp [hr] at h

theorem Dev.lineMeasured_get (d : Dev) (m : LineMeas) : (d.lineMeasured m).pwm[d.pwmg.bgPhase]'(d.pwmg.bgPhase).2 =
    { d.pwm[d.pwmg.bgPhase]'(d.pwmg.bgPhase).2 with
      lineHi := { (d.pwm[d.pwmg.bgPhase]'(d.pwmg.bgPhase).2).lineHi with meas := m.hi }
      lineLo := { (d.pwm[d.pwmg.bgPhase]'(d.pwmg.bgPhase).2).lineLo with meas := m.lo } } := upd_get_same d.pwm d.pwmg.bgPhase _

theorem Dev.lineMeasured_onlyIn (d : Dev) (m : LineMeas) : d.onlyIn (d.lineMeasured m) [.pwmg, .pwm] :=
  (d.onlyIn_pwmg _).into.thenIn (Dev.updPwm_onlyIn _ _ _)

theorem Dev.causeOf_lineFailed (d : Dev) (n : PhaseIx) : (d.lineFailed n).causeOf srcDline n = true := by
  rw [Dev.lineFailed, Dev.causeOf_setCause, Dev.srcLives_device _ (by decide)]
  rfl

/-- What the failed calibration of a phase does besides: nothing while a rail carries it, else its mask is written. -/
theorem Dev.lineFailed_end (d : Dev) (n : PhaseIx) : ∃ f : Pwm → Pwm, (∀ p, (f p).lineHi = p.lineHi ∧ (f p).lineLo = p.lineLo ∧ (f p).dlFail = p.dlFail) ∧
    (if ((d.lineFailed n).carrierRail n).isNone = true then (d.lineFailed n).failMask n else d.lineFailed n) = (d.lineFailed n).updPwm n f := by
  have hself : d.lineFailed n = (d.lineFailed n).updPwm n id := by simp [Dev.updPwm, upd]
  split
  · rcases Dev.failMask_unmapped (Dev.railOf_of_carrierRail ‹_›) with h | h
    · exact ⟨id, fun _ => ⟨rfl, rfl, rfl⟩, h.trans hself⟩
    · exact ⟨fun p => p.putMask fun m => { m with fail := true }, fun _ => ⟨rfl, rfl, rfl⟩, h⟩
  · exact ⟨id, fun _ => ⟨rfl, rfl, rfl⟩, hself⟩

/-- A due slot of the calibration, as the statement says it. -/
theorem Dev.bgMeasure_spec {d : Dev} (h : d.pwmg.bgAt ≤ d.clk.now) (m : LineMeas) : let d' := d.bgMeasure m
    let n := d.pwmg.bgPhase
    let out := fun (b : Byte) => b.toNat < 64 ∨ 96 < b.toNat
    d'.pwmg = { d.pwmg with bgPhase := n + 1, bgAt := d.pwmg.bgAt + 7500 } ∧
      (d'.pwm[n]'n.2).lineHi = { (d.pwm[n]'n.2).lineHi with meas := m.hi } ∧ (d'.pwm[n]'n.2).lineLo = { (d.pwm[n]'n.2).lineLo with meas := m.lo } ∧
      (out m.hi ∨ out m.lo → (d'.pwm[n]'n.2).dlFail = true ∧ ((d.pwm[n]'n.2).dlFail = false → d'.causeOf srcDline n = true)) ∧
      (¬out m.hi → ¬out m.lo → (d'.pwm[n]'n.2).dlFail = (d.pwm[n]'n.2).dlFail ∧ d'.fault = d.fault) ∧
      (∀ k : PhaseIx, k ≠ n → d'.pwm[k]'k.2 = d.pwm[k]'k.2) ∧ d.onlyIn d' [.pwm, .pwmg, .fault] := by
  intro d' n out
  have hget := d.lineMeasured_get m
  have hout : (lineOut m.hi || lineOut m.lo) = true ↔ out m.hi ∨ out m.lo := by rw [Bool.or_eq_true, lineOut_iff, lineOut_iff]
  have hothers : ∀ k : PhaseIx, k ≠ n → (d.lineMeasured m).pwm[k]'k.2 = d.pwm[k]'k.2 := fun k hk => upd_get_ne d.pwm n k _ hk
  by_cases hfails : ((lineOut m.hi || lineOut m.lo) && !((d.lineMeasured m).pwm[n]'n.2).dlFail) = true
  · obtain ⟨f, hf, hend⟩ := (d.lineMeasured m).lineFailed_end n
    have hd' : d' = ((d.lineMeasured m).lineFailed n).updPwm n f := (Dev.bgMeasure_due h m).trans ((if_pos hfails).trans hend)
    have hp : d'.pwm[n]'n.2 = f { (d.lineMeasured m).pwm[n]'n.2 with dlFail := true } := by
      rw [hd', Dev.updPwm_get]
      exact congrArg f (Dev.updPwm_get _ n _)
    obtain ⟨hhi, hlo, hfail⟩ := hf { (d.lineMeasured m).pwm[n]'n.2 with dlFail := true }
    have hisOut := hout.1 (Bool.and_eq_true_iff.1 hfails).1
    rw [hget] at hp hhi hlo hfail
    refine ⟨by rw [hd']; rfl, ?_, ?_, fun _ => ⟨?_, fun _ => ?_⟩, fun h1 h2 => absurd hisOut (not_or.2 ⟨h1, h2⟩), fun k hk => ?_, ?_⟩
    · rw [hp, hhi]
    · rw [hp, hlo]
    · rw [hp, hfail]
    · rw [hd']
      exact Dev.causeOf_lineFailed _ n
    · rw [hd', Dev.updPwm_get_ne _ _ hk]
      exact (Dev.updPwm_get_ne _ _ hk).trans (hothers k hk)
    · rw [hd']
      exact (d.lineMeasured_onlyIn m).into.thenIn (Dev.updPwm_onlyIn _ n _) |>.thenIn (Dev.setCause_onlyIn _ _ _ _ _) |>.thenIn (Dev.updPwm_onlyIn _ n f)
  · have hd' : d' = d.lineMeasured m := (Dev.bgMeasure_due h m).trans (if_neg hfails)
    have hdl : (d'.pwm[n]'n.2).dlFail = (d.pwm[n]'n.2).dlFail := by rw [hd', hget]
    refine ⟨by rw [hd']; rfl, by rw [hd', hget], by rw [hd', hget], fun ho => ?_, fun _ _ => ⟨hdl, by rw [hd']; rfl⟩, fun k hk => by rw [hd']; exact hothers k hk, ?_⟩
    · have hfailed : (d.pwm[n]'n.2).dlFail = true := by
        rw [hout.2 ho, hget] at hfails
        simpa using hfails
      exact ⟨hdl.trans hfailed, fun hc => absurd (hfailed.symm.trans hc) (by decide)⟩
    · rw [hd']
      exact (d.lineMeasured_onlyIn m).into

end Sys2Proof.Machine

open Sys2Proof Sys2Proof.Machine

/-- Settles O26: each step is its model's branch, a trip behind a closing window falls as any trip does, and a phase that the calibration fails
    while no rail carries it has its mask written besides. -/
theorem triggersInterlockAndDelayLines : Obligations.TriggersInterlockAndDelayLines := by
  unfold Obligations.TriggersInterlockAndDelayLines
  refine ⟨fun s t n => ?_, fun s t m => ?_⟩
  · intro d p c meets ha
    refine ⟨fun h => ?_, fun h => ?_, fun h => ?_, fun h => ?_, fun h => ?_, fun h => ?_, fun u hu hdue => ⟨fun h => ?_, fun hc hs => ?_⟩, fun h => ?_, fun u hu hdue => ?_⟩
    · exact State.runLive_next ha (Dev.trigHit_a h)
    · exact State.runLive_next ha (Dev.trigHit_b h)
    · exact State.runLive_next ha (Dev.trigHit_still (b := false) h)
    · exact State.runLive_next ha (Dev.trigHit_still (b := true) h)
    · exact ⟨d.interlock n, State.runLive_next ha rfl, Dev.interlock_latches h⟩
    · exact State.runLive_next ha (Dev.interlock_forced h)
    · refine State.runLive_next ha ((Dev.blankClose_due hu hdue).trans (if_neg ?_))
      rcases h with h | h <;> rw [h] <;> simp
    · have hclose : d.blankClose n = (d.unblank n).tripAct n := (Dev.blankClose_due hu hdue).trans (if_pos (by rw [hc, hs]; rfl))
      refine ⟨_, State.runLive_next ha hclose, ?_, Dev.tripTaken_of_unblank (Dev.tripAct_taken _ n)⟩
      rw [(d.unblank n).tripAct_keepsWindows n n, Dev.unblank, Dev.updPwm_get]
    · exact State.runLive_next ha (Dev.blankClose_open h)
    · exact State.runLive_next ha ((Dev.startRelease_due hu hdue).trans (d.endStart_eq n))
  · intro d n out ha
    exact ⟨fun h => State.runLive_next ha (if_pos h), fun h => ⟨d.bgMeasure m, State.runLive_next ha rfl, Dev.bgMeasure_spec h m⟩⟩

end

section
/-! SUPPORT. The update points of a phase: what each part of one takes into effect, and what an update point that neither fails the phase nor
    latches it off leaves alone. -/

namespace Sys2Proof.Machine

open Sys2Proof

/-! ## The carrier apart from its output stages -/

/-- The record without its output stages: HI as commanded and emitted, GH and GL, what is due of them, and the counters of host starts and swallowed pulses. -/
def Pwm.carried (p : Pwm) : Pwm :=
  { p with cmd := false, edgeAt := none, hi := false, gh := false, gl := false, ghAt := none, glAt := none, cHi := .held, cLo := .held, tapHi := 0, tapLo := 0, swallowHi := 0, swallowLo := 0, hostStarted := false, flarePulse := false }

theorem Pwm.hiUp_carried (p : Pwm) (x : Int) : (p.hiUp x).carried = p.carried := by
  obtain ⟨c, tap, w, h⟩ := p.hiUp_spec x
  rw [h]
  rfl

theorem Pwm.hiDown_carried (p : Pwm) (x : Int) (cut : Bool) : (p.hiDown x cut).carried = p.carried := by
  cases hi : p.hi
  · rw [p.hiDown_low hi]
  · obtain ⟨c, tap, w, h⟩ := p.hiDown_spec hi x cut
    rw [h]
    rfl

theorem Pwm.risen_carried (p : Pwm) (x : Int) : (p.risen x).carried = p.carried := by
  unfold Pwm.risen
  split
  · rfl
  · rw [Pwm.hiUp_carried]
    rfl

theorem Pwm.fallen_carried (p : Pwm) (x : Int) : (p.fallen x).carried = p.carried := by
  unfold Pwm.fallen
  dsimp only
  split
  · rfl
  · rw [Pwm.hiDown_carried]
    rfl

theorem Pwm.hostStopped_carried (p : Pwm) : p.hostStopped.carried = p.carried := by
  unfold Pwm.hostStopped
  split <;> rfl

/-- What does not look at the output stages is the same for records that differ in them only. -/
theorem Pwm.eq_of_carried {α : Type} {p q : Pwm} (f : Pwm → α) (h : q.carried = p.carried) (hf : ∀ x : Pwm, f x.carried = f x := by intro; rfl) : f q = f p := by
  rw [← hf q, h, hf]

/-- The carrier places the edges, and the output stages have no say in it. -/
theorem Pwm.nextEdge_of_carried {p q : Pwm} (h : q.carried = p.carried) : q.nextEdge = p.nextEdge := Pwm.eq_of_carried Pwm.nextEdge h

/-! ## HI from an update point on (R188, assumption 86) -/

/-- HI as commanded, with its next edge, after an edge that falls in the present tick is made. -/
def Pwm.turn (p : Pwm) (now : Tick) (a : Bool × Option Int) : Bool × Option Int := match a.2 with
  | some x => if x / 64 = now then (!a.1, p.nextEdge (!a.1) x) else a
  | none => a

theorem Pwm.turn_of_carried {p q : Pwm} (h : q.carried = p.carried) : q.turn = p.turn := by
  funext now a
  unfold Pwm.turn
  rw [Pwm.nextEdge_of_carried h]

/-- What forming HI leaves: the other phases, the phase's carrier, and of its trip record all but what a rise of HI ends. -/
structure Dev.Formed (d e : Dev) (n : PhaseIx) : Prop where
  others : ∀ m : PhaseIx, m ≠ n → e.pwm[m]'m.2 = d.pwm[m]'m.2
  carried : (e.pwm[n]'n.2).carried = (d.pwm[n]'n.2).carried
  trip : ∃ act hold : Bool, e.prot.trips[n]'n.2 = { d.prot.trips[n]'n.2 with active := act, hold := hold }
  frame : d.onlyIn e [.pwm, .prot]

theorem Dev.Formed.refl (d : Dev) (n : PhaseIx) : d.Formed d n := ⟨fun _ _ => rfl, rfl, ⟨_, _, rfl⟩, d.onlyIn_refl _⟩

theorem Dev.Formed.trans {a b c : Dev} {n : PhaseIx} (h : a.Formed b n) (k : b.Formed c n) : a.Formed c n where
  others m hm := (k.others m hm).trans (h.others m hm)
  carried := k.carried.trans h.carried
  trip := by
    obtain ⟨a1, h1, ht⟩ := h.trip
    obtain ⟨a2, h2, kt⟩ := k.trip
    exact ⟨a2, h2, by rw [kt, ht]⟩
  frame := h.frame.andThen k.frame

theorem Dev.updPwm_formed (d : Dev) (n : PhaseIx) (f : Pwm → Pwm) (hf : (f (d.pwm[n]'n.2)).carried = (d.pwm[n]'n.2).carried) : d.Formed (d.updPwm n f) n where
  others m hm := d.updPwm_get_ne f hm
  carried := by rw [d.updPwm_get n f, hf]
  trip := ⟨_, _, rfl⟩
  frame := (d.updPwm_onlyIn n f).into

theorem Dev.hiRise_formed (d : Dev) (n : PhaseIx) (x : Int) : d.Formed (d.hiRise n x) n := by
  cases h : d.heldOff n
  · rw [d.hiRise_free x h]
    have hended : d.Formed (d.updTrip n fun t => { t with active := false, hold := false }) n :=
      ⟨fun _ _ => rfl, rfl, ⟨false, false, d.updTrip_get n _⟩, (d.updTrip_onlyIn n _).into⟩
    exact hended.trans (Dev.updPwm_formed _ n _ (Pwm.risen_carried _ x))
  · rw [d.hiRise_held x h]
    exact d.updPwm_formed n _ rfl

theorem Dev.passEdge_formed (d : Dev) (n : PhaseIx) : d.Formed (d.passEdge n) n := by
  unfold Dev.passEdge
  dsimp only
  split
  · split
    · split
      · exact d.updPwm_formed n _ (Pwm.fallen_carried _ _)
      · exact d.hiRise_formed n _
    · exact .refl d n
  · exact .refl d n

theorem Dev.formAt_formed (d : Dev) (n : PhaseIx) : d.Formed (d.formAt n) n := by
  unfold Dev.formAt
  split
  · exact .refl d n
  · exact ((d.updPwm_formed n _ rfl).trans (Dev.passEdge_formed _ n)).trans (Dev.passEdge_formed _ n)

/-- Stage A's part of a record while no Flare on-pulse runs. -/
def Pwm.FormsAs (p : Pwm) (a : Bool × Option Int) : Prop := p.flarePulse = false ∧ (p.cmd, p.edgeAt) = a

theorem Dev.hiRise_formsAs {d : Dev} {n : PhaseIx} (hf : (d.pwm[n]'n.2).flarePulse = false) (x : Int) :
    ((d.hiRise n x).pwm[n]'n.2).FormsAs (true, (d.pwm[n]'n.2).nextEdge true x) := by
  cases h : d.heldOff n
  · have hget : (d.hiRise n x).pwm[n]'n.2 = (d.pwm[n]'n.2).risen x := by
      rw [d.hiRise_free x h]
      exact Dev.updPwm_get _ n _
    have hpulse : ((d.pwm[n]'n.2).risen x).flarePulse = false := by
      unfold Pwm.risen
      split
      · exact hf
      · obtain ⟨c, tap, w, hup⟩ := ((d.pwm[n]'n.2).turned true x).hiUp_spec x
        rw [hup]
        exact hf
    obtain ⟨hcmd, hedge, -⟩ := (d.pwm[n]'n.2).risen_hi x
    rw [hget]
    exact ⟨hpulse, Prod.ext hcmd hedge⟩
  · rw [d.hiRise_held x h, d.updPwm_get n _]
    exact ⟨hf, rfl⟩

theorem Pwm.fallen_formsAs {p : Pwm} (hf : p.flarePulse = false) (x : Int) : (p.fallen x).FormsAs (false, p.nextEdge false x) := by
  obtain ⟨hcmd, hedge, -, -⟩ := Pwm.fallen_plain hf x
  refine ⟨?_, Prod.ext hcmd hedge⟩
  unfold Pwm.fallen
  rw [hf, Bool.false_and]
  exact (Pwm.hiDown_carrier _ x false).1

/-- One edge of HI that falls in the present tick is made. -/
theorem Dev.passEdge_formsAs {d : Dev} {n : PhaseIx} {a : Bool × Option Int} (h : (d.pwm[n]'n.2).FormsAs a) :
    ((d.passEdge n).pwm[n]'n.2).FormsAs ((d.pwm[n]'n.2).turn d.clk.now a) := by
  obtain ⟨hf, rfl⟩ := h
  unfold Dev.passEdge Pwm.turn
  dsimp only
  cases hedge : (d.pwm[n]'n.2).edgeAt with
  | none => exact ⟨hf, by rw [hedge]⟩
  | some x =>
    dsimp only
    split
    · cases hcmd : (d.pwm[n]'n.2).cmd
      · exact Dev.hiRise_formsAs hf x
      · have hget : (d.hiFall n x).pwm[n]'n.2 = (d.pwm[n]'n.2).fallen x := d.updPwm_get n _
        show ((d.hiFall n x).pwm[n]'n.2).FormsAs _
        rw [hget]
        exact Pwm.fallen_formsAs hf x
    · exact ⟨hf, by rw [hedge]⟩

/-- HI after an update point: up to two edges fall in its tick. -/
theorem Dev.formAt_formsAs {d : Dev} {n : PhaseIx} (hf : (d.pwm[n]'n.2).flarePulse = false) : let p := d.pwm[n]'n.2
    ((d.formAt n).pwm[n]'n.2).FormsAs (p.turn d.clk.now (p.turn d.clk.now (p.cmd, p.nextEdge p.cmd (64 * d.clk.now)))) := by
  intro p
  let begun := d.updPwm n fun p => { p with edgeAt := p.nextEdge p.cmd (64 * d.clk.now) }
  have heq : d.formAt n = (begun.passEdge n).passEdge n := if_neg (by rw [hf]; decide)
  have hget : begun.pwm[n]'n.2 = { p with edgeAt := p.nextEdge p.cmd (64 * d.clk.now) } := d.updPwm_get n _
  have hbegun : (begun.pwm[n]'n.2).FormsAs (p.cmd, p.nextEdge p.cmd (64 * d.clk.now)) := by
    rw [hget]
    exact ⟨hf, rfl⟩
  have hsame : (begun.pwm[n]'n.2).carried = p.carried := by
    rw [hget]
    rfl
  have hclk : (begun.passEdge n).clk = d.clk := (begun.passEdge_formed n).frame .clk (by decide)
  have htwo := Dev.passEdge_formsAs (Dev.passEdge_formsAs hbegun)
  rw [Pwm.turn_of_carried ((begun.passEdge_formed n).carried.trans hsame), Pwm.turn_of_carried hsame, hclk] at htwo
  rw [heq]
  exact htwo

/-! ## What an update point takes into effect (R192, R195, R220) -/

/-- What an update point is given besides the phase: the tick, the duty that governs, the rail's reference and its slew. -/
structure Pwm.Given where
  now : Tick
  host : Bool
  flare : Option (BitVec 22)
  per : BitVec 16
  ref : RefCarrier
  slew : Nat

/-- The duty taken, and the Flare lift ended with the Flare command. -/
def Pwm.takenUp (p : Pwm) (g : Pwm.Given) (apex : Bool) : Pwm :=
  let q := p.takeDuty g.now apex g.host g.flare g.per
  if p.flareOn && !q.flareOn then q.dropLift else q

/-- The record after an update point of `Dev.phaseUpdate`. -/
def Pwm.updated (p : Pwm) (g : Pwm.Given) (apex : Bool) : Pwm :=
  let p := (p.takenUp g apex).applyMask g.now
  if apex then { p with down := true }
  else
    let p := p.takeDt g.now
    ({ p with lineHi := p.lineHi.move, lineLo := p.lineLo.move, trigA := p.trigA.valley g.now, trigB := p.trigB.valley g.now } : Pwm).valleyCarrier g.now g.ref g.slew

/-- What `Dev.phaseUpdate` gives a phase that rail `r` carries. -/
def Dev.given (d : Dev) (r : RailIx) (n : PhaseIx) : Pwm.Given where
  now := d.clk.now
  host := if (d.railOf n).isNone then ((d.pwm[n]'n.2).sync d.clk.now).loadShadow.isSome else d.srcHost n
  flare := if (d.rails[r]'r.2).flare.isSome then some (d.rails[r]'r.2).flareDuty else none
  per := if (d.railOf n).isNone then ((d.pwm[n]'n.2).sync d.clk.now).perEff else (d.pwmg.refs[r]'r.2).per
  ref := d.pwmg.refs[r]'r.2
  slew := d.pwmg.rslew[r].toNat

theorem Dev.given_mapped {d : Dev} {r : RailIx} {n : PhaseIx} (h : d.railOf n = some r) : (d.given r n).host = d.srcHost n ∧ (d.given r n).per = (d.pwmg.refs[r]'r.2).per := by
  have hmapped : ¬(d.railOf n).isNone = true := by simp [h]
  exact ⟨if_neg hmapped, if_neg hmapped⟩

theorem Dev.phaseUpdate_get (d : Dev) (r : RailIx) (n : PhaseIx) (apex : Bool) :
    (d.phaseUpdate r n apex).pwm[n]'n.2 = ((d.pwm[n]'n.2).sync d.clk.now).updated (d.given r n) apex := upd_get_same d.pwm n _

theorem Dev.phaseUpdate_get_ne (d : Dev) (r : RailIx) {n m : PhaseIx} (apex : Bool) (h : m ≠ n) : (d.phaseUpdate r n apex).pwm[m]'m.2 = d.pwm[m]'m.2 :=
  upd_get_ne d.pwm n m _ h

theorem Dev.phaseUpdate_onlyIn (d : Dev) (r : RailIx) (n : PhaseIx) (apex : Bool) : d.onlyIn (d.phaseUpdate r n apex) [.pwm] := d.updPwm_onlyIn n _

/-- What a valley leaves of the duty and the masks taken before, and of HI. -/
structure Pwm.KeepsCode (h q : Pwm) : Prop where
  per : q.perEff = h.perEff
  duty : q.dutyEff = h.dutyEff
  flareOn : q.flareOn = h.flareOn
  flareCode : q.flareCode = h.flareCode
  pulse : q.flarePulse = h.flarePulse
  cmd : q.cmd = h.cmd
  bits : q.maskEff = h.maskEff
  lift : q.liftEff = h.liftEff
  masked : q.masked = h.masked

theorem Pwm.KeepsCode.refl (p : Pwm) : p.KeepsCode p := ⟨rfl, rfl, rfl, rfl, rfl, rfl, rfl, rfl, rfl⟩

theorem Pwm.KeepsCode.trans {a b c : Pwm} (h : a.KeepsCode b) (k : b.KeepsCode c) : a.KeepsCode c :=
  ⟨k.per.trans h.per, k.duty.trans h.duty, k.flareOn.trans h.flareOn, k.flareCode.trans h.flareCode, k.pulse.trans h.pulse, k.cmd.trans h.cmd, k.bits.trans h.bits,
    k.lift.trans h.lift, k.masked.trans h.masked⟩

/-- The mask pattern that has stood complete for two ticks, or the one in effect (R220). -/
def Pwm.standing (p : Pwm) (now : Tick) : MaskBits × Bool := match (p.maskChanges.filter fun c => c.at_ + 2 ≤ now).getLast? with
  | some c => (c.bits, c.lift)
  | none => (p.maskEff, p.liftEff)

/-- The standing pattern takes effect; stage C goes on from it. -/
theorem Pwm.applyMask_spec (p : Pwm) (now : Tick) : ∃ cHi cLo : StageC, p.applyMask now =
    { p with maskEff := (p.standing now).1, liftEff := (p.standing now).2, maskChanges := p.maskChanges.filter fun c => now < c.at_ + 2, masked := (p.standing now).1.pattern (p.standing now).2, cHi := cHi, cLo := cLo } := by
  have heq : p.applyMask now =
      (if (p.standing now).1.pattern (p.standing now).2 = p.masked ∧ (p.standing now).1.pattern (p.standing now).2 = false then
        { p with maskEff := (p.standing now).1, liftEff := (p.standing now).2, maskChanges := p.maskChanges.filter fun c => now < c.at_ + 2 }
      else { p with maskEff := (p.standing now).1, liftEff := (p.standing now).2, maskChanges := p.maskChanges.filter fun c => now < c.at_ + 2, masked := (p.standing now).1.pattern (p.standing now).2, cHi := p.cHi.next ((p.standing now).1.pattern (p.standing now).2) p.gh p.continuous, cLo := p.cLo.next ((p.standing now).1.pattern (p.standing now).2) p.gl p.continuous }) := rfl
  rw [heq]
  split
  · next h => exact ⟨p.cHi, p.cLo, by rw [h.1]⟩
  · exact ⟨_, _, rfl⟩

theorem Pwm.takeDt_keepsCode (p : Pwm) (now : Tick) : p.KeepsCode (p.takeDt now) := by
  unfold Pwm.takeDt
  split
  · split <;> exact ⟨rfl, rfl, rfl, rfl, rfl, rfl, rfl, rfl, rfl⟩
  · exact .refl p

theorem Pwm.valleyCarrier_keepsCode (p : Pwm) (now : Tick) (ref : RefCarrier) (slew : Nat) : p.KeepsCode (p.valleyCarrier now ref slew) := by
  unfold Pwm.valleyCarrier
  dsimp only
  split
  · exact ⟨rfl, rfl, rfl, rfl, rfl, rfl, rfl, rfl, rfl⟩
  · split
    · exact ⟨rfl, rfl, rfl, rfl, rfl, rfl, rfl, rfl, rfl⟩
    · split <;> exact ⟨rfl, rfl, rfl, rfl, rfl, rfl, rfl, rfl, rfl⟩

theorem Pwm.updated_keepsCode (p : Pwm) (g : Pwm.Given) (apex : Bool) : ((p.takenUp g apex).applyMask g.now).KeepsCode (p.updated g apex) := by
  unfold Pwm.updated
  dsimp only
  split
  · exact ⟨rfl, rfl, rfl, rfl, rfl, rfl, rfl, rfl, rfl⟩
  · refine (Pwm.takeDt_keepsCode _ g.now).trans (Pwm.KeepsCode.trans ?_ (Pwm.valleyCarrier_keepsCode _ g.now g.ref g.slew))
    exact ⟨rfl, rfl, rfl, rfl, rfl, rfl, rfl, rfl, rfl⟩

/-- An update point has the duty code it has taken, and goes on with HI as it was. -/
theorem Pwm.updated_code (p : Pwm) (g : Pwm.Given) (apex : Bool) : let h := p.takenUp g apex; let q := p.updated g apex
    q.perEff = h.perEff ∧ q.dutyEff = h.dutyEff ∧ q.flareOn = h.flareOn ∧ q.flareCode = h.flareCode ∧ q.flarePulse = h.flarePulse ∧ q.cmd = h.cmd := by
  intro h q
  obtain ⟨cHi, cLo, hmask⟩ := h.applyMask_spec g.now
  have hkeeps : (h.applyMask g.now).KeepsCode q := p.updated_keepsCode g apex
  rw [hmask] at hkeeps
  exact ⟨hkeeps.per, hkeeps.duty, hkeeps.flareOn, hkeeps.flareCode, hkeeps.pulse, hkeeps.cmd⟩

/-! ### The duty taken -/

theorem Pwm.takenUp_plain {p : Pwm} {g : Pwm.Given} {apex : Bool} (h : p.flareOn = false) : p.takenUp g apex = p.takeDuty g.now apex g.host g.flare g.per :=
  if_neg (by rw [h]; exact Bool.false_ne_true)

/-- A loop's code that has stood for two ticks takes effect, with the rail's period. -/
theorem Pwm.takeDuty_loop {p : Pwm} (now : Tick) (apex : Bool) (flare : Option (BitVec 22)) (per : BitVec 16) {x : LoopShadow} (hf : p.flareOn = false)
    (hz : p.zeroDue = false) (hx : p.loopShadow = some x) : let q := p.takeDuty now apex false flare per
    q.perEff = per ∧ q.dutyEff = if x.at_ + 2 ≤ now then x.duty else p.dutyEff := by
  simp only [Pwm.takeDuty, Bool.false_eq_true, if_false, hf, hz, hx, Bool.false_and, Option.isSome_some, Bool.or_true, Bool.true_or, if_true]
  split <;> exact ⟨rfl, rfl⟩

/-- Under the Flare command FLARE_DUTY governs. -/
theorem Pwm.takeDuty_flare {p : Pwm} (now : Tick) (apex : Bool) (code : BitVec 22) (per : BitVec 16) (hf : p.flareOn = true) :
    p.takeDuty now apex false (some code) per = { p with flareCode := code } := by
  simp [Pwm.takeDuty, Pwm.takeFlare, hf]

/-- A host's code is taken with its period, which changes at a valley only. -/
theorem Pwm.takeDuty_host {p : Pwm} (now : Tick) (apex : Bool) (flare : Option (BitVec 22)) (per : BitVec 16) {x : LoadShadow} (hw : p.hostStartWait = false)
    (hz : p.zeroDue = false) (hx : p.loadShadow = some x) : let q := p.takeDuty now apex true flare per
    if x.at_ + 2 ≤ now ∧ (x.per = p.perEff ∨ apex = false) then q.dutyEff = x.duty ∧ q.perEff = x.per else q.dutyEff = p.dutyEff ∧ q.perEff = p.perEff := by
  have hiff : (x.at_ + 2 ≤ now && (x.per == p.perEff || !apex)) = true ↔ x.at_ + 2 ≤ now ∧ (x.per = p.perEff ∨ apex = false) := by simp
  simp only [Pwm.takeDuty, if_true, hw, hz, hx, Bool.or_self, Bool.false_eq_true, if_false, hiff]
  split <;> exact ⟨rfl, rfl⟩

/-- The end of the lift changes no duty. -/
theorem Pwm.takenUp_duty (p : Pwm) (g : Pwm.Given) (apex : Bool) : let q := p.takeDuty g.now apex g.host g.flare g.per
    (p.takenUp g apex).perEff = q.perEff ∧ (p.takenUp g apex).dutyEff = q.dutyEff := by
  unfold Pwm.takenUp
  dsimp only
  split <;> exact ⟨rfl, rfl⟩

/-- While a Flare of the rail is in progress FLARE_DUTY is the command of a participant. -/
theorem Pwm.takenUp_flare {p : Pwm} {g : Pwm.Given} {apex : Bool} {code : BitVec 22} (hf : p.flareOn = true) (hs : g.host = false) (hg : g.flare = some code) :
    p.takenUp g apex = { p with flareCode := code } := by
  unfold Pwm.takenUp
  rw [hs, hg, Pwm.takeDuty_flare g.now apex code g.per hf]
  exact if_neg (by rw [hf]; decide)

/-- The carrier's place and the delay lines as they stood. -/
structure Pwm.KeepsPlace (p q : Pwm) : Prop where
  valley : q.valley = p.valley
  arcTgt : q.arcTgt = p.arcTgt
  arcNow : q.arcNow = p.arcNow
  free : q.free = p.free
  joined : q.joined = p.joined
  corr : q.corr = p.corr
  lineHi : q.lineHi = p.lineHi
  lineLo : q.lineLo = p.lineLo

theorem Pwm.KeepsPlace.trans {a b c : Pwm} (h : a.KeepsPlace b) (k : b.KeepsPlace c) : a.KeepsPlace c :=
  ⟨k.valley.trans h.valley, k.arcTgt.trans h.arcTgt, k.arcNow.trans h.arcNow, k.free.trans h.free, k.joined.trans h.joined, k.corr.trans h.corr,
    k.lineHi.trans h.lineHi, k.lineLo.trans h.lineLo⟩

/-- Taking a duty leaves the carrier's place and the mask pattern, and starts no Flare on-pulse. -/
theorem Pwm.takeDuty_keeps (p : Pwm) (now : Tick) (apex host : Bool) (flare : Option (BitVec 22)) (per : BitVec 16) : let q := p.takeDuty now apex host flare per
    p.KeepsPlace q ∧ q.standing now = p.standing now ∧ (p.flarePulse = false → q.flarePulse = false) ∧ q.cmd = p.cmd := by
  unfold Pwm.takeDuty Pwm.takeFlare
  dsimp only
  repeat' split
  all_goals exact ⟨⟨rfl, rfl, rfl, rfl, rfl, rfl, rfl, rfl⟩, rfl, by simp, rfl⟩

theorem Pwm.takenUp_keeps (p : Pwm) (g : Pwm.Given) (apex : Bool) : let q := p.takenUp g apex
    p.KeepsPlace q ∧ (p.flarePulse = false → q.flarePulse = false) ∧ q.cmd = p.cmd := by
  obtain ⟨hplace, -, hpulse, hcmd⟩ := p.takeDuty_keeps g.now apex g.host g.flare g.per
  unfold Pwm.takenUp
  dsimp only
  split
  · exact ⟨hplace.trans ⟨rfl, rfl, rfl, rfl, rfl, rfl, rfl, rfl⟩, hpulse, hcmd⟩
  · exact ⟨hplace, hpulse, hcmd⟩

theorem Pwm.applyMask_keepsPlace (p : Pwm) (now : Tick) : p.KeepsPlace (p.applyMask now) := by
  obtain ⟨cHi, cLo, h⟩ := p.applyMask_spec now
  rw [h]
  exact ⟨rfl, rfl, rfl, rfl, rfl, rfl, rfl, rfl⟩

theorem Pwm.takeDt_keepsPlace (p : Pwm) (now : Tick) : p.KeepsPlace (p.takeDt now) := by
  unfold Pwm.takeDt
  split
  · split <;> exact ⟨rfl, rfl, rfl, rfl, rfl, rfl, rfl, rfl⟩
  · exact ⟨rfl, rfl, rfl, rfl, rfl, rfl, rfl, rfl⟩

/-! ### The record after an update point -/

/-- The mask pattern in effect after an update point without a Flare command is the one that has stood for two ticks. -/
theorem Pwm.updated_mask {p : Pwm} {g : Pwm.Given} {apex : Bool} (h : p.flareOn = false) : let q := p.updated g apex
    q.maskEff = (p.standing g.now).1 ∧ q.liftEff = (p.standing g.now).2 ∧ q.masked = (p.standing g.now).1.pattern (p.standing g.now).2 := by
  have htaken : ((p.takenUp g apex).standing g.now) = p.standing g.now := by
    rw [Pwm.takenUp_plain h]
    exact (p.takeDuty_keeps _ _ _ _ _).2.1
  obtain ⟨cHi, cLo, hmask⟩ := (p.takenUp g apex).applyMask_spec g.now
  have hkeeps := p.updated_keepsCode g apex
  rw [hmask, htaken] at hkeeps
  exact ⟨hkeeps.bits, hkeeps.lift, hkeeps.masked⟩

/-- An apex leaves the carrier's place and the lines. -/
theorem Pwm.updated_apex (p : Pwm) (g : Pwm.Given) : p.KeepsPlace (p.updated g true) ∧ (p.updated g true).down = true :=
  ⟨((p.takenUp_keeps g true).1.trans (Pwm.applyMask_keepsPlace _ g.now)).trans ⟨rfl, rfl, rfl, rfl, rfl, rfl, rfl, rfl⟩, rfl⟩

/-- The record a valley moves the lines of: duty, masks and dead times taken. -/
def Pwm.beforeMove (p : Pwm) (g : Pwm.Given) : Pwm := ((p.takenUp g false).applyMask g.now).takeDt g.now

theorem Pwm.beforeMove_keepsPlace (p : Pwm) (g : Pwm.Given) : p.KeepsPlace (p.beforeMove g) :=
  ((p.takenUp_keeps g false).1.trans (Pwm.applyMask_keepsPlace _ g.now)).trans (Pwm.takeDt_keepsPlace _ g.now)

/-- The record a valley hands its carrier. -/
def Pwm.atValley (p : Pwm) (g : Pwm.Given) : Pwm :=
  let p := p.beforeMove g
  { p with lineHi := p.lineHi.move, lineLo := p.lineLo.move, trigA := p.trigA.valley g.now, trigB := p.trigB.valley g.now }

theorem Pwm.updated_valley (p : Pwm) (g : Pwm.Given) : p.updated g false = (p.atValley g).valleyCarrier g.now g.ref g.slew := rfl

theorem Pwm.valleyCarrier_begins (p : Pwm) (now : Tick) (ref : RefCarrier) (slew : Nat) : let q := p.valleyCarrier now ref slew
    q.valley = now ∧ q.down = false ∧ q.lineHi = p.lineHi ∧ q.lineLo = p.lineLo := by
  unfold Pwm.valleyCarrier
  dsimp only
  split
  · exact ⟨rfl, rfl, rfl, rfl⟩
  · split
    · exact ⟨rfl, rfl, rfl, rfl⟩
    · split <;> exact ⟨rfl, rfl, rfl, rfl⟩

/-- A valley begins the new period and moves the lines. -/
theorem Pwm.updated_valley_begins (p : Pwm) (g : Pwm.Given) : let q := p.updated g false
    q.valley = g.now ∧ q.down = false ∧ q.lineHi = p.lineHi.move ∧ q.lineLo = p.lineLo.move := by
  obtain ⟨hvalley, hdown, hhi, hlo⟩ := (p.atValley g).valleyCarrier_begins g.now g.ref g.slew
  have hplace := p.beforeMove_keepsPlace g
  exact ⟨hvalley, hdown, hhi.trans (congrArg DLine.move hplace.lineHi), hlo.trans (congrArg DLine.move hplace.lineLo)⟩

/-- A measurement in its window draws its line by one tap (R192, R193). -/
theorem DLine.move_followed {l : DLine} (hlo : 64 ≤ l.meas.toNat) (hhi : l.meas.toNat ≤ 96) : l.move =
    { l with use := if l.use.toNat < l.meas.toNat then l.use + 1 else if l.meas.toNat < l.use.toNat then l.use - 1 else l.use } := by
  unfold DLine.move
  rw [if_neg (by omega)]
  split
  · rfl
  · split <;> rfl

/-! ## Update points as steps of the device (R186) -/

theorem Pwm.sync_fails (p : Pwm) (now : Tick) : (p.sync now).dlFail = p.dlFail ∧ (p.sync now).mask = p.mask := by
  unfold Pwm.sync
  dsimp only
  split <;> exact ⟨rfl, rfl⟩

/-- An update point, when it is due, up to what a valley does besides. -/
def Dev.halfBegun (d : Dev) (r : RailIx) (n : PhaseIx) (apex : Bool) : Dev := ((d.phaseUpdate r n apex).formAt n).updPwm n Pwm.hostStopped

theorem Dev.updatePoint_still {d : Dev} {n : PhaseIx} {apex : Bool} (h : d.carrierRail n = none ∨ (d.pwm[n]'n.2).due d.clk.now apex = false) :
    d.updatePoint n apex = d := by
  unfold Dev.updatePoint
  split
  · rfl
  · next r hr =>
    have hdue : (d.pwm[n]'n.2).due d.clk.now apex = false := h.resolve_left (by rw [hr]; exact Option.some_ne_none r)
    exact if_pos (by rw [hdue]; rfl)

theorem Dev.updatePoint_due {d : Dev} {r : RailIx} {n : PhaseIx} {apex : Bool} (hr : d.carrierRail n = some r) (hd : (d.pwm[n]'n.2).due d.clk.now apex = true) :
    d.updatePoint n apex = if apex then (d.failMask n).halfBegun r n apex else (((d.failMask n).halfBegun r n apex).tripValley n).testValley n := by
  unfold Dev.updatePoint
  simp only [hr]
  exact if_neg (by rw [hd]; decide)

theorem Dev.halfBegun_formed (d : Dev) (r : RailIx) (n : PhaseIx) (apex : Bool) : (d.phaseUpdate r n apex).Formed (d.halfBegun r n apex) n :=
  (Dev.formAt_formed _ n).trans (Dev.updPwm_formed _ n _ (Pwm.hostStopped_carried _))

theorem Dev.testValley_onlyIn (d : Dev) (n : PhaseIx) : d.onlyIn (d.testValley n) [.test] := by
  unfold Dev.testValley
  split
  · exact Dev.onlyIn_ite (d.onlyIn_test _)
  · exact d.onlyIn_refl _

theorem Dev.failMask_onlyIn (d : Dev) (n : PhaseIx) : d.onlyIn (d.failMask n) [.pwm, .loop, .rails, .fault, .leave] := by
  have hdrop : ∀ e : Dev, e.onlyIn (e.dropAdd n) [.leave, .rails] := fun e => by
    unfold Dev.dropAdd
    split
    · exact Dev.onlyIn_ite (e.withdrawAdd_onlyIn _)
    · exact e.onlyIn_refl _
  unfold Dev.failMask
  extract_lets failed
  have hfailed : d.onlyIn failed [.pwm, .leave, .rails] := (d.updPwm_onlyIn n _).into.thenIn (hdrop _)
  split
  · exact d.onlyIn_refl _
  · split
    · next r _ =>
      have hshed : failed.onlyIn (if (failed.isLoop n && !(failed.pwm[n]'n.2).mask.shed) = true then failed.shedOne n else failed) [.pwm, .leave, .fault] :=
        Dev.onlyIn_ite (failed.shedOne_onlyIn n)
      exact hfailed.into.thenIn hshed |>.thenIn (Dev.respread_onlyIn _ r) |>.thenIn (Dev.syncCtx_onlyIn _ r)
    · exact hfailed.into

theorem Dev.noteEvent_onlyIn (d : Dev) (r : RailIx) (m : RailMode) : d.onlyIn (d.noteEvent r m) [.chord] := by
  unfold Dev.noteEvent
  split
  · exact d.onlyIn_refl _
  · exact d.onlyIn_chord _

theorem Dev.latchCheck_onlyIn (d : Dev) (n : PhaseIx) : d.onlyIn (d.latchCheck n) [.pwm, .rails, .loop, .prot, .fault, .lantern, .ports, .leave, .chord] := by
  unfold Dev.latchCheck
  extract_lets t latched
  have hlatched : d.onlyIn latched [.prot, .fault] := (d.updTrip_onlyIn n _).into.thenIn (Dev.setCause_onlyIn _ _ _ _ _)
  split
  · exact d.onlyIn_refl _
  · split
    · split
      · exact hlatched.into.thenIn (latched.noteEvent_onlyIn _ _) |>.thenIn (latched.noteEvent_stopRail _ _)
      · exact hlatched.into
    · exact hlatched.into

/-- What an update point can touch at all. -/
theorem Dev.updatePoint_onlyIn (d : Dev) (n : PhaseIx) (apex : Bool) :
    d.onlyIn (d.updatePoint n apex) [.pwm, .loop, .rails, .prot, .ports, .fault, .lantern, .chord, .leave, .test] := by
  unfold Dev.updatePoint
  split
  · exact d.onlyIn_refl _
  · next r _ =>
    split
    · exact d.onlyIn_refl _
    · have hbegun : d.onlyIn ((d.failMask n).halfBegun r n apex) [.pwm, .loop, .rails, .prot, .fault, .leave] :=
        (d.failMask_onlyIn n).into.thenIn (Dev.phaseUpdate_onlyIn _ r n apex) |>.thenIn (Dev.halfBegun_formed _ r n apex).frame
      have hvalley : ∀ e : Dev, e.onlyIn ((e.tripValley n).testValley n) [.pwm, .loop, .rails, .prot, .ports, .fault, .lantern, .chord, .leave, .test] := fun e =>
        (e.updTrip_onlyIn n _).into.thenIn (Dev.latchCheck_onlyIn _ n) |>.thenIn (Dev.testValley_onlyIn _ n)
      show d.onlyIn (if apex then (d.failMask n).halfBegun r n apex else _) _
      split
      · exact hbegun.into
      · exact hbegun.into.thenIn (hvalley _)

/-! ### An update point that neither fails the phase nor latches it off -/

theorem Dev.failMask_calm {d : Dev} {n : PhaseIx} (h : (d.pwm[n]'n.2).dlFail = false ∨ (d.pwm[n]'n.2).mask.fail = true) : d.failMask n = d := by
  refine if_pos ?_
  rcases h with h | h <;> rw [h]
  · rfl
  · exact Bool.or_true _

/-- The trip record with the window of limited periods moved on, WIN and N taken as last written (R346). -/
def Trip.movedOn (t : Trip) : Trip := Trip.recount { t with periods := (t.limited :: t.periods).take 1024, limited := false, winNow := t.win, nNow := t.n }

theorem Dev.tripValley_below {d : Dev} {n : PhaseIx}
    (h : (d.prot.trips[n]'n.2).movedOn.latch = true ∨ (d.prot.trips[n]'n.2).movedOn.count.toNat < (d.prot.trips[n]'n.2).n.toNat) : d.tripValley n = d.updTrip n Trip.movedOn := by
  refine if_pos ?_
  show (((d.updTrip n Trip.movedOn).prot.trips[n]'n.2).latch || decide (((d.updTrip n Trip.movedOn).prot.trips[n]'n.2).count.toNat < ((d.updTrip n Trip.movedOn).prot.trips[n]'n.2).nNow.toNat)) = true
  rw [Dev.updTrip_get, Bool.or_eq_true, decide_eq_true_iff]
  exact h

/-- What an update point that neither fails the phase nor latches it off leaves: the other phases, and of the phase all but what the
    update point itself writes, `q` being the record it forms. -/
structure Dev.Calm (d d' : Dev) (n : PhaseIx) (apex : Bool) (q : Pwm) : Prop where
  others : ∀ m : PhaseIx, m ≠ n → d'.pwm[m]'m.2 = d.pwm[m]'m.2
  carried : (d'.pwm[n]'n.2).carried = q.carried
  forms : q.flarePulse = false → ((d'.pwm[n]'n.2).cmd, (d'.pwm[n]'n.2).edgeAt) = q.turn d.clk.now (q.turn d.clk.now (q.cmd, q.nextEdge q.cmd (64 * d.clk.now)))
  trip : apex = false → (d'.prot.trips[n]'n.2).periods = (d.prot.trips[n]'n.2).movedOn.periods ∧ (d'.prot.trips[n]'n.2).count = (d.prot.trips[n]'n.2).movedOn.count
  test : apex = true → d'.test = d.test
  frame : d.onlyIn d' [.pwm, .prot, .test]

theorem Dev.halfBegun_forms {d : Dev} {r : RailIx} {n : PhaseIx} {apex : Bool} (hf : ((d.phaseUpdate r n apex).pwm[n]'n.2).flarePulse = false) :
    let q := (d.phaseUpdate r n apex).pwm[n]'n.2
    (((d.halfBegun r n apex).pwm[n]'n.2).cmd, ((d.halfBegun r n apex).pwm[n]'n.2).edgeAt) =
      q.turn d.clk.now (q.turn d.clk.now (q.cmd, q.nextEdge q.cmd (64 * d.clk.now))) := by
  intro q
  have hget : (d.halfBegun r n apex).pwm[n]'n.2 = (((d.phaseUpdate r n apex).formAt n).pwm[n]'n.2).hostStopped := Dev.updPwm_get _ n _
  have hstop : ∀ p : Pwm, p.hostStopped.cmd = p.cmd ∧ p.hostStopped.edgeAt = p.edgeAt := fun p => by
    unfold Pwm.hostStopped
    split <;> exact ⟨rfl, rfl⟩
  rw [hget, (hstop _).1, (hstop _).2]
  exact (Dev.formAt_formsAs hf).2

theorem Dev.updatePoint_calm {d : Dev} {r : RailIx} {n : PhaseIx} {apex : Bool} (hr : d.carrierRail n = some r) (hd : (d.pwm[n]'n.2).due d.clk.now apex = true)
    (hfail : (d.pwm[n]'n.2).dlFail = false ∨ (d.pwm[n]'n.2).mask.fail = true)
    (hlatch : apex = true ∨ (d.prot.trips[n]'n.2).movedOn.latch = true ∨ (d.prot.trips[n]'n.2).movedOn.count.toNat < (d.prot.trips[n]'n.2).n.toNat) :
    d.Calm (d.updatePoint n apex) n apex (((d.pwm[n]'n.2).sync d.clk.now).updated (d.given r n) apex) := by
  have hbegun := d.halfBegun_formed r n apex
  have hdue := d.updatePoint_due hr hd
  rw [Dev.failMask_calm hfail] at hdue
  rw [← d.phaseUpdate_get r n apex]
  have hothers : ∀ m : PhaseIx, m ≠ n → (d.halfBegun r n apex).pwm[m]'m.2 = d.pwm[m]'m.2 := fun m hm => (hbegun.others m hm).trans (d.phaseUpdate_get_ne r apex hm)
  have hframe : d.onlyIn (d.halfBegun r n apex) [.pwm, .prot] := (d.phaseUpdate_onlyIn r n apex).into.thenIn hbegun.frame
  cases apex with
  | true =>
    have hd' : d.updatePoint n true = d.halfBegun r n true := hdue
    rw [hd']
    exact ⟨hothers, hbegun.carried, Dev.halfBegun_forms, fun h => absurd h (by decide), fun _ => hframe .test (by decide), hframe.into⟩
  | false =>
    obtain ⟨act, hold, htrip⟩ := hbegun.trip
    have hmoved : ((d.halfBegun r n false).prot.trips[n]'n.2).movedOn = { (d.prot.trips[n]'n.2).movedOn with active := act, hold := hold } := by
      rw [htrip]
      rfl
    have hbelow : (d.halfBegun r n false).tripValley n = (d.halfBegun r n false).updTrip n Trip.movedOn := by
      refine Dev.tripValley_below ?_
      rw [hmoved, htrip]
      exact hlatch.resolve_left (by decide)
    have hd' : d.updatePoint n false = ((d.halfBegun r n false).updTrip n Trip.movedOn).testValley n := hdue.trans (congrArg (fun e : Dev => e.testValley n) hbelow)
    have htest : ((d.halfBegun r n false).updTrip n Trip.movedOn).onlyIn (d.updatePoint n false) [.test] := by
      rw [hd']
      exact Dev.testValley_onlyIn _ n
    have hpwm : (d.updatePoint n false).pwm = (d.halfBegun r n false).pwm := htest .pwm (by decide)
    have hprot : (d.updatePoint n false).prot = ((d.halfBegun r n false).updTrip n Trip.movedOn).prot := htest .prot (by decide)
    refine ⟨fun m hm => ?_, ?_, fun hf => ?_, fun _ => ?_, fun h => absurd h (by decide), ?_⟩
    · rw [hpwm]
      exact hothers m hm
    · rw [hpwm]
      exact hbegun.carried
    · rw [hpwm]
      exact Dev.halfBegun_forms hf
    · rw [hprot, Dev.updTrip_get, hmoved]
      exact ⟨rfl, rfl⟩
    · exact hframe.into.thenIn (Dev.updTrip_onlyIn _ n _) |>.thenIn htest

end Sys2Proof.Machine

open Sys2Proof Sys2Proof.Machine

/-- Settles O23: the record an update point forms is `Pwm.updated`, stage A goes on from it, and where the valley neither fails the phase nor
    latches it off nothing else of the phase is written (`Dev.Calm`). -/
theorem updatePointsTakeTheShadow : Obligations.UpdatePointsTakeTheShadow := by
  intro s t n apex d p trip v moved ha
  refine ⟨fun h => State.runLive_next ha (Dev.updatePoint_still h), fun r hr hd => ⟨d.updatePoint n apex, State.runLive_next ha rfl, d.updatePoint_onlyIn n apex, ?_⟩⟩
  intro hfail hlatch q
  obtain ⟨hdl, hmask⟩ := (d.pwm[n]'n.2).sync_fails d.clk.now
  rw [hdl, hmask] at hfail
  have hcalm := Dev.updatePoint_calm hr hd hfail hlatch
  have hc := hcalm.carried
  have hper := Pwm.eq_of_carried Pwm.perEff hc
  have hduty := Pwm.eq_of_carried Pwm.dutyEff hc
  obtain ⟨hper', hduty', -, hcode', hpulse', hcmd'⟩ := p.updated_code (d.given r n) apex
  obtain ⟨hplace, hpulse, hcmd⟩ := p.takenUp_keeps (d.given r n) apex
  refine ⟨hcalm.others, hcalm.frame, fun hmap hs hf hz x hx => ?loop, fun hmap hs hf hflare => ?flare, fun hmap hs hw hz x hx => ?host,
    fun hf c hlast => ?mask, fun hf => ?turn, fun ha => ?apex, fun hv => ?valley⟩
  case loop =>
    obtain ⟨hhost, hrail⟩ := Dev.given_mapped hmap
    have htaken := Pwm.takenUp_plain (g := d.given r n) (apex := apex) hf
    rw [hhost, hs, hrail] at htaken
    rw [htaken] at hper' hduty'
    obtain ⟨h1, h2⟩ := Pwm.takeDuty_loop d.clk.now apex (d.given r n).flare (d.pwmg.refs[r]'r.2).per hf hz hx
    exact ⟨hper.trans (hper'.trans h1), hduty.trans (hduty'.trans h2)⟩
  case flare =>
    obtain ⟨hhost, -⟩ := Dev.given_mapped hmap
    have hgiven : (d.given r n).flare = some (d.rails[r]'r.2).flareDuty := if_pos hflare
    have htaken := Pwm.takenUp_flare (g := d.given r n) (apex := apex) hf (hhost.trans hs) hgiven
    rw [htaken] at hduty' hcode'
    exact ⟨(Pwm.eq_of_carried Pwm.flareCode hc).trans hcode', hduty.trans hduty'⟩
  case host =>
    obtain ⟨hhost, -⟩ := Dev.given_mapped hmap
    obtain ⟨h1, h2⟩ := p.takenUp_duty (d.given r n) apex
    rw [hhost, hs] at h1 h2
    have htaken := Pwm.takeDuty_host d.clk.now apex (d.given r n).flare (d.given r n).per hw hz hx
    rw [hper, hper', h1, hduty, hduty', h2]
    exact htaken
  case mask =>
    obtain ⟨h1, h2, h3⟩ := Pwm.updated_mask (g := d.given r n) (apex := apex) hf
    have hstanding : p.standing d.clk.now = (c.bits, c.lift) := by
      unfold Pwm.standing
      rw [hlast]
    exact ⟨(Pwm.eq_of_carried Pwm.maskEff hc).trans (h1.trans (congrArg Prod.fst hstanding)), (Pwm.eq_of_carried Pwm.liftEff hc).trans (h2.trans (congrArg Prod.snd hstanding)),
      (Pwm.eq_of_carried Pwm.masked hc).trans (h3.trans (congrArg (fun b : MaskBits × Bool => b.1.pattern b.2) hstanding))⟩
  case turn =>
    have hforms := hcalm.forms (hpulse'.trans (hpulse hf))
    rw [← Pwm.turn_of_carried hc, ← Pwm.nextEdge_of_carried hc, hcmd', hcmd] at hforms
    exact hforms
  case apex =>
    subst ha
    obtain ⟨hkeeps, hdown⟩ := p.updated_apex (d.given r n)
    exact ⟨(Pwm.eq_of_carried Pwm.valley hc).trans hkeeps.valley, (Pwm.eq_of_carried Pwm.down hc).trans hdown, (Pwm.eq_of_carried Pwm.lineHi hc).trans hkeeps.lineHi,
      (Pwm.eq_of_carried Pwm.lineLo hc).trans hkeeps.lineLo, hcalm.test rfl⟩
  case valley =>
    subst hv
    obtain ⟨hvalley, hdown, hhi, hlo⟩ := p.updated_valley_begins (d.given r n)
    obtain ⟨hperiods, hcount⟩ := hcalm.trip rfl
    exact ⟨(Pwm.eq_of_carried Pwm.valley hc).trans hvalley, (Pwm.eq_of_carried Pwm.down hc).trans hdown, hperiods, hcount,
      fun h1 h2 => (Pwm.eq_of_carried Pwm.lineHi hc).trans (hhi.trans (DLine.move_followed h1 h2)),
      fun h1 h2 => (Pwm.eq_of_carried Pwm.lineLo hc).trans (hlo.trans (DLine.move_followed h1 h2))⟩

end

section
/-! SUPPORT. The Arc: the error and the move of one valley, and the valley of an aligned phase. -/

namespace Sys2Proof.Machine

open Sys2Proof

/-! ## The error and the move (R205, R206) -/

/-- The error is the shorter way from where the phase stands to its target. -/
theorem arcErr_spec (tgt now : BitVec 16) : -32768 < arcErr tgt now ∧ arcErr tgt now ≤ 32768 ∧ BitVec.ofInt 16 (now.toNat + arcErr tgt now) = tgt := by
  have hmod : -32768 < arcErr tgt now ∧ arcErr tgt now ≤ 32768 ∧ (now.toNat + arcErr tgt now) % 65536 = (tgt.toNat : Int) := by
    have htgt := tgt.isLt
    unfold arcErr
    dsimp only
    split <;> omega
  obtain ⟨hlo, hhi, hmod⟩ := hmod
  refine ⟨hlo, hhi, BitVec.eq_of_toNat_eq ?_⟩
  rw [BitVec.toNat_ofInt]
  simp only [Nat.reducePow, Nat.cast_ofNat, hmod, Int.toNat_natCast]

/-- OFS is its Arc position's share of the period, to half a fine unit. -/
theorem arcOfs_near (a : Int) (per : Nat) : a * (128 * per : Nat) - 32768 ≤ 65536 * arcOfs a per ∧ 65536 * arcOfs a per ≤ a * (128 * per : Nat) + 32768 := by
  have hper : 2 * per * 64 = 128 * per := by omega
  unfold arcOfs rhe
  rw [hper]
  generalize a * ((128 * per : Nat) : Int) = x
  dsimp only
  split_ifs <;> omega

/-- An advance by `j` units changes OFS by its share of the period, to a fine unit. -/
theorem arcShift_near (now : BitVec 16) (per j : Nat) : 65536 * -arcShift now per (-(j : Int)) ≤ (j * (128 * per) : Nat) + 65536 := by
  have hold := (arcOfs_near now.toNat per).2
  have hnew := (arcOfs_near (now.toNat + -(j : Int)) per).1
  have hsplit : ((now.toNat : Int) + -(j : Int)) * (128 * per : Nat) = now.toNat * (128 * per : Nat) - (j * (128 * per) : Nat) := by
    push_cast
    ring
  unfold arcShift
  omega

theorem arcShift_zero (now : BitVec 16) (per : Nat) : arcShift now per 0 = 0 := by simp [arcShift]

/-- The fine units by which an advance may shorten a period: 16 ticks of off-time are left. -/
def arcRoom (per duty : Nat) : Nat := (128 * per - 2 * duty - 1024 : Int).toNat

/-- The units of a reduced advance of `k`: what the floor of the room holds, less one where rounding would exceed it (assumption 65). -/
def arcReduced (now : BitVec 16) (per room k : Nat) : Nat :=
  let k' := min k (room * 65536 / (128 * per))
  if -arcShift now per (-(k' : Int)) ≤ room then k' else k' - 1

theorem arcReduced_le (now : BitVec 16) (per room k : Nat) : arcReduced now per room k ≤ k := by
  unfold arcReduced
  dsimp only
  split <;> omega

/-- A reduced advance leaves the room it was reduced for. -/
theorem arcReduced_fits (now : BitVec 16) (per room k : Nat) : -arcShift now per (-(arcReduced now per room k : Int)) ≤ room := by
  unfold arcReduced
  extract_lets k'
  split
  · assumption
  · next hover =>
    have hpos : k' ≠ 0 := fun h => hover (by rw [h, Nat.cast_zero, neg_zero, arcShift_zero]; omega)
    have hfloor : k' * (128 * per) ≤ room * 65536 := (Nat.mul_le_mul_right _ (Nat.min_le_right _ _)).trans (Nat.div_mul_le_self _ _)
    have hper : per ≠ 0 := fun h => hpos (by simp [k', h])
    have hless : (k' - 1) * (128 * per) = k' * (128 * per) - 128 * per := Nat.sub_one_mul _ _
    have hone : 128 * per ≤ k' * (128 * per) := Nat.le_mul_of_pos_left _ (Nat.pos_of_ne_zero hpos)
    have hnear := arcShift_near now per (k' - 1)
    rw [hless] at hnear
    omega

theorem arcMove_retard {tgt now : BitVec 16} (slew per duty : Nat) (h : 0 ≤ arcErr tgt now) : arcMove tgt now slew per duty = min (arcErr tgt now) slew := if_pos h

theorem arcMove_advance {tgt now : BitVec 16} (slew per duty : Nat) (h : arcErr tgt now < 0) : let k := min (arcErr tgt now).natAbs slew
    arcMove tgt now slew per duty = -((if (arcShift now per (-(k : Int))).natAbs ≤ arcRoom per duty then k else arcReduced now per (arcRoom per duty) k : Nat) : Int) := by
  intro k
  have heq : arcMove tgt now slew per duty = Int.negOfNat (if decide ((arcShift now per (-(k : Int))).natAbs ≤ arcRoom per duty) then k
      else arcReduced now per (arcRoom per duty) k) := if_neg (not_le.2 h)
  rw [heq, Int.negOfNat_eq]
  simp only [decide_eq_true_eq]
  rfl

/-- The size of an advance: all of it where it fits, and never more than fits. -/
theorem arcMove_advance_spec {tgt now : BitVec 16} (slew per duty : Nat) (h : arcErr tgt now < 0) : let k := arcMove tgt now slew per duty
    let whole := max (arcErr tgt now) (-(slew : Int))
    whole ≤ k ∧ k ≤ 0 ∧ ((arcShift now per whole).natAbs ≤ arcRoom per duty → k = whole) ∧ -arcShift now per k ≤ arcRoom per duty := by
  have hwhole : max (arcErr tgt now) (-(slew : Int)) = -((min (arcErr tgt now).natAbs slew : Nat) : Int) := by omega
  intro k whole
  have hk := arcMove_advance slew per duty h
  have hle := arcReduced_le now per (arcRoom per duty) (min (arcErr tgt now).natAbs slew)
  dsimp only [k, whole]
  rw [hk, hwhole]
  split
  · next hfits => exact ⟨le_refl _, by omega, fun _ => rfl, by omega⟩
  · next hover => exact ⟨by omega, by omega, fun hfits => absurd hfits hover, arcReduced_fits now per _ _⟩

/-! ## The valley of an aligned phase (R202, R206) -/

/-- A record's carrier has made the move of a valley from the Arc position `now`, of which `k` units: ARC_NOW, the fine offset and the two counts. -/
def Pwm.Moved (q : Pwm) (now : BitVec 16) (k : Int) (per : Nat) : Prop :=
  let goal := arcOfs (now.toNat + k) per
  let whole := goal / 64 - arcOfs now.toNat per / 64
  q.arcNow = BitVec.ofInt 16 (now.toNat + k) ∧ q.fine = (goal % 64).toNat ∧ q.upLen = ((per : Int) + Int.tdiv whole 2).toNat ∧
    q.downLen = ((per : Int) + (whole - Int.tdiv whole 2)).toNat

/-- The valley of an aligned phase without a correction makes the move, and no more. -/
theorem Pwm.valleyCarrier_aligned {p : Pwm} {ref : RefCarrier} (now : Tick) (slew : Nat) (hhold : ref.holding = false) (hper : p.perEff = ref.per)
    (hrun : ref.running = true) (hfree : p.free = false) (hjoined : p.joined = false) (hcorr : p.corr = 0) :
    (p.valleyCarrier now ref slew).Moved p.arcNow (arcMove p.arcTgt p.arcNow slew ref.per.toNat p.duty) ref.per.toNat := by
  have hnone : ∀ x : Int, max (0 : Int) (min 0 x) = 0 := fun x => by omega
  unfold Pwm.valleyCarrier
  simp only [hhold, ← hper, hrun, hfree, hjoined, hcorr, hnone, bne_self_eq_false, Bool.not_true, Bool.or_self, Bool.false_eq_true, if_false, add_zero]
  exact ⟨rfl, rfl, rfl, rfl⟩

theorem Pwm.takeDuty_aligned {p : Pwm} (now : Tick) (apex : Bool) (flare : Option (BitVec 22)) (per : BitVec 16) (h : p.perEff = per) :
    (p.takeDuty now apex false flare per).perEff = per := by
  unfold Pwm.takeDuty Pwm.takeFlare
  dsimp only
  repeat' split
  all_goals simp_all

theorem Pwm.KeepsCode.duty_eq {h q : Pwm} (k : h.KeepsCode q) : q.duty = h.duty := by
  unfold Pwm.duty Pwm.code
  rw [k.flareOn, k.flareCode, k.duty, k.per]

theorem Pwm.atValley_keepsPlace (p : Pwm) (g : Pwm.Given) : (p.atValley g).arcTgt = p.arcTgt ∧ (p.atValley g).arcNow = p.arcNow ∧
    (p.atValley g).free = p.free ∧ (p.atValley g).joined = p.joined ∧ (p.atValley g).corr = p.corr := by
  have h := p.beforeMove_keepsPlace g
  exact ⟨h.arcTgt, h.arcNow, h.free, h.joined, h.corr⟩

theorem Pwm.updated_aligned {p : Pwm} {g : Pwm.Given} (hhost : g.host = false) (hg : g.per = g.ref.per) (hper : p.perEff = g.ref.per)
    (hrun : g.ref.running = true) (hhold : g.ref.holding = false) (hfree : p.free = false) (hjoined : p.joined = false) (hcorr : p.corr = 0) :
    (p.updated g false).Moved p.arcNow (arcMove p.arcTgt p.arcNow g.slew g.ref.per.toNat (p.updated g false).duty) g.ref.per.toNat := by
  have hkeeps := (p.atValley g).valleyCarrier_keepsCode g.now g.ref g.slew
  have halign : (p.atValley g).perEff = g.ref.per := by
    rw [← hkeeps.per, ← p.updated_valley g, (p.updated_code g false).1, (p.takenUp_duty g false).1, hhost, hg]
    exact Pwm.takeDuty_aligned g.now false g.flare g.ref.per hper
  obtain ⟨htgt, hnow, hfree', hjoined', hcorr'⟩ := p.atValley_keepsPlace g
  have hmoved := Pwm.valleyCarrier_aligned g.now g.slew hhold halign hrun (hfree'.trans hfree) (hjoined'.trans hjoined) (hcorr'.trans hcorr)
  rw [htgt, hnow, ← hkeeps.duty_eq] at hmoved
  exact hmoved

theorem Pwm.Moved.of_carried {p q : Pwm} {now : BitVec 16} {k : Int} {per : Nat} (h : p.Moved now k per) (hc : q.carried = p.carried) : q.Moved now k per := by
  obtain ⟨hnow, hfine, hup, hdown⟩ := h
  exact ⟨(Pwm.eq_of_carried Pwm.arcNow hc).trans hnow, (Pwm.eq_of_carried Pwm.fine hc).trans hfine, (Pwm.eq_of_carried Pwm.upLen hc).trans hup,
    (Pwm.eq_of_carried Pwm.downLen hc).trans hdown⟩

end Sys2Proof.Machine

open Sys2Proof Sys2Proof.Machine

/-- Settles O24: the move by `arcErr_spec` and, of an advance, by `arcMove_advance_spec`; the valley by `Pwm.updated_aligned`. -/
theorem arcMovesByTheShorterWay : Obligations.ArcMovesByTheShorterWay := by
  unfold Obligations.ArcMovesByTheShorterWay
  refine ⟨fun tgt now slew per duty => ?_, fun s t n r => ?_⟩
  · intro e k room
    obtain ⟨hlo, hhi, htgt⟩ := arcErr_spec tgt now
    have hretard : 0 ≤ e → k = min e slew := arcMove_retard slew per duty
    have hroom : ((arcRoom per duty : Nat) : Int) = max 0 room := by
      unfold arcRoom
      omega
    have hadvance : e < 0 → _ := arcMove_advance_spec slew per duty
    have hsize : k.natAbs ≤ slew ∧ k.natAbs ≤ e.natAbs ∧ (0 ≤ e → 0 ≤ k) ∧ (e ≤ 0 → k ≤ 0) := by
      rcases le_or_gt 0 e with he | he
      · have hk := hretard he
        omega
      · obtain ⟨hge, hle, -, -⟩ := hadvance he
        omega
    obtain ⟨hslew, herr, hpos, hneg⟩ := hsize
    refine ⟨hslew, herr, hpos, hneg, by omega, htgt, fun he hs => ?_, hretard, fun he => (hadvance he).2.2.1, fun he => ?_⟩
    · rw [hretard he, min_eq_left hs]
      exact htgt
    · rw [← hroom]
      exact (hadvance he).2.2.2
  · intro d p ref trip v ha hr hd hs hper hrun hhold hfree hjoined hcorr
    refine ⟨d.updatePoint n false, State.runLive_next ha rfl, ?_⟩
    intro q k goal whole hfail hlatch
    obtain ⟨hdl, hmask⟩ := (d.pwm[n]'n.2).sync_fails d.clk.now
    rw [hdl, hmask] at hfail
    have hcarrier : d.carrierRail n = some r := by
      unfold Dev.carrierRail
      rw [hr]
      rfl
    have hc := (Dev.updatePoint_calm hcarrier hd hfail (Or.inr hlatch)).carried
    obtain ⟨hhost, hrail⟩ := Dev.given_mapped hr
    have hmoved := (Pwm.updated_aligned (p := p) (g := d.given r n) (hhost.trans hs) hrail hper hrun hhold hfree hjoined hcorr).of_carried hc
    rw [← Pwm.eq_of_carried Pwm.duty hc] at hmoved
    exact hmoved

end

section
/-! SUPPORT. The loop engine's steps at an update point of a rail reference: what each leaves of references, outputs, keys and of the cycle's marks. -/

namespace Sys2Proof.Machine

open Sys2Proof

/-! ## What a step of the loop engine leaves -/

/-- The loop engine's record of a rail without RAIL_DIV's count. -/
def RailLoop.undivided (l : RailLoop) : RailLoop := { l with divLeft := none }

/-- References, delivered outputs and the rails' records stand, but for RAIL_DIV's count; so do the cycle's mask and event marks and the causes
    of the cards. -/
structure Dev.KeepsLoop (d e : Dev) : Prop where
  ref : ∀ c : CtxIx, (e.loop.ctx[c]'c.2).ref = (d.loop.ctx[c]'c.2).ref
  delivered : ∀ c : CtxIx, (e.loop.ctx[c]'c.2).delivered = (d.loop.ctx[c]'c.2).delivered
  rail : ∀ k : RailIx, (e.loop.rails[k]'k.2).undivided = (d.loop.rails[k]'k.2).undivided
  cycle : e.cyc.no = d.cyc.no ∧ e.cyc.masks = d.cyc.masks ∧ e.cyc.raised = d.cyc.raised
  card : ∀ s : CardIx, e.fault.src[srcCardFault s]'(srcCardFault s).2 = d.fault.src[srcCardFault s]'(srcCardFault s).2

/-- The same, and every context is as active as it was. -/
structure Dev.KeepsRun (d e : Dev) : Prop extends d.KeepsLoop e where
  active : ∀ c : CtxIx, (e.loop.ctx[c]'c.2).active = (d.loop.ctx[c]'c.2).active

theorem Dev.KeepsLoop.refl (d : Dev) : d.KeepsLoop d := ⟨fun _ => rfl, fun _ => rfl, fun _ => rfl, ⟨rfl, rfl, rfl⟩, fun _ => rfl⟩

theorem Dev.KeepsLoop.trans {a b c : Dev} (h : a.KeepsLoop b) (k : b.KeepsLoop c) : a.KeepsLoop c where
  ref x := (k.ref x).trans (h.ref x)
  delivered x := (k.delivered x).trans (h.delivered x)
  rail x := (k.rail x).trans (h.rail x)
  cycle := ⟨k.cycle.1.trans h.cycle.1, k.cycle.2.1.trans h.cycle.2.1, k.cycle.2.2.trans h.cycle.2.2⟩
  card x := (k.card x).trans (h.card x)

theorem Dev.KeepsRun.refl (d : Dev) : d.KeepsRun d := ⟨.refl d, fun _ => rfl⟩

theorem Dev.KeepsRun.trans {a b c : Dev} (h : a.KeepsRun b) (k : b.KeepsRun c) : a.KeepsRun c :=
  ⟨h.toKeepsLoop.trans k.toKeepsLoop, fun x => (k.active x).trans (h.active x)⟩

/-- A step that touches neither the loop engine nor the cycle's marks nor the causes. -/
theorem Dev.keepsRun_of_eq {d e : Dev} (hl : e.loop = d.loop) (hc : e.cyc = d.cyc) (hf : e.fault.src = d.fault.src) : d.KeepsRun e :=
  ⟨⟨fun _ => by rw [hl], fun _ => by rw [hl], fun _ => by rw [hl], by rw [hc]; exact ⟨rfl, rfl, rfl⟩, fun _ => by rw [hf]⟩, fun _ => by rw [hl]⟩

theorem Dev.keepsRun_ite {d a : Dev} {c : Prop} [Decidable c] (h : d.KeepsRun a) : d.KeepsRun (if c then a else d) := by
  split
  · exact h
  · exact .refl d

theorem Dev.keepsLoop_ite {d a : Dev} {c : Prop} [Decidable c] (h : d.KeepsLoop a) : d.KeepsLoop (if c then a else d) := by
  split
  · exact h
  · exact .refl d

theorem Dev.keepsRun_foldl {α : Type} (f : Dev → α → Dev) (h : ∀ (d : Dev) (x : α), d.KeepsRun (f d x)) : ∀ (xs : List α) (d : Dev), d.KeepsRun (xs.foldl f d) :=
  foldl_related (P := Dev.KeepsRun) .refl .trans h

theorem Dev.keepsLoop_foldl {α : Type} (f : Dev → α → Dev) (h : ∀ (d : Dev) (x : α), d.KeepsLoop (f d x)) : ∀ (xs : List α) (d : Dev), d.KeepsLoop (xs.foldl f d) :=
  foldl_related (P := Dev.KeepsLoop) .refl .trans h

theorem Dev.updCtx_get (d : Dev) (c : CtxIx) (f : Ctx → Ctx) : (d.updCtx c f).loop.ctx[c]'c.2 = f (d.loop.ctx[c]'c.2) := upd_get_same d.loop.ctx c f

theorem Dev.updCtx_get_ne (d : Dev) {c k : CtxIx} (f : Ctx → Ctx) (h : k ≠ c) : (d.updCtx c f).loop.ctx[k]'k.2 = d.loop.ctx[k]'k.2 := upd_get_ne d.loop.ctx c k f h

theorem Dev.updRailLoop_get (d : Dev) (r : RailIx) (f : RailLoop → RailLoop) : (d.updRailLoop r f).loop.rails[r]'r.2 = f (d.loop.rails[r]'r.2) := upd_get_same d.loop.rails r f

theorem Dev.updRailLoop_get_ne (d : Dev) {r k : RailIx} (f : RailLoop → RailLoop) (h : k ≠ r) : (d.updRailLoop r f).loop.rails[k]'k.2 = d.loop.rails[k]'k.2 :=
  upd_get_ne d.loop.rails r k f h

/-- A property of a component that a write keeps holds of every component after it. -/
theorem Dev.updCtx_keeps {α : Type} (d : Dev) (c : CtxIx) (f : Ctx → Ctx) (g : Ctx → α) (hf : g (f (d.loop.ctx[c]'c.2)) = g (d.loop.ctx[c]'c.2)) (k : CtxIx) :
    g ((d.updCtx c f).loop.ctx[k]'k.2) = g (d.loop.ctx[k]'k.2) := by
  rcases eq_or_ne k c with rfl | hk
  · rw [Dev.updCtx_get]
    exact hf
  · rw [Dev.updCtx_get_ne _ _ hk]

theorem Dev.updCtx_keepsLoop (d : Dev) (c : CtxIx) (f : Ctx → Ctx) (hr : (f (d.loop.ctx[c]'c.2)).ref = (d.loop.ctx[c]'c.2).ref := by rfl)
    (hd : (f (d.loop.ctx[c]'c.2)).delivered = (d.loop.ctx[c]'c.2).delivered := by rfl) : d.KeepsLoop (d.updCtx c f) :=
  ⟨d.updCtx_keeps c f Ctx.ref hr, d.updCtx_keeps c f Ctx.delivered hd, fun _ => rfl, ⟨rfl, rfl, rfl⟩, fun _ => rfl⟩

theorem Dev.updCtx_keepsRun (d : Dev) (c : CtxIx) (f : Ctx → Ctx) (hr : (f (d.loop.ctx[c]'c.2)).ref = (d.loop.ctx[c]'c.2).ref := by rfl)
    (hd : (f (d.loop.ctx[c]'c.2)).delivered = (d.loop.ctx[c]'c.2).delivered := by rfl) (ha : (f (d.loop.ctx[c]'c.2)).active = (d.loop.ctx[c]'c.2).active := by rfl) :
    d.KeepsRun (d.updCtx c f) := ⟨d.updCtx_keepsLoop c f hr hd, d.updCtx_keeps c f Ctx.active ha⟩

theorem Dev.event_keepsRun (d : Dev) (code : Nat) : d.KeepsRun (d.event code) := Dev.keepsRun_of_eq rfl rfl rfl

theorem Dev.setCause_keepsRun (d : Dev) (k : SrcIx) (i : PhaseIx) (b : Bool) (l : List Byte) (hk : ∀ s : CardIx, srcCardFault s ≠ k) : d.KeepsRun (d.setCause k i b l) :=
  ⟨⟨fun _ => rfl, fun _ => rfl, fun _ => rfl, ⟨rfl, rfl, rfl⟩, fun s => by
    rw [Fin.getElem_fin, Fin.getElem_fin, Dev.setCause_src, if_neg (hk s)]⟩, fun _ => rfl⟩

/-! ## Preloads, Sectors and activity (R291, R307 to R314) -/

theorem Ctx.applyPreload_keeps (x : Ctx) (s : SectorEnt) (compat : Bool) (steps : Nat) (p : Int) (slew : Bool) : let y := x.applyPreload s compat steps p slew
    y.ref = x.ref ∧ y.delivered = x.delivered ∧ y.active = x.active := by
  unfold Ctx.applyPreload
  dsimp only
  split_ifs <;> exact ⟨rfl, rfl, rfl⟩

theorem Dev.preload_keepsRun (d : Dev) (c : CtxIx) (k : Nat) (p : Option Int) (slew : Bool) : d.KeepsRun (d.preload c k p slew) := by
  unfold Dev.preload
  split
  · exact .refl d
  · extract_lets p' cyc handed
    have hhanded : d.KeepsRun handed := ⟨⟨fun _ => rfl, fun _ => rfl, fun _ => rfl, ⟨rfl, rfl, rfl⟩, fun _ => rfl⟩, fun _ => rfl⟩
    refine hhanded.trans ?_
    split
    · exact handed.updCtx_keepsRun c _
    · obtain ⟨hr, hd, ha⟩ := (handed.loop.ctx[c]'c.2).applyPreload_keeps (handed.sectorEnt c) (handed.topo c).compat (handed.hoSteps c) (p'.getD (handed.loop.ctx[c]'c.2).delivered.toInt) slew
      exact handed.updCtx_keepsRun c _ hr hd ha

theorem Dev.takeSector_keepsRun (d : Dev) (c : CtxIx) (w : Fin 8) : d.KeepsRun (d.takeSector c w) :=
  ((d.updCtx_keepsRun c _).trans (Dev.event_keepsRun _ _)).trans (Dev.preload_keepsRun _ _ _ _ _)

theorem Dev.evalNow_keepsRun (d : Dev) (c : CtxIx) : d.KeepsRun (d.evalNow c) := by
  unfold Dev.evalNow
  extract_lets w waited
  have hwaited : d.KeepsRun waited := d.updCtx_keepsRun c _
  clear_value waited w
  refine hwaited.trans ?_
  split
  · split
    · exact .refl waited
    · exact waited.takeSector_keepsRun c _
  · exact Dev.keepsRun_ite (waited.takeSector_keepsRun c 0)

theorem Dev.evalMark_keepsRun (d : Dev) (r : RailIx) (c : CtxIx) : d.KeepsRun (d.evalMark r c) := by
  unfold Dev.evalMark
  extract_lets x
  split
  · split
    · exact d.evalNow_keepsRun c
    · exact d.updCtx_keepsRun c _
  · split
    · exact d.updCtx_keepsRun c _
    · extract_lets k
      split
      · exact (d.updCtx_keepsRun c _).trans (Dev.takeSector_keepsRun _ c _)
      · exact d.updCtx_keepsRun c _

theorem Dev.wakeCtx_keepsLoop (d : Dev) (c : CtxIx) : d.KeepsLoop (d.wakeCtx c) := (d.updCtx_keepsLoop c _).trans (Dev.evalNow_keepsRun _ c).toKeepsLoop

theorem Dev.idleCtx_keepsLoop (d : Dev) (c : CtxIx) : d.KeepsLoop (d.idleCtx c) :=
  (d.updCtx_keepsLoop c _).trans ⟨fun _ => rfl, fun _ => rfl, fun _ => rfl, ⟨rfl, rfl, rfl⟩, fun _ => rfl⟩

theorem Dev.syncCtx_keepsLoop (d : Dev) (r : RailIx) : d.KeepsLoop (d.syncCtx r) := by
  refine Dev.keepsLoop_foldl _ (fun e c => ?_) _ d
  dsimp only
  split
  · exact e.wakeCtx_keepsLoop c
  · exact Dev.keepsLoop_ite (e.idleCtx_keepsLoop c)

theorem Dev.evalRail_keepsRun (d : Dev) (r : RailIx) : d.KeepsRun (d.evalRail r) := Dev.keepsRun_foldl _ (fun e c => Dev.keepsRun_ite (e.evalNow_keepsRun c)) _ d

/-! ## RAIL_DIV, thresholds and mode changes (R304, R310, R343) -/

theorem Dev.updRailLoop_div_keepsRun (d : Dev) (r : RailIx) (k : Option Nat) : d.KeepsRun (d.updRailLoop r fun l => { l with divLeft := k }) := by
  refine ⟨⟨fun _ => rfl, fun _ => rfl, fun x => ?_, ⟨rfl, rfl, rfl⟩, fun _ => rfl⟩, fun _ => rfl⟩
  rcases eq_or_ne x r with rfl | hx
  · rw [Dev.updRailLoop_get]
    rfl
  · rw [Dev.updRailLoop_get_ne _ _ hx]

theorem Dev.railDiv_keepsRun (d : Dev) (r : RailIx) : d.KeepsRun (d.railDiv r) := by
  unfold Dev.railDiv
  extract_lets div
  split
  · exact .refl d
  · split
    · exact (d.event_keepsRun _).trans (Dev.updRailLoop_div_keepsRun _ r _)
    · exact d.updRailLoop_div_keepsRun r _

theorem Dev.startDiv_keepsRun (d : Dev) (r : RailIx) : d.KeepsRun (d.startDiv r) := by
  unfold Dev.startDiv
  extract_lets freed
  exact (d.updRailLoop_div_keepsRun r none).trans (Dev.keepsRun_ite (freed.railDiv_keepsRun r))

theorem Dev.updRail_keepsRun (d : Dev) (r : RailIx) (f : Rail → Rail) : d.KeepsRun (d.updRail r f) := Dev.keepsRun_of_eq rfl rfl rfl

theorem Dev.updWin_keepsRun (d : Dev) (r : RailIx) (f : Win → Win) : d.KeepsRun (d.updWin r f) := Dev.keepsRun_of_eq rfl rfl rfl

theorem Dev.updPwm_keepsRun (d : Dev) (n : PhaseIx) (f : Pwm → Pwm) : d.KeepsRun (d.updPwm n f) := Dev.keepsRun_of_eq rfl rfl rfl

theorem Dev.updSp_keepsRun (d : Dev) (r : RailIx) (f : Sp → Sp) : d.KeepsRun (d.updSp r f) := Dev.keepsRun_of_eq rfl rfl rfl

theorem Dev.updWin_uv (d : Dev) (r : RailIx) (f : Win → Win) (hf : (f (d.prot.wins[r]'r.2)).uv = (d.prot.wins[r]'r.2).uv) (k : RailIx) :
    ((d.updWin r f).prot.wins[k]'k.2).uv = (d.prot.wins[k]'k.2).uv := by
  have hget : (d.updWin r f).prot.wins[k]'k.2 = if k = r then f (d.prot.wins[r]'r.2) else d.prot.wins[k]'k.2 := by
    rcases eq_or_ne k r with rfl | hk
    · rw [if_pos rfl]
      exact upd_get_same d.prot.wins k f
    · rw [if_neg hk]
      exact upd_get_ne d.prot.wins r k f hk
  rw [hget]
  split
  · next h => rw [hf, h]
  · rfl

/-- What a mode change between RAMP, REGULATE and EMBER leaves: the phases, the requests, the trip records and the undershoot comparators. -/
structure Dev.ModeChanged (d e : Dev) : Prop where
  keeps : d.KeepsLoop e
  frame : d.onlyIn e [.rails, .loop, .prot, .fault]
  trips : e.prot.trips = d.prot.trips
  uv : ∀ k : RailIx, (e.prot.wins[k]'k.2).uv = (d.prot.wins[k]'k.2).uv

theorem Dev.changeMode_on {d : Dev} {r : RailIx} {m : RailMode} (h : (d.rails[r]'r.2).mode ≠ .off) (hs : (d.rails[r]'r.2).mode ≠ .support) (hm : m ≠ .support) :
    d.ModeChanged (d.changeMode r m) := by
  have hoff : ¬d.mode r = .off := h
  have hunshed : ¬(d.mode r == .off && m != .off) = true := by simp [hoff]
  have htrip : ¬((d.mode r == .support) != (m == .support)) = true := by
    have hfrom : (d.mode r == .support) = false := beq_eq_false_iff_ne.2 hs
    have hto : (m == .support) = false := beq_eq_false_iff_ne.2 hm
    rw [hfrom, hto]
    decide
  unfold Dev.changeMode
  extract_lets old unshed keeps stays put trips div ovr
  have hsame : unshed = d := if_neg hunshed
  have htrips : trips = put := if_neg htrip
  have hovr : ovr = div := if_neg hoff
  have hkput : unshed.KeepsRun put := unshed.updRail_keepsRun r _
  have hfput : unshed.onlyIn put [.rails] := unshed.updRail_onlyIn r _
  rw [hsame] at hkput hfput
  have hkdiv : put.KeepsRun div := by
    rw [← htrips]
    exact Dev.keepsRun_ite (trips.startDiv_keepsRun r)
  have hfdiv : put.onlyIn div [.loop, .fault] := by
    rw [← htrips]
    exact Dev.onlyIn_ite (trips.startDiv_onlyIn r)
  have hkctx : div.KeepsLoop ((div.syncCtx r).evalRail r) := (div.syncCtx_keepsLoop r).trans (Dev.evalRail_keepsRun _ r).toKeepsLoop
  have hfctx : div.onlyIn ((div.syncCtx r).evalRail r) [.loop, .fault] := (div.syncCtx_onlyIn r).into.thenIn (Dev.evalRail_onlyIn _ r)
  have hprot : ((div.syncCtx r).evalRail r).prot = d.prot := (hfput.into.thenIn hfdiv |>.thenIn hfctx : d.onlyIn _ [.rails, .loop, .fault]) .prot (by decide)
  have hrt : ∀ e : Dev, e.KeepsRun (e.setRt r) ∧ (e.setRt r).prot.trips = e.prot.trips ∧ ∀ k : RailIx, ((e.setRt r).prot.wins[k]'k.2).uv = (e.prot.wins[k]'k.2).uv :=
    fun e => ⟨e.updWin_keepsRun r _, rfl, e.updWin_uv r _ rfl⟩
  obtain ⟨hkrt, htrt, huv⟩ := hrt ((div.syncCtx r).evalRail r)
  rw [hovr]
  rw [hprot] at htrt huv
  exact ⟨((hkput.trans hkdiv).toKeepsLoop.trans hkctx).trans hkrt.toKeepsLoop,
    hfput.into.thenIn hfdiv |>.thenIn hfctx |>.thenIn (Dev.setRt_onlyIn _ r), htrt, huv⟩

/-! ## The record of one rail -/

/-- The record of rail `r` has become `y`, and the other rails stand. -/
def Dev.RailIs (d e : Dev) (r : RailIx) (y : Rail) : Prop := e.rails = d.rails.set r y

theorem Dev.railIs_refl (d : Dev) (r : RailIx) : d.RailIs d r (d.rails[r]'r.2) := by simp [Dev.RailIs]

theorem Dev.RailIs.get {d e : Dev} {r : RailIx} {y : Rail} (h : d.RailIs e r y) : e.rails[r]'r.2 = y := by
  rw [h]
  simp

theorem Dev.RailIs.get_ne {d e : Dev} {r k : RailIx} {y : Rail} (h : d.RailIs e r y) (hk : k ≠ r) : e.rails[k]'k.2 = d.rails[k]'k.2 := by
  rw [h]
  simp [Fin.val_inj, hk.symm]

theorem Dev.RailIs.trans {a b c : Dev} {r : RailIx} {y z : Rail} (h : a.RailIs b r y) (k : b.RailIs c r z) : a.RailIs c r z := by
  unfold Dev.RailIs at *
  rw [k, h, Vector.set_set]

theorem Dev.railIs_of_onlyIn {d e : Dev} {bs : List Block} (r : RailIx) (h : d.onlyIn e bs) (hb : Block.rails ∉ bs := by decide) : d.RailIs e r (d.rails[r]'r.2) := by
  rw [Dev.RailIs, h .rails hb]
  exact d.railIs_refl r

theorem Dev.RailIs.thenKeeps {d e f : Dev} {r : RailIx} {y : Rail} {bs : List Block} (h : d.RailIs e r y) (k : e.onlyIn f bs)
    (hb : Block.rails ∉ bs := by decide) : d.RailIs f r y := (show f.rails = e.rails from k .rails hb).trans h

theorem Dev.updRail_railIs (d : Dev) (r : RailIx) (f : Rail → Rail) : d.RailIs (d.updRail r f) r (f (d.rails[r]'r.2)) := rfl

theorem Dev.RailIs.thenUpd {d e : Dev} {r : RailIx} {y : Rail} (h : d.RailIs e r y) (f : Rail → Rail) : d.RailIs (e.updRail r f) r (f y) := by
  have hupd := h.trans (e.updRail_railIs r f)
  rwa [h.get] at hupd

theorem Dev.changeMode_railIs (d : Dev) (r : RailIx) (m : RailMode) :
    ∃ since olt, d.RailIs (d.changeMode r m) r { d.rails[r]'r.2 with mode := m, regSince := since, oltEn := olt } := d.changeMode_rails r m

theorem Dev.RailIs.thenMode {d e : Dev} {r : RailIx} {y : Rail} (h : d.RailIs e r y) (m : RailMode) :
    ∃ since olt, d.RailIs (e.changeMode r m) r { y with mode := m, regSince := since, oltEn := olt } := by
  obtain ⟨since, olt, hm⟩ := e.changeMode_railIs r m
  rw [h.get] at hm
  exact ⟨since, olt, h.trans hm⟩

theorem Dev.foldl_rails {α : Type} (step : Dev → α → Dev) (h : ∀ (e : Dev) (x : α), (step e x).rails = e.rails) (xs : List α) (d : Dev) :
    (xs.foldl step d).rails = d.rails :=
  foldl_related (P := fun a b : Dev => b.rails = a.rails) (fun _ => rfl) (fun h k => k.trans h) h xs d

theorem Dev.respread_railIs (d : Dev) (r : RailIx) : ∃ w, d.RailIs (d.respread r) r { d.rails[r]'r.2 with spread := w } := by
  refine ⟨maskOf 64 fun n : PhaseIx => (d.active r).contains n, ?_⟩
  unfold Dev.respread
  extract_lets ms act spread home
  have hhome : home.rails = spread.rails := by
    refine Dev.foldl_rails _ (fun _ _ => ?_) ms spread
    rfl
  split
  · exact hhome
  · split
    · exact hhome
    · refine (Dev.foldl_rails _ (fun _ _ => ?_) _ home).trans hhome
      rfl

theorem Dev.RailIs.thenRespread {d e : Dev} {r : RailIx} {y : Rail} (h : d.RailIs e r y) : ∃ w, d.RailIs (e.respread r) r { y with spread := w } := by
  obtain ⟨w, hw⟩ := e.respread_railIs r
  rw [h.get] at hw
  exact ⟨w, h.trans hw⟩

end Sys2Proof.Machine
end

section
/-! SUPPORT. The members of a rail as its decisions see them, and what leaves them so. -/

namespace Sys2Proof.Machine

open Sys2Proof

/-! ## The members as the decisions see them (R324 to R327) -/

/-- What the decisions of a rail read of a phase: mask bits, Flare command and lift, a failed line, HOST_OVR, and the code that waits. -/
def Pwm.member (p : Pwm) : MaskBits × Bool × Bool × Bool × Bool × Option LoopShadow := (p.mask, p.flareOn, p.flareLift, p.dlFail, p.hostOvr, p.loopShadow)

/-- What decides which members are active, and which may be, stands. -/
structure Dev.SameMembers (d e : Dev) : Prop where
  tile : e.tile = d.tile
  clk : e.clk = d.clk
  cards : e.cards = d.cards
  member : ∀ n : PhaseIx, (e.pwm[n]'n.2).member = (d.pwm[n]'n.2).member
  trips : e.prot.trips = d.prot.trips
  cycle : e.cyc.no = d.cyc.no ∧ e.cyc.masks = d.cyc.masks ∧ e.cyc.raised = d.cyc.raised
  card : ∀ s : CardIx, e.fault.src[srcCardFault s]'(srcCardFault s).2 = d.fault.src[srcCardFault s]'(srcCardFault s).2
  flare : ∀ k : RailIx, (e.rails[k]'k.2).flare = (d.rails[k]'k.2).flare
  drained : ∀ k : RailIx, (e.rails[k]'k.2).drained = (d.rails[k]'k.2).drained

theorem Dev.SameMembers.refl (d : Dev) : d.SameMembers d := ⟨rfl, rfl, rfl, fun _ => rfl, rfl, ⟨rfl, rfl, rfl⟩, fun _ => rfl, fun _ => rfl, fun _ => rfl⟩

theorem Dev.SameMembers.trans {a b c : Dev} (h : a.SameMembers b) (k : b.SameMembers c) : a.SameMembers c where
  tile := k.tile.trans h.tile
  clk := k.clk.trans h.clk
  cards := k.cards.trans h.cards
  member n := (k.member n).trans (h.member n)
  trips := k.trips.trans h.trips
  cycle := ⟨k.cycle.1.trans h.cycle.1, k.cycle.2.1.trans h.cycle.2.1, k.cycle.2.2.trans h.cycle.2.2⟩
  card s := (k.card s).trans (h.card s)
  flare r := (k.flare r).trans (h.flare r)
  drained r := (k.drained r).trans (h.drained r)

/-- A step that touches no phase, no rail and no trip record, and keeps the cycle's marks and the causes of the cards. -/
theorem Dev.sameMembers_of_frame {d e : Dev} {bs : List Block} (h : d.onlyIn e bs) (ht : e.prot.trips = d.prot.trips)
    (hc : e.cyc.no = d.cyc.no ∧ e.cyc.masks = d.cyc.masks ∧ e.cyc.raised = d.cyc.raised) (hf : ∀ s : CardIx, e.fault.src[srcCardFault s]'(srcCardFault s).2 = d.fault.src[srcCardFault s]'(srcCardFault s).2)
    (hb : Block.tile ∉ bs ∧ Block.clk ∉ bs ∧ Block.cards ∉ bs ∧ Block.pwm ∉ bs ∧ Block.rails ∉ bs := by decide) : d.SameMembers e := by
  obtain ⟨htile, hclk, hcards, hpwm, hrails⟩ := hb
  have hp : e.pwm = d.pwm := h .pwm hpwm
  have hr : e.rails = d.rails := h .rails hrails
  exact ⟨h .tile htile, h .clk hclk, h .cards hcards, fun _ => by rw [hp], ht, hc, hf, fun _ => by rw [hr], fun _ => by rw [hr]⟩

theorem Dev.KeepsLoop.sameMembers {d e : Dev} {bs : List Block} (k : d.KeepsLoop e) (h : d.onlyIn e bs) (ht : e.prot.trips = d.prot.trips := by rfl)
    (hb : Block.tile ∉ bs ∧ Block.clk ∉ bs ∧ Block.cards ∉ bs ∧ Block.pwm ∉ bs ∧ Block.rails ∉ bs := by decide) : d.SameMembers e :=
  Dev.sameMembers_of_frame h ht k.cycle k.card hb

theorem Dev.updRail_sameMembers (d : Dev) (r : RailIx) (f : Rail → Rail) (hf : (f (d.rails[r]'r.2)).flare = (d.rails[r]'r.2).flare := by rfl)
    (hd : (f (d.rails[r]'r.2)).drained = (d.rails[r]'r.2).drained := by rfl) : d.SameMembers (d.updRail r f) := by
  have hget : ∀ k : RailIx, (d.updRail r f).rails[k]'k.2 = if k = r then f (d.rails[r]'r.2) else d.rails[k]'k.2 := fun k => by
    rcases eq_or_ne k r with rfl | hk
    · rw [if_pos rfl]
      exact upd_get_same d.rails k f
    · rw [if_neg hk]
      exact upd_get_ne d.rails r k f hk
  refine ⟨rfl, rfl, rfl, fun _ => rfl, rfl, ⟨rfl, rfl, rfl⟩, fun _ => rfl, fun k => ?_, fun k => ?_⟩
  all_goals
    rw [hget]
    split
    · next h =>
      rw [h]
      assumption
    · rfl

theorem Dev.updPwm_sameMembers (d : Dev) (n : PhaseIx) (f : Pwm → Pwm) (hf : (f (d.pwm[n]'n.2)).member = (d.pwm[n]'n.2).member) : d.SameMembers (d.updPwm n f) := by
  refine ⟨rfl, rfl, rfl, fun m => ?_, rfl, ⟨rfl, rfl, rfl⟩, fun _ => rfl, fun _ => rfl, fun _ => rfl⟩
  rcases eq_or_ne m n with rfl | hm
  · rw [Dev.updPwm_get]
    exact hf
  · rw [Dev.updPwm_get_ne _ _ hm]

theorem Dev.sameMembers_ite {d a : Dev} {c : Prop} [Decidable c] (h : d.SameMembers a) : d.SameMembers (if c then a else d) := by
  split
  · exact h
  · exact .refl d

theorem Dev.sameMembers_foldl {α : Type} (f : Dev → α → Dev) (h : ∀ (d : Dev) (x : α), d.SameMembers (f d x)) :
    ∀ (xs : List α) (d : Dev), d.SameMembers (xs.foldl f d) := foldl_related (P := Dev.SameMembers) .refl .trans h

/-! ### What follows from it -/

section
variable {d e : Dev} (h : d.SameMembers e)
include h

theorem Dev.SameMembers.railOf (n : PhaseIx) : e.railOf n = d.railOf n := by rw [Dev.railOf, h.tile, Dev.railOf]

theorem Dev.SameMembers.members (r : RailIx) : e.members r = d.members r := by
  unfold Dev.members
  exact List.filter_congr fun n _ => by rw [h.railOf n]

theorem Dev.SameMembers.isLoop (n : PhaseIx) : e.isLoop n = d.isLoop n := Dev.isLoop_of_tile h.tile n

theorem Dev.SameMembers.mask (n : PhaseIx) : (e.pwm[n]'n.2).mask = (d.pwm[n]'n.2).mask := by
  have hm := congrArg Prod.fst (h.member n)
  exact hm

theorem Dev.SameMembers.flareOn (n : PhaseIx) : (e.pwm[n]'n.2).flareOn = (d.pwm[n]'n.2).flareOn := by
  have hm := congrArg (fun x => x.2.1) (h.member n)
  exact hm

theorem Dev.SameMembers.flareLift (n : PhaseIx) : (e.pwm[n]'n.2).flareLift = (d.pwm[n]'n.2).flareLift := by
  have hm := congrArg (fun x => x.2.2.1) (h.member n)
  exact hm

theorem Dev.SameMembers.dlFail (n : PhaseIx) : (e.pwm[n]'n.2).dlFail = (d.pwm[n]'n.2).dlFail := by
  have hm := congrArg (fun x => x.2.2.2.1) (h.member n)
  exact hm

theorem Dev.SameMembers.hostOvr (n : PhaseIx) : (e.pwm[n]'n.2).hostOvr = (d.pwm[n]'n.2).hostOvr := by
  have hm := congrArg (fun x => x.2.2.2.2.1) (h.member n)
  exact hm

theorem Dev.SameMembers.loopShadow (n : PhaseIx) : (e.pwm[n]'n.2).loopShadow = (d.pwm[n]'n.2).loopShadow := by
  have hm := congrArg (fun x => x.2.2.2.2.2) (h.member n)
  exact hm

theorem Dev.SameMembers.cycleNo : e.cycle = d.cycle := by rw [Dev.cycle, h.clk, Dev.cycle]

theorem Dev.SameMembers.cardCause (s : CardIx) : e.causeOf (srcCardFault s) 0 = d.causeOf (srcCardFault s) 0 := by
  obtain ⟨hno, -, hraised⟩ := h.cycle
  rw [Dev.causeOf, Dev.causeOf, Dev.eventNow, Dev.eventNow, h.card, hno, hraised, h.cycleNo]

theorem Dev.SameMembers.canBeActive (n : PhaseIx) : e.canBeActive n = d.canBeActive n := by
  unfold Dev.canBeActive
  dsimp only
  rw [h.railOf, h.mask, h.trips, h.dlFail, h.cards, h.cardCause]

theorem Dev.SameMembers.isActive (n : PhaseIx) : e.isActive n = d.isActive n := by
  have hlift : e.lifted n = d.lifted n := by
    unfold Dev.lifted
    rw [h.flareLift, h.railOf]
    cases d.railOf n with
    | none => rfl
    | some r => simp only [h.flare]
  unfold Dev.isActive
  dsimp only
  rw [h.canBeActive, h.isLoop, hlift, h.mask]

theorem Dev.SameMembers.active (r : RailIx) : e.active r = d.active r := by
  unfold Dev.active
  rw [h.members]
  exact List.filter_congr fun n _ => h.isActive n

theorem Dev.SameMembers.activeCount (r : RailIx) : e.activeCount r = d.activeCount r := by rw [Dev.activeCount, h.active, Dev.activeCount]

theorem Dev.SameMembers.minPhases (r : RailIx) : e.minPhases r = d.minPhases r := by rw [Dev.minPhases, Dev.railEnt, h.tile, Dev.minPhases, Dev.railEnt]

theorem Dev.SameMembers.rank (n : PhaseIx) : e.rank n = d.rank n := by rw [Dev.rank, h.tile, Dev.rank]

theorem Dev.SameMembers.loops (r : RailIx) : (e.active r).filter e.isLoop = (d.active r).filter d.isLoop := by
  rw [h.active]
  exact List.filter_congr fun n _ => h.isLoop n

theorem Dev.SameMembers.topMember (r : RailIx) : e.topMember r = d.topMember r := by
  have hkey : (fun n => 255 - e.rank n) = fun n => 255 - d.rank n := funext fun n => by rw [h.rank]
  rw [Dev.topMember, h.loops, hkey, Dev.topMember]

theorem Dev.SameMembers.addCandidate (r : RailIx) : e.addCandidate r = d.addCandidate r := by
  have hkey : e.rank = d.rank := funext h.rank
  unfold Dev.addCandidate
  rw [hkey, h.members]
  refine congrArg (leastBy d.rank) (List.filter_congr fun n _ => ?_)
  rw [h.isLoop, h.canBeActive, h.mask, h.drained]

theorem Dev.SameMembers.setNow (n : PhaseIx) : e.setNow n = d.setNow n := by
  obtain ⟨hno, hmasks, -⟩ := h.cycle
  rw [Dev.setNow, Dev.setNow, hno, hmasks, h.cycleNo]

theorem Dev.SameMembers.srcHost (n : PhaseIx) : e.srcHost n = d.srcHost n := by
  unfold Dev.srcHost
  rw [h.tile, h.hostOvr]

theorem Dev.SameMembers.cycleTick : e.cycleTick = d.cycleTick := Dev.cycleTick_of_clk h.clk

theorem Dev.SameMembers.auxOf (r : RailIx) : e.auxOf r = d.auxOf r := by
  unfold Dev.auxOf Dev.topo
  rw [h.tile]

theorem Dev.SameMembers.ctxsOf (r : RailIx) : e.ctxsOf r = d.ctxsOf r := by
  unfold Dev.ctxsOf
  rw [h.members, h.auxOf]
  unfold Dev.topo
  rw [h.tile]

end

end Sys2Proof.Machine
end

section
/-! SUPPORT. The work of an update point of a rail reference before its decisions: the reference, VOUT, the keys. -/

namespace Sys2Proof.Machine

open Sys2Proof

/-! ## The reference (R201, R203, R204) -/

theorem RefCarrier.sync_keeps (c : RefCarrier) (now : Tick) : let x := c.sync now
    x.per = c.per ∧ x.pend = c.pend ∧ x.alignDue = c.alignDue ∧ x.running = c.running := by
  unfold RefCarrier.sync
  dsimp only
  split <;> exact ⟨rfl, rfl, rfl, rfl⟩

theorem Dev.placeMembers_keeps (d : Dev) (r : RailIx) (old : RefCarrier) : d.SameMembers (d.placeMembers r old) ∧ d.KeepsRun (d.placeMembers r old) := by
  unfold Dev.placeMembers
  extract_lets ref
  constructor
  · refine Dev.sameMembers_foldl _ (fun e n => ?_) _ d
    dsimp only
    split
    · exact e.updPwm_sameMembers n _ rfl
    · exact e.updPwm_sameMembers n _ rfl
  · refine Dev.keepsRun_foldl _ (fun e n => ?_) _ d
    dsimp only
    split
    · exact e.updPwm_keepsRun n _
    · exact e.updPwm_keepsRun n _

/-- The reference's record after its valley, as the statement says it. -/
structure RefCarrier.Began (ref y : RefCarrier) (now : Tick) : Prop where
  valley : y.valley = if (ref.sync now).first then (ref.sync now).valley else now
  per : y.per = ref.pend.getD ref.per
  wasPer : y.wasPer = ref.per
  pend : y.pend = none
  down : y.down = false
  running : y.running = ref.running

/-- A valley begins the reference's period; the members are re-placed only where a written period or an alignment calls for it. -/
structure Dev.ValleyBegun (d e : Dev) (r : RailIx) : Prop where
  same : d.SameMembers e
  run : d.KeepsRun e
  frame : d.onlyIn e [.pwmg, .pwm]
  refs : ∃ y : RefCarrier, e.pwmg = { d.pwmg with refs := d.pwmg.refs.set r y } ∧ (d.pwmg.refs[r]'r.2).Began y d.clk.now
  calm : (d.pwmg.refs[r]'r.2).pend = none → (d.pwmg.refs[r]'r.2).alignDue = false → e.pwm = d.pwm

theorem Dev.refValley_begun (d : Dev) (r : RailIx) : d.ValleyBegun (d.refValley r) r := by
  obtain ⟨hper, hpend, halign, hrun⟩ := (d.pwmg.refs[r]'r.2).sync_keeps d.clk.now
  unfold Dev.refValley
  extract_lets ref dev per at_ due aligns hold pwmg began
  have hbegan : (d.pwmg.refs[r]'r.2).Began { ref with valley := at_, first := false, down := false, per := per, wasPer := ref.per, pend := none, alignDue := due && !aligns, holding := hold } d.clk.now :=
    ⟨rfl, by show ref.pend.getD ref.per = _; rw [hpend, hper], hper, rfl, rfl, hrun⟩
  have hsame : d.SameMembers began := ⟨rfl, rfl, rfl, fun _ => rfl, rfl, ⟨rfl, rfl, rfl⟩, fun _ => rfl, fun _ => rfl, fun _ => rfl⟩
  have hkeep : d.KeepsRun began := Dev.keepsRun_of_eq rfl rfl rfl
  have hframe : d.onlyIn began [.pwmg] := d.onlyIn_pwmg _
  have hplace := began.placeMembers_keeps r { ref with wasPer := ref.per }
  have hplaceF := began.placeMembers_onlyIn r { ref with wasPer := ref.per }
  refine ⟨hsame.trans (Dev.sameMembers_ite hplace.1), hkeep.trans (Dev.keepsRun_ite hplace.2), hframe.into.thenIn (Dev.onlyIn_ite hplaceF), ⟨_, ?_, hbegan⟩, fun h1 h2 => ?_⟩
  · exact (Dev.onlyIn_ite hplaceF : began.onlyIn _ [.pwm]) .pwmg (by decide)
  · have hdue : due = false := by
      show (per == dev.per && (ref.alignDue || (ref.pend.isSome && ref.per != dev.per))) = false
      rw [hpend, halign, h1, h2]
      exact Bool.and_false _
    have hnone : ¬(!hold && (ref.pend.isSome || aligns)) = true := by
      show ¬(!(due && d.mode r == .off && dev.valley != at_) && (ref.pend.isSome || (due && d.mode r == .off))) = true
      rw [hdue, hpend, h1]
      simp
    rw [if_neg hnone]

/-! ## Values that do not fit (assumption 4) -/

theorem Dev.fit_keeps (d : Dev) (x : Int) : d.SameMembers (d.fit x).2 ∧ d.KeepsRun (d.fit x).2 ∧ (d.fit x).2.rails = d.rails ∧ (d.fit x).2.loop = d.loop := by
  unfold Dev.fit
  split
  · exact ⟨.refl d, .refl d, rfl, rfl⟩
  · exact ⟨⟨rfl, rfl, rfl, fun _ => rfl, rfl, ⟨rfl, rfl, rfl⟩, fun _ => rfl, fun _ => rfl, fun _ => rfl⟩, Dev.keepsRun_of_eq rfl rfl rfl, rfl, rfl⟩

theorem Dev.fit_fits {d : Dev} {x : Int} (h : Fits x) : d.fit x = (BitVec.ofInt 32 x, d) := if_pos h

/-! ## VOUT (R323) -/

/-- The rail's voltage is formed, as the statement says it. -/
structure Dev.VoutFormed (d e : Dev) (r : RailIx) (vout : Word) (vstale : Bool) : Prop where
  same : d.SameMembers e
  run : d.KeepsRun e
  loop : e.loop = d.loop
  frame : d.onlyIn e [.free, .rails]
  rail : d.RailIs e r { d.rails[r]'r.2 with vout := vout, vstale := vstale }
  formed : ∀ l : AccResult, (d.accOf (outerIx r)).latest = some l → Fits (rhe (16 * l.sum.toInt * (d.rails[r]'r.2).vscale.toNat) (l.valid.toNat * 1000)) →
    vout = BitVec.ofInt 32 (rhe (16 * l.sum.toInt * (d.rails[r]'r.2).vscale.toNat) (l.valid.toNat * 1000)) ∧ vstale = ((d.accOf (outerIx r)).valid == 0)
  kept : (d.accOf (outerIx r)).latest = none → vout = (d.rails[r]'r.2).vout ∧ vstale = true

theorem Dev.formVout_formed (d : Dev) (r : RailIx) : ∃ vout vstale, d.VoutFormed (d.formVout r) r vout vstale := by
  unfold Dev.formVout
  extract_lets a
  split
  · next hnone =>
    refine ⟨(d.rails[r]'r.2).vout, true, d.updRail_sameMembers r _, d.updRail_keepsRun r _, rfl, (d.updRail_onlyIn r _).into, d.updRail_railIs r _, fun l hl => ?_, fun _ => ⟨rfl, rfl⟩⟩
    exact absurd (hnone.symm.trans hl) (by simp)
  · next l hl =>
    obtain ⟨hsame, hrun, hrails, hloop⟩ := d.fit_keeps (rhe (16 * l.sum.toInt * (d.rails[r]'r.2).vscale.toNat) (l.valid.toNat * 1000))
    refine ⟨(d.fit (rhe (16 * l.sum.toInt * (d.rails[r]'r.2).vscale.toNat) (l.valid.toNat * 1000))).1, a.valid == 0, hsame.trans (Dev.updRail_sameMembers _ r _), hrun.trans (Dev.updRail_keepsRun _ r _),
      hloop, (d.fit_onlyIn _).into.thenIn (Dev.updRail_onlyIn _ r _), ?_, fun l' hl' hfits => ?_, fun hnone => ?_⟩
    · have hfit : d.RailIs (d.fit (rhe (16 * l.sum.toInt * (d.rails[r]'r.2).vscale.toNat) (l.valid.toNat * 1000))).2 r (d.rails[r]'r.2) := Dev.railIs_of_onlyIn r (d.fit_onlyIn _)
      exact hfit.thenUpd _
    · obtain rfl : l = l' := Option.some_inj.1 (hl.symm.trans hl')
      rw [Dev.fit_fits hfits]
      exact ⟨rfl, rfl⟩
    · exact absurd (hnone.symm.trans hl) (by simp)

/-! ## The keys (R307, R323) -/

/-- The loop engine's record of rail `r` has become `l`; the contexts and the other rails' records stand. -/
def Dev.LoopIs (d e : Dev) (r : RailIx) (l : RailLoop) : Prop := e.loop.ctx = d.loop.ctx ∧ e.loop.rails = d.loop.rails.set r l

theorem Dev.LoopIs.get {d e : Dev} {r : RailIx} {l : RailLoop} (h : d.LoopIs e r l) : e.loop.rails[r]'r.2 = l := by
  rw [h.2]
  simp

theorem Dev.loopIs_of_eq {d e : Dev} (r : RailIx) (h : e.loop = d.loop) : d.LoopIs e r (d.loop.rails[r]'r.2) := by
  rw [Dev.LoopIs, h]
  simp

theorem Dev.LoopIs.trans {a b c : Dev} {r : RailIx} {l m : RailLoop} (h : a.LoopIs b r l) (k : b.LoopIs c r m) : a.LoopIs c r m := by
  refine ⟨k.1.trans h.1, ?_⟩
  rw [k.2, h.2, Vector.set_set]

theorem Dev.updRailLoop_loopIs (d : Dev) (r : RailIx) (f : RailLoop → RailLoop) : d.LoopIs (d.updRailLoop r f) r (f (d.loop.rails[r]'r.2)) := ⟨rfl, rfl⟩

theorem Dev.updRailLoop_sameMembers (d : Dev) (r : RailIx) (f : RailLoop → RailLoop) : d.SameMembers (d.updRailLoop r f) :=
  ⟨rfl, rfl, rfl, fun _ => rfl, rfl, ⟨rfl, rfl, rfl⟩, fun _ => rfl, fun _ => rfl, fun _ => rfl⟩

/-- KEY_V is formed from its source. -/
def Dev.voltKey (d : Dev) (r : RailIx) : Dev :=
  let l := d.loop.rails[r]'r.2
  if l.vkHost then d.updRailLoop r fun l => { l with keyV := l.keyVHost, keyStale := false }
  else
    let k : AccIx := Fin.ofNat 256 l.vkAcc.toNat
    let a := d.sense.accs[k]'k.2
    match a.latest, d.tile.cur.accs[k]'k.2 with
    | some v, some _ =>
      let (w, d) := d.fit (rhe (16 * v.sum.toInt * l.vkScale.toNat) (v.valid.toNat * 1000))
      d.updRailLoop r fun l => { l with keyV := w, keyStale := a.valid == 0 }
    | _, _ => d.updRailLoop r fun l => { l with keyStale := true }

/-- KEY_V's accumulator. -/
def RailLoop.voltAcc (l : RailLoop) : AccIx := Fin.ofNat 256 l.vkAcc.toNat

/-- KEY_V as a mark forms it from the loop engine's record `l` and its accumulator, of which `has` says that it is defined. -/
structure VoltIs (l : RailLoop) (acc : Acc) (has : Bool) (keyV : Word) (stale : Bool) : Prop where
  host : l.vkHost = true → keyV = l.keyVHost ∧ stale = false
  volt : ∀ y : AccResult, l.vkHost = false → acc.latest = some y → has = true → Fits (rhe (16 * y.sum.toInt * l.vkScale.toNat) (y.valid.toNat * 1000)) →
    keyV = BitVec.ofInt 32 (rhe (16 * y.sum.toInt * l.vkScale.toNat) (y.valid.toNat * 1000)) ∧ stale = (acc.valid == 0)
  noVolt : l.vkHost = false → acc.latest = none ∨ has = false → keyV = l.keyV ∧ stale = true

/-- KEY_V is formed, and nothing else. -/
structure Dev.VoltFormed (d e : Dev) (r : RailIx) (keyV : Word) (keyStale : Bool) : Prop where
  same : d.SameMembers e
  frame : d.onlyIn e [.free, .loop]
  loop : d.LoopIs e r { d.loop.rails[r]'r.2 with keyV := keyV, keyStale := keyStale }
  formed : VoltIs (d.loop.rails[r]'r.2) d.sense.accs[(d.loop.rails[r]'r.2).voltAcc] (d.tile.cur.accs[(d.loop.rails[r]'r.2).voltAcc]).isSome keyV keyStale

theorem Dev.updRailLoop_onlyIn (d : Dev) (r : RailIx) (f : RailLoop → RailLoop) : d.onlyIn (d.updRailLoop r f) [.loop] := d.onlyIn_loop _

theorem Dev.voltKey_formed (d : Dev) (r : RailIx) : ∃ keyV keyStale, d.VoltFormed (d.voltKey r) r keyV keyStale := by
  unfold Dev.voltKey
  extract_lets l k a
  by_cases hh : l.vkHost = true
  · rw [if_pos hh]
    exact ⟨l.keyVHost, false, d.updRailLoop_sameMembers r _, (d.updRailLoop_onlyIn r _).into, d.updRailLoop_loopIs r _, fun _ => ⟨rfl, rfl⟩,
      fun _ h => absurd (hh.symm.trans h) (by decide), fun h => absurd (hh.symm.trans h) (by decide)⟩
  · rw [if_neg hh]
    split
    · next v x hv hx =>
      obtain ⟨hsame, -, -, hloop⟩ := d.fit_keeps (rhe (16 * v.sum.toInt * l.vkScale.toNat) (v.valid.toNat * 1000))
      refine ⟨(d.fit (rhe (16 * v.sum.toInt * l.vkScale.toNat) (v.valid.toNat * 1000))).1, a.valid == 0, hsame.trans (Dev.updRailLoop_sameMembers _ r _),
        (d.fit_onlyIn _).into.thenIn (Dev.updRailLoop_onlyIn _ r _), ?_, ⟨fun h => absurd h hh, fun y _ hy _ hfits => ?_, fun _ hnone => ?_⟩⟩
      · have hset := (Dev.loopIs_of_eq r hloop).trans (Dev.updRailLoop_loopIs _ r fun m =>
          { m with keyV := (d.fit (rhe (16 * v.sum.toInt * l.vkScale.toNat) (v.valid.toNat * 1000))).1, keyStale := a.valid == 0 })
        rw [hloop] at hset
        exact hset
      · obtain rfl : v = y := Option.some_inj.1 (hv.symm.trans hy)
        rw [Dev.fit_fits hfits]
        exact ⟨rfl, rfl⟩
      · rcases hnone with hnone | hnone
        · exact absurd (hnone.symm.trans hv) (by simp)
        · exact absurd (hnone.symm.trans (congrArg Option.isSome hx)) (by simp)
    · next hno =>
      refine ⟨l.keyV, true, d.updRailLoop_sameMembers r _, (d.updRailLoop_onlyIn r _).into, d.updRailLoop_loopIs r _, ⟨fun h => absurd h hh, fun y _ hy hx _ => ?_, fun _ _ => ⟨rfl, rfl⟩⟩⟩
      obtain ⟨x, hx⟩ := Option.isSome_iff_exists.1 hx
      exact absurd hx (hno y x hy)

/-- KEY_I and the marks of DEMAND are formed from the rail's sum. -/
def Dev.sumKey (d : Dev) (r : RailIx) (sum : Option Int) : Dev :=
  let now := d.clk.now
  let kept := d.mode r == .hiccup || d.mode r == .hold
  let marks := if kept then (d.rails[r]'r.2).demandMarks else (d.rails[r]'r.2).demandMarks.filter fun m => now ≤ m.1 + 10 * msTicks
  match sum with
  | some s =>
    let (k, d) := d.fit (rhe (s * (d.rails[r]'r.2).iscale.toNat) 1000)
    (d.updRailLoop r fun l => { l with keyI := k }).updRail r fun x =>
      { x with demandMarks := if kept then marks else (now, k.toInt.natAbs) :: marks }
  | none => d.updRail r fun x => { x with demandMarks := marks }

theorem Dev.formKeys_eq (d : Dev) (r : RailIx) : d.formKeys r =
    ((((d.setCause (srcSumInvalid r) 0 ((d.railSum r).isNone && d.railDefined r)).sumKey r (d.railSum r)).updRail r fun x =>
      { x with demand := if ((d.setCause (srcSumInvalid r) 0 ((d.railSum r).isNone && d.railDefined r)).sumKey r (d.railSum r)).mode r = .off then 0
        else satN 32 ((x.demandMarks.map (·.2)).foldl max 0) }).voltKey r, (d.railSum r).isSome) := rfl

/-- KEY_I is formed: its value, and DEMAND's marks, where the sum is valid. -/
structure Dev.SumFormed (d e : Dev) (r : RailIx) (sum : Option Int) (keyI : Word) (marks : List (Tick × Nat)) : Prop where
  same : d.SameMembers e
  frame : d.onlyIn e [.free, .loop, .rails]
  loop : d.LoopIs e r { d.loop.rails[r]'r.2 with keyI := keyI }
  rail : d.RailIs e r { d.rails[r]'r.2 with demandMarks := marks }
  formed : ∀ s : Int, sum = some s → Fits (rhe (s * (d.rails[r]'r.2).iscale.toNat) 1000) → keyI = BitVec.ofInt 32 (rhe (s * (d.rails[r]'r.2).iscale.toNat) 1000) ∧
    ((d.rails[r]'r.2).mode.switching = true → (d.clk.now, (rhe (s * (d.rails[r]'r.2).iscale.toNat) 1000).natAbs) ∈ marks)
  kept : sum = none → keyI = (d.loop.rails[r]'r.2).keyI

theorem toInt_of_fits {v : Int} (h : Fits v) : (BitVec.ofInt 32 v).toInt = v := by
  obtain ⟨hlo, hhi⟩ := h
  rw [BitVec.toInt_ofInt]
  exact Int.bmod_eq_of_le (by omega) (by omega)

theorem Dev.sumKey_formed (d : Dev) (r : RailIx) (sum : Option Int) : ∃ keyI marks, d.SumFormed (d.sumKey r sum) r sum keyI marks := by
  unfold Dev.sumKey
  extract_lets now kept marks
  cases sum with
  | none =>
    exact ⟨(d.loop.rails[r]'r.2).keyI, marks, d.updRail_sameMembers r _, (d.updRail_onlyIn r _).into, Dev.loopIs_of_eq r rfl, d.updRail_railIs r _,
      fun s hs => absurd hs (by simp), fun _ => rfl⟩
  | some s =>
    obtain ⟨hsame, -, -, hloop⟩ := d.fit_keeps (rhe (s * (d.rails[r]'r.2).iscale.toNat) 1000)
    have hfit : d.RailIs (d.fit (rhe (s * (d.rails[r]'r.2).iscale.toNat) 1000)).2 r (d.rails[r]'r.2) := Dev.railIs_of_onlyIn r (d.fit_onlyIn _)
    refine ⟨(d.fit (rhe (s * (d.rails[r]'r.2).iscale.toNat) 1000)).1, if kept then marks else (now, (d.fit (rhe (s * (d.rails[r]'r.2).iscale.toNat) 1000)).1.toInt.natAbs) :: marks,
      (hsame.trans (Dev.updRailLoop_sameMembers _ r _)).trans (Dev.updRail_sameMembers _ r _),
      (d.fit_onlyIn _).into.thenIn (Dev.updRailLoop_onlyIn _ r _) |>.thenIn (Dev.updRail_onlyIn _ r _), ?_, ?_, fun s' hs hfits => ?_, fun h => absurd h (by simp)⟩
    · have hset := (Dev.loopIs_of_eq r hloop).trans (Dev.updRailLoop_loopIs _ r fun m => { m with keyI := (d.fit (rhe (s * (d.rails[r]'r.2).iscale.toNat) 1000)).1 })
      rw [hloop] at hset
      exact hset
    · exact (hfit.thenKeeps (Dev.updRailLoop_onlyIn _ r fun m => { m with keyI := (d.fit (rhe (s * (d.rails[r]'r.2).iscale.toNat) 1000)).1 })).thenUpd _
    · obtain rfl : s = s' := Option.some_inj.1 hs
      rw [Dev.fit_fits hfits]
      refine ⟨rfl, fun hm => ?_⟩
      have hkept : ¬kept = true := by
        show ¬((d.rails[r]'r.2).mode == .hiccup || (d.rails[r]'r.2).mode == .hold) = true
        revert hm
        cases (d.rails[r]'r.2).mode <;> decide
      rw [if_neg hkept, toInt_of_fits hfits]
      exact List.mem_cons_self

/-- KEY_I with DEMAND as a mark forms them from the sum, the rail's record `x` and the loop engine's `l`. -/
structure SumIs (sum : Option Int) (x : Rail) (l : RailLoop) (keyI demand : Word) : Prop where
  ofSum : ∀ s : Int, sum = some s → Fits (rhe (s * x.iscale.toNat) 1000) → keyI = BitVec.ofInt 32 (rhe (s * x.iscale.toNat) 1000) ∧
    (x.mode.switching = true → (rhe (s * x.iscale.toNat) 1000).natAbs ≤ demand.toNat)
  noSum : sum = none → keyI = l.keyI

/-- The keys and DEMAND are formed, and nothing else of the rail. -/
structure Dev.KeysTaken (d e : Dev) (r : RailIx) (keyI keyV : Word) (stale : Bool) (marks : List (Tick × Nat)) (demand : Word) : Prop where
  same : d.SameMembers e
  frame : d.onlyIn e [.fault, .free, .loop, .rails]
  loop : d.LoopIs e r { d.loop.rails[r]'r.2 with keyI := keyI, keyV := keyV, keyStale := stale }
  rail : d.RailIs e r { d.rails[r]'r.2 with demandMarks := marks, demand := demand }
  ofSum : SumIs (d.railSum r) (d.rails[r]'r.2) (d.loop.rails[r]'r.2) keyI demand
  ofVolt : VoltIs (d.loop.rails[r]'r.2) d.sense.accs[(d.loop.rails[r]'r.2).voltAcc] (d.tile.cur.accs[(d.loop.rails[r]'r.2).voltAcc]).isSome keyV stale

/-- DEMAND is no less than any of its marks that a field holds. -/
theorem le_demand {marks : List (Tick × Nat)} {m : Tick × Nat} (h : m ∈ marks) (hm : m.2 < 2 ^ 32) : m.2 ≤ (satN 32 ((marks.map (·.2)).foldl max 0)).toNat := by
  have hle : m.2 ≤ (marks.map (·.2)).foldl max 0 := (le_foldl_max_iff m.2 _ 0).2 (Or.inr ⟨m.2, List.mem_map_of_mem h, le_refl _⟩)
  rw [satN, BitVec.toNat_ofNat]
  omega

theorem srcCardFault_ne (r : RailIx) (s : CardIx) : srcCardFault s ≠ srcSumInvalid r := by
  intro h
  have hv := congrArg Fin.val h
  simp only [srcAt, Fin.ofNat] at hv
  omega

theorem Dev.formKeys_taken (d : Dev) (r : RailIx) : (d.formKeys r).2 = (d.railSum r).isSome ∧
    ∃ keyI keyV stale marks demand, d.KeysTaken (d.formKeys r).1 r keyI keyV stale marks demand := by
  rw [Dev.formKeys_eq]
  refine ⟨rfl, ?_⟩
  have hrun := d.setCause_keepsRun (srcSumInvalid r) 0 ((d.railSum r).isNone && d.railDefined r) [] (srcCardFault_ne r)
  generalize hcause : d.setCause (srcSumInvalid r) 0 ((d.railSum r).isNone && d.railDefined r) = caused at hrun ⊢
  have hframe : d.onlyIn caused [.fault] := hcause ▸ d.setCause_onlyIn _ _ _ _
  have hloop : caused.loop = d.loop := hframe .loop (by decide)
  have hrails : caused.rails = d.rails := hframe .rails (by decide)
  have hclk : caused.clk = d.clk := hframe .clk (by decide)
  have hsense : caused.sense = d.sense := hframe .sense (by decide)
  have htile : caused.tile = d.tile := hframe .tile (by decide)
  have hsame : d.SameMembers caused := hrun.toKeepsLoop.sameMembers hframe (congrArg Prot.trips (hframe .prot (by decide)))
  obtain ⟨keyI, marks, hsum⟩ := caused.sumKey_formed r (d.railSum r)
  generalize caused.sumKey r (d.railSum r) = summed at hsum ⊢
  let demanded := summed.updRail r fun x => { x with demand := if summed.mode r = .off then 0 else satN 32 ((x.demandMarks.map (·.2)).foldl max 0) }
  obtain ⟨keyV, stale, hvolt⟩ := demanded.voltKey_formed r
  have hrail := (show d.RailIs caused r (d.rails[r]'r.2) from Dev.railIs_of_onlyIn r hframe).trans (hrails ▸ hsum.rail)
  have hdemand := (hrail.thenUpd fun x => { x with demand := if summed.mode r = .off then 0 else satN 32 ((x.demandMarks.map (·.2)).foldl max 0) }).thenKeeps hvolt.frame
  have hmode : summed.mode r = (d.rails[r]'r.2).mode := by
    have hm := congrArg Rail.mode hrail.get
    exact hm
  have hl : demanded.loop.rails[r]'r.2 = { d.loop.rails[r]'r.2 with keyI := keyI } := by
    have hget := hsum.loop.get
    rw [hloop] at hget
    exact hget
  refine ⟨keyI, keyV, stale, marks, _, (hsame.trans hsum.same).trans ((Dev.updRail_sameMembers _ r _).trans hvolt.same), ?_, ?_, hdemand, ?_, ?_⟩
  · exact hframe.into.thenIn hsum.frame |>.thenIn (Dev.updRail_onlyIn _ r _) |>.thenIn hvolt.frame
  · have hset := (Dev.loopIs_of_eq r hloop).trans (hloop ▸ hsum.loop) |>.trans hvolt.loop
    rw [hl] at hset
    exact hset
  · have hformed := hsum.formed
    have hkept := hsum.kept
    rw [hrails] at hformed
    rw [hloop] at hkept
    refine ⟨fun s hs hfits => ?_, hkept⟩
    obtain ⟨hkey, hmark⟩ := hformed s hs hfits
    refine ⟨hkey, fun hm => ?_⟩
    have hon : ¬summed.mode r = .off := by
      rw [hmode]
      intro hoff
      rw [hoff] at hm
      exact absurd hm (by decide)
    obtain ⟨hlo, hhi⟩ := hfits
    rw [if_neg hon]
    have hmark' := hmark hm
    rw [hclk] at hmark'
    exact le_demand hmark' (by omega)
  · have hk : (demanded.loop.rails[r]'r.2).voltAcc = (d.loop.rails[r]'r.2).voltAcc := by rw [hl]; rfl
    have hacc : demanded.sense.accs[(demanded.loop.rails[r]'r.2).voltAcc] = d.sense.accs[(d.loop.rails[r]'r.2).voltAcc] := by
      rw [show demanded.sense = d.sense from (hsum.frame .sense (by decide)).trans hsense]
      exact congrArg (fun k : AccIx => d.sense.accs[k]'k.2) hk
    have hhas : (demanded.tile.cur.accs[(demanded.loop.rails[r]'r.2).voltAcc]).isSome = (d.tile.cur.accs[(d.loop.rails[r]'r.2).voltAcc]).isSome := by
      rw [show demanded.tile = d.tile from (hsum.frame .tile (by decide)).trans htile]
      exact congrArg (fun k : AccIx => (d.tile.cur.accs[k]'k.2).isSome) hk
    have hv := hvolt.formed
    rw [hacc, hhas, hl] at hv
    exact ⟨hv.host, hv.volt, hv.noVolt⟩

end Sys2Proof.Machine
end

section
/-! SUPPORT. What the decisions of an update point leave, and the masks of the burst members. -/

namespace Sys2Proof.Machine

open Sys2Proof

/-! ## What a decision leaves -/

/-- What an update point has formed of the rail's record and of the loop engine's record of the rail. -/
def Rail.formed (x : Rail) : Word × Bool × Word := (x.vout, x.vstale, x.demand)
def RailLoop.keys (l : RailLoop) : Word × Word × Bool := (l.keyI, l.keyV, l.keyStale)
def RailLoop.refs (l : RailLoop) : Word × Bool := (l.iref, l.auxLim)

/-- The formed values of rail `r` and the other rails stand. -/
structure Dev.KeepsFormed (d e : Dev) (r : RailIx) : Prop where
  keys : (e.loop.rails[r]'r.2).keys = (d.loop.rails[r]'r.2).keys
  form : (e.rails[r]'r.2).formed = (d.rails[r]'r.2).formed
  others : ∀ k : RailIx, k ≠ r → e.rails[k]'k.2 = d.rails[k]'k.2
  frame : d.onlyIn e [.pwm, .loop, .rails, .prot, .sp, .ports, .fault, .leave, .free]

/-- IREF stands, and an inner context keeps its REF or takes IREF. -/
structure Dev.KeepsIref (d e : Dev) (r : RailIx) : Prop where
  refs : (e.loop.rails[r]'r.2).refs = (d.loop.rails[r]'r.2).refs
  inner : ∀ n : PhaseIx, (e.loop.ctx[innerIx n]'(innerIx n).2).ref = (d.loop.ctx[innerIx n]'(innerIx n).2).ref ∨ (e.loop.ctx[innerIx n]'(innerIx n).2).ref = (d.loop.rails[r]'r.2).iref

/-- The target with the outer REF, the undershoot comparator and the cycle's events stand. -/
structure Dev.KeepsAim (d e : Dev) (r : RailIx) : Prop where
  sp : e.sp = d.sp
  ref : (e.loop.ctx[outerIx r]'(outerIx r).2).ref = (d.loop.ctx[outerIx r]'(outerIx r).2).ref
  uv : (e.prot.wins[r]'r.2).uv = (d.prot.wins[r]'r.2).uv
  no : e.cyc.no = d.cyc.no
  raised : d.cyc.raised ⊆ e.cyc.raised

/-- A decision of rail `r` changes neither what has been formed nor what it aims at. -/
structure Dev.Decides (d e : Dev) (r : RailIx) : Prop where
  formed : d.KeepsFormed e r
  iref : d.KeepsIref e r
  aim : d.KeepsAim e r

theorem Dev.KeepsFormed.refl (d : Dev) (r : RailIx) : d.KeepsFormed d r := ⟨rfl, rfl, fun _ _ => rfl, d.onlyIn_refl _⟩

theorem Dev.KeepsFormed.trans {a b c : Dev} {r : RailIx} (h : a.KeepsFormed b r) (k : b.KeepsFormed c r) : a.KeepsFormed c r :=
  ⟨k.keys.trans h.keys, k.form.trans h.form, fun x hx => (k.others x hx).trans (h.others x hx), h.frame.thenIn k.frame⟩

theorem Dev.KeepsIref.refl (d : Dev) (r : RailIx) : d.KeepsIref d r := ⟨rfl, fun _ => .inl rfl⟩

theorem Dev.KeepsIref.trans {a b c : Dev} {r : RailIx} (h : a.KeepsIref b r) (k : b.KeepsIref c r) : a.KeepsIref c r := by
  have hiref : (b.loop.rails[r]'r.2).iref = (a.loop.rails[r]'r.2).iref := congrArg Prod.fst h.refs
  refine ⟨k.refs.trans h.refs, fun n => ?_⟩
  rcases k.inner n with hn | hn
  · rcases h.inner n with hm | hm
    · exact .inl (hn.trans hm)
    · exact .inr (hn.trans hm)
  · exact .inr (hn.trans hiref)

theorem Dev.KeepsAim.trans {a b c : Dev} {r : RailIx} (h : a.KeepsAim b r) (k : b.KeepsAim c r) : a.KeepsAim c r :=
  ⟨k.sp.trans h.sp, k.ref.trans h.ref, k.uv.trans h.uv, k.no.trans h.no, fun _ hx => k.raised (h.raised hx)⟩

theorem Dev.Decides.refl (d : Dev) (r : RailIx) : d.Decides d r := ⟨.refl d r, .refl d r, ⟨rfl, rfl, rfl, rfl, fun _ h => h⟩⟩

theorem Dev.Decides.trans {a b c : Dev} {r : RailIx} (h : a.Decides b r) (k : b.Decides c r) : a.Decides c r :=
  ⟨h.formed.trans k.formed, h.iref.trans k.iref, h.aim.trans k.aim⟩

/-- A step of the loop engine that keeps references and outputs, with a write to the rail's record that keeps what has been formed. -/
theorem Dev.KeepsLoop.decides {d e : Dev} {r : RailIx} {y : Rail} (k : d.KeepsLoop e) (hrail : d.RailIs e r y) (hy : y.formed = (d.rails[r]'r.2).formed)
    (hframe : d.onlyIn e [.pwm, .loop, .rails, .prot, .fault, .leave, .free]) (huv : (e.prot.wins[r]'r.2).uv = (d.prot.wins[r]'r.2).uv) : d.Decides e r := by
  have hl := k.rail r
  have hkeys : (e.loop.rails[r]'r.2).keys = (d.loop.rails[r]'r.2).keys := by
    have hk := congrArg RailLoop.keys hl
    exact hk
  have hrefs : (e.loop.rails[r]'r.2).refs = (d.loop.rails[r]'r.2).refs := by
    have hk := congrArg RailLoop.refs hl
    exact hk
  obtain ⟨hno, -, hraised⟩ := k.cycle
  exact ⟨⟨hkeys, by rw [hrail.get]; exact hy, fun x hx => hrail.get_ne hx, hframe.into⟩, ⟨hrefs, fun n => .inl (k.ref _)⟩,
    ⟨hframe .sp (by decide), k.ref _, huv, hno, by rw [hraised]; exact fun _ h => h⟩⟩

/-- The same where the rail's record is not written. -/
theorem Dev.KeepsLoop.decidesLoop {d e : Dev} {r : RailIx} (k : d.KeepsLoop e) (hframe : d.onlyIn e [.loop, .fault, .free]) : d.Decides e r :=
  k.decides (Dev.railIs_of_onlyIn r hframe) rfl hframe.into (by rw [show e.prot = d.prot from hframe .prot (by decide)])

theorem Dev.updRail_decides (d : Dev) (r : RailIx) (f : Rail → Rail) (hf : (f (d.rails[r]'r.2)).formed = (d.rails[r]'r.2).formed := by rfl) : d.Decides (d.updRail r f) r :=
  (d.updRail_keepsRun r f).toKeepsLoop.decides (d.updRail_railIs r f) hf (d.updRail_onlyIn r f).into rfl

/-! ## Steps that write phases and events alone -/

/-- No block but the phases and the fabric's events is written; the cycle keeps the events of the sources. -/
structure Dev.Quiet (d e : Dev) : Prop where
  frame : d.onlyIn e [.pwm, .fault]
  no : e.cyc.no = d.cyc.no
  raised : e.cyc.raised = d.cyc.raised

theorem Dev.Quiet.refl (d : Dev) : d.Quiet d := ⟨d.onlyIn_refl _, rfl, rfl⟩

theorem Dev.Quiet.trans {a b c : Dev} (h : a.Quiet b) (k : b.Quiet c) : a.Quiet c := ⟨h.frame.thenIn k.frame, k.no.trans h.no, k.raised.trans h.raised⟩

theorem Dev.quiet_ite {d a : Dev} {c : Prop} [Decidable c] (h : d.Quiet a) : d.Quiet (if c then a else d) := by
  split
  · exact h
  · exact .refl d

theorem Dev.quiet_foldl {α : Type} (f : Dev → α → Dev) (h : ∀ (d : Dev) (x : α), d.Quiet (f d x)) : ∀ (xs : List α) (d : Dev), d.Quiet (xs.foldl f d) :=
  foldl_related (P := Dev.Quiet) .refl .trans h

theorem Dev.updPwm_quiet (d : Dev) (n : PhaseIx) (f : Pwm → Pwm) : d.Quiet (d.updPwm n f) := ⟨(d.updPwm_onlyIn n f).into, rfl, rfl⟩

theorem Dev.event_quiet (d : Dev) (c : Nat) : d.Quiet (d.event c) := ⟨(d.event_onlyIn c).into, rfl, rfl⟩

theorem Dev.setMask_quiet (d : Dev) (n : PhaseIx) (f : MaskBits → MaskBits) : d.Quiet (d.setMask n f) := by
  refine ⟨(d.setMask_onlyIn n f).into, ?_, ?_⟩
  all_goals
    unfold Dev.setMask
    dsimp only
    split <;> rfl

theorem Dev.Quiet.decides {d e : Dev} (h : d.Quiet e) (r : RailIx) : d.Decides e r := by
  have hl : e.loop = d.loop := h.frame .loop (by decide)
  have hr : e.rails = d.rails := h.frame .rails (by decide)
  exact ⟨⟨by rw [hl], by rw [hr], fun _ _ => by rw [hr], h.frame.into⟩, ⟨by rw [hl], fun _ => by rw [hl]; exact .inl rfl⟩,
    ⟨h.frame .sp (by decide), by rw [hl], by rw [show e.prot = d.prot from h.frame .prot (by decide)], h.no, by rw [h.raised]; exact fun _ hx => hx⟩⟩

/-! ## A mask written with a bit cleared or set (R221) -/

/-- A write that sets no bit leaves the cycle's marks. -/
theorem Dev.setMask_clears (d : Dev) (n : PhaseIx) {f : MaskBits → MaskBits} (hf : f MaskBits.none = MaskBits.none) :
    d.setMask n f = d.updPwm n fun p => p.setMask d.clk.now fun m => (f m).or (d.setNow n) := by
  unfold Dev.setMask
  dsimp only
  rw [if_pos hf]

theorem Dev.setMask_get (d : Dev) (n : PhaseIx) (f : MaskBits → MaskBits) :
    (d.setMask n f).pwm[n]'n.2 = (d.pwm[n]'n.2).setMask d.clk.now fun m => (f m).or (d.setNow n) := by
  obtain ⟨e, he, hp, -, -⟩ := d.setMask_pwm n f
  rw [he, Dev.updPwm_get, hp]

/-- Every phase keeps what stands outside its mask. -/
theorem Dev.setMask_fields (d : Dev) (n : PhaseIx) (f : MaskBits → MaskBits) (k : PhaseIx) : let p := (d.setMask n f).pwm[k]'k.2
    p.loopShadow = (d.pwm[k]'k.2).loopShadow ∧ p.flareOn = (d.pwm[k]'k.2).flareOn ∧ p.hostOvr = (d.pwm[k]'k.2).hostOvr := by
  rcases eq_or_ne k n with rfl | hk
  · rw [Dev.setMask_get]
    obtain ⟨cs, hcs⟩ := (d.pwm[k]'k.2).setMask_eq d.clk.now fun m => (f m).or (d.setNow k)
    rw [hcs]
    exact ⟨rfl, rfl, rfl⟩
  · rw [Dev.setMask_pwm_ne d n f hk]
    exact ⟨rfl, rfl, rfl⟩

theorem Dev.members_nodup (d : Dev) (r : RailIx) : (d.members r).Nodup := (List.nodup_finRange 64).filter _

/-- The code that waits, the Flare command and HOST_OVR of every phase stand. -/
def Dev.KeepsCodes (d e : Dev) : Prop := ∀ k : PhaseIx, (e.pwm[k]'k.2).loopShadow = (d.pwm[k]'k.2).loopShadow ∧ (e.pwm[k]'k.2).flareOn = (d.pwm[k]'k.2).flareOn ∧
  (e.pwm[k]'k.2).hostOvr = (d.pwm[k]'k.2).hostOvr

theorem Dev.KeepsCodes.refl (d : Dev) : d.KeepsCodes d := fun _ => ⟨rfl, rfl, rfl⟩

theorem Dev.KeepsCodes.trans {a b c : Dev} (h : a.KeepsCodes b) (k : b.KeepsCodes c) : a.KeepsCodes c := fun n => by
  obtain ⟨h1, h2, h3⟩ := h n
  obtain ⟨k1, k2, k3⟩ := k n
  exact ⟨k1.trans h1, k2.trans h2, k3.trans h3⟩

theorem Dev.keepsCodes_of_frame {d e : Dev} {bs : List Block} (h : d.onlyIn e bs) (hb : Block.pwm ∉ bs := by decide) : d.KeepsCodes e := by
  have hp : e.pwm = d.pwm := h .pwm hb
  exact fun _ => by rw [hp]; exact ⟨rfl, rfl, rfl⟩

/-- The step of one burst member. -/
def Dev.emberBit (r : RailIx) (on : Bool) (d : Dev) (n : PhaseIx) : Dev :=
  if (d.rails[r]'r.2).burstMembers.getLsbD n.val then d.setMask n fun m => { m with ember := on } else d

theorem Dev.emberMask_eq (d : Dev) (r : RailIx) (on : Bool) : d.emberMask r on = (d.members r).foldl (Dev.emberBit r on) d := rfl

theorem Dev.emberBit_quiet (d : Dev) (r : RailIx) (on : Bool) (n : PhaseIx) : d.Quiet (d.emberBit r on n) := Dev.quiet_ite (d.setMask_quiet n _)

theorem Dev.emberMask_quiet (d : Dev) (r : RailIx) (on : Bool) : d.Quiet (d.emberMask r on) := Dev.quiet_foldl _ (fun e n => e.emberBit_quiet r on n) _ d

theorem Dev.emberMask_keepsCodes (d : Dev) (r : RailIx) (on : Bool) : d.KeepsCodes (d.emberMask r on) := by
  refine foldl_related (P := Dev.KeepsCodes) .refl .trans (fun e n => ?_) _ d
  split
  · exact e.setMask_fields n _
  · exact .refl e

theorem Dev.emberBit_ne (d : Dev) (r : RailIx) (on : Bool) {n k : PhaseIx} (h : k ≠ n) : (d.emberBit r on n).pwm[k]'k.2 = d.pwm[k]'k.2 := by
  unfold Dev.emberBit
  split
  · exact d.setMask_pwm_ne n _ h
  · rfl

theorem Dev.emberBit_cyc (d : Dev) (r : RailIx) (n : PhaseIx) : (d.emberBit r false n).cyc = d.cyc := by
  unfold Dev.emberBit
  split
  · rw [Dev.setMask_clears d n rfl]
    rfl
  · rfl

/-- The EMBER bit of a burst member after the bits are written: set where they are set, and where they are cleared the bit of this cycle's events. -/
theorem Dev.emberMask_member {d : Dev} {r : RailIx} {n : PhaseIx} (on : Bool) (hn : d.railOf n = some r) (hb : (d.rails[r]'r.2).burstMembers.getLsbD n.val = true) :
    (on = true → ((d.emberMask r on).pwm[n]'n.2).mask.ember = true) ∧
    (on = false → ((d.emberMask r on).pwm[n]'n.2).mask.ember = (d.setNow n).ember) := by
  obtain ⟨e, ⟨hpwm, hrails, hclk, hcyc⟩, hlast, -⟩ := foldl_around (σ := Dev) (P := fun s t => t.pwm[n]'n.2 = s.pwm[n]'n.2 ∧ t.rails = s.rails ∧ t.clk = s.clk ∧ (on = false → t.cyc = s.cyc))
    (fun _ => ⟨rfl, rfl, rfl, fun _ => rfl⟩)
    (fun ⟨h1, h2, h3, h4⟩ ⟨k1, k2, k3, k4⟩ => ⟨k1.trans h1, k2.trans h2, k3.trans h3, fun ho => (k4 ho).trans (h4 ho)⟩)
    (f := Dev.emberBit r on) (x := n)
    (fun s m hm => ⟨s.emberBit_ne r on hm.symm, (s.emberBit_quiet r on m).frame .rails (by decide), (s.emberBit_quiet r on m).frame .clk (by decide), fun ho => by subst ho; exact s.emberBit_cyc r m⟩)
    (d.members r) (d.members_nodup r) (Dev.mem_members.2 hn) d
  have hstep : ((e.emberBit r on n).pwm[n]'n.2).mask = ({ (d.pwm[n]'n.2).mask with ember := on } : MaskBits).or (e.setNow n) := by
    rw [Dev.emberBit, if_pos (by rw [hrails]; exact hb), Dev.setMask_get, Pwm.setMask_mask, hpwm]
  rw [Dev.emberMask_eq, hlast, hstep]
  refine ⟨fun ho => ?_, fun ho => ?_⟩
  · subst ho
    rfl
  · have hnow : e.setNow n = d.setNow n := by
      rw [Dev.setNow, Dev.setNow, hcyc ho, show e.cycle = d.cycle by rw [Dev.cycle, hclk, Dev.cycle]]
    subst ho
    rw [hnow]
    exact Bool.false_or _

/-! ## Bits cleared at the end of a Flare and of the bursts -/

/-- No SHED or EMBER bit comes up but one that this cycle's events set, and the codes stand. -/
structure Dev.Unmasks (d e : Dev) : Prop where
  cyc : e.cyc = d.cyc
  clk : e.clk = d.clk
  codes : d.KeepsCodes e
  shed : ∀ n : PhaseIx, (d.setNow n).shed = false → (d.pwm[n]'n.2).mask.shed = false → (e.pwm[n]'n.2).mask.shed = false
  ember : ∀ n : PhaseIx, (d.setNow n).ember = false → (d.pwm[n]'n.2).mask.ember = false → (e.pwm[n]'n.2).mask.ember = false

theorem Dev.Unmasks.setNow {d e : Dev} (h : d.Unmasks e) (n : PhaseIx) : e.setNow n = d.setNow n := by
  rw [Dev.setNow, Dev.setNow, h.cyc, show e.cycle = d.cycle by rw [Dev.cycle, h.clk, Dev.cycle]]

theorem Dev.Unmasks.refl (d : Dev) : d.Unmasks d := ⟨rfl, rfl, .refl d, fun _ _ h => h, fun _ _ h => h⟩

theorem Dev.Unmasks.trans {a b c : Dev} (h : a.Unmasks b) (k : b.Unmasks c) : a.Unmasks c where
  cyc := k.cyc.trans h.cyc
  clk := k.clk.trans h.clk
  codes := h.codes.trans k.codes
  shed n hs hm := k.shed n (by rw [h.setNow]; exact hs) (h.shed n hs hm)
  ember n hs hm := k.ember n (by rw [h.setNow]; exact hs) (h.ember n hs hm)

theorem Dev.emberBit_unmasks (d : Dev) (r : RailIx) (n : PhaseIx) : d.Unmasks (d.emberBit r false n) := by
  refine ⟨d.emberBit_cyc r n, (d.emberBit_quiet r false n).frame .clk (by decide), ?_, fun k hs hm => ?_, fun k hs hm => ?_⟩
  · unfold Dev.emberBit
    split
    · exact d.setMask_fields n _
    · exact .refl d
  · rcases eq_or_ne k n with rfl | hk
    · unfold Dev.emberBit
      split
      · rw [Dev.setMask_get, Pwm.setMask_mask]
        exact Bool.or_eq_false_iff.2 ⟨hm, hs⟩
      · exact hm
    · rw [Dev.emberBit_ne d r false hk]
      exact hm
  · rcases eq_or_ne k n with rfl | hk
    · unfold Dev.emberBit
      split
      · rw [Dev.setMask_get, Pwm.setMask_mask]
        exact Bool.or_eq_false_iff.2 ⟨rfl, hs⟩
      · exact hm
    · rw [Dev.emberBit_ne d r false hk]
      exact hm

theorem Dev.emberMask_unmasks (d : Dev) (r : RailIx) : d.Unmasks (d.emberMask r false) :=
  foldl_related (P := Dev.Unmasks) .refl .trans (fun e n => e.emberBit_unmasks r n) (d.members r) d

end Sys2Proof.Machine
end

section
/-! SUPPORT. The end of a Flare at an update point. -/

namespace Sys2Proof.Machine

open Sys2Proof

/-! ## The participants' codes and masks (R334) -/

theorem Dev.leaveFlare_quiet (d : Dev) (r : RailIx) (n : PhaseIx) : d.Quiet (d.leaveFlare r n) := by
  unfold Dev.leaveFlare
  split
  · extract_lets written
    split
    · exact d.updPwm_quiet n _
    · exact ((d.updPwm_quiet n _).trans (Dev.setMask_quiet _ n _)).trans (Dev.event_quiet _ _)
  · exact d.updPwm_quiet n _

theorem Dev.leaveFlare_cyc (d : Dev) (r : RailIx) (n : PhaseIx) : (d.leaveFlare r n).cyc = d.cyc := by
  unfold Dev.leaveFlare
  split
  · extract_lets written
    split
    · rfl
    · rw [Dev.setMask_clears written n rfl]
      rfl
  · rfl


/-- A phase is kept at a Flare exit: no SHED and no EMBER bit but those of this cycle's events. -/
def Dev.keepPhase (d : Dev) (n : PhaseIx) : Dev := (d.setMask n fun m => { m with shed := false, ember := false }).event (0x0440 + n.val)

theorem Dev.event_pwm_get (d : Dev) (c : Nat) (k : PhaseIx) : (d.event c).pwm[k]'k.2 = d.pwm[k]'k.2 := rfl

theorem Dev.keepPhase_get (d : Dev) (n : PhaseIx) : (d.keepPhase n).pwm[n]'n.2 =
    (d.pwm[n]'n.2).setMask d.clk.now fun m => ({ m with shed := false, ember := false } : MaskBits).or (d.setNow n) := by
  rw [Dev.keepPhase, Dev.event_pwm_get, Dev.setMask_get]

theorem Dev.keepPhase_ne (d : Dev) {n k : PhaseIx} (h : k ≠ n) : (d.keepPhase n).pwm[k]'k.2 = d.pwm[k]'k.2 := by
  rw [Dev.keepPhase, Dev.event_pwm_get, Dev.setMask_pwm_ne d n _ h]

theorem Dev.keepPhase_shadow (d : Dev) (n : PhaseIx) : ((d.keepPhase n).pwm[n]'n.2).loopShadow = (d.pwm[n]'n.2).loopShadow := by
  rw [Dev.keepPhase, Dev.event_pwm_get]
  exact (d.setMask_fields n _ n).1

/-- FLARE_DUTY is written into the shadow of a phase. -/
def Dev.writeFlareDuty (d : Dev) (r : RailIx) (n : PhaseIx) : Dev := d.updPwm n fun p =>
  { p with overwrites := if p.loopShadow.isSome then p.overwrites + 1 else p.overwrites, loopShadow := some { duty := (d.rails[r]'r.2).flareDuty, at_ := d.cycleTick + 1 } }

theorem Dev.leaveFlare_on {d : Dev} {r : RailIx} {n : PhaseIx} (h : (d.pwm[n]'n.2).flareOn = true) :
    d.leaveFlare r n = if (d.rails[r]'r.2).drained.getLsbD n.val then d.writeFlareDuty r n else (d.writeFlareDuty r n).keepPhase n := if_pos h

theorem Dev.leaveFlare_off {d : Dev} {r : RailIx} {n : PhaseIx} (h : ¬(d.pwm[n]'n.2).flareOn = true) : d.leaveFlare r n = d.updPwm n fun p => p.endLift d.clk.now := if_neg h

theorem Dev.leaveFlare_ne (d : Dev) (r : RailIx) {n k : PhaseIx} (h : k ≠ n) : (d.leaveFlare r n).pwm[k]'k.2 = d.pwm[k]'k.2 := by
  have hw : (d.writeFlareDuty r n).pwm[k]'k.2 = d.pwm[k]'k.2 := d.updPwm_get_ne _ h
  by_cases hf : (d.pwm[n]'n.2).flareOn = true
  · by_cases hd : (d.rails[r]'r.2).drained.getLsbD n.val = true
    · have hl : d.leaveFlare r n = d.writeFlareDuty r n := (Dev.leaveFlare_on hf).trans (if_pos hd)
      rw [hl, hw]
    · have hl : d.leaveFlare r n = (d.writeFlareDuty r n).keepPhase n := (Dev.leaveFlare_on hf).trans (if_neg hd)
      rw [hl, Dev.keepPhase_ne _ h, hw]
  · rw [Dev.leaveFlare_off hf]
    exact d.updPwm_get_ne _ h

/-- What a Flare exit makes of a phase that took part: its shadow and, unless it is drained, its SHED and EMBER bits. -/
structure Dev.Leaves (d e : Dev) (r : RailIx) (n : PhaseIx) : Prop where
  shadow : (e.pwm[n]'n.2).loopShadow = some { duty := (d.rails[r]'r.2).flareDuty, at_ := d.cycleTick + 1 }
  shed : (d.rails[r]'r.2).drained.getLsbD n.val = false → (d.setNow n).shed = false → (e.pwm[n]'n.2).mask.shed = false
  ember : (d.rails[r]'r.2).drained.getLsbD n.val = false → (d.setNow n).ember = false → (e.pwm[n]'n.2).mask.ember = false

theorem Dev.leaveFlare_leaves {d : Dev} {r : RailIx} {n : PhaseIx} (h : (d.pwm[n]'n.2).flareOn = true) : d.Leaves (d.leaveFlare r n) r n := by
  have hw : ((d.writeFlareDuty r n).pwm[n]'n.2).loopShadow = some { duty := (d.rails[r]'r.2).flareDuty, at_ := d.cycleTick + 1 } := by
    rw [Dev.writeFlareDuty, Dev.updPwm_get]
  by_cases hd : (d.rails[r]'r.2).drained.getLsbD n.val = true
  · have hl : d.leaveFlare r n = d.writeFlareDuty r n := (Dev.leaveFlare_on h).trans (if_pos hd)
    rw [hl]
    exact ⟨hw, fun h' => absurd (hd.symm.trans h') (by decide), fun h' => absurd (hd.symm.trans h') (by decide)⟩
  · have hl : d.leaveFlare r n = (d.writeFlareDuty r n).keepPhase n := (Dev.leaveFlare_on h).trans (if_neg hd)
    rw [hl]
    refine ⟨(Dev.keepPhase_shadow _ n).trans hw, fun _ hs => ?_, fun _ hs => ?_⟩
    all_goals
      rw [Dev.keepPhase_get, Pwm.setMask_mask]
      exact Bool.or_eq_false_iff.2 ⟨rfl, hs⟩

/-- The members leave the Flare. -/
def Dev.leaveAll (d : Dev) (r : RailIx) : Dev := (d.members r).foldl (fun d n => d.leaveFlare r n) d

theorem Dev.leaveAll_quiet (d : Dev) (r : RailIx) : d.Quiet (d.leaveAll r) := Dev.quiet_foldl _ (fun e n => e.leaveFlare_quiet r n) _ d

theorem Dev.leaveAll_cyc (d : Dev) (r : RailIx) : (d.leaveAll r).cyc = d.cyc :=
  foldl_related (P := fun a b : Dev => b.cyc = a.cyc) (fun _ => rfl) (fun h k => k.trans h) (fun e n => e.leaveFlare_cyc r n) _ d

theorem Dev.leaveAll_leaves {d : Dev} {r : RailIx} {n : PhaseIx} (hn : d.railOf n = some r) (h : (d.pwm[n]'n.2).flareOn = true) : d.Leaves (d.leaveAll r) r n := by
  obtain ⟨e, ⟨hpwm, hrails, hclk, hcyc⟩, hlast, -⟩ := foldl_around (σ := Dev) (P := fun s t => t.pwm[n]'n.2 = s.pwm[n]'n.2 ∧ t.rails = s.rails ∧ t.clk = s.clk ∧ t.cyc = s.cyc)
    (fun _ => ⟨rfl, rfl, rfl, rfl⟩) (fun ⟨h1, h2, h3, h4⟩ ⟨k1, k2, k3, k4⟩ => ⟨k1.trans h1, k2.trans h2, k3.trans h3, k4.trans h4⟩)
    (f := fun d n => d.leaveFlare r n) (x := n)
    (fun s m hm => ⟨s.leaveFlare_ne r hm.symm, (s.leaveFlare_quiet r m).frame .rails (by decide), (s.leaveFlare_quiet r m).frame .clk (by decide), s.leaveFlare_cyc r m⟩)
    (d.members r) (d.members_nodup r) (Dev.mem_members.2 hn) d
  have hl : e.Leaves (e.leaveFlare r n) r n := Dev.leaveFlare_leaves (by rw [hpwm]; exact h)
  have hnow : e.setNow n = d.setNow n := by
    rw [Dev.setNow, Dev.setNow, hcyc, show e.cycle = d.cycle by rw [Dev.cycle, hclk, Dev.cycle]]
  obtain ⟨hshadow, hshed, hember⟩ := hl
  rw [hrails, Dev.cycleTick_of_clk hclk] at hshadow
  rw [hrails, hnow] at hshed hember
  unfold Dev.leaveAll
  exact ⟨hlast ▸ hshadow, fun hd hs => hlast ▸ hshed hd hs, fun hd hs => hlast ▸ hember hd hs⟩

/-- What a Flare exit has made of a phase stands where no bit comes up and no code changes. -/
theorem Dev.Leaves.then {d e f : Dev} {r : RailIx} {n : PhaseIx} (h : d.Leaves e r n) (hcodes : e.KeepsCodes f)
    (hshed : (d.setNow n).shed = false → (e.pwm[n]'n.2).mask.shed = false → (f.pwm[n]'n.2).mask.shed = false)
    (hember : (d.setNow n).ember = false → (e.pwm[n]'n.2).mask.ember = false → (f.pwm[n]'n.2).mask.ember = false) : d.Leaves f r n :=
  ⟨(hcodes n).1.trans h.shadow, fun hd hs => hshed hs (h.shed hd hs), fun hd hs => hember hs (h.ember hd hs)⟩

theorem Dev.Leaves.thenFrame {d e f : Dev} {r : RailIx} {n : PhaseIx} {bs : List Block} (h : d.Leaves e r n) (k : e.onlyIn f bs)
    (hb : Block.pwm ∉ bs := by decide) : d.Leaves f r n := by
  have hp : f.pwm = e.pwm := k .pwm hb
  exact h.then (Dev.keepsCodes_of_frame k hb) (fun _ hm => by rw [hp]; exact hm) fun _ hm => by rw [hp]; exact hm

/-! ## IREF for the kept participants (R305) -/

/-- Only references are written, and with IREF alone. -/
structure Dev.GivesIref (d e : Dev) (r : RailIx) : Prop where
  active : ∀ c : CtxIx, (e.loop.ctx[c]'c.2).active = (d.loop.ctx[c]'c.2).active
  rails : e.loop.rails = d.loop.rails
  ref : ∀ c : CtxIx, (e.loop.ctx[c]'c.2).ref = (d.loop.ctx[c]'c.2).ref ∨ (e.loop.ctx[c]'c.2).ref = (d.loop.rails[r]'r.2).iref

theorem Dev.GivesIref.refl (d : Dev) (r : RailIx) : d.GivesIref d r := ⟨fun _ => rfl, rfl, fun _ => .inl rfl⟩

theorem Dev.GivesIref.trans {a b c : Dev} {r : RailIx} (h : a.GivesIref b r) (k : b.GivesIref c r) : a.GivesIref c r := by
  refine ⟨fun x => (k.active x).trans (h.active x), k.rails.trans h.rails, fun x => ?_⟩
  rcases k.ref x with hx | hx
  · rw [hx]
    exact h.ref x
  · exact .inr (by rw [hx, h.rails])

/-- The step of one participant. -/
def Dev.giveOne (r : RailIx) (d : Dev) (n : PhaseIx) : Dev :=
  if (d.loop.ctx[innerIx n]'(innerIx n).2).active then d.updCtx (innerIx n) fun x => { x with ref := (d.loop.rails[r]'r.2).iref } else d

theorem Dev.giveOne_gives (d : Dev) (r : RailIx) (n : PhaseIx) : d.GivesIref (d.giveOne r n) r := by
  unfold Dev.giveOne
  split
  · refine ⟨d.updCtx_keeps _ _ Ctx.active rfl, rfl, fun c => ?_⟩
    rcases eq_or_ne c (innerIx n) with rfl | hc
    · right
      rw [Dev.updCtx_get]
    · left
      rw [Dev.updCtx_get_ne _ _ hc]
  · exact .refl d r

theorem Dev.giveOne_onlyIn (d : Dev) (r : RailIx) (n : PhaseIx) : d.onlyIn (d.giveOne r n) [.loop] := Dev.onlyIn_ite (d.updCtx_onlyIn _ _)

theorem Dev.giveOne_cyc (d : Dev) (r : RailIx) (n : PhaseIx) : (d.giveOne r n).cyc = d.cyc := by
  unfold Dev.giveOne
  split <;> rfl

theorem outerIx_ne_innerIx (r : RailIx) (n : PhaseIx) : outerIx r ≠ innerIx n := by
  intro h
  have hv := congrArg Fin.val h
  simp only [outerIx, innerIx, Fin.ofNat] at hv
  omega

theorem Dev.giveOne_outer (d : Dev) (r : RailIx) (n : PhaseIx) : (d.giveOne r n).loop.ctx[outerIx r]'(outerIx r).2 = d.loop.ctx[outerIx r]'(outerIx r).2 := by
  unfold Dev.giveOne
  split
  · exact d.updCtx_get_ne _ (outerIx_ne_innerIx r n)
  · rfl

theorem Dev.giveIref_eq (d : Dev) (r : RailIx) (ns : List PhaseIx) : d.giveIref r ns = ns.foldl (Dev.giveOne r) d := rfl

theorem Dev.giveIref_onlyIn (d : Dev) (r : RailIx) (ns : List PhaseIx) : d.onlyIn (d.giveIref r ns) [.loop] := Dev.onlyIn_foldl _ (fun e n => e.giveOne_onlyIn r n) _ d

theorem Dev.giveIref_decides (d : Dev) (r : RailIx) (ns : List PhaseIx) : d.Decides (d.giveIref r ns) r := by
  have hgives : d.GivesIref (d.giveIref r ns) r := foldl_related (P := fun a b : Dev => a.GivesIref b r) (fun e => .refl e r) .trans (fun e n => e.giveOne_gives r n) ns d
  have hframe := d.giveIref_onlyIn r ns
  have hrails : (d.giveIref r ns).rails = d.rails := hframe .rails (by decide)
  have hcyc : (d.giveIref r ns).cyc = d.cyc := foldl_related (P := fun a b : Dev => b.cyc = a.cyc) (fun _ => rfl) (fun h k => k.trans h) (fun e n => e.giveOne_cyc r n) ns d
  have houter : (d.giveIref r ns).loop.ctx[outerIx r]'(outerIx r).2 = d.loop.ctx[outerIx r]'(outerIx r).2 :=
    foldl_related (P := fun a b : Dev => b.loop.ctx[outerIx r]'(outerIx r).2 = a.loop.ctx[outerIx r]'(outerIx r).2) (fun _ => rfl) (fun h k => k.trans h) (fun e n => e.giveOne_outer r n) ns d
  exact ⟨⟨by rw [hgives.rails], by rw [hrails], fun _ _ => by rw [hrails], hframe.into⟩, ⟨by rw [hgives.rails], fun n => hgives.ref _⟩,
    ⟨hframe .sp (by decide), by rw [houter], by rw [show (d.giveIref r ns).prot = d.prot from hframe .prot (by decide)], by rw [hcyc], by rw [hcyc]; exact fun _ h => h⟩⟩

/-- A participant whose context is active has IREF as its REF. -/
theorem Dev.giveIref_given {d : Dev} {r : RailIx} {ns : List PhaseIx} {n : PhaseIx} (hns : ns.Nodup) (hn : n ∈ ns)
    (ha : ((d.giveIref r ns).loop.ctx[innerIx n]'(innerIx n).2).active = true) : ((d.giveIref r ns).loop.ctx[innerIx n]'(innerIx n).2).ref = ((d.giveIref r ns).loop.rails[r]'r.2).iref := by
  obtain ⟨e, hbefore, hafter⟩ := foldl_around (σ := Dev) (P := fun s t => s.GivesIref t r) (fun s => .refl s r) .trans (f := Dev.giveOne r) (x := n)
    (fun s m _ => s.giveOne_gives r m) ns hns hn d
  rw [Dev.giveIref_eq] at ha ⊢
  have hstep := e.giveOne_gives r n
  have hon : (e.loop.ctx[innerIx n]'(innerIx n).2).active = true := by rw [← hstep.active, ← hafter.active]; exact ha
  have hgiven : ((e.giveOne r n).loop.ctx[innerIx n]'(innerIx n).2).ref = (e.loop.rails[r]'r.2).iref := by
    rw [Dev.giveOne, if_pos hon, Dev.updCtx_get]
  have hiref : ((ns.foldl (Dev.giveOne r) d).loop.rails[r]'r.2).iref = (e.loop.rails[r]'r.2).iref := by rw [hafter.rails, hstep.rails]
  rw [hiref]
  rcases hafter.ref (innerIx n) with hx | hx
  · rw [hx, hgiven]
  · rw [hx, hstep.rails]

end Sys2Proof.Machine
end

section
/-! SUPPORT. The decisions of a rail in Flare at an update point. -/

namespace Sys2Proof.Machine

open Sys2Proof

/-! ## Pieces of the exit -/

theorem Dev.respread_keepsCodes (d : Dev) (r : RailIx) : d.KeepsCodes (d.respread r) := by
  refine Dev.respread_related (P := Dev.KeepsCodes) .refl .trans d r (fun e w => ?_) fun e n a k => ?_
  · exact fun _ => ⟨rfl, rfl, rfl⟩
  · rcases eq_or_ne k n with rfl | hk
    · rw [Dev.updPwm_get]
      exact ⟨rfl, rfl, rfl⟩
    · rw [Dev.updPwm_get_ne _ _ hk]
      exact ⟨rfl, rfl, rfl⟩

theorem Dev.respread_mask (d : Dev) (r : RailIx) : ∀ k : PhaseIx, ((d.respread r).pwm[k]'k.2).mask = (d.pwm[k]'k.2).mask := by
  refine Dev.respread_related (P := fun a b : Dev => ∀ k : PhaseIx, (b.pwm[k]'k.2).mask = (a.pwm[k]'k.2).mask) (fun _ _ => rfl) (fun h g k => (g k).trans (h k)) d r (fun _ _ _ => rfl) fun e n _ k => ?_
  rcases eq_or_ne k n with rfl | hk
  · rw [Dev.updPwm_get]
  · rw [Dev.updPwm_get_ne _ _ hk]

theorem Dev.respread_keepsRun (d : Dev) (r : RailIx) : d.KeepsRun (d.respread r) :=
  Dev.respread_related (P := Dev.KeepsRun) .refl .trans d r (fun e _ => e.updRail_keepsRun r _) fun e n _ => e.updPwm_keepsRun n _

theorem Dev.respread_decides (d : Dev) (r : RailIx) : d.Decides (d.respread r) r := by
  obtain ⟨w, hw⟩ := d.respread_railIs r
  exact (d.respread_keepsRun r).toKeepsLoop.decides hw rfl (d.respread_onlyIn r).into (by rw [show (d.respread r).prot = d.prot from d.respread_onlyIn r .prot (by decide)])

theorem Dev.preloadInner_keepsRun (d : Dev) (r : RailIx) (duty : BitVec 22) : d.KeepsRun (d.preloadInner r duty) :=
  Dev.keepsRun_foldl _ (fun e _ => Dev.keepsRun_ite (e.preload_keepsRun _ _ _ _)) _ d

theorem Dev.preloadInner_onlyIn (d : Dev) (r : RailIx) (duty : BitVec 22) : d.onlyIn (d.preloadInner r duty) [.loop] :=
  Dev.onlyIn_foldl _ (fun e _ => Dev.onlyIn_ite (e.preload_onlyIn _ _ _ _)) _ d

theorem Dev.changeMode_decides {d : Dev} {r : RailIx} {m : RailMode} (h : d.ModeChanged (d.changeMode r m)) : d.Decides (d.changeMode r m) r := by
  obtain ⟨since, olt, hrail⟩ := d.changeMode_railIs r m
  exact h.keeps.decides hrail rfl h.frame.into (h.uv r)

theorem Dev.raiseEvent_loop (d : Dev) (k : SrcIx) (i : PhaseIx) : (d.raiseEvent k i).cyc.no = d.cyc.no ∧ d.cyc.raised ⊆ (d.raiseEvent k i).cyc.raised ∧
    (d.srcLives k = true → (k, i) ∈ (d.raiseEvent k i).cyc.raised) ∧ (d.raiseEvent k i).cyc.masks = d.cyc.masks := by
  unfold Dev.raiseEvent
  extract_lets ended
  split
  · exact ⟨rfl, List.subset_cons_self _ _, fun _ => List.mem_cons_self, rfl⟩
  · next hlives => exact ⟨rfl, fun _ h => h, fun h => absurd h hlives, rfl⟩

theorem Dev.raiseEvent_decides (d : Dev) (k : SrcIx) (i : PhaseIx) (r : RailIx) : d.Decides (d.raiseEvent k i) r := by
  obtain ⟨hno, hraised, -, -⟩ := d.raiseEvent_loop k i
  have hframe := d.raiseEvent_onlyIn k i []
  have hl : (d.raiseEvent k i).loop = d.loop := hframe .loop (by decide)
  have hr : (d.raiseEvent k i).rails = d.rails := hframe .rails (by decide)
  have hp : (d.raiseEvent k i).prot = d.prot := hframe .prot (by decide)
  exact ⟨⟨by rw [hl], by rw [hr], fun _ _ => by rw [hr], hframe.into⟩, ⟨by rw [hl], fun _ => .inl (by rw [hl])⟩, ⟨hframe .sp (by decide), by rw [hl], by rw [hp], hno, hraised⟩⟩

theorem Dev.srcLives_flareTimeout (d : Dev) (r : RailIx) : d.srcLives (srcFlareTimeout r) = d.railDefined r := by
  have hrange : ∀ r : RailIx, (0x20 ≤ (srcFlareTimeout r).val ∧ (srcFlareTimeout r).val < 0x68) ∧ Fin.ofNat 8 ((srcFlareTimeout r).val % 8) = r := by decide
  obtain ⟨hr, hrail⟩ := hrange r
  unfold Dev.srcLives
  dsimp only
  rw [if_pos hr, hrail]

/-! ## The exit -/

/-- The rail's record after a Flare that ends at `now`. -/
structure Rail.LeftFlare (x y : Rail) (now : Tick) (late : Bool) : Prop where
  flare : y.flare = none
  exit : y.flareLastExit = some now
  timeouts : y.timeouts = if late then x.timeouts + 1 else x.timeouts
  mode : y.mode = .regulate
  dwell : y.emberEn = x.emberEn ∧ y.emberSince = x.emberSince ∧ y.emberDwell = x.emberDwell

/-- A Flare of rail `r` has ended, by its time where `late`. -/
structure Dev.FlareLeft (a e : Dev) (r : RailIx) (late : Bool) : Prop where
  decides : a.Decides e r
  rail : ∃ y, a.RailIs e r y ∧ (a.rails[r]'r.2).LeftFlare y a.clk.now late
  phases : ∀ n : PhaseIx, a.railOf n = some r → (a.pwm[n]'n.2).flareOn = true → a.Leaves e r n
  given : ∀ n : PhaseIx, a.railOf n = some r → (a.pwm[n]'n.2).flareOn = true → (a.rails[r]'r.2).drained.getLsbD n.val = false →
    (e.loop.ctx[innerIx n]'(innerIx n).2).active = true → (e.loop.ctx[innerIx n]'(innerIx n).2).ref = (e.loop.rails[r]'r.2).iref
  cause : late = true → a.railDefined r = true → (srcFlareTimeout r, 0) ∈ e.cyc.raised

/-- The Flare's record ends, with the event of its time. -/
def Dev.flareOut (d : Dev) (r : RailIx) (late : Bool) : Dev :=
  let d := (d.event (0x0498 + r.val)).updRail r fun x =>
    { x with flare := none, flareLastExit := some d.clk.now, burst := none, timeouts := if late then x.timeouts + 1 else x.timeouts }
  if late then d.raiseEvent (srcFlareTimeout r) 0 else d

/-- The rail's contexts after the Flare: a rail in EMBER goes to REGULATE. -/
def Dev.flareMode (d : Dev) (r : RailIx) (m : RailMode) : Dev := if m = .ember then (d.endBursts r).changeMode r .regulate else d.syncCtx r

/-- The hand-over to REGULATE after a Flare (R312). -/
def Dev.flareHandOver (d : Dev) (r : RailIx) (duty : BitVec 22) : Dev :=
  let d := match d.meanM r with
    | some m => if (d.loop.ctx[outerIx r]'(outerIx r).2).active then d.preload (outerIx r) hoMode (some m) else d
    | none => d
  d.preloadInner r duty

/-- The participants kept at the exit. -/
def Dev.keptPhases (d : Dev) (r : RailIx) : List PhaseIx := (d.members r).filter fun n => (d.pwm[n]'n.2).flareOn && !(d.rails[r]'r.2).drained.getLsbD n.val

theorem Dev.flareExit_eq (d : Dev) (r : RailIx) (late : Bool) : d.flareExit r late =
    ((((((d.flareOut r late).leaveAll r).flareMode r (d.rails[r]'r.2).mode).giveIref r (d.keptPhases r)).flareHandOver r (d.rails[r]'r.2).flareDuty).respread r) := rfl

theorem Dev.flareHandOver_keepsRun (d : Dev) (r : RailIx) (duty : BitVec 22) : d.KeepsRun (d.flareHandOver r duty) := by
  unfold Dev.flareHandOver
  extract_lets outer
  have houter : d.KeepsRun outer := by
    unfold outer
    split
    · exact Dev.keepsRun_ite (d.preload_keepsRun _ _ _ _)
    · exact .refl d
  exact houter.trans (outer.preloadInner_keepsRun r duty)

theorem Dev.flareHandOver_onlyIn (d : Dev) (r : RailIx) (duty : BitVec 22) : d.onlyIn (d.flareHandOver r duty) [.loop] := by
  unfold Dev.flareHandOver
  extract_lets outer
  have houter : d.onlyIn outer [.loop] := by
    unfold outer
    split
    · exact Dev.onlyIn_ite (d.preload_onlyIn _ _ _ _)
    · exact d.onlyIn_refl _
  exact houter.thenIn (outer.preloadInner_onlyIn r duty)

theorem Dev.flareOut_decides (d : Dev) (r : RailIx) (late : Bool) : d.Decides (d.flareOut r late) r ∧ d.onlyIn (d.flareOut r late) [.fault, .rails] ∧
    (late = true → d.railDefined r = true → (srcFlareTimeout r, 0) ∈ (d.flareOut r late).cyc.raised) ∧ (d.flareOut r late).cyc.masks = d.cyc.masks := by
  unfold Dev.flareOut
  extract_lets ended
  have hended : d.Decides ended r := (Dev.Quiet.decides (d.event_quiet _) r).trans (Dev.updRail_decides _ r _)
  have hframe : d.onlyIn ended [.fault, .rails] := (d.event_onlyIn _).into.thenIn (Dev.updRail_onlyIn _ r _)
  cases late with
  | false => exact ⟨hended, hframe, fun h => (by cases h), rfl⟩
  | true =>
    obtain ⟨-, -, hin, hmasks⟩ := ended.raiseEvent_loop (srcFlareTimeout r) 0
    exact ⟨hended.trans (ended.raiseEvent_decides _ _ r), hframe.thenIn (ended.raiseEvent_onlyIn _ _ []),
      fun _ hdef => hin ((ended.srcLives_flareTimeout r).trans hdef), hmasks⟩

/-- The rail's record once the Flare has ended, before its mode follows. -/
def Rail.flareOut (x : Rail) (now : Tick) (late : Bool) : Rail :=
  { x with flare := none, flareLastExit := some now, burst := none, timeouts := if late then x.timeouts + 1 else x.timeouts }

theorem Dev.flareOut_railIs (d : Dev) (r : RailIx) (late : Bool) : d.RailIs (d.flareOut r late) r ((d.rails[r]'r.2).flareOut d.clk.now late) := by
  have hended : d.RailIs ((d.event (0x0498 + r.val)).updRail r fun x => x.flareOut d.clk.now late) r ((d.rails[r]'r.2).flareOut d.clk.now late) :=
    (Dev.railIs_of_onlyIn r (d.event_onlyIn _)).thenUpd _
  cases late with
  | false => exact hended
  | true => exact hended.thenKeeps (Dev.raiseEvent_onlyIn _ (srcFlareTimeout r) 0 [])

theorem Dev.endBursts_decides (d : Dev) (r : RailIx) : d.Decides (d.endBursts r) r :=
  ((d.emberMask_quiet r false).decides r).trans (Dev.updRail_decides _ r _)

theorem Dev.endBursts_onlyIn (d : Dev) (r : RailIx) : d.onlyIn (d.endBursts r) [.pwm, .fault, .rails] :=
  (d.emberMask_quiet r false).frame.into.thenIn (Dev.updRail_onlyIn _ r _)

/-- The record of a rail whose bursts have ended. -/
def Rail.burstsEnd (x : Rail) : Rail := { x with burst := none, burstMembers := 0, shortSleeps := 0, staleRun := 0 }

theorem Dev.endBursts_railIs (d : Dev) (r : RailIx) : d.RailIs (d.endBursts r) r (d.rails[r]'r.2).burstsEnd :=
  (Dev.railIs_of_onlyIn r (d.emberMask_quiet r false).frame).thenUpd _

theorem Dev.endBursts_unmasks (d : Dev) (r : RailIx) : d.Unmasks (d.endBursts r) := by
  obtain ⟨hcyc, hclk, hcodes, hshed, hember⟩ := d.emberMask_unmasks r
  exact ⟨hcyc, hclk, hcodes, hshed, hember⟩

/-- What follows the exit of a rail that was in REGULATE or EMBER, for its record and its phases. -/
structure Dev.ModeAfter (d e : Dev) (r : RailIx) : Prop where
  decides : d.Decides e r
  rail : ∃ y, d.RailIs e r y ∧ y.mode = .regulate ∧ (y.flare = (d.rails[r]'r.2).flare ∧ y.flareLastExit = (d.rails[r]'r.2).flareLastExit ∧ y.timeouts = (d.rails[r]'r.2).timeouts) ∧
    y.emberEn = (d.rails[r]'r.2).emberEn ∧ y.emberSince = (d.rails[r]'r.2).emberSince ∧ y.emberDwell = (d.rails[r]'r.2).emberDwell
  frame : d.onlyIn e [.pwm, .rails, .loop, .prot, .fault]
  codes : d.KeepsCodes e
  shed : ∀ n : PhaseIx, (d.setNow n).shed = false → (d.pwm[n]'n.2).mask.shed = false → (e.pwm[n]'n.2).mask.shed = false
  ember : ∀ n : PhaseIx, (d.setNow n).ember = false → (d.pwm[n]'n.2).mask.ember = false → (e.pwm[n]'n.2).mask.ember = false

/-- The bursts end and the rail goes from EMBER to REGULATE. -/
theorem Dev.endBursts_modeAfter {d : Dev} {r : RailIx} (h : (d.rails[r]'r.2).mode = .ember) : d.ModeAfter ((d.endBursts r).changeMode r .regulate) r := by
  have hrail := d.endBursts_railIs r
  have hmode : ((d.endBursts r).rails[r]'r.2).mode = .ember := by
    rw [hrail.get]
    exact h
  have hchange : (d.endBursts r).ModeChanged ((d.endBursts r).changeMode r .regulate) :=
    Dev.changeMode_on (by rw [hmode]; decide) (by rw [hmode]; decide) (by decide)
  obtain ⟨since, olt, hset⟩ := hrail.thenMode .regulate
  have hpwm : ((d.endBursts r).changeMode r .regulate).pwm = (d.endBursts r).pwm := hchange.frame .pwm (by decide)
  obtain ⟨-, -, hcodes, hshed, hember⟩ := d.endBursts_unmasks r
  exact ⟨(d.endBursts_decides r).trans (Dev.changeMode_decides hchange), ⟨_, hset, rfl, ⟨rfl, rfl, rfl⟩, rfl, rfl, rfl⟩,
    (d.endBursts_onlyIn r).into.thenIn hchange.frame, hcodes.trans (Dev.keepsCodes_of_frame hchange.frame),
    fun n hs hm => by rw [hpwm]; exact hshed n hs hm, fun n hs hm => by rw [hpwm]; exact hember n hs hm⟩

theorem Dev.flareMode_modeAfter {d : Dev} {r : RailIx} {m : RailMode} (hd : (d.rails[r]'r.2).mode = m) (hm : m = .regulate ∨ m = .ember) :
    d.ModeAfter (d.flareMode r m) r := by
  rcases hm with rfl | rfl
  · have hframe := d.syncCtx_onlyIn r
    have hpwm : (d.syncCtx r).pwm = d.pwm := hframe .pwm (by decide)
    have hsync : d.flareMode r .regulate = d.syncCtx r := if_neg (by decide)
    rw [hsync]
    exact ⟨(d.syncCtx_keepsLoop r).decidesLoop hframe.into, ⟨_, Dev.railIs_of_onlyIn r hframe, hd, ⟨rfl, rfl, rfl⟩, rfl, rfl, rfl⟩, hframe.into,
      Dev.keepsCodes_of_frame hframe, fun n _ h => by rw [hpwm]; exact h, fun n _ h => by rw [hpwm]; exact h⟩
  · exact Dev.endBursts_modeAfter hd

theorem Dev.setNow_eq {d e : Dev} (hclk : e.clk = d.clk) (hno : e.cyc.no = d.cyc.no) (hmasks : e.cyc.masks = d.cyc.masks) (n : PhaseIx) : e.setNow n = d.setNow n := by
  rw [Dev.setNow, Dev.setNow, hno, hmasks, show e.cycle = d.cycle by rw [Dev.cycle, hclk, Dev.cycle]]

theorem Dev.flareExit_left {d : Dev} {r : RailIx} (late : Bool) (hm : (d.rails[r]'r.2).mode = .regulate ∨ (d.rails[r]'r.2).mode = .ember) :
    d.FlareLeft (d.flareExit r late) r late := by
  obtain ⟨hout, hfout, hin, hmasks⟩ := d.flareOut_decides r late
  have hrout := d.flareOut_railIs r late
  rw [Dev.flareExit_eq]
  generalize d.flareOut r late = out at hout hfout hin hmasks hrout ⊢
  have hquiet := out.leaveAll_quiet r
  have hleaves := fun n => out.leaveAll_leaves (r := r) (n := n)
  have hlcyc := out.leaveAll_cyc r
  generalize out.leaveAll r = left at hquiet hleaves hlcyc ⊢
  have hrleft := hrout.thenKeeps hquiet.frame
  have hafter : left.ModeAfter (left.flareMode r (d.rails[r]'r.2).mode) r := Dev.flareMode_modeAfter (by rw [hrleft.get]; rfl) hm
  generalize left.flareMode r (d.rails[r]'r.2).mode = moded at hafter ⊢
  obtain ⟨hmdec, ⟨y, hry, hymode, ⟨hyfl, hyexit, hytime⟩, hyen, hysince, hydwell⟩, hmframe, hmcodes, hmshed, hmember⟩ := hafter
  rw [hrleft.get] at hyfl hyexit hytime hyen hysince hydwell
  have hgiven := fun n => Dev.giveIref_given (d := moded) (r := r) (ns := d.keptPhases r) (n := n) ((d.members_nodup r).filter _)
  have hgdec := moded.giveIref_decides r (d.keptPhases r)
  have hgframe := moded.giveIref_onlyIn r (d.keptPhases r)
  generalize moded.giveIref r (d.keptPhases r) = given at hgiven hgdec hgframe ⊢
  have hhand := given.flareHandOver_keepsRun r (d.rails[r]'r.2).flareDuty
  have hhframe := given.flareHandOver_onlyIn r (d.rails[r]'r.2).flareDuty
  generalize given.flareHandOver r (d.rails[r]'r.2).flareDuty = handed at hhand hhframe ⊢
  have hrun := hhand.trans (handed.respread_keepsRun r)
  have hdec := (((hout.trans (hquiet.decides r)).trans hmdec).trans hgdec).trans ((hhand.toKeepsLoop.decidesLoop hhframe.into).trans (handed.respread_decides r))
  obtain ⟨w, hrw⟩ := ((((hrleft.trans hry).thenKeeps hgframe).thenKeeps hhframe).thenRespread)
  refine ⟨hdec, ⟨_, hrw, ⟨hyfl, hyexit, hytime, hymode, hyen, hysince, hydwell⟩⟩, fun n hn hf => ?_, fun n hn hf hdr ha => ?_, fun hl hdef => ?_⟩
  · have hpout : out.pwm = d.pwm := hfout .pwm (by decide)
    have hcout : out.clk = d.clk := hfout .clk (by decide)
    have htile : out.tile = d.tile := hfout .tile (by decide)
    have hnow : out.setNow n = d.setNow n := Dev.setNow_eq hcout hout.aim.no hmasks n
    have hleft : left.setNow n = out.setNow n := Dev.setNow_eq (hquiet.frame .clk (by decide)) (by rw [hlcyc]) (by rw [hlcyc]) n
    have hl := (((hleaves n (by rw [Dev.railOf, htile]; exact hn) (by rw [hpout]; exact hf)).then hmcodes (by rw [← hleft]; exact hmshed n)
      (by rw [← hleft]; exact hmember n)).thenFrame hgframe).thenFrame hhframe
    obtain ⟨hshadow, hshed, hember⟩ := hl.then (handed.respread_keepsCodes r) (fun _ hm => by rw [Dev.respread_mask]; exact hm) fun _ hm => by rw [Dev.respread_mask]; exact hm
    rw [hrout.get, Dev.cycleTick_of_clk hcout] at hshadow
    rw [hrout.get, hnow] at hshed hember
    exact ⟨hshadow, hshed, hember⟩
  · have hmem : n ∈ d.keptPhases r := List.mem_filter.2 ⟨Dev.mem_members.2 hn, by rw [hf, hdr]; rfl⟩
    have hiref := congrArg RailLoop.iref (hrun.rail r)
    rw [hrun.ref, hgiven n hmem (by rw [← hrun.active]; exact ha)]
    exact hiref.symm
  · exact ((((hquiet.decides r).trans hmdec).trans hgdec).trans ((hhand.toKeepsLoop.decidesLoop hhframe.into).trans (handed.respread_decides r))).aim.raised (hin hl hdef)

end Sys2Proof.Machine
end

section
/-! SUPPORT. The decisions of an update point in Flare and in EMBER. -/

namespace Sys2Proof.Machine

open Sys2Proof

/-! ## Recovery and time of a Flare (R333) -/

/-- A Flare that began at `f` ends by recovery, and by its time. -/
def Dev.recovers (d : Dev) (r : RailIx) (f : Tick) : Prop :=
  (∃ l : AccResult, (d.accOf (outerIx r)).latest = some l ∧ f < l.at_) ∧ d.targetMv r - (d.rails[r]'r.2).flareRec.toNat ≤ (d.rails[r]'r.2).vout.toInt ∧ (d.prot.wins[r]'r.2).uv = false

def Dev.flareEnds (d : Dev) (r : RailIx) (f : Tick) : Prop := f + (d.rails[r]'r.2).flareTime.toNat * 480 ≤ d.clk.now

/-- A result of the outer context's accumulator is later than the entry. -/
def Acc.laterThan (a : Acc) (f : Tick) : Bool := match a.latest with
  | some l => decide (f < l.at_)
  | none => false

theorem Acc.laterThan_iff (a : Acc) (f : Tick) : a.laterThan f = true ↔ ∃ l : AccResult, a.latest = some l ∧ f < l.at_ := by
  unfold Acc.laterThan
  cases a.latest with
  | none => simp
  | some l => simp

theorem Dev.flarePoint_some {d : Dev} {r : RailIx} {f : Tick} (hf : (d.rails[r]'r.2).flare = some f) : d.flarePoint r =
    if (d.accOf (outerIx r)).laterThan f && decide (d.targetMv r - (d.rails[r]'r.2).flareRec.toNat ≤ (d.rails[r]'r.2).vout.toInt) && !(d.prot.wins[r]'r.2).uv then d.flareExit r false
    else if f + (d.rails[r]'r.2).flareTime.toNat * usTicks ≤ d.clk.now then d.flareExit r true else d := by
  unfold Dev.flarePoint
  extract_lets x
  have hx : x.flare = some f := hf
  rw [hx]
  rfl

theorem Dev.flarePoint_recovers {d : Dev} {r : RailIx} {f : Tick} (hf : (d.rails[r]'r.2).flare = some f) :
    (d.recovers r f → d.flarePoint r = d.flareExit r false) ∧ (¬d.recovers r f → d.flareEnds r f → d.flarePoint r = d.flareExit r true) ∧
    (¬d.recovers r f → ¬d.flareEnds r f → d.flarePoint r = d) := by
  have hiff : ((d.accOf (outerIx r)).laterThan f && decide (d.targetMv r - (d.rails[r]'r.2).flareRec.toNat ≤ (d.rails[r]'r.2).vout.toInt) && !(d.prot.wins[r]'r.2).uv) = true ↔ d.recovers r f := by
    rw [Dev.recovers, ← Acc.laterThan_iff, Bool.and_eq_true_iff, Bool.and_eq_true_iff, decide_eq_true_iff, Bool.not_eq_true', and_assoc]
  rw [Dev.flarePoint_some hf]
  refine ⟨fun h => if_pos (hiff.2 h), fun h hl => ?_, fun h hl => ?_⟩
  · rw [if_neg (mt hiff.1 h)]
    exact if_pos hl
  · rw [if_neg (mt hiff.1 h)]
    exact if_neg hl

/-! ## EMBER's bursts (R328 to R330) -/

/-- The bursts' record of a rail in EMBER. -/
structure Dev.LeftEmber (d e : Dev) (r : RailIx) : Prop where
  decides : d.Decides e r
  rail : ∃ y, d.RailIs e r y ∧ y.mode = .regulate ∧ y.burst = none ∧ y.flare = (d.rails[r]'r.2).flare ∧
    y.emberEn = (d.rails[r]'r.2).emberEn ∧ y.emberSince = (d.rails[r]'r.2).emberSince ∧ y.emberDwell = (d.rails[r]'r.2).emberDwell
  woken : ∀ n : PhaseIx, d.railOf n = some r → (d.rails[r]'r.2).burstMembers.getLsbD n.val = true → (d.setNow n).ember = false → (e.pwm[n]'n.2).mask.ember = false

/-- The hand-over of R312 as a rail leaves EMBER. -/
def Dev.emberHandOver (d : Dev) (r : RailIx) (x : Rail) : Dev :=
  let a := d.activeCount r
  let c := outerIx r
  let d := if a = 0 || !(d.loop.ctx[c]'c.2).active then d
    else if x.iscale = 0 then
      let (w, d) := d.fresh
      d.preload c hoMode (some w.toInt)
    else d.preload c hoMode (some (rhe ((d.loop.rails[r]'r.2).keyI.toInt * 1000) (x.iscale.toNat * a)))
  d.preloadInner r x.packetDuty

theorem Dev.leaveEmber_eq (d : Dev) (r : RailIx) : d.leaveEmber r = ((d.endBursts r).changeMode r .regulate).emberHandOver r (d.rails[r]'r.2) := rfl

theorem Dev.emberHandOver_keeps (d : Dev) (r : RailIx) (x : Rail) : d.KeepsLoop (d.emberHandOver r x) ∧ d.onlyIn (d.emberHandOver r x) [.loop, .free] := by
  unfold Dev.emberHandOver
  extract_lets a c outer
  have houter : d.KeepsLoop outer ∧ d.onlyIn outer [.loop, .free] := by
    unfold outer
    split
    · exact ⟨.refl d, d.onlyIn_refl _⟩
    · split
      · have hfresh : d.KeepsRun d.fresh.2 := Dev.keepsRun_of_eq rfl rfl rfl
        exact ⟨(hfresh.trans (Dev.preload_keepsRun _ _ _ _ _)).toKeepsLoop, (d.onlyIn_free _).into.thenIn (Dev.preload_onlyIn _ _ _ _ _)⟩
      · exact ⟨(d.preload_keepsRun _ _ _ _).toKeepsLoop, (d.preload_onlyIn _ _ _ _).into⟩
  exact ⟨houter.1.trans (outer.preloadInner_keepsRun r _).toKeepsLoop, houter.2.thenIn (outer.preloadInner_onlyIn r _)⟩

theorem Dev.leaveEmber_left {d : Dev} {r : RailIx} (h : (d.rails[r]'r.2).mode = .ember) : d.LeftEmber (d.leaveEmber r) r := by
  rw [Dev.leaveEmber_eq]
  have hrail := d.endBursts_railIs r
  have hmode : ((d.endBursts r).rails[r]'r.2).mode = .ember := by
    rw [hrail.get]
    exact h
  have hchange : (d.endBursts r).ModeChanged ((d.endBursts r).changeMode r .regulate) :=
    Dev.changeMode_on (by rw [hmode]; decide) (by rw [hmode]; decide) (by decide)
  obtain ⟨since, olt, hset⟩ := hrail.thenMode .regulate
  obtain ⟨hkeep, hframe⟩ := ((d.endBursts r).changeMode r .regulate).emberHandOver_keeps r (d.rails[r]'r.2)
  have hpwm : (((d.endBursts r).changeMode r .regulate).emberHandOver r (d.rails[r]'r.2)).pwm = (d.endBursts r).pwm :=
    (hframe .pwm (by decide)).trans (hchange.frame .pwm (by decide))
  refine ⟨((d.endBursts_decides r).trans (Dev.changeMode_decides hchange)).trans (hkeep.decidesLoop hframe.into),
    ⟨_, hset.thenKeeps hframe, rfl, rfl, rfl, rfl, rfl, rfl⟩, fun n hn hb hs => ?_⟩
  rw [hpwm]
  exact ((Dev.emberMask_member false hn hb).2 rfl).trans hs

/-- A burst has begun. -/
structure Dev.BurstBegun (d e : Dev) (r : RailIx) : Prop where
  decides : d.Decides e r
  rail : d.RailIs e r { d.rails[r]'r.2 with burst := some d.clk.now, packetDuty := (d.rails[r]'r.2).emberDuty }
  woken : ∀ n : PhaseIx, d.railOf n = some r → (d.rails[r]'r.2).burstMembers.getLsbD n.val = true → (d.setNow n).ember = false → (e.pwm[n]'n.2).mask.ember = false
  written : ∀ n : PhaseIx, d.railOf n = some r → (d.rails[r]'r.2).burstMembers.getLsbD n.val = true → d.srcHost n = false → (d.pwm[n]'n.2).flareOn = false →
    (e.pwm[n]'n.2).loopShadow = some { duty := (d.rails[r]'r.2).emberDuty, at_ := d.cycleTick }

theorem Dev.loopWrite_quiet (d : Dev) (n : PhaseIx) (code : BitVec 22) : d.Quiet (d.loopWrite n code) := by
  unfold Dev.loopWrite
  split
  · exact .refl d
  · exact d.updPwm_quiet n _

theorem Dev.loopWrite_ne (d : Dev) {n k : PhaseIx} (code : BitVec 22) (h : k ≠ n) : (d.loopWrite n code).pwm[k]'k.2 = d.pwm[k]'k.2 := by
  unfold Dev.loopWrite
  split
  · rfl
  · exact d.updPwm_get_ne _ h

theorem Dev.loopWrite_mask (d : Dev) (n : PhaseIx) (code : BitVec 22) (k : PhaseIx) : ((d.loopWrite n code).pwm[k]'k.2).mask = (d.pwm[k]'k.2).mask := by
  unfold Dev.loopWrite
  split
  · rfl
  · rcases eq_or_ne k n with rfl | hk
    · rw [Dev.updPwm_get]
    · rw [Dev.updPwm_get_ne _ _ hk]

theorem Dev.loopWrite_taken {d : Dev} {n : PhaseIx} (code : BitVec 22) (hs : d.srcHost n = false) (hf : (d.pwm[n]'n.2).flareOn = false) :
    ((d.loopWrite n code).pwm[n]'n.2).loopShadow = some { duty := code, at_ := d.cycleTick } := by
  have hfree : ¬(d.srcHost n || (d.pwm[n]'n.2).flareOn) = true := by
    rw [hs, hf]
    decide
  unfold Dev.loopWrite
  rw [if_neg hfree, Dev.updPwm_get]

/-- The packet duty is written for every burst member `w` names. -/
def Dev.packetWrites (d : Dev) (r : RailIx) (w : BitVec 64) (code : BitVec 22) : Dev :=
  (d.members r).foldl (fun d n => if w.getLsbD n.val then d.loopWrite n code else d) d

theorem Dev.packetWrites_quiet (d : Dev) (r : RailIx) (w : BitVec 64) (code : BitVec 22) : d.Quiet (d.packetWrites r w code) :=
  Dev.quiet_foldl _ (fun e n => Dev.quiet_ite (e.loopWrite_quiet n code)) _ d

theorem Dev.packetWrites_mask (d : Dev) (r : RailIx) (w : BitVec 64) (code : BitVec 22) (k : PhaseIx) : ((d.packetWrites r w code).pwm[k]'k.2).mask = (d.pwm[k]'k.2).mask := by
  refine foldl_related (P := fun a b : Dev => (b.pwm[k]'k.2).mask = (a.pwm[k]'k.2).mask) (fun _ => rfl) (fun h g => g.trans h) (fun e n => ?_) _ d
  split
  · exact e.loopWrite_mask n code k
  · rfl

theorem Dev.packetWrites_taken {d : Dev} {r : RailIx} {n : PhaseIx} {w : BitVec 64} (code : BitVec 22) (hn : d.railOf n = some r) (hb : w.getLsbD n.val = true)
    (hs : d.srcHost n = false) (hf : (d.pwm[n]'n.2).flareOn = false) : ((d.packetWrites r w code).pwm[n]'n.2).loopShadow = some { duty := code, at_ := d.cycleTick } := by
  obtain ⟨e, ⟨hpwm, htile, hclk⟩, hlast, -⟩ := foldl_around (σ := Dev) (P := fun s t => t.pwm[n]'n.2 = s.pwm[n]'n.2 ∧ t.tile = s.tile ∧ t.clk = s.clk)
    (fun _ => ⟨rfl, rfl, rfl⟩) (fun ⟨h1, h2, h3⟩ ⟨k1, k2, k3⟩ => ⟨k1.trans h1, k2.trans h2, k3.trans h3⟩)
    (f := fun d m => if w.getLsbD m.val then d.loopWrite m code else d) (x := n)
    (fun s m hm => by
      split
      · exact ⟨s.loopWrite_ne code hm.symm, (s.loopWrite_quiet m code).frame .tile (by decide), (s.loopWrite_quiet m code).frame .clk (by decide)⟩
      · exact ⟨rfl, rfl, rfl⟩)
    (d.members r) (d.members_nodup r) (Dev.mem_members.2 hn) d
  have hhost : e.srcHost n = false := by
    unfold Dev.srcHost at hs ⊢
    rw [htile, hpwm]
    exact hs
  unfold Dev.packetWrites
  rw [hlast, if_pos hb, Dev.loopWrite_taken code hhost (by rw [hpwm]; exact hf), Dev.cycleTick_of_clk hclk]

theorem Dev.beginBurst_begun (d : Dev) (r : RailIx) : d.BurstBegun (d.beginBurst r) r := by
  let woken := d.emberMask r false
  let begun := woken.updRail r fun x => { x with burst := some d.clk.now, packetDuty := x.emberDuty }
  have hquiet := d.emberMask_quiet r false
  have hcodes := d.emberMask_keepsCodes r false
  have hwrites := begun.packetWrites_quiet r (d.rails[r]'r.2).burstMembers (d.rails[r]'r.2).emberDuty
  have hlast : (d.beginBurst r) = (begun.packetWrites r (d.rails[r]'r.2).burstMembers (d.rails[r]'r.2).emberDuty).event (0x0480 + r.val) := rfl
  have htile : begun.tile = d.tile := hquiet.frame .tile (by decide)
  have hclk : begun.clk = d.clk := hquiet.frame .clk (by decide)
  have hrail : ∀ n : PhaseIx, begun.railOf n = d.railOf n := fun n => by rw [Dev.railOf, htile, Dev.railOf]
  have hfinal := hwrites.trans (Dev.event_quiet _ (0x0480 + r.val))
  rw [hlast]
  refine ⟨((hquiet.decides r).trans (woken.updRail_decides r _)).trans (hfinal.decides r), ((Dev.railIs_of_onlyIn r hquiet.frame).thenUpd _).thenKeeps hfinal.frame,
    fun n hn hb hs => ?_, fun n hn hb hs hf => ?_⟩
  · rw [Dev.event_pwm_get, Dev.packetWrites_mask]
    exact ((Dev.emberMask_member false hn hb).2 rfl).trans hs
  · obtain ⟨-, hflare, hovr⟩ := hcodes n
    have hhost : begun.srcHost n = false := by
      unfold Dev.srcHost at hs ⊢
      rw [htile, show (begun.pwm[n]'n.2).hostOvr = (d.pwm[n]'n.2).hostOvr from hovr]
      exact hs
    rw [Dev.event_pwm_get, Dev.packetWrites_taken _ ((hrail n).trans hn) hb hhost (hflare.trans hf), Dev.cycleTick_of_clk hclk]

/-- A burst has ended. -/
theorem Dev.endBurst_ended (d : Dev) (r : RailIx) : d.Decides (d.endBurst r) r ∧ d.RailIs (d.endBurst r) r { d.rails[r]'r.2 with burst := none, sleepSince := d.clk.now } ∧
    ∀ n : PhaseIx, d.railOf n = some r → (d.rails[r]'r.2).burstMembers.getLsbD n.val = true → ((d.endBurst r).pwm[n]'n.2).mask.ember = true := by
  have hquiet := d.emberMask_quiet r true
  have hclk : (d.emberMask r true).clk = d.clk := hquiet.frame .clk (by decide)
  refine ⟨((hquiet.decides r).trans (Dev.updRail_decides _ r _)).trans ((Dev.event_quiet _ _).decides r), ?_, fun n hn hb => ?_⟩
  · have hset := ((Dev.railIs_of_onlyIn r hquiet.frame).thenUpd fun x => { x with burst := none, sleepSince := (d.emberMask r true).clk.now }).thenKeeps (Dev.event_onlyIn _ (0x0488 + r.val))
    rw [hclk] at hset
    exact hset
  · exact (Dev.emberMask_member true hn hb).1 rfl

end Sys2Proof.Machine
end

section
/-! SUPPORT. An update point of a rail in EMBER, and the way into it. -/

namespace Sys2Proof.Machine

open Sys2Proof

/-! ## What an update point counts (R329, R330) -/

/-- The rail sleeps and VOUT has fallen by EMB_LO below the target. -/
def Rail.wakes (x : Rail) (aim : Int) : Prop := x.burst = none ∧ x.vout.toInt ≤ aim - x.embLo.toNat

/-- Short sleeps in a row, and stale update points in a row. -/
def Rail.sleeps (x : Rail) (aim : Int) (now : Tick) : Nat :=
  if x.burst = none ∧ x.vout.toInt ≤ aim - x.embLo.toNat then (if now - x.sleepSince < x.minSleep.toNat * 4800 then x.shortSleeps + 1 else 0) else x.shortSleeps
def Rail.stales (x : Rail) : Nat := if x.vstale = true then x.staleRun + 1 else 0

/-- The rail leaves EMBER. -/
def Rail.leavesEmber (x : Rail) (aim : Int) (now : Tick) : Prop :=
  x.vout.toInt ≤ aim - x.embExit.toNat ∨ 4 ≤ x.sleeps aim now ∨ x.emberEn = false ∨ 4 ≤ x.stales

/-- A burst that began at `b` ends. -/
def Dev.burstEnds (d : Dev) (r : RailIx) (b : Tick) : Prop :=
  b + (d.rails[r]'r.2).pktLen.toNat * 2 * (d.pwmg.refs[r]'r.2).per.toNat ≤ d.clk.now ∨ d.targetMv r + (d.rails[r]'r.2).embHi.toNat ≤ (d.rails[r]'r.2).vout.toInt

/-- The counts are taken. -/
def Dev.counted (d : Dev) (r : RailIx) : Dev :=
  d.updRail r fun x => { x with shortSleeps := (d.rails[r]'r.2).sleeps (d.targetMv r) d.clk.now, staleRun := (d.rails[r]'r.2).stales }

theorem Rail.wakes_iff (x : Rail) (aim : Int) : (x.burst.isNone && decide (x.vout.toInt ≤ aim - x.embLo.toNat)) = true ↔ x.wakes aim := by
  rw [Rail.wakes, Bool.and_eq_true_iff, Option.isNone_iff_eq_none, decide_eq_true_iff]

theorem Rail.sleeps_eq (x : Rail) (aim : Int) (now : Tick) : x.sleeps aim now =
    if x.burst.isNone && decide (x.vout.toInt ≤ aim - x.embLo.toNat) then (if now - x.sleepSince < x.minSleep.toNat * 10 * usTicks then x.shortSleeps + 1 else 0) else x.shortSleeps := by
  have husTicks : x.minSleep.toNat * 10 * usTicks = x.minSleep.toNat * 4800 := by
    rw [Nat.mul_assoc]
    rfl
  unfold Rail.sleeps
  rw [husTicks]
  exact if_congr (x.wakes_iff aim).symm rfl rfl

theorem Dev.emberPoint_eq (d : Dev) (r : RailIx) : d.emberPoint r =
    if decide ((d.rails[r]'r.2).vout.toInt ≤ d.targetMv r - (d.rails[r]'r.2).embExit.toNat) || decide (4 ≤ (d.rails[r]'r.2).sleeps (d.targetMv r) d.clk.now) || !(d.rails[r]'r.2).emberEn ||
        decide (4 ≤ (d.rails[r]'r.2).stales) then (d.counted r).leaveEmber r
    else if (d.rails[r]'r.2).burst.isNone && decide ((d.rails[r]'r.2).vout.toInt ≤ d.targetMv r - (d.rails[r]'r.2).embLo.toNat) then (d.counted r).beginBurst r
    else match (d.rails[r]'r.2).burst with
      | some b => if b + (d.rails[r]'r.2).pktLen.toNat * 2 * (d.pwmg.refs[r]'r.2).per.toNat ≤ d.clk.now || decide (d.targetMv r + (d.rails[r]'r.2).embHi.toNat ≤ (d.rails[r]'r.2).vout.toInt) then
          (d.counted r).endBurst r else d.counted r
      | none => d.counted r := by
  unfold Dev.counted
  rw [Rail.sleeps_eq]
  rfl

theorem Dev.emberPoint_leaves {d : Dev} {r : RailIx} (h : (d.rails[r]'r.2).leavesEmber (d.targetMv r) d.clk.now) : d.emberPoint r = (d.counted r).leaveEmber r := by
  rw [Dev.emberPoint_eq]
  refine if_pos ?_
  unfold Rail.leavesEmber at h
  simpa [or_assoc] using h

theorem Dev.emberPoint_stays {d : Dev} {r : RailIx} (h : ¬(d.rails[r]'r.2).leavesEmber (d.targetMv r) d.clk.now) :
    ((d.rails[r]'r.2).wakes (d.targetMv r) → d.emberPoint r = (d.counted r).beginBurst r) ∧
    (¬(d.rails[r]'r.2).wakes (d.targetMv r) → (d.rails[r]'r.2).burst = none → d.emberPoint r = d.counted r) ∧
    ∀ b : Tick, (d.rails[r]'r.2).burst = some b → (d.burstEnds r b → d.emberPoint r = (d.counted r).endBurst r) ∧ (¬d.burstEnds r b → d.emberPoint r = d.counted r) := by
  rw [Dev.emberPoint_eq, if_neg (by unfold Rail.leavesEmber at h; simpa [or_assoc] using h)]
  refine ⟨fun hw => if_pos (Rail.wakes_iff _ _ |>.2 hw), fun hw hb => ?_, fun b hb => ?_⟩
  · rw [if_neg (mt (Rail.wakes_iff _ _).1 hw), hb]
  · have hw : ¬(d.rails[r]'r.2).wakes (d.targetMv r) := fun hw => absurd (hw.1.symm.trans hb) (by simp)
    rw [if_neg (mt (Rail.wakes_iff _ _).1 hw), hb]
    refine ⟨fun he => if_pos ?_, fun he => if_neg ?_⟩
    · simpa [Dev.burstEnds] using he
    · simpa [Dev.burstEnds] using he

/-! ## What the point leaves -/

/-- A rail in EMBER after an update point, from its record `x` before it. -/
structure Rail.StaysIn (x y : Rail) (aim : Int) (now : Tick) (ends : Tick → Prop) : Prop where
  mode : y.mode = x.mode
  flare : y.flare = x.flare
  sleeps : y.shortSleeps = x.sleeps aim now
  stales : y.staleRun = x.stales
  wakes : x.wakes aim → y.burst = some now ∧ y.packetDuty = x.emberDuty
  still : ¬x.wakes aim → x.burst = none → y.burst = none
  runs : ∀ b : Tick, x.burst = some b → ¬ends b → y.burst = some b
  sleeping : ∀ b : Tick, x.burst = some b → ends b → y.burst = none ∧ y.sleepSince = now

/-- An update point of a rail in EMBER has been decided. -/
structure Dev.EmberStep (d e : Dev) (r : RailIx) : Prop where
  decides : d.Decides e r
  left : (d.rails[r]'r.2).leavesEmber (d.targetMv r) d.clk.now → ∃ y, d.RailIs e r y ∧ y.mode = .regulate ∧ y.burst = none ∧ y.flare = (d.rails[r]'r.2).flare ∧
    y.emberEn = (d.rails[r]'r.2).emberEn ∧ y.emberSince = (d.rails[r]'r.2).emberSince ∧ y.emberDwell = (d.rails[r]'r.2).emberDwell
  stays : ¬(d.rails[r]'r.2).leavesEmber (d.targetMv r) d.clk.now → ∃ y, d.RailIs e r y ∧ (d.rails[r]'r.2).StaysIn y (d.targetMv r) d.clk.now (d.burstEnds r)
  woken : (d.rails[r]'r.2).leavesEmber (d.targetMv r) d.clk.now ∨ (d.rails[r]'r.2).wakes (d.targetMv r) → ∀ n : PhaseIx, d.railOf n = some r →
    (d.rails[r]'r.2).burstMembers.getLsbD n.val = true → (d.setNow n).ember = false → (e.pwm[n]'n.2).mask.ember = false
  written : ¬(d.rails[r]'r.2).leavesEmber (d.targetMv r) d.clk.now → (d.rails[r]'r.2).wakes (d.targetMv r) → ∀ n : PhaseIx, d.railOf n = some r →
    (d.rails[r]'r.2).burstMembers.getLsbD n.val = true → d.srcHost n = false → (d.pwm[n]'n.2).flareOn = false →
    (e.pwm[n]'n.2).loopShadow = some { duty := (d.rails[r]'r.2).emberDuty, at_ := d.cycleTick }
  asleep : ¬(d.rails[r]'r.2).leavesEmber (d.targetMv r) d.clk.now → ∀ b : Tick, (d.rails[r]'r.2).burst = some b → d.burstEnds r b → ∀ n : PhaseIx, d.railOf n = some r →
    (d.rails[r]'r.2).burstMembers.getLsbD n.val = true → (e.pwm[n]'n.2).mask.ember = true

/-- The record with the counts taken. -/
def Dev.countedRail (d : Dev) (r : RailIx) : Rail := { d.rails[r]'r.2 with shortSleeps := (d.rails[r]'r.2).sleeps (d.targetMv r) d.clk.now, staleRun := (d.rails[r]'r.2).stales }

theorem Dev.counted_railIs (d : Dev) (r : RailIx) : d.RailIs (d.counted r) r (d.countedRail r) := d.updRail_railIs r _

theorem Dev.emberPoint_step {d : Dev} {r : RailIx} (hm : (d.rails[r]'r.2).mode = .ember) : d.EmberStep (d.emberPoint r) r := by
  have hrail := d.counted_railIs r
  have hget := hrail.get
  have hcount : d.Decides (d.counted r) r := d.updRail_decides r _
  have hbits : ((d.counted r).rails[r]'r.2).burstMembers = (d.rails[r]'r.2).burstMembers := by
    rw [hget]
    rfl
  have hmode : ((d.counted r).rails[r]'r.2).mode = .ember := by
    rw [hget]
    exact hm
  have hsame : d.SameMembers (d.counted r) := d.updRail_sameMembers r _
  by_cases hl : (d.rails[r]'r.2).leavesEmber (d.targetMv r) d.clk.now
  · rw [Dev.emberPoint_leaves hl]
    have hleft := Dev.leaveEmber_left hmode
    generalize (d.counted r).leaveEmber r = e at hleft ⊢
    obtain ⟨hdec, ⟨y, hy, hymode, hyburst, hyfl, hyen, hysince, hydwell⟩, hwoken⟩ := hleft
    rw [hget] at hyfl hyen hysince hydwell
    exact ⟨hcount.trans hdec, fun _ => ⟨y, hrail.trans hy, hymode, hyburst, hyfl, hyen, hysince, hydwell⟩, fun h => absurd hl h,
      fun _ n hn hb hs => hwoken n ((hsame.railOf n).trans hn) (by rw [hbits]; exact hb) (by rw [hsame.setNow]; exact hs), fun h => absurd hl h, fun h => absurd hl h⟩
  · obtain ⟨hwake, hstill, hburst⟩ := Dev.emberPoint_stays hl
    by_cases hw : (d.rails[r]'r.2).wakes (d.targetMv r)
    · rw [hwake hw]
      have hbegun := (d.counted r).beginBurst_begun r
      generalize (d.counted r).beginBurst r = e at hbegun ⊢
      obtain ⟨hdec, hy, hwoken, hwritten⟩ := hbegun
      have hno : ∀ b : Tick, (d.rails[r]'r.2).burst ≠ some b := fun b hb => absurd (hw.1.symm.trans hb) (by simp)
      rw [hget] at hy hwritten
      rw [hsame.cycleTick] at hwritten
      exact ⟨hcount.trans hdec, fun h => absurd h hl,
        fun _ => ⟨_, hrail.trans hy, rfl, rfl, rfl, rfl, fun _ => ⟨rfl, rfl⟩, fun h => absurd hw h, fun b hb => absurd hb (hno b), fun b hb => absurd hb (hno b)⟩,
        fun _ n hn hb hs => hwoken n ((hsame.railOf n).trans hn) (by rw [hbits]; exact hb) (by rw [hsame.setNow]; exact hs), fun _ _ n hn hb hs hf => hwritten n ((hsame.railOf n).trans hn) hb ((hsame.srcHost n).trans hs) ((hsame.flareOn n).trans hf), fun _ b hb => absurd hb (hno b)⟩
    · cases hb : (d.rails[r]'r.2).burst with
      | none =>
        rw [hstill hw hb]
        have hno : ∀ b : Tick, (d.rails[r]'r.2).burst ≠ some b := fun b h => absurd (hb.symm.trans h) (by simp)
        exact ⟨hcount, fun h => absurd h hl,
          fun _ => ⟨_, hrail, rfl, rfl, rfl, rfl, fun h => absurd h hw, fun _ h => h, fun b h => absurd h (hno b), fun b h => absurd h (hno b)⟩,
          fun h => h.elim (absurd · hl) (absurd · hw), fun _ h => absurd h hw, fun _ b h => absurd h (hno b)⟩
      | some b =>
        obtain ⟨hends, hruns⟩ := hburst b hb
        have hone : ∀ b' : Tick, (d.rails[r]'r.2).burst = some b' → b' = b := fun b' h => Option.some_inj.1 (h.symm.trans hb)
        have hsome : (d.rails[r]'r.2).burst ≠ none := fun h => absurd (hb.symm.trans h) (by simp)
        by_cases he : d.burstEnds r b
        · rw [hends he]
          have hended := (d.counted r).endBurst_ended r
          generalize (d.counted r).endBurst r = e at hended ⊢
          obtain ⟨hdec, hy, hasleep⟩ := hended
          rw [hget] at hy hasleep
          exact ⟨hcount.trans hdec, fun h => absurd h hl,
            fun _ => ⟨_, hrail.trans hy, rfl, rfl, rfl, rfl, fun h => absurd h hw, fun _ _ => rfl, fun b' h hn => absurd (hone b' h ▸ he) hn, fun _ _ _ => ⟨rfl, rfl⟩⟩,
            fun h => h.elim (absurd · hl) (absurd · hw), fun _ h => absurd h hw, fun _ _ _ _ n hn hbit => hasleep n ((hsame.railOf n).trans hn) hbit⟩
        · rw [hruns he]
          exact ⟨hcount, fun h => absurd h hl,
            fun _ => ⟨_, hrail, rfl, rfl, rfl, rfl, fun h => absurd h hw, fun _ h => absurd h hsome, fun b' h _ => h, fun b' h hn => absurd (hone b' h ▸ hn) he⟩,
            fun h => h.elim (absurd · hl) (absurd · hw), fun _ h => absurd h hw, fun _ b' h hn => absurd (hone b' h ▸ hn) he⟩

end Sys2Proof.Machine
end

section
/-! SUPPORT. Shedding and adding at a mark of a rail. -/

namespace Sys2Proof.Machine

open Sys2Proof

/-! ## Steps that write the rail's record alone, or leave with it -/

/-- Nothing but the record of rail `r` and the leave manager has changed. -/
def Dev.RailLeave (d e : Dev) (r : RailIx) (l : Leave) (y : Rail) : Prop := e = { d with leave := l, rails := d.rails.set r y }

/-- Leave and rails as given. -/
def Dev.withRails (d : Dev) (l : Leave) (v : Vector Rail 8) : Dev := { d with leave := l, rails := v }

theorem Dev.set_rail (d : Dev) (r : RailIx) : d.rails.set r (d.rails[r]'r.2) = d.rails := Vector.set_getElem_self r.isLt

theorem Dev.railLeave_leave (d : Dev) (r : RailIx) (l : Leave) : d.RailLeave { d with leave := l } r l (d.rails[r]'r.2) := (congrArg (d.withRails l) (d.set_rail r)).symm

theorem Dev.railLeave_refl (d : Dev) (r : RailIx) : d.RailLeave d r d.leave (d.rails[r]'r.2) := d.railLeave_leave r d.leave

theorem Dev.updRail_railLeave (d : Dev) (r : RailIx) (f : Rail → Rail) : d.RailLeave (d.updRail r f) r d.leave (f (d.rails[r]'r.2)) := rfl

section
variable {d e : Dev} {r : RailIx} {l : Leave} {y : Rail} (h : d.RailLeave e r l y)
include h

theorem Dev.RailLeave.railIs : d.RailIs e r y := by rw [h]; rfl

theorem Dev.RailLeave.leave : e.leave = l := by rw [h]

theorem Dev.RailLeave.trans {f : Dev} {m : Leave} {z : Rail} (k : e.RailLeave f r m z) : d.RailLeave f r m z := by
  have hset : (d.rails.set r y).set r z = d.rails.set r z := Vector.set_set ..
  rw [Dev.RailLeave, k, h]
  exact congrArg (d.withRails m) hset

theorem Dev.RailLeave.thenUpd (f : Rail → Rail) : d.RailLeave (e.updRail r f) r l (f y) := by
  have hupd := h.trans (e.updRail_railLeave r f)
  rwa [h.railIs.get, h.leave] at hupd

theorem Dev.RailLeave.frame : d.onlyIn e [.rails, .leave] := by
  rw [h]
  exact (d.onlyIn_leave l).into.thenIn (Dev.onlyIn_rails _ _)

theorem Dev.RailLeave.keepsRun : d.KeepsRun e := by
  rw [h]
  exact Dev.keepsRun_of_eq rfl rfl rfl

theorem Dev.RailLeave.decides (hy : y.formed = (d.rails[r]'r.2).formed) : d.Decides e r :=
  h.keepsRun.toKeepsLoop.decides h.railIs hy h.frame.into (by rw [show e.prot = d.prot from h.frame .prot (by decide)])

theorem Dev.RailLeave.sameMembers (hf : y.flare = (d.rails[r]'r.2).flare) (hd : y.drained = (d.rails[r]'r.2).drained) : d.SameMembers e := by
  have hget : ∀ k : RailIx, e.rails[k]'k.2 = if k = r then y else d.rails[k]'k.2 := fun k => by
    by_cases hk : k = r
    · subst hk
      rw [if_pos rfl]
      exact h.railIs.get
    · rw [if_neg hk]
      exact h.railIs.get_ne hk
  refine ⟨h.frame .tile (by decide), h.frame .clk (by decide), h.frame .cards (by decide), fun n => by rw [show e.pwm = d.pwm from h.frame .pwm (by decide)],
    by rw [show e.prot = d.prot from h.frame .prot (by decide)], h.keepsRun.cycle, h.keepsRun.card, fun k => ?_, fun k => ?_⟩
  all_goals
    rw [hget]
    split
    · next hk => subst hk; assumption
    · rfl

end

/-! ## Shedding (R325) -/

/-- Ticks of a count of 100 µs. -/
theorem ticks_hundreds (k : Nat) : k * 100 * usTicks = k * 48000 := Nat.mul_assoc k 100 usTicks

/-- Shedding may be decided at this mark, and the sum is low enough for it. -/
def Dev.mayShed (d : Dev) (r : RailIx) : Prop := (d.rails[r]'r.2).shedEn = true ∧ d.respreadBusy r = false ∧ d.minPhases r < d.activeCount r
abbrev Dev.shedLow (d : Dev) (r : RailIx) : Prop := (d.loop.rails[r]'r.2).keyI.toInt.natAbs < (d.rails[r]'r.2).shedTh.toNat * (d.activeCount r - 1)
abbrev Dev.shedFull (d : Dev) (r : RailIx) : Prop := (d.rails[r]'r.2).shedSince.getD d.clk.now + (d.rails[r]'r.2).shedDwell.toNat * 48000 ≤ d.clk.now

/-- A notice ends by a sum above ADD_TH. -/
def Dev.noticeEnds (d : Dev) (r : RailIx) (valid : Bool) (nt : Notice) : Prop :=
  valid = true ∧ nt.drain = false ∧ (d.rails[r]'r.2).addTh.toNat * d.activeCount r < (d.loop.rails[r]'r.2).keyI.toInt.natAbs

/-- The notice and the dwell after a mark's decision on shedding. -/
structure Dev.ShedIs (d : Dev) (r : RailIx) (valid : Bool) (nt : Option Notice) (since : Option Tick) : Prop where
  ends : ∀ x : Notice, (d.rails[r]'r.2).notice = some x → d.noticeEnds r valid x → nt = none ∧ since = none
  goes : ∀ x : Notice, (d.rails[r]'r.2).notice = some x → ¬d.noticeEnds r valid x → nt = some x
  off : (d.rails[r]'r.2).notice = none → ¬d.mayShed r ∨ valid = true ∧ ¬d.shedLow r → nt = none ∧ since = none
  out : (d.rails[r]'r.2).notice = none → d.mayShed r → ¬valid = true → nt = none ∧ since = (d.rails[r]'r.2).shedSince.map fun s => s + (d.clk.now - max s (d.rails[r]'r.2).markAt)
  dwells : (d.rails[r]'r.2).notice = none → d.mayShed r → valid = true → d.shedLow r → ¬d.shedFull r → nt = none ∧ since = some ((d.rails[r]'r.2).shedSince.getD d.clk.now)
  begins : ∀ n : PhaseIx, (d.rails[r]'r.2).notice = none → d.mayShed r → valid = true → d.shedLow r → d.shedFull r → d.topMember r = some n →
    nt = some { phase := n, began := d.clk.now, until_ := d.clk.now + (d.rails[r]'r.2).shedDelay.toNat * 48000, drain := false }
  few : (d.rails[r]'r.2).notice = none → ¬d.minPhases r < d.activeCount r → nt = none

theorem Dev.mayShed_iff {d : Dev} {r : RailIx} (hm : (d.rails[r]'r.2).mode = .regulate) :
    (d.mode r == .regulate && (d.rails[r]'r.2).shedEn && !d.respreadBusy r && decide (d.minPhases r < d.activeCount r)) = true ↔ d.mayShed r := by
  have hmode : (d.mode r == .regulate) = true := beq_iff_eq.2 hm
  rw [hmode, Bool.true_and, Bool.and_eq_true_iff, Bool.and_eq_true_iff, Bool.not_eq_true', decide_eq_true_iff, and_assoc]
  exact Iff.rfl

theorem Dev.shedMark_notice {d : Dev} {r : RailIx} {nt : Notice} (valid : Bool) (h : (d.rails[r]'r.2).notice = some nt) : d.shedMark r valid =
    if valid && !nt.drain && decide ((d.rails[r]'r.2).addTh.toNat * d.activeCount r < (d.loop.rails[r]'r.2).keyI.toInt.natAbs) then
      d.updRail r fun x => { x with notice := none, shedSince := none } else d := by
  unfold Dev.shedMark
  extract_lets x a i
  have hx : x.notice = some nt := h
  rw [hx]

/-- The dwell's start is kept. -/
def Dev.shedKept (d : Dev) (r : RailIx) (since : Option Tick) : Dev := d.updRail r fun x => { x with shedSince := since }

/-- The notice of the rail's top member begins where the dwell has run its length. -/
def Dev.shedBegins (d : Dev) (r : RailIx) (go : Bool) : Dev := match go, d.topMember r with
  | true, some n => d.beginNotice r n false
  | _, _ => d

/-- The dwell of shedding after this mark, and whether it has run its length. -/
def Dev.shedDwellNow (d : Dev) (r : RailIx) : Option Tick × Bool :=
  dwell (d.rails[r]'r.2).shedSince (decide ((d.loop.rails[r]'r.2).keyI.toInt.natAbs < (d.rails[r]'r.2).shedTh.toNat * (d.activeCount r - 1))) d.clk.now ((d.rails[r]'r.2).shedDwell.toNat * 100 * usTicks)

/-- What the dwell decides. -/
def Dev.shedDwell (d : Dev) (r : RailIx) : Dev := (d.shedKept r (d.shedDwellNow r).1).shedBegins r (d.shedDwellNow r).2

theorem Dev.shedBegins_none {d : Dev} {r : RailIx} (go : Bool) (h : d.topMember r = none) : d.shedBegins r go = d := by
  unfold Dev.shedBegins
  rw [h]
  cases go <;> rfl

theorem Dev.shedBegins_some {d : Dev} {r : RailIx} {n : PhaseIx} (h : d.topMember r = some n) : d.shedBegins r true = d.beginNotice r n false := by
  unfold Dev.shedBegins
  rw [h]

theorem Dev.shedMark_none {d : Dev} {r : RailIx} (valid : Bool) (h : (d.rails[r]'r.2).notice = none) : d.shedMark r valid =
    if !(d.mode r == .regulate && (d.rails[r]'r.2).shedEn && !d.respreadBusy r && decide (d.minPhases r < d.activeCount r)) then d.updRail r fun x => { x with shedSince := none }
    else if !valid then d.updRail r fun x => { x with shedSince := skipMark x.shedSince d.clk.now x.markAt }
    else d.shedDwell r := by
  unfold Dev.shedMark
  extract_lets x a i may
  have hx : x.notice = none := h
  rw [hx]
  rfl

theorem dwell_on {since : Option Tick} {ok : Bool} (now len : Nat) (h : ok = true) : dwell since ok now len = (some (since.getD now), decide (since.getD now + len ≤ now)) := if_pos h

theorem dwell_off (since : Option Tick) {ok : Bool} (now len : Nat) (h : ¬ok = true) : dwell since ok now len = (none, false) := if_neg h

theorem Dev.shedDwellNow_high {d : Dev} {r : RailIx} (h : ¬d.shedLow r) : d.shedDwellNow r = (none, false) := dwell_off _ _ _ (by rw [decide_eq_true_iff]; exact h)

theorem Dev.shedDwellNow_low {d : Dev} {r : RailIx} (h : d.shedLow r) : d.shedDwellNow r = (some ((d.rails[r]'r.2).shedSince.getD d.clk.now), decide (d.shedFull r)) := by
  unfold Dev.shedDwellNow
  rw [ticks_hundreds]
  exact dwell_on _ _ (decide_eq_true_iff.2 h)

theorem Dev.shedDwell_high {d : Dev} {r : RailIx} (h : ¬d.shedLow r) : d.shedDwell r = d.shedKept r none := by
  unfold Dev.shedDwell
  rw [Dev.shedDwellNow_high h]
  rfl

/-- The dwell goes on. -/
def Dev.shedSinceKept (d : Dev) (r : RailIx) : Dev := d.shedKept r (some ((d.rails[r]'r.2).shedSince.getD d.clk.now))

theorem Dev.shedDwell_low {d : Dev} {r : RailIx} (h : d.shedLow r) :
    (¬d.shedFull r → d.shedDwell r = d.shedSinceKept r) ∧ (d.topMember r = none → d.shedDwell r = d.shedSinceKept r) ∧
    (d.shedFull r → ∀ n : PhaseIx, d.topMember r = some n → d.shedDwell r = (d.shedSinceKept r).beginNotice r n false) := by
  have htop : (d.shedSinceKept r).topMember r = d.topMember r := (d.updRail_sameMembers r _).topMember r
  have heq : d.shedDwell r = (d.shedSinceKept r).shedBegins r (decide (d.shedFull r)) := by
    unfold Dev.shedDwell
    rw [Dev.shedDwellNow_low h]
    rfl
  rw [heq]
  refine ⟨fun hf => ?_, fun ht => Dev.shedBegins_none _ (htop.trans ht), fun hf n ht => ?_⟩
  · rw [decide_eq_false hf]
    rfl
  · rw [decide_eq_true hf]
    exact Dev.shedBegins_some (htop.trans ht)

theorem Rail.notice_none {x : Rail} (h : x.notice = none) (since : Option Tick) : ({ x with shedSince := since } : Rail) = { x with notice := none, shedSince := since } := by
  cases x
  cases h
  rfl

theorem Dev.shedMark_is {d : Dev} {r : RailIx} (valid : Bool) (hm : (d.rails[r]'r.2).mode = .regulate) :
    ∃ nt since, d.ShedIs r valid nt since ∧ d.RailLeave (d.shedMark r valid) r d.leave { d.rails[r]'r.2 with notice := nt, shedSince := since } := by
  cases hn : (d.rails[r]'r.2).notice with
  | some nt =>
    have hone : ∀ x : Notice, (d.rails[r]'r.2).notice = some x → x = nt := fun x h => Option.some_inj.1 (h.symm.trans hn)
    have hsome : (d.rails[r]'r.2).notice ≠ none := fun h => absurd (hn.symm.trans h) (by simp)
    have hiff : (valid && !nt.drain && decide ((d.rails[r]'r.2).addTh.toNat * d.activeCount r < (d.loop.rails[r]'r.2).keyI.toInt.natAbs)) = true ↔ d.noticeEnds r valid nt := by
      rw [Dev.noticeEnds, Bool.and_eq_true_iff, Bool.and_eq_true_iff, Bool.not_eq_true', decide_eq_true_iff, and_assoc]
    rw [Dev.shedMark_notice valid hn]
    by_cases he : d.noticeEnds r valid nt
    · rw [if_pos (hiff.2 he)]
      exact ⟨none, none, ⟨fun _ _ _ => ⟨rfl, rfl⟩, fun x hx hends => absurd (hone x hx ▸ he) hends, fun h => absurd h hsome, fun h => absurd h hsome, fun h => absurd h hsome,
        fun _ h => absurd h hsome, fun h => absurd h hsome⟩, d.updRail_railLeave r _⟩
    · rw [if_neg (mt hiff.1 he)]
      refine ⟨(d.rails[r]'r.2).notice, (d.rails[r]'r.2).shedSince, ⟨fun x hx hends => absurd (hone x hx ▸ hends) he, fun x hx _ => hx, fun h => absurd h hsome, fun h => absurd h hsome,
        fun h => absurd h hsome, fun _ h => absurd h hsome, fun h => absurd h hsome⟩, d.railLeave_refl r⟩
  | none =>
    have hno : ∀ x : Notice, (d.rails[r]'r.2).notice ≠ some x := fun x h => absurd (hn.symm.trans h) (by simp)
    have hiff := Dev.mayShed_iff hm
    rw [Dev.shedMark_none valid hn]
    have hset := Rail.notice_none hn
    by_cases hmay : d.mayShed r
    · rw [if_neg (by rw [hiff.2 hmay]; decide)]
      have hfew : ¬d.minPhases r < d.activeCount r → ∀ nt : Option Notice, nt = none := fun h => absurd hmay.2.2 h
      cases valid with
      | false =>
        rw [if_pos (by decide)]
        refine ⟨none, (d.rails[r]'r.2).shedSince.map fun s => s + (d.clk.now - max s (d.rails[r]'r.2).markAt), ⟨fun x h => absurd h (hno x), fun x h => absurd h (hno x), fun _ h => ?_, fun _ _ _ => ⟨rfl, rfl⟩,
          fun _ _ h => absurd h (by decide), fun _ _ _ h => absurd h (by decide), fun _ _ => rfl⟩, ?_⟩
        · rcases h with h | ⟨h, -⟩
          · exact absurd hmay h
          · exact absurd h (by decide)
        · rw [← hset]
          exact d.updRail_railLeave r _
      | true =>
        rw [if_neg (by decide)]
        by_cases hlow : d.shedLow r
        · obtain ⟨hshort, hnone, hbegin⟩ := Dev.shedDwell_low hlow
          by_cases hgo : d.shedFull r ∧ (d.topMember r).isSome = true
          · obtain ⟨hfull, htop⟩ := hgo
            obtain ⟨n, htop⟩ := Option.isSome_iff_exists.1 htop
            rw [hbegin hfull n htop]
            refine ⟨some { phase := n, began := d.clk.now, until_ := d.clk.now + (d.rails[r]'r.2).shedDelay.toNat * 48000, drain := false }, none,
              ⟨fun x h => absurd h (hno x), fun x h => absurd h (hno x), fun _ h => ?_, fun _ _ h => absurd rfl h, fun _ _ _ _ h => absurd hfull h, fun m _ _ _ _ _ hm => ?_, fun _ h => hfew h _⟩, ?_⟩
            · rcases h with h | ⟨-, h⟩
              · exact absurd hmay h
              · exact absurd hlow h
            · obtain rfl : n = m := Option.some_inj.1 (htop.symm.trans hm)
              rfl
            · have hkept : d.RailLeave (d.shedSinceKept r) r d.leave { d.rails[r]'r.2 with shedSince := some ((d.rails[r]'r.2).shedSince.getD d.clk.now) } := d.updRail_railLeave r _
              rw [← ticks_hundreds]
              exact hkept.thenUpd _
          · have hstays : d.shedDwell r = d.shedSinceKept r := by
              by_cases hfull : d.shedFull r
              · exact hnone (Option.not_isSome_iff_eq_none.1 fun h => hgo ⟨hfull, h⟩)
              · exact hshort hfull
            rw [hstays]
            refine ⟨none, some ((d.rails[r]'r.2).shedSince.getD d.clk.now), ⟨fun x h => absurd h (hno x), fun x h => absurd h (hno x), fun _ h => ?_, fun _ _ h => absurd rfl h, fun _ _ _ _ _ => ⟨rfl, rfl⟩,
              fun m _ _ _ _ hf hm => absurd ⟨hf, by rw [hm]; rfl⟩ hgo, fun _ _ => rfl⟩, ?_⟩
            · rcases h with h | ⟨-, h⟩
              · exact absurd hmay h
              · exact absurd hlow h
            · rw [← hset]
              exact d.updRail_railLeave r _
        · rw [Dev.shedDwell_high hlow]
          refine ⟨none, none, ⟨fun x h => absurd h (hno x), fun x h => absurd h (hno x), fun _ _ => ⟨rfl, rfl⟩, fun _ _ h => absurd rfl h, fun _ _ _ h => absurd h hlow,
            fun _ _ _ _ h => absurd h hlow, fun _ _ => rfl⟩, ?_⟩
          rw [← hset]
          exact d.updRail_railLeave r _
    · rw [if_pos (by rw [Bool.eq_false_iff.2 (mt hiff.1 hmay)]; decide)]
      refine ⟨none, none, ⟨fun x h => absurd h (hno x), fun x h => absurd h (hno x), fun _ _ => ⟨rfl, rfl⟩, fun _ h => absurd h hmay, fun _ h => absurd h hmay,
        fun _ _ h => absurd h hmay, fun _ _ => rfl⟩, ?_⟩
      rw [← hset]
      exact d.updRail_railLeave r _

/-! ## Adding (R326, R522) -/

/-- Adding is called for at this mark. -/
def Dev.addDwelt (d : Dev) (r : RailIx) (valid : Bool) : Prop :=
  valid = true ∧ (d.rails[r]'r.2).addTh.toNat * d.activeCount r < (d.loop.rails[r]'r.2).keyI.toInt.natAbs ∧ (d.rails[r]'r.2).addSince.getD d.clk.now + (d.rails[r]'r.2).addDwell.toNat * 48000 ≤ d.clk.now
def Dev.addGoes (d : Dev) (r : RailIx) (valid : Bool) : Prop :=
  d.addDwelt r valid ∨ (d.rails[r]'r.2).shedEn = false ∨ (d.rails[r]'r.2).mode = .ramp ∨ d.activeCount r < d.minPhases r

/-- The leave manager and the add that waits after a rail has asked for one. -/
structure Dev.Asked (d : Dev) (r : RailIx) (l : Leave) (wait : Option PhaseIx) : Prop where
  waits : (d.rails[r]'r.2).addWait.isSome = true → wait = (d.rails[r]'r.2).addWait
  nobody : (d.rails[r]'r.2).addWait = none → d.addCandidate r = none → wait = none
  joins : ∀ n : PhaseIx, (d.rails[r]'r.2).addWait = none → (d.rails[r]'r.2).flare = none → d.addCandidate r = some n → d.leave.queue.length < 32 →
    LeaveKind.phaseStart.cost ≤ d.leave.budget.toNat → wait = some n ∧ (l.queue.any fun q => q.kind == .phaseStart && q.target == phaseTarget n) = true

theorem Dev.askAdd_asked (d : Dev) (r : RailIx) : ∃ l wait, d.Asked r l wait ∧ d.RailLeave (d.askAdd r) r l { d.rails[r]'r.2 with addWait := wait } := by
  have hsame := d.railLeave_refl r
  unfold Dev.askAdd
  by_cases hbar : ((d.rails[r]'r.2).addWait.isSome || (d.rails[r]'r.2).flare.isSome) = true
  · rw [if_pos hbar]
    refine ⟨d.leave, (d.rails[r]'r.2).addWait, ⟨fun _ => rfl, fun h _ => h, fun n hw hf => ?_⟩, hsame⟩
    rw [hw, hf] at hbar
    exact absurd hbar (by decide)
  · rw [if_neg hbar]
    have hwait : (d.rails[r]'r.2).addWait = none := by
      cases hw : (d.rails[r]'r.2).addWait with
      | none => rfl
      | some m =>
        rw [hw] at hbar
        exact absurd rfl hbar
    have hno : ¬(d.rails[r]'r.2).addWait.isSome = true := by
      rw [hwait]
      decide
    cases hc : d.addCandidate r with
    | none => exact ⟨d.leave, (d.rails[r]'r.2).addWait, ⟨fun _ => rfl, fun h _ => h, fun n _ _ h => absurd (hc.symm.trans h) (by simp)⟩, hsame⟩
    | some n =>
      obtain ⟨l, hl, hrefused, hjoined⟩ := d.askLeave_spec .phaseStart (phaseTarget n)
      dsimp only
      cases hok : (d.askLeave .phaseStart (phaseTarget n)).2 with
      | false =>
        rw [if_neg (by decide), hl]
        refine ⟨l, (d.rails[r]'r.2).addWait, ⟨fun _ => rfl, fun h _ => h, fun m _ _ _ hq hb => ?_⟩, ?_⟩
        · rw [d.askLeave_joins _ _ hq hb] at hok
          exact absurd hok (show ¬true = false by decide)
        · exact d.railLeave_leave r l
      | true =>
        rw [if_pos rfl, hl]
        refine ⟨l, some n, ⟨fun h => absurd h hno, fun _ h => absurd (hc.symm.trans h) (by simp), fun m _ _ hm _ _ => ?_⟩, rfl⟩
        obtain rfl : n = m := Option.some_inj.1 (hc.symm.trans hm)
        refine ⟨rfl, List.any_eq_true.2 ⟨{ kind := .phaseStart, target := phaseTarget n, arrival := d.clk.now }, ?_, ?_⟩⟩
        · rw [hjoined hok]
          exact (Dev.mem_joinQueue _ _ _).2 (Or.inl rfl)
        · rw [Bool.and_eq_true_iff, beq_iff_eq, beq_iff_eq]
          exact ⟨rfl, rfl⟩

/-- The leave manager, the dwell and the add that waits after a mark's decision on adding. -/
structure Dev.AddIs (d : Dev) (r : RailIx) (valid : Bool) (l : Leave) (wait : Option PhaseIx) : Prop where
  waits : (d.rails[r]'r.2).addWait.isSome = true → wait = (d.rails[r]'r.2).addWait
  idle : (d.rails[r]'r.2).addWait = none → ¬d.addGoes r valid ∨ d.addCandidate r = none → wait = none
  joins : ∀ n : PhaseIx, (d.rails[r]'r.2).addWait = none → (d.rails[r]'r.2).flare = none → d.addGoes r valid → d.addCandidate r = some n → d.leave.queue.length < 32 →
    LeaveKind.phaseStart.cost ≤ d.leave.budget.toNat → wait = some n ∧ (l.queue.any fun q => q.kind == .phaseStart && q.target == phaseTarget n) = true

/-- The dwell of adding after this mark, and whether it has run its length. -/
def Dev.addDwellNow (d : Dev) (r : RailIx) (valid : Bool) : Option Tick × Bool :=
  if valid then dwell (d.rails[r]'r.2).addSince (decide ((d.rails[r]'r.2).addTh.toNat * d.activeCount r < (d.loop.rails[r]'r.2).keyI.toInt.natAbs)) d.clk.now ((d.rails[r]'r.2).addDwell.toNat * 100 * usTicks)
  else (skipMark (d.rails[r]'r.2).addSince d.clk.now (d.rails[r]'r.2).markAt, false)

theorem Dev.addDwellNow_iff (d : Dev) (r : RailIx) (valid : Bool) : (d.addDwellNow r valid).2 = true ↔ d.addDwelt r valid := by
  unfold Dev.addDwellNow Dev.addDwelt
  cases valid with
  | false => exact ⟨fun h => absurd h (show ¬false = true by decide), fun h => absurd h.1 (by decide)⟩
  | true =>
    rw [if_pos rfl, ticks_hundreds]
    by_cases h : (d.rails[r]'r.2).addTh.toNat * d.activeCount r < (d.loop.rails[r]'r.2).keyI.toInt.natAbs
    · rw [dwell_on _ _ (decide_eq_true_iff.2 h)]
      exact ⟨fun hd => ⟨rfl, h, of_decide_eq_true hd⟩, fun hd => decide_eq_true hd.2.2⟩
    · rw [dwell_off _ _ _ (by rw [decide_eq_true_iff]; exact h)]
      exact ⟨fun hd => absurd hd (by decide), fun hd => absurd hd.2.1 h⟩

/-- The dwell's start is kept. -/
def Dev.addSinceKept (d : Dev) (r : RailIx) (valid : Bool) : Dev := d.updRail r fun x => { x with addSince := (d.addDwellNow r valid).1 }

theorem Dev.addMark_waits {d : Dev} {r : RailIx} (valid : Bool) (h : (d.rails[r]'r.2).addWait.isSome = true) : d.addMark r valid = d := if_pos h

theorem Dev.addMark_free {d : Dev} {r : RailIx} (valid : Bool) (h : (d.rails[r]'r.2).addWait = none) : d.addMark r valid =
    if (d.addDwellNow r valid).2 || !(d.rails[r]'r.2).shedEn || (d.addSinceKept r valid).mode r == .ramp || decide (d.activeCount r < (d.addSinceKept r valid).minPhases r) then
      (d.addSinceKept r valid).askAdd r else d.addSinceKept r valid := by
  have hno : ¬(d.rails[r]'r.2).addWait.isSome = true := by
    rw [h]
    decide
  exact if_neg hno

theorem Dev.addMark_is (d : Dev) (r : RailIx) (valid : Bool) :
    ∃ l since wait, d.AddIs r valid l wait ∧ d.RailLeave (d.addMark r valid) r l { d.rails[r]'r.2 with addSince := since, addWait := wait } := by
  cases hw : (d.rails[r]'r.2).addWait with
  | some m =>
    have hsome : (d.rails[r]'r.2).addWait ≠ none := fun h => absurd (hw.symm.trans h) (by simp)
    rw [Dev.addMark_waits valid (by rw [hw]; rfl)]
    exact ⟨d.leave, (d.rails[r]'r.2).addSince, (d.rails[r]'r.2).addWait, ⟨fun _ => rfl, fun h => absurd h hsome, fun _ h => absurd h hsome⟩, d.railLeave_refl r⟩
  | none =>
    have hkept : d.RailLeave (d.addSinceKept r valid) r d.leave { d.rails[r]'r.2 with addSince := (d.addDwellNow r valid).1 } := d.updRail_railLeave r _
    have hsame : d.SameMembers (d.addSinceKept r valid) := hkept.sameMembers rfl rfl
    have hget := hkept.railIs.get
    have hmode : (d.addSinceKept r valid).mode r = (d.rails[r]'r.2).mode := by
      rw [Dev.mode, hget]
    have hiff : ((d.addDwellNow r valid).2 || !(d.rails[r]'r.2).shedEn || (d.addSinceKept r valid).mode r == .ramp || decide (d.activeCount r < (d.addSinceKept r valid).minPhases r)) = true ↔
        d.addGoes r valid := by
      rw [Bool.or_eq_true_iff, Bool.or_eq_true_iff, Bool.or_eq_true_iff, Dev.addDwellNow_iff, Bool.not_eq_true', beq_iff_eq, decide_eq_true_iff, hmode, hsame.minPhases, or_assoc, or_assoc]
      exact Iff.rfl
    have hno : ¬(d.rails[r]'r.2).addWait.isSome = true := by
      rw [hw]
      decide
    rw [Dev.addMark_free valid hw]
    by_cases hgo : d.addGoes r valid
    · rw [if_pos (hiff.2 hgo)]
      obtain ⟨l, wait, ⟨-, hnobody, hjoins⟩, hasked⟩ := (d.addSinceKept r valid).askAdd_asked r
      have hset := hkept.trans hasked
      rw [hget] at hset hnobody hjoins
      rw [hsame.addCandidate] at hnobody hjoins
      exact ⟨l, _, wait, ⟨fun h => absurd h hno, fun h hc => hc.elim (absurd hgo ·) fun hc => hnobody h hc, fun n h hf _ hc hq hb => hjoins n h hf hc hq hb⟩, hset⟩
    · rw [if_neg (mt hiff.1 hgo)]
      exact ⟨d.leave, (d.addDwellNow r valid).1, (d.rails[r]'r.2).addWait, ⟨fun _ => rfl, fun h _ => h, fun _ _ _ h => absurd h hgo⟩, hkept⟩

end Sys2Proof.Machine
end

section
/-! SUPPORT. The way into EMBER: contexts fall idle, members are masked. -/

namespace Sys2Proof.Machine

open Sys2Proof

/-! ## The contexts of a rail (R281, R307) -/

/-- The contexts of a rail use that rail's keys. -/
theorem Dev.ctxRail_of_mem {d : Dev} {r : RailIx} {c : CtxIx} (h : c ∈ d.ctxsOf r) : d.ctxRail c = some r := by
  have hr := r.isLt
  unfold Dev.ctxsOf at h
  rcases List.mem_append.1 h with h | h
  · rcases List.mem_cons.1 (List.mem_filter.1 h).1 with rfl | h
    · have hv : (outerIx r).val = r.val := Nat.mod_eq_of_lt (by omega)
      unfold Dev.ctxRail
      rw [hv, if_pos hr]
      exact congrArg some (Fin.ext (Nat.mod_eq_of_lt hr))
    · obtain ⟨n, hn, rfl⟩ := List.mem_map.1 h
      have hnlt := n.isLt
      have hv : (innerIx n).val = 8 + n.val := Nat.mod_eq_of_lt (by omega)
      have hphase : ctxPhase (innerIx n) = some n := by
        unfold ctxPhase
        rw [hv, if_pos (by omega)]
        exact congrArg some (Fin.ext (by simp [Fin.ofNat, Nat.mod_eq_of_lt hnlt]))
      unfold Dev.ctxRail
      rw [hv, if_neg (by omega), hphase]
      exact Dev.mem_members.1 hn
  · obtain ⟨hmem, htopo⟩ := List.mem_filter.1 h
    obtain ⟨i, hi, rfl⟩ := List.mem_map.1 hmem
    have hi := List.mem_range.1 hi
    have hv : (Fin.ofNat 80 (72 + i) : CtxIx).val = 72 + i := Nat.mod_eq_of_lt (by omega)
    have hphase : ctxPhase (Fin.ofNat 80 (72 + i)) = none := by
      unfold ctxPhase
      rw [hv, if_neg (by omega)]
    unfold Dev.ctxRail
    rw [hv, if_neg (by omega), hphase]
    exact beq_iff_eq.1 (Bool.and_eq_true_iff.1 htopo).2

/-- In EMBER no context of the rail is wanted. -/
theorem Dev.ctxWanted_ember {d : Dev} {r : RailIx} {c : CtxIx} (h : d.ctxRail c = some r) (hm : (d.rails[r]'r.2).mode = .ember) : d.ctxWanted c = false := by
  have hmode : d.mode r = .ember := hm
  unfold Dev.ctxWanted
  rw [h]
  dsimp only
  rw [hmode]
  exact Bool.and_false _

theorem Dev.idleCtx_idle (d : Dev) (c k : CtxIx) : ((d.idleCtx c).loop.ctx[k]'k.2).active = if k = c then false else (d.loop.ctx[k]'k.2).active := by
  have hget : (d.idleCtx c).loop.ctx[k]'k.2 = (d.updCtx c fun x => { x with active := false, pending := none, preload := none, flight := x.flight.map fun f => { f with dead := f.dead || decide (d.cycle < f.done) } }).loop.ctx[k]'k.2 := rfl
  rw [hget]
  split
  · next h =>
    subst h
    rw [Dev.updCtx_get]
  · next h => rw [Dev.updCtx_get_ne _ _ h]

/-- What one synchronisation step of contexts in EMBER leaves. -/
structure Dev.Idles (d e : Dev) : Prop where
  tile : e.tile = d.tile
  rails : e.rails = d.rails
  idle : ∀ c : CtxIx, (d.loop.ctx[c]'c.2).active = false → (e.loop.ctx[c]'c.2).active = false

theorem Dev.Idles.trans {a b c : Dev} (h : a.Idles b) (k : b.Idles c) : a.Idles c :=
  ⟨k.tile.trans h.tile, k.rails.trans h.rails, fun x hx => k.idle x (h.idle x hx)⟩

theorem Dev.idleCtx_idles (d : Dev) (c : CtxIx) : d.Idles (d.idleCtx c) := by
  refine ⟨rfl, rfl, fun k hk => ?_⟩
  rw [Dev.idleCtx_idle]
  split
  · rfl
  · exact hk

/-- The step of the activity of one context. -/
def Dev.syncOne (d : Dev) (c : CtxIx) : Dev :=
  let w := d.ctxWanted c
  if w && !(d.loop.ctx[c]'c.2).active then d.wakeCtx c else if !w && (d.loop.ctx[c]'c.2).active then d.idleCtx c else d

theorem Dev.syncCtx_eq (d : Dev) (r : RailIx) : d.syncCtx r = (d.ctxsOf r).foldl Dev.syncOne d := rfl

theorem Dev.syncOne_unwanted {d : Dev} {c : CtxIx} (hw : d.ctxWanted c = false) : d.Idles (d.syncOne c) ∧ ((d.syncOne c).loop.ctx[c]'c.2).active = false := by
  have heq : d.syncOne c = if (d.loop.ctx[c]'c.2).active then d.idleCtx c else d := by
    unfold Dev.syncOne
    rw [hw]
    rfl
  by_cases ha : (d.loop.ctx[c]'c.2).active = true
  · have hidle : d.syncOne c = d.idleCtx c := heq.trans (if_pos ha)
    rw [hidle]
    refine ⟨d.idleCtx_idles c, ?_⟩
    rw [Dev.idleCtx_idle, if_pos rfl]
  · have hsame : d.syncOne c = d := heq.trans (if_neg ha)
    rw [hsame]
    exact ⟨⟨rfl, rfl, fun _ h => h⟩, Bool.eq_false_iff.2 ha⟩

/-- Contexts of which none is wanted are idle after their synchronisation. -/
theorem syncAll_idle (r : RailIx) : ∀ (cs : List CtxIx) (d : Dev), (∀ c ∈ cs, d.ctxRail c = some r) → (d.rails[r]'r.2).mode = .ember →
    d.Idles (cs.foldl Dev.syncOne d) ∧ ∀ c ∈ cs, ((cs.foldl Dev.syncOne d).loop.ctx[c]'c.2).active = false
  | [], _, _, _ => ⟨⟨rfl, rfl, fun _ h => h⟩, fun _ h => absurd h List.not_mem_nil⟩
  | c :: cs, d, hcs, hm => by
    obtain ⟨hstep, hidle⟩ := Dev.syncOne_unwanted (Dev.ctxWanted_ember (hcs c List.mem_cons_self) hm)
    have hrail : ∀ k : CtxIx, (d.syncOne c).ctxRail k = d.ctxRail k := fun k => by
      unfold Dev.ctxRail Dev.railOf Dev.topo
      rw [hstep.tile]
    obtain ⟨hrest, hall⟩ := syncAll_idle r cs (d.syncOne c) (fun k hk => (hrail k).trans (hcs k (List.mem_cons_of_mem c hk))) (by rw [hstep.rails]; exact hm)
    rw [List.foldl_cons]
    refine ⟨hstep.trans hrest, fun k hk => ?_⟩
    rcases List.mem_cons.1 hk with rfl | hk
    · exact hrest.idle _ hidle
    · exact hall k hk

/-- A rail that goes to EMBER has every context idle. -/
theorem Dev.changeMode_idle (d : Dev) (r : RailIx) {c : CtxIx} (hc : c ∈ d.ctxsOf r) : ((d.changeMode r .ember).loop.ctx[c]'c.2).active = false := by
  obtain ⟨since, olt, hrail⟩ := d.changeMode_railIs r .ember
  have htile : (d.changeMode r .ember).tile = d.tile := d.changeMode_onlyIn r .ember .tile (by decide)
  have hgeneral : ∀ e : Dev, e.tile = d.tile → e.rails = (d.changeMode r .ember).rails → ((((e.syncCtx r).evalRail r).setRt r).loop.ctx[c]'c.2).active = false := fun e ht hr => by
    have hctxs : e.ctxsOf r = d.ctxsOf r := by
      unfold Dev.ctxsOf Dev.members Dev.railOf Dev.auxOf Dev.topo
      rw [ht]
    have hidle := (syncAll_idle r (e.ctxsOf r) e (fun k hk => Dev.ctxRail_of_mem hk) (by rw [hr, hrail.get])).2 c (by rw [hctxs]; exact hc)
    rw [← Dev.syncCtx_eq] at hidle
    exact ((((e.syncCtx r).evalRail_keepsRun r).trans (Dev.updWin_keepsRun _ r _)).active c).trans hidle
  unfold Dev.changeMode
  extract_lets _ _ _ _ _ _ _ ovr
  have hframe : ovr.onlyIn (((ovr.syncCtx r).evalRail r).setRt r) [.loop, .fault, .prot] :=
    (ovr.syncCtx_onlyIn r).into.thenIn (Dev.evalRail_onlyIn _ r) |>.thenIn (Dev.setRt_onlyIn _ r)
  exact hgeneral ovr ((hframe .tile (by decide)).symm.trans htile) (hframe .rails (by decide)).symm

/-! ## Entry (R328) -/

theorem one_shiftLeft_getLsbD {w k : Nat} (i : Nat) (hk : k < w) : (1#w <<< i).getLsbD k = (i == k) := by
  rw [BitVec.getLsbD_shiftLeft, BitVec.getLsbD_one, Bool.eq_iff_iff]
  simp
  omega

theorem maskOf_foldl {w n : Nat} (p : Fin n → Bool) {k : Nat} (hk : k < w) : ∀ (xs : List (Fin n)) (m : BitVec w),
    (xs.foldl (fun m i => if p i then m ||| (1#w <<< i.val) else m) m).getLsbD k = (m.getLsbD k || xs.any fun i => p i && i.val == k)
  | [], m => (Bool.or_false _).symm
  | x :: xs, m => by
    rw [List.foldl_cons, maskOf_foldl p hk xs, List.any_cons]
    cases p x with
    | false => simp
    | true => rw [if_pos rfl, BitVec.getLsbD_or, one_shiftLeft_getLsbD x.val hk, Bool.or_assoc, Bool.true_and]

theorem maskOf_getLsbD {w : Nat} (p : Fin w → Bool) (k : Fin w) : (maskOf w p).getLsbD k.val = p k := by
  have hzero : (0 : BitVec w).getLsbD k.val = false := BitVec.getLsbD_zero
  rw [maskOf, maskOf_foldl p k.isLt, hzero, Bool.false_or, Bool.eq_iff_iff, List.any_eq_true]
  constructor
  · rintro ⟨i, -, hi⟩
    obtain ⟨hp, hik⟩ := Bool.and_eq_true_iff.1 hi
    exact Fin.ext (beq_iff_eq.1 hik) ▸ hp
  · intro hp
    exact ⟨k, List.mem_finRange k, by rw [hp, beq_self_eq_true]; rfl⟩

/-- The active LOOP members of a rail. -/
def Dev.sleepers (d : Dev) (r : RailIx) : BitVec 64 := maskOf 64 fun n : PhaseIx => ((d.active r).filter d.isLoop).contains n

theorem Dev.sleepers_bit {d : Dev} {r : RailIx} {n : PhaseIx} (hn : d.railOf n = some r) (hl : d.isLoop n = true) (ha : d.isActive n = true) :
    (d.sleepers r).getLsbD n.val = true :=
  (maskOf_getLsbD (fun n : PhaseIx => ((d.active r).filter d.isLoop).contains n) n).trans
    (List.contains_iff_mem.2 (List.mem_filter.2 ⟨List.mem_filter.2 ⟨Dev.mem_members.2 hn, ha⟩, hl⟩))

/-- A rail has entered EMBER asleep. -/
structure Dev.EmberBegun (d e : Dev) (r : RailIx) : Prop where
  decides : d.Decides e r
  frame : d.onlyIn e [.pwm, .rails, .loop, .prot, .fault]
  rail : ∃ since olt, d.RailIs e r { d.rails[r]'r.2 with
    burstMembers := d.sleepers r
    burst := none, sleepSince := d.clk.now, shortSleeps := 0, staleRun := 0, emberSince := none, mode := .ember, regSince := since, oltEn := olt }
  codes : d.KeepsCodes e
  idle : ∀ c ∈ d.ctxsOf r, (e.loop.ctx[c]'c.2).active = false
  masked : ∀ n : PhaseIx, d.railOf n = some r → d.isLoop n = true → d.isActive n = true → (e.pwm[n]'n.2).mask.ember = true

/-- The record of a rail about to sleep. -/
def Dev.sleeping (d : Dev) (r : RailIx) : Dev := d.updRail r fun x =>
  { x with burstMembers := d.sleepers r, burst := none, sleepSince := d.clk.now, shortSleeps := 0, staleRun := 0, emberSince := none }

theorem Dev.enterEmber_eq (d : Dev) (r : RailIx) : d.enterEmber r = (((d.sleeping r).changeMode r .ember).emberMask r true).event (0x0488 + r.val) := rfl

theorem Dev.enterEmber_begun {d : Dev} {r : RailIx} (hm : (d.rails[r]'r.2).mode = .regulate) : d.EmberBegun (d.enterEmber r) r := by
  have hsleep : d.RailIs (d.sleeping r) r _ := d.updRail_railIs r _
  have hsame : d.SameMembers (d.sleeping r) := d.updRail_sameMembers r _
  have hdec : d.Decides (d.sleeping r) r := d.updRail_decides r _
  have hframe : d.onlyIn (d.sleeping r) [.rails] := d.updRail_onlyIn r _
  have hloop : (d.sleeping r).loop = d.loop := hframe .loop (by decide)
  rw [Dev.enterEmber_eq]
  generalize d.sleeping r = slept at hsleep hsame hdec hframe hloop ⊢
  have hmode : (slept.rails[r]'r.2).mode = .regulate := by
    rw [hsleep.get]
    exact hm
  have hchange : slept.ModeChanged (slept.changeMode r .ember) := Dev.changeMode_on (by rw [hmode]; decide) (by rw [hmode]; decide) (by decide)
  have hidle := fun c => slept.changeMode_idle r (c := c)
  obtain ⟨since, olt, hmoded⟩ := hsleep.thenMode .ember
  have hcdec := Dev.changeMode_decides hchange
  generalize slept.changeMode r .ember = moded at hchange hidle hmoded hcdec ⊢
  have hquiet := (moded.emberMask_quiet r true).trans (Dev.event_quiet _ (0x0488 + r.val))
  have hcodes := moded.emberMask_keepsCodes r true
  refine ⟨(hdec.trans hcdec).trans (hquiet.decides r), hframe.into.thenIn hchange.frame |>.thenIn hquiet.frame, ⟨since, olt, hmoded.thenKeeps hquiet.frame⟩,
    ((Dev.keepsCodes_of_frame hframe).trans (Dev.keepsCodes_of_frame hchange.frame)).trans hcodes, fun c hc => ?_, fun n hn hl ha => ?_⟩
  · rw [show (((moded.emberMask r true).event (0x0488 + r.val)).loop) = moded.loop from hquiet.frame .loop (by decide)]
    exact hidle c (by rw [hsame.ctxsOf]; exact hc)
  · have hrail : moded.railOf n = some r := by
      rw [Dev.railOf, show moded.tile = slept.tile from hchange.frame .tile (by decide), hsame.tile]
      exact hn
    have hbit : (moded.rails[r]'r.2).burstMembers.getLsbD n.val = true := by
      rw [hmoded.get]
      exact Dev.sleepers_bit hn hl ha
    rw [Dev.event_pwm_get]
    exact (Dev.emberMask_member true hrail hbit).1 rfl

/-! ## The decision at a mark (R328) -/

abbrev Dev.emberLow (d : Dev) (r : RailIx) : Prop := (d.rails[r]'r.2).emberEn = true ∧ d.activeCount r = d.minPhases r ∧ (d.loop.rails[r]'r.2).keyI.toInt.natAbs < (d.rails[r]'r.2).emberEnter.toNat
abbrev Dev.emberFull (d : Dev) (r : RailIx) : Prop := (d.rails[r]'r.2).emberSince.getD d.clk.now + (d.rails[r]'r.2).emberDwell.toNat * 48000 ≤ d.clk.now

/-- The dwell of EMBER takes a value. -/
def Dev.emberDwells (d : Dev) (r : RailIx) (since : Option Tick) : Dev := d.updRail r fun x => { x with emberSince := since }

theorem Dev.emberMark_is {d : Dev} {r : RailIx} (hm : (d.rails[r]'r.2).mode = .regulate) :
    (d.emberLow r ∧ (d.rails[r]'r.2).notice = none → d.emberFull r → d.emberMark r = (d.emberDwells r (some ((d.rails[r]'r.2).emberSince.getD d.clk.now))).enterEmber r) ∧
    (d.emberLow r ∧ (d.rails[r]'r.2).notice = none → ¬d.emberFull r → d.emberMark r = d.emberDwells r (some ((d.rails[r]'r.2).emberSince.getD d.clk.now))) ∧
    (¬(d.emberLow r ∧ (d.rails[r]'r.2).notice = none) → d.emberMark r = d.emberDwells r none) := by
  have hmode : (d.mode r == .regulate) = true := beq_iff_eq.2 hm
  have hmay : (d.mode r == .regulate && (d.rails[r]'r.2).emberEn && decide (d.activeCount r = d.minPhases r) && (d.rails[r]'r.2).notice.isNone) = true ↔
      (d.rails[r]'r.2).emberEn = true ∧ d.activeCount r = d.minPhases r ∧ (d.rails[r]'r.2).notice = none := by
    rw [hmode, Bool.true_and, Bool.and_eq_true_iff, Bool.and_eq_true_iff, decide_eq_true_iff, Option.isNone_iff_eq_none, and_assoc]
  unfold Dev.emberMark
  extract_lets x i may
  have hmay' : may = true ↔ _ := hmay
  refine ⟨fun ⟨⟨hen, ha, hlow⟩, hn⟩ hfull => ?_, fun ⟨⟨hen, ha, hlow⟩, hn⟩ hfull => ?_, fun h => ?_⟩
  · rw [if_neg (by rw [hmay'.2 ⟨hen, ha, hn⟩]; decide), dwell_on _ _ (decide_eq_true_iff.2 hlow), ticks_hundreds]
    exact if_pos (decide_eq_true hfull)
  · rw [if_neg (by rw [hmay'.2 ⟨hen, ha, hn⟩]; decide), dwell_on _ _ (decide_eq_true_iff.2 hlow), ticks_hundreds]
    exact if_neg (by rw [decide_eq_true_iff]; exact hfull)
  · by_cases hg : may = true
    · obtain ⟨hen, ha, hn⟩ := hmay'.1 hg
      have hhigh : ¬decide (i < x.emberEnter.toNat) = true := by
        rw [decide_eq_true_iff]
        exact fun hlow => h ⟨⟨hen, ha, hlow⟩, hn⟩
      rw [if_neg (by rw [hg]; decide), dwell_off _ _ _ hhigh]
      rfl
    · rw [if_pos (by rw [Bool.eq_false_iff.2 hg]; rfl)]
      rfl

end Sys2Proof.Machine
end

section
/-! SUPPORT. The target of a mark, and the transfer of the reference. -/

namespace Sys2Proof.Machine

open Sys2Proof

/-! ## What the work on the target leaves -/

/-- The rails' records, the activity and the outputs of every context and the members as the decisions see them stand. -/
structure Dev.KeepsOutputs (d e : Dev) : Prop where
  same : d.SameMembers e
  rails : e.rails = d.rails
  lrails : e.loop.rails = d.loop.rails
  active : ∀ c : CtxIx, (e.loop.ctx[c]'c.2).active = (d.loop.ctx[c]'c.2).active
  delivered : ∀ c : CtxIx, (e.loop.ctx[c]'c.2).delivered = (d.loop.ctx[c]'c.2).delivered

theorem Dev.KeepsOutputs.refl (d : Dev) : d.KeepsOutputs d := ⟨.refl d, rfl, rfl, fun _ => rfl, fun _ => rfl⟩

theorem Dev.KeepsOutputs.trans {a b c : Dev} (h : a.KeepsOutputs b) (k : b.KeepsOutputs c) : a.KeepsOutputs c :=
  ⟨h.same.trans k.same, k.rails.trans h.rails, k.lrails.trans h.lrails, fun x => (k.active x).trans (h.active x), fun x => (k.delivered x).trans (h.delivered x)⟩

/-- A step that writes neither the loop engine nor what the decisions see. -/
theorem Dev.keepsOutputs_of_run {d e : Dev} {bs : List Block} (k : d.KeepsRun e) (h : d.onlyIn e bs) (ht : e.prot.trips = d.prot.trips)
    (hb : Block.tile ∉ bs ∧ Block.clk ∉ bs ∧ Block.cards ∉ bs ∧ Block.pwm ∉ bs ∧ Block.rails ∉ bs := by decide) (hl : Block.loop ∉ bs := by decide) : d.KeepsOutputs e :=
  ⟨k.toKeepsLoop.sameMembers h ht hb, h .rails hb.2.2.2.2, by rw [show e.loop = d.loop from h .loop hl], k.active, k.delivered⟩

theorem Dev.setRef_keepsOutputs (d : Dev) (c : CtxIx) (v : Int) : d.KeepsOutputs (d.setRef c v) := by
  obtain ⟨hsame, -, hrails, hloop⟩ := d.fit_keeps v
  have hctx : ∀ k : CtxIx, ((d.setRef c v).loop.ctx[k]'k.2).active = (d.loop.ctx[k]'k.2).active ∧ ((d.setRef c v).loop.ctx[k]'k.2).delivered = (d.loop.ctx[k]'k.2).delivered := fun k => by
    have hact := (d.fit v).2.updCtx_keeps c (fun x => { x with ref := (d.fit v).1 }) Ctx.active rfl k
    have hdel := (d.fit v).2.updCtx_keeps c (fun x => { x with ref := (d.fit v).1 }) Ctx.delivered rfl k
    rw [hloop] at hact hdel
    exact ⟨hact, hdel⟩
  have hlrails : (d.fit v).2.loop.rails = d.loop.rails := congrArg LoopEng.rails hloop
  exact ⟨hsame.trans ⟨rfl, rfl, rfl, fun _ => rfl, rfl, ⟨rfl, rfl, rfl⟩, fun _ => rfl, fun _ => rfl, fun _ => rfl⟩, hrails, hlrails,
    fun k => (hctx k).1, fun k => (hctx k).2⟩

theorem Dev.setRef_fits {d : Dev} {c : CtxIx} {v : Int} (h : Fits v) : ((d.setRef c v).loop.ctx[c]'c.2).ref = BitVec.ofInt 32 v := by
  unfold Dev.setRef
  rw [Dev.fit_fits h, Dev.updCtx_get]

theorem Dev.setRef_ne (d : Dev) {c k : CtxIx} (v : Int) (h : k ≠ c) : ((d.setRef c v).loop.ctx[k]'k.2).ref = (d.loop.ctx[k]'k.2).ref := by
  have hloop := (d.fit_keeps v).2.2.2
  have hne := (d.fit v).2.updCtx_get_ne (fun x => { x with ref := (d.fit v).1 }) h
  rw [hloop] at hne
  exact congrArg Ctx.ref hne

/-! ## The commanded target (R365 to R369) -/

theorem Dev.updSp_get (d : Dev) (r : RailIx) (f : Sp → Sp) : (d.updSp r f).sp.sp[r]'r.2 = f (d.sp.sp[r]'r.2) := upd_get_same d.sp.sp r f

theorem srcCardFault_ne_nomatch (r : RailIx) (s : CardIx) : srcCardFault s ≠ srcVselNomatch r := by
  revert r s
  decide

/-- The commanded target writes fields of the set-point other than P, and the cause of a code without an entry. -/
theorem Dev.command_eq (d : Dev) (r : RailIx) : ∃ (f : Sp → Sp) (miss : Bool), d.command r = (d.updSp r f).setCause (srcVselNomatch r) 0 miss ∧ ∀ s : Sp, (f s).p = s.p := by
  unfold Dev.command
  exact ⟨_, _, rfl, fun _ => rfl⟩

/-- The commanded target has been formed: P stands. -/
theorem Dev.command_keeps (d : Dev) (r : RailIx) : d.KeepsOutputs (d.command r) ∧ d.onlyIn (d.command r) [.sp, .fault] ∧ ((d.command r).sp.sp[r]'r.2).p = (d.sp.sp[r]'r.2).p := by
  obtain ⟨f, miss, heq, hp⟩ := d.command_eq r
  rw [heq]
  have hrun : d.KeepsRun ((d.updSp r f).setCause (srcVselNomatch r) 0 miss) := (d.updSp_keepsRun r f).trans (Dev.setCause_keepsRun _ _ _ _ _ (srcCardFault_ne_nomatch r))
  have hcause := (d.updSp r f).setCause_onlyIn (srcVselNomatch r) 0 miss []
  have hframe : d.onlyIn ((d.updSp r f).setCause (srcVselNomatch r) 0 miss) [.sp, .fault] := (d.updSp_onlyIn r f).into.thenIn hcause
  refine ⟨Dev.keepsOutputs_of_run hrun hframe (congrArg Prot.trips (hframe .prot (by decide))), hframe, ?_⟩
  rw [show ((d.updSp r f).setCause (srcVselNomatch r) 0 miss).sp = (d.updSp r f).sp from hcause .sp (by decide), Dev.updSp_get]
  exact hp _

/-! ## The target in effect (R370 to R374) -/

/-- P moves at this mark. -/
def Rail.moves (x : Rail) : Prop := x.mode = .regulate ∨ x.mode = .ember ∨ x.mode = .ramp ∧ x.m0Wait = none

/-- The slew that governs the move. -/
def Sp.slewIn (y : Sp) (m : RailMode) : Nat := if m = .ramp ∧ y.ssSlew ≠ 0 then y.ssSlew.toNat else y.lastSlew

/-- The commanded target in the units of P. -/
def Sp.aim (y : Sp) : Int := (y.cmdMv.toNat : Int) * 65536

/-- REF of the outer context that a mark writes for the target `p`. -/
def Rail.refOf (x : Rail) (p : Int) : Int := rhe (p * 1000) (x.vscale.toNat * 65536)

/-- What a mark makes of the target `p` of a rail with the record `x`, by `delta` towards `aim`, with REF. -/
structure TargetIs (x : Rail) (p aim delta p' : Int) (ref : Word) : Prop where
  moved : x.moves → p' = moveTo p aim delta
  written : x.moves → Fits (x.refOf p') → ref = BitVec.ofInt 32 (x.refOf p')
  still : ¬(x.mode = .ramp ∨ x.mode = .regulate ∨ x.mode = .ember) → p' = p

/-- P's move in one carrier period of rail `r`, by the slews in `y`. -/
def Dev.slewBy (d : Dev) (r : RailIx) (y : Sp) : Int := slewStep (y.slewIn (d.rails[r]'r.2).mode) (d.pwmg.rper[r]'r.2).toNat

/-- The target of rail `r` has been moved and written, as a mark does it. -/
structure Dev.TargetMoved (d e : Dev) (r : RailIx) : Prop where
  keeps : d.KeepsOutputs e
  frame : d.onlyIn e [.sp, .fault, .loop, .free, .prot]
  target : TargetIs (d.rails[r]'r.2) (d.sp.sp[r]'r.2).p (e.sp.sp[r]'r.2).aim (d.slewBy r (e.sp.sp[r]'r.2)) (e.sp.sp[r]'r.2).p (e.loop.ctx[outerIx r]'(outerIx r).2).ref
  slewing : (e.sp.sp[r]'r.2).slewing = true ↔ (e.sp.sp[r]'r.2).p ≠ (e.sp.sp[r]'r.2).aim

/-- P moves, and REF with it, at a mark of RAMP, REGULATE or EMBER. -/
def Dev.moveTarget (d : Dev) (r : RailIx) : Dev :=
  let s := d.sp.sp[r]'r.2
  let m := d.mode r
  if m == .ramp || m == .regulate || m == .ember then
    let slew := if m == .ramp && s.ssSlew != 0 then s.ssSlew.toNat else s.lastSlew
    let p := if m == .ramp && (d.rails[r]'r.2).m0Wait.isSome then s.p else moveTo s.p s.aim (slewStep slew (d.pwmg.rper[r]'r.2).toNat)
    (d.updSp r fun s => { s with p := p }).writeRef r p
  else d

theorem Dev.setpointMark_eq (d : Dev) (r : RailIx) : d.setpointMark r =
    ((((d.command r).moveTarget r).updSp r fun s => { s with slewing := s.p != ((d.command r).sp.sp[r]'r.2).aim }).setUv r).setRt r := rfl

/-- What the move makes of the set-point, of which the commanded target and its slews stand. -/
structure Dev.Moved (d e : Dev) (r : RailIx) : Prop where
  keeps : d.KeepsOutputs e
  frame : d.onlyIn e [.sp, .loop, .free]
  kept : (e.sp.sp[r]'r.2).aim = (d.sp.sp[r]'r.2).aim ∧ (e.sp.sp[r]'r.2).ssSlew = (d.sp.sp[r]'r.2).ssSlew ∧ (e.sp.sp[r]'r.2).lastSlew = (d.sp.sp[r]'r.2).lastSlew
  target : TargetIs (d.rails[r]'r.2) (d.sp.sp[r]'r.2).p (d.sp.sp[r]'r.2).aim (d.slewBy r (d.sp.sp[r]'r.2)) (e.sp.sp[r]'r.2).p (e.loop.ctx[outerIx r]'(outerIx r).2).ref

theorem Dev.moveTarget_moved (d : Dev) (r : RailIx) : d.Moved (d.moveTarget r) r := by
  have hiff : (d.mode r == .ramp || d.mode r == .regulate || d.mode r == .ember) = true ↔ (d.rails[r]'r.2).mode = .ramp ∨ (d.rails[r]'r.2).mode = .regulate ∨ (d.rails[r]'r.2).mode = .ember := by
    rw [Bool.or_eq_true_iff, Bool.or_eq_true_iff, beq_iff_eq, beq_iff_eq, beq_iff_eq, or_assoc]
    exact Iff.rfl
  have hmoves : (d.rails[r]'r.2).moves → (d.rails[r]'r.2).mode = .ramp ∨ (d.rails[r]'r.2).mode = .regulate ∨ (d.rails[r]'r.2).mode = .ember := by
    rintro (h | h | ⟨h, -⟩)
    · exact .inr (.inl h)
    · exact .inr (.inr h)
    · exact .inl h
  unfold Dev.moveTarget
  extract_lets s m slew p
  let moved := d.updSp r fun s => { s with p := p }
  by_cases hm : (d.rails[r]'r.2).mode = .ramp ∨ (d.rails[r]'r.2).mode = .regulate ∨ (d.rails[r]'r.2).mode = .ember
  · rw [if_pos (hiff.2 hm)]
    have hset := moved.setRef_onlyIn (outerIx r) ((d.rails[r]'r.2).refOf p)
    have hsp : (moved.writeRef r p).sp.sp[r]'r.2 = { s with p := p } :=
      (congrArg (fun x : SetPt => x.sp[r]'r.2) (hset .sp (by decide))).trans (d.updSp_get r fun s => { s with p := p })
    have hslew : slew = s.slewIn (d.rails[r]'r.2).mode := by
      refine if_congr ?_ rfl rfl
      rw [Bool.and_eq_true_iff, beq_iff_eq, bne_iff_ne]
      exact Iff.rfl
    have hp : (d.rails[r]'r.2).moves → p = moveTo s.p s.aim (slewStep slew (d.pwmg.rper[r]'r.2).toNat) := fun h => by
      refine if_neg fun hw => ?_
      obtain ⟨hramp, hwait⟩ := Bool.and_eq_true_iff.1 hw
      have hramp : (d.rails[r]'r.2).mode = .ramp := beq_iff_eq.1 hramp
      rcases h with h | h | ⟨-, h⟩
      · rw [h] at hramp
        cases hramp
      · rw [h] at hramp
        cases hramp
      · rw [h] at hwait
        cases hwait
    have hkeep : d.KeepsOutputs moved := Dev.keepsOutputs_of_run (d.updSp_keepsRun r _) (d.updSp_onlyIn r _) rfl
    refine ⟨hkeep.trans (moved.setRef_keepsOutputs _ _), (d.updSp_onlyIn r _).into.thenIn hset, ?_, ?_⟩
    · rw [hsp]
      exact ⟨rfl, rfl, rfl⟩
    · rw [hsp]
      refine ⟨fun h => ?_, fun _ hfits => Dev.setRef_fits hfits, fun h => absurd hm h⟩
      rw [Dev.slewBy, ← hslew]
      exact hp h
  · rw [if_neg (mt hiff.1 hm)]
    exact ⟨.refl d, d.onlyIn_refl _, ⟨rfl, rfl, rfl⟩, fun h => absurd (hmoves h) hm, fun h => absurd (hmoves h) hm, fun _ => rfl⟩

theorem Dev.setpointMark_moved (d : Dev) (r : RailIx) : d.TargetMoved (d.setpointMark r) r := by
  obtain ⟨hck, hcframe, hcp⟩ := d.command_keeps r
  have hmoved := (d.command r).moveTarget_moved r
  rw [Dev.setpointMark_eq]
  generalize d.command r = cmd at hck hcframe hcp hmoved ⊢
  obtain ⟨hmk, hmframe, ⟨haim, hss, hlast⟩, htarget⟩ := hmoved
  generalize cmd.moveTarget r = mv at hmk hmframe haim hss hlast htarget ⊢
  let slewed := mv.updSp r fun s => { s with slewing := s.p != (cmd.sp.sp[r]'r.2).aim }
  have hsp : slewed.sp.sp[r]'r.2 = { mv.sp.sp[r]'r.2 with slewing := (mv.sp.sp[r]'r.2).p != (cmd.sp.sp[r]'r.2).aim } := mv.updSp_get r _
  have hsk : mv.KeepsOutputs slewed := Dev.keepsOutputs_of_run (mv.updSp_keepsRun r _) (mv.updSp_onlyIn r _) rfl
  have hwin : slewed.onlyIn ((slewed.setUv r).setRt r) [.prot] := (slewed.setUv_onlyIn r).thenIn (Dev.setRt_onlyIn _ r)
  have hwk : slewed.KeepsOutputs ((slewed.setUv r).setRt r) :=
    Dev.keepsOutputs_of_run ((slewed.updWin_keepsRun r _).trans (Dev.updWin_keepsRun _ r _)) hwin rfl
  have hfsp : ((slewed.setUv r).setRt r).sp = slewed.sp := hwin .sp (by decide)
  have hfloop : ((slewed.setUv r).setRt r).loop = mv.loop := hwin .loop (by decide)
  have hframe : d.onlyIn ((slewed.setUv r).setRt r) [.sp, .fault, .loop, .free, .prot] :=
    hcframe.into.thenIn hmframe |>.thenIn (mv.updSp_onlyIn r _) |>.thenIn hwin
  have hby : cmd.slewBy r (cmd.sp.sp[r]'r.2) = d.slewBy r (slewed.sp.sp[r]'r.2) := by
    rw [hsp, Dev.slewBy, Dev.slewBy, Sp.slewIn, Sp.slewIn, hck.rails, show cmd.pwmg = d.pwmg from hcframe .pwmg (by decide), ← hss, ← hlast]
  have haim' : (cmd.sp.sp[r]'r.2).aim = (slewed.sp.sp[r]'r.2).aim := by
    rw [hsp, ← haim]
    rfl
  have hp : (mv.sp.sp[r]'r.2).p = (slewed.sp.sp[r]'r.2).p := by rw [hsp]
  rw [hck.rails, hcp, hby, haim', hp] at htarget
  refine ⟨hck.trans (hmk.trans (hsk.trans hwk)), hframe, ?_, ?_⟩
  all_goals rw [hfsp]
  · rw [hfloop]
    exact htarget
  · rw [← haim', hsp]
    exact bne_iff_ne

end Sys2Proof.Machine
end

section
/-! SUPPORT. The transfer of IREF, the Sectors of a mark, and what a storage port does at an update point. -/

namespace Sys2Proof.Machine

open Sys2Proof

/-! ## IREF (R305, R306) -/

/-- The least of a base and some outputs, and whether one of them lies strictly below. -/
def leastOut {α : Type} (o : α → Int) (cs : List α) (a : Int × Bool) : Int × Bool := cs.foldl (fun a c => if o c < a.1 then (o c, true) else a) a

theorem leastOut_spec {α : Type} (o : α → Int) : ∀ (cs : List α) (b : Int) (l : Bool), let x := leastOut o cs (b, l)
    x.1 ≤ b ∧ (x.2 = true ↔ l = true ∨ x.1 < b) ∧ (∀ c ∈ cs, x.1 ≤ o c) ∧ (x.1 = b ∨ ∃ c ∈ cs, x.1 = o c)
  | [], b, l => ⟨le_refl b, by simp [leastOut], fun _ h => absurd h List.not_mem_nil, .inl rfl⟩
  | c :: cs, b, l => by
    have hcons : leastOut o (c :: cs) (b, l) = leastOut o cs (if o c < b then (o c, true) else (b, l)) := rfl
    dsimp only
    rw [hcons]
    by_cases h : o c < b
    · rw [if_pos h]
      obtain ⟨hle, hlim, hall, hfrom⟩ := leastOut_spec o cs (o c) true
      refine ⟨by omega, ⟨fun _ => .inr (by omega), fun _ => hlim.2 (.inl rfl)⟩, fun k hk => ?_, .inr ?_⟩
      · rcases List.mem_cons.1 hk with rfl | hk
        · exact hle
        · exact hall k hk
      · rcases hfrom with hfrom | ⟨k, hk, hfrom⟩
        · exact ⟨c, List.mem_cons_self, hfrom⟩
        · exact ⟨k, List.mem_cons_of_mem c hk, hfrom⟩
    · rw [if_neg h]
      obtain ⟨hle, hlim, hall, hfrom⟩ := leastOut_spec o cs b l
      refine ⟨hle, hlim, fun k hk => ?_, ?_⟩
      · rcases List.mem_cons.1 hk with rfl | hk
        · omega
        · exact hall k hk
      · rcases hfrom with hfrom | ⟨k, hk, hfrom⟩
        · exact .inl hfrom
        · exact .inr ⟨k, List.mem_cons_of_mem c hk, hfrom⟩

theorem Dev.auxMin_eq (d : Dev) (r : RailIx) (base : Int) : d.auxMin r base =
    leastOut (fun c : CtxIx => (d.loop.ctx[c]'c.2).delivered.toInt) ((d.auxOf r).filter fun c => (d.loop.ctx[c]'c.2).active) (base, false) := rfl

/-- Every active inner context takes the IREF that stands. -/
theorem foldl_giveOne (r : RailIx) (w : Word) : ∀ (ns : List PhaseIx) (d : Dev), (d.loop.rails[r]'r.2).iref = w →
    ns.foldl (fun d n => if (d.loop.ctx[innerIx n]'(innerIx n).2).active then d.updCtx (innerIx n) fun x => { x with ref := w } else d) d = ns.foldl (Dev.giveOne r) d
  | [], _, _ => rfl
  | n :: ns, d, h => by
    have hstep : (if (d.loop.ctx[innerIx n]'(innerIx n).2).active then d.updCtx (innerIx n) fun x => { x with ref := w } else d) = d.giveOne r n := by
      rw [Dev.giveOne, h]
    rw [List.foldl_cons, List.foldl_cons, hstep]
    exact foldl_giveOne r w ns _ (by rw [(d.giveOne_gives r n).rails, h])

/-- IREF and AUX_LIM are written. -/
def Dev.putIref (d : Dev) (r : RailIx) (w : Word) (lim : Bool) : Dev := d.updRailLoop r fun l => { l with iref := w, auxLim := lim }

theorem Dev.setIref_eq (d : Dev) (r : RailIx) (v : Int) (lim : Bool) :
    d.setIref r v lim = ((d.fit v).2.putIref r (d.fit v).1 lim).giveIref r (((d.fit v).2.putIref r (d.fit v).1 lim).members r) :=
  foldl_giveOne r (d.fit v).1 _ _ (congrArg RailLoop.iref (Dev.updRailLoop_get _ r _))

/-- What a step keeps that writes neither the rail's record nor its keys nor the target. -/
structure Dev.KeepsTarget (d e : Dev) (r : RailIx) : Prop where
  formed : d.KeepsFormed e r
  sp : e.sp = d.sp
  ref : (e.loop.ctx[outerIx r]'(outerIx r).2).ref = (d.loop.ctx[outerIx r]'(outerIx r).2).ref

theorem Dev.KeepsTarget.refl (d : Dev) (r : RailIx) : d.KeepsTarget d r := ⟨.refl d r, rfl, rfl⟩

theorem Dev.KeepsTarget.trans {a b c : Dev} {r : RailIx} (h : a.KeepsTarget b r) (k : b.KeepsTarget c r) : a.KeepsTarget c r :=
  ⟨h.formed.trans k.formed, k.sp.trans h.sp, k.ref.trans h.ref⟩

theorem Dev.Decides.target {d e : Dev} {r : RailIx} (h : d.Decides e r) : d.KeepsTarget e r := ⟨h.formed, h.aim.sp, h.aim.ref⟩

theorem Dev.putIref_target (d : Dev) (r : RailIx) (w : Word) (lim : Bool) : d.KeepsTarget (d.putIref r w lim) r := by
  refine ⟨⟨?_, rfl, fun _ _ => rfl, (d.updRailLoop_onlyIn r _).into⟩, rfl, rfl⟩
  unfold Dev.putIref
  rw [Dev.updRailLoop_get]
  rfl

theorem Dev.fit_target (d : Dev) (v : Int) (r : RailIx) : d.KeepsTarget (d.fit v).2 r := by
  obtain ⟨-, -, hrails, hloop⟩ := d.fit_keeps v
  exact ⟨⟨by rw [hloop], by rw [hrails], fun _ _ => by rw [hrails], (d.fit_onlyIn v).into⟩, d.fit_onlyIn v .sp (by decide), by rw [hloop]⟩

theorem Dev.setIref_target (d : Dev) (r : RailIx) (v : Int) (lim : Bool) : d.KeepsTarget (d.setIref r v lim) r := by
  rw [Dev.setIref_eq]
  exact ((d.fit_target v r).trans (Dev.putIref_target _ r _ lim)).trans (Dev.giveIref_decides _ r _).target

theorem Dev.setIref_onlyIn (d : Dev) (r : RailIx) (v : Int) (lim : Bool) : d.onlyIn (d.setIref r v lim) [.loop, .free] := by
  rw [Dev.setIref_eq]
  exact (d.fit_onlyIn v).into.thenIn (Dev.updRailLoop_onlyIn _ r _) |>.thenIn (Dev.giveIref_onlyIn _ r _)

theorem Dev.giveIref_sameMembers (d : Dev) (r : RailIx) (ns : List PhaseIx) : d.SameMembers (d.giveIref r ns) := by
  have hframe := d.giveIref_onlyIn r ns
  have hcyc : (d.giveIref r ns).cyc = d.cyc := foldl_related (P := fun a b : Dev => b.cyc = a.cyc) (fun _ => rfl) (fun h k => k.trans h) (fun e n => e.giveOne_cyc r n) ns d
  exact Dev.sameMembers_of_frame hframe (congrArg Prot.trips (hframe .prot (by decide))) (by rw [hcyc]; exact ⟨rfl, rfl, rfl⟩)
    fun s => by rw [show (d.giveIref r ns).fault = d.fault from hframe .fault (by decide)]

theorem Dev.setIref_sameMembers (d : Dev) (r : RailIx) (v : Int) (lim : Bool) : d.SameMembers (d.setIref r v lim) := by
  rw [Dev.setIref_eq]
  exact ((d.fit_keeps v).1.trans (Dev.updRailLoop_sameMembers _ r _)).trans (Dev.giveIref_sameMembers _ r _)

/-- IREF of rail `r` has been transferred to its inner contexts. -/
theorem Dev.setIref_given {d : Dev} {r : RailIx} {w : Word} (lim : Bool) : let e := d.setIref r w.toInt lim
    (e.loop.rails[r]'r.2).iref = w ∧ (e.loop.rails[r]'r.2).auxLim = lim ∧
    ∀ n : PhaseIx, d.railOf n = some r → (d.loop.ctx[innerIx n]'(innerIx n).2).active = true → (e.loop.ctx[innerIx n]'(innerIx n).2).ref = w := by
  have hfit : d.fit w.toInt = (w, d) := by
    have hlt := BitVec.toInt_lt (x := w)
    have hle := BitVec.le_toInt w
    rw [Dev.fit_fits ⟨by simpa using hle, by simpa using hlt⟩, BitVec.ofInt_toInt]
  have hgives : (d.putIref r w lim).GivesIref ((d.putIref r w lim).giveIref r ((d.putIref r w lim).members r)) r :=
    foldl_related (P := fun a b : Dev => a.GivesIref b r) (fun e => .refl e r) .trans (fun e n => e.giveOne_gives r n) _ _
  have hput : (d.putIref r w lim).loop.rails[r]'r.2 = { d.loop.rails[r]'r.2 with iref := w, auxLim := lim } := d.updRailLoop_get r _
  have hgiven := fun n => Dev.giveIref_given (d := d.putIref r w lim) (r := r) (ns := (d.putIref r w lim).members r) (n := n) (Dev.members_nodup _ r)
  dsimp only
  rw [Dev.setIref_eq, hfit]
  dsimp only
  generalize (d.putIref r w lim).giveIref r ((d.putIref r w lim).members r) = given at hgives hgiven ⊢
  obtain ⟨hactive, hrails, -⟩ := hgives
  have hiref : (given.loop.rails[r]'r.2).iref = w := by rw [hrails, hput]
  refine ⟨hiref, by rw [hrails, hput], fun n hn ha => ?_⟩
  rw [hgiven n (Dev.mem_members.2 hn) (by rw [hactive]; exact ha), hiref]

end Sys2Proof.Machine
end

section
/-! SUPPORT. The reference of a rail at an update point, with and without a storage port. -/

namespace Sys2Proof.Machine

open Sys2Proof

/-! ## The transfer at an ordinary rail (R305, R306) -/

/-- IREF of an ordinary rail has been transferred. -/
structure Dev.IrefTaken (d e : Dev) (r : RailIx) : Prop where
  target : d.KeepsTarget e r
  same : d.SameMembers e
  frame : d.onlyIn e [.loop, .free, .fault]
  off : (d.loop.ctx[outerIx r]'(outerIx r).2).active = false → (e.loop.rails[r]'r.2).refs = (d.loop.rails[r]'r.2).refs
  least : (d.loop.ctx[outerIx r]'(outerIx r).2).active = true → (e.loop.rails[r]'r.2).iref.toInt ≤ (d.loop.ctx[outerIx r]'(outerIx r).2).delivered.toInt
  limited : (d.loop.ctx[outerIx r]'(outerIx r).2).active = true → ((e.loop.rails[r]'r.2).auxLim = true ↔ (e.loop.rails[r]'r.2).iref.toInt < (d.loop.ctx[outerIx r]'(outerIx r).2).delivered.toInt)
  aux : (d.loop.ctx[outerIx r]'(outerIx r).2).active = true → ∀ c ∈ d.auxOf r, (d.loop.ctx[c]'c.2).active = true → (e.loop.rails[r]'r.2).iref.toInt ≤ (d.loop.ctx[c]'c.2).delivered.toInt
  source : (d.loop.ctx[outerIx r]'(outerIx r).2).active = true → (e.loop.rails[r]'r.2).iref = (d.loop.ctx[outerIx r]'(outerIx r).2).delivered ∨
    ∃ c ∈ d.auxOf r, (d.loop.ctx[c]'c.2).active = true ∧ (e.loop.rails[r]'r.2).iref = (d.loop.ctx[c]'c.2).delivered
  given : (d.loop.ctx[outerIx r]'(outerIx r).2).active = true → ∀ n : PhaseIx, d.railOf n = some r → (d.loop.ctx[innerIx n]'(innerIx n).2).active = true →
    (e.loop.ctx[innerIx n]'(innerIx n).2).ref = (e.loop.rails[r]'r.2).iref

theorem Dev.transferRef_on {d : Dev} {r : RailIx} (h : (d.loop.ctx[outerIx r]'(outerIx r).2).active = true) : d.transferRef r =
    let x := d.auxMin r (d.loop.ctx[outerIx r]'(outerIx r).2).delivered.toInt
    if x.2 then (d.setIref r x.1 x.2).preload (outerIx r) hoTrack (some x.1) false else d.setIref r x.1 x.2 :=
  if_neg (by rw [h]; decide)

theorem Dev.transferRef_off {d : Dev} {r : RailIx} (h : (d.loop.ctx[outerIx r]'(outerIx r).2).active = false) : d.transferRef r = d := if_pos (by rw [h]; rfl)

/-- The value that the limits leave is the output of one of the contexts. -/
theorem Dev.auxMin_word (d : Dev) (r : RailIx) : ∃ w : Word, (d.auxMin r (d.loop.ctx[outerIx r]'(outerIx r).2).delivered.toInt).1 = w.toInt ∧
    (w = (d.loop.ctx[outerIx r]'(outerIx r).2).delivered ∨ ∃ c ∈ d.auxOf r, (d.loop.ctx[c]'c.2).active = true ∧ w = (d.loop.ctx[c]'c.2).delivered) := by
  rw [Dev.auxMin_eq]
  obtain ⟨-, -, -, hfrom⟩ := leastOut_spec (fun c : CtxIx => (d.loop.ctx[c]'c.2).delivered.toInt) ((d.auxOf r).filter fun c => (d.loop.ctx[c]'c.2).active)
    (d.loop.ctx[outerIx r]'(outerIx r).2).delivered.toInt false
  rcases hfrom with hfrom | ⟨c, hc, hfrom⟩
  · exact ⟨_, hfrom, .inl rfl⟩
  · obtain ⟨hmem, hact⟩ := List.mem_filter.1 hc
    exact ⟨_, hfrom, .inr ⟨c, hmem, hact, rfl⟩⟩

theorem Dev.transferRef_taken (d : Dev) (r : RailIx) : d.IrefTaken (d.transferRef r) r := by
  cases ha : (d.loop.ctx[outerIx r]'(outerIx r).2).active with
  | false =>
    have hno : ¬(d.loop.ctx[outerIx r]'(outerIx r).2).active = true := by
      rw [ha]
      decide
    rw [Dev.transferRef_off ha]
    exact ⟨.refl d r, .refl d, d.onlyIn_refl _, fun _ => rfl, fun h => absurd h hno, fun h => absurd h hno, fun h => absurd h hno, fun h => absurd h hno, fun h => absurd h hno⟩
  | true =>
    have hoff : ¬(d.loop.ctx[outerIx r]'(outerIx r).2).active = false := by
      rw [ha]
      decide
    obtain ⟨w, hw, hfrom⟩ := d.auxMin_word r
    obtain ⟨hle, hlim, hall, -⟩ := leastOut_spec (fun c : CtxIx => (d.loop.ctx[c]'c.2).delivered.toInt) ((d.auxOf r).filter fun c => (d.loop.ctx[c]'c.2).active)
      (d.loop.ctx[outerIx r]'(outerIx r).2).delivered.toInt false
    rw [← Dev.auxMin_eq, hw] at hle hall hlim
    have hlim : (d.auxMin r (d.loop.ctx[outerIx r]'(outerIx r).2).delivered.toInt).2 = true ↔ w.toInt < (d.loop.ctx[outerIx r]'(outerIx r).2).delivered.toInt := by
      rw [hlim]
      simp
    rw [Dev.transferRef_on ha]
    dsimp only
    rw [hw]
    generalize (d.auxMin r (d.loop.ctx[outerIx r]'(outerIx r).2).delivered.toInt).2 = lim at hlim ⊢
    obtain ⟨hiref, haux, hgiven⟩ := Dev.setIref_given (d := d) (r := r) (w := w) lim
    have htarget := d.setIref_target r w.toInt lim
    have hsame := d.setIref_sameMembers r w.toInt lim
    have hframe := d.setIref_onlyIn r w.toInt lim
    generalize d.setIref r w.toInt lim = put at hiref haux hgiven htarget hsame hframe ⊢
    have hrun : put.KeepsRun (if lim = true then put.preload (outerIx r) hoTrack (some w.toInt) false else put) := Dev.keepsRun_ite (put.preload_keepsRun _ _ _ _)
    have hlast : put.onlyIn (if lim = true then put.preload (outerIx r) hoTrack (some w.toInt) false else put) [.loop] := Dev.onlyIn_ite (put.preload_onlyIn _ _ _ _)
    generalize (if lim = true then put.preload (outerIx r) hoTrack (some w.toInt) false else put) = e at hrun hlast ⊢
    have hi : (e.loop.rails[r]'r.2).iref = w := (congrArg RailLoop.iref (hrun.rail r)).trans hiref
    have hl : (e.loop.rails[r]'r.2).auxLim = lim := (congrArg RailLoop.auxLim (hrun.rail r)).trans haux
    have hdec : put.Decides e r := hrun.toKeepsLoop.decidesLoop hlast.into
    refine ⟨htarget.trans hdec.target, hsame.trans (hrun.toKeepsLoop.sameMembers hlast (congrArg Prot.trips (hlast .prot (by decide)))), hframe.into.thenIn hlast, fun h => absurd h hoff, fun _ => ?_,
      fun _ => ?_, fun _ c hc hact => ?_, fun _ => ?_, fun _ n hn hact => ?_⟩
    · rw [hi]
      exact hle
    · rw [hi, hl]
      exact hlim
    · rw [hi]
      exact hall c (List.mem_filter.2 ⟨hc, hact⟩)
    · rw [hi]
      exact hfrom
    · rw [hi, hrun.ref]
      exact hgiven n hn hact

/-! ## The Sectors of a mark and RAIL_DIV (R304, R309) -/

/-- The contexts of the rail are evaluated at a mark. -/
def Dev.evalMarks (d : Dev) (r : RailIx) : Dev := (d.ctxsOf r).foldl (fun d c => if (d.loop.ctx[c]'c.2).active then d.evalMark r c else d) d

theorem Dev.evalMark_onlyIn (d : Dev) (r : RailIx) (c : CtxIx) : d.onlyIn (d.evalMark r c) [.loop, .fault] := by
  unfold Dev.evalMark
  extract_lets x
  split
  · split
    · exact d.evalNow_onlyIn c
    · exact (d.updCtx_onlyIn c _).into
  · split
    · exact (d.updCtx_onlyIn c _).into
    · extract_lets k
      split
      · exact (d.updCtx_onlyIn c _).into.thenIn (Dev.takeSector_onlyIn _ c _)
      · exact (d.updCtx_onlyIn c _).into

theorem Dev.evalMarks_keepsRun (d : Dev) (r : RailIx) : d.KeepsRun (d.evalMarks r) := Dev.keepsRun_foldl _ (fun e c => Dev.keepsRun_ite (e.evalMark_keepsRun r c)) _ d

theorem Dev.evalMarks_onlyIn (d : Dev) (r : RailIx) : d.onlyIn (d.evalMarks r) [.loop, .fault] :=
  Dev.onlyIn_foldl _ (fun e c => Dev.onlyIn_ite (e.evalMark_onlyIn r c)) _ d

/-! ## A storage port (R385 to R389) -/

theorem Dev.updPort_target (d : Dev) (p : PortIx) (f : Port → Port) (r : RailIx) : d.KeepsTarget (d.updPort p f) r :=
  ⟨⟨rfl, rfl, fun _ _ => rfl, (d.updPort_onlyIn p f).into⟩, rfl, rfl⟩

theorem Dev.setINow_target (d : Dev) (p : PortIx) (i : Int) (r : RailIx) : d.KeepsTarget (d.setINow p i) r :=
  (d.fit_target i r).trans (Dev.updPort_target _ p _ r)

/-- A step of a port in CHARGE or SUPPORT: what has been formed of the rail stands, with the set-point. -/
structure Dev.PortWork (d e : Dev) (r : RailIx) : Prop where
  formed : d.KeepsFormed e r
  sp : e.sp = d.sp

theorem Dev.PortWork.refl (d : Dev) (r : RailIx) : d.PortWork d r := ⟨.refl d r, rfl⟩

theorem Dev.PortWork.trans {a b c : Dev} {r : RailIx} (h : a.PortWork b r) (k : b.PortWork c r) : a.PortWork c r := ⟨h.formed.trans k.formed, k.sp.trans h.sp⟩

theorem Dev.KeepsTarget.portWork {d e : Dev} {r : RailIx} (h : d.KeepsTarget e r) : d.PortWork e r := ⟨h.formed, h.sp⟩

theorem Dev.updCtx_portWork (d : Dev) (c : CtxIx) (f : Ctx → Ctx) (r : RailIx) : d.PortWork (d.updCtx c f) r := ⟨⟨rfl, rfl, fun _ _ => rfl, (d.updCtx_onlyIn c f).into⟩, rfl⟩

theorem Dev.setRef_portWork (d : Dev) (c : CtxIx) (v : Int) (r : RailIx) : d.PortWork (d.setRef c v) r :=
  (d.fit_target v r).portWork.trans (Dev.updCtx_portWork _ c _ r)

theorem Dev.writeBusRef_portWork (d : Dev) (r : RailIx) (c : CtxIx) (mv : Nat) : d.PortWork (d.writeBusRef r c mv) r := by
  unfold Dev.writeBusRef
  extract_lets k
  split
  · exact d.setRef_portWork c 0 r
  · split
    · have hfresh : d.PortWork d.fresh.2 r := ⟨⟨rfl, rfl, fun _ _ => rfl, (d.onlyIn_free _).into⟩, rfl⟩
      exact hfresh.trans (Dev.updCtx_portWork _ c _ r)
    · exact d.setRef_portWork c _ r

theorem Dev.portMark_step (d : Dev) (p : PortIx) (r : RailIx) : d.PortWork (d.portMark p r) r := by
  unfold Dev.portMark
  extract_lets x bus delta slewed
  have hbus : d.PortWork bus r := by
    unfold bus
    split
    · split
      · exact d.writeBusRef_portWork r _ _
      · exact d.writeBusRef_portWork r _ _
      · exact .refl d r
    · exact .refl d r
  clear_value bus
  refine hbus.trans ?_
  split
  · split
    · have hslewed : bus.PortWork slewed r := (bus.setINow_target p _ r).portWork
      split
      · exact hslewed.trans (Dev.setRef_portWork _ _ _ r)
      · exact hslewed
    · exact .refl bus r
  · exact .refl bus r

/-- A rail that neither charges nor supports leaves its port alone. -/
theorem Dev.portMark_idle {d : Dev} {r : RailIx} (p : PortIx) (hc : (d.rails[r]'r.2).mode ≠ .charge) (hs : (d.rails[r]'r.2).mode ≠ .support) : d.portMark p r = d := by
  unfold Dev.portMark
  extract_lets x bus delta slewed
  have hbus : bus = d := by
    unfold bus
    split
    · split
      · next h => exact absurd h hc
      · next h => exact absurd h hs
      · rfl
    · rfl
  have hoff : ¬(decide (bus.mode r = .charge) && !x.tempHold) = true := fun h => by
    have hcharge := of_decide_eq_true (Bool.and_eq_true_iff.1 h).1
    rw [hbus] at hcharge
    exact hc hcharge
  rw [if_neg hoff, hbus]

theorem Dev.preload_target (d : Dev) (c : CtxIx) (k : Nat) (p : Option Int) (slew : Bool) (r : RailIx) : d.KeepsTarget (d.preload c k p slew) r :=
  ((d.preload_keepsRun c k p slew).toKeepsLoop.decidesLoop (d.preload_onlyIn c k p slew).into).target

/-- IREF of a storage rail is transferred, with what follows where an auxiliary context limits. -/
def Dev.chargeTail (d : Dev) (p : PortIx) (r : RailIx) (v : Int) (lim : Bool) : Dev :=
  let e := (d.setIref r v lim).updPort p fun y => { y with inreg := lim }
  if !lim then e
  else if (d.ports[p]'p.2).phase = .cv then e.preload (outerIx r) hoTrack (some v) false
  else e.setINow p (e.refMa r v)

theorem Dev.chargeTail_target (d : Dev) (p : PortIx) (r : RailIx) (v : Int) (lim : Bool) : d.KeepsTarget (d.chargeTail p r v lim) r := by
  unfold Dev.chargeTail
  extract_lets e
  have he : d.KeepsTarget e r := (d.setIref_target r v lim).trans (Dev.updPort_target _ p _ r)
  clear_value e
  refine he.trans ?_
  split
  · exact .refl e r
  · split
    · exact e.preload_target _ _ _ _ r
    · exact e.setINow_target p _ r

theorem Dev.chargeRef_eq (d : Dev) (p : PortIx) (r : RailIx) : d.chargeRef p r = d ∨ ∃ v lim, d.chargeRef p r = d.chargeTail p r v lim := by
  unfold Dev.chargeRef
  extract_lets x c
  split
  · exact .inl rfl
  · exact .inr ⟨_, _, rfl⟩

theorem Dev.chargeRef_target (d : Dev) (p : PortIx) (r : RailIx) : d.KeepsTarget (d.chargeRef p r) r := by
  rcases d.chargeRef_eq p r with h | ⟨v, lim, h⟩
  · rw [h]
    exact .refl d r
  · rw [h]
    exact d.chargeTail_target p r v lim

/-- IREF in SUPPORT is transferred. -/
def Dev.supportTail (d : Dev) (p : PortIx) (r : RailIx) (v : Int) (lim : Bool) : Dev :=
  let e := (d.setIref r v lim).updPort p fun y => { y with inreg := lim }
  e.setINow p (e.refMa r v)

theorem Dev.supportRef_eq (d : Dev) (p : PortIx) (r : RailIx) : d.supportRef p r = d ∨ ∃ v lim, d.supportRef p r = d.supportTail p r v lim := by
  unfold Dev.supportRef
  split
  · exact .inr ⟨_, _, rfl⟩
  · exact .inl rfl

theorem Dev.supportRef_target (d : Dev) (p : PortIx) (r : RailIx) : d.KeepsTarget (d.supportRef p r) r := by
  rcases d.supportRef_eq p r with h | ⟨v, lim, h⟩
  · rw [h]
    exact .refl d r
  · rw [h]
    exact ((d.setIref_target r v lim).trans (Dev.updPort_target _ p _ r)).trans (Dev.setINow_target _ p _ r)

theorem Dev.portRef_target (d : Dev) (p : PortIx) (r : RailIx) : d.KeepsTarget (d.portRef p r) r := by
  unfold Dev.portRef
  extract_lets x
  split
  · exact .refl d r
  · split
    · exact d.chargeRef_target p r
    · exact d.chargeRef_target p r
    · exact d.chargeRef_target p r
    · exact d.chargeRef_target p r
    · exact d.supportRef_target p r
    · exact .refl d r

/-- A rail that neither charges nor supports has no reference of its port's. -/
theorem Dev.portRef_idle {d : Dev} {r : RailIx} (p : PortIx) (hc : (d.rails[r]'r.2).mode ≠ .charge) (hs : (d.rails[r]'r.2).mode ≠ .support) : d.portRef p r = d := by
  unfold Dev.portRef
  extract_lets x
  split
  · rfl
  · split
    · next h _ => exact absurd h hc
    · next h _ => exact absurd h hc
    · next h _ => exact absurd h hc
    · next h _ => exact absurd h hc
    · next h _ => exact absurd h hs
    · rfl

/-! ### What a port writes -/

theorem Dev.setINow_onlyIn (d : Dev) (p : PortIx) (i : Int) : d.onlyIn (d.setINow p i) [.free, .ports] := (d.fit_onlyIn i).into.thenIn (Dev.updPort_onlyIn _ p _)

theorem Dev.portMark_onlyIn (d : Dev) (p : PortIx) (r : RailIx) : d.onlyIn (d.portMark p r) [.loop, .free, .ports] := by
  unfold Dev.portMark
  extract_lets x bus delta slewed
  have hbus : d.onlyIn bus [.loop, .free] := by
    unfold bus
    split
    · split
      · exact d.writeBusRef_onlyIn r _ _
      · exact d.writeBusRef_onlyIn r _ _
      · exact d.onlyIn_refl _
    · exact d.onlyIn_refl _
  clear_value bus
  refine hbus.into.thenIn (cs := [.loop, .free, .ports]) ?_
  split
  · split
    · have hslewed : bus.onlyIn slewed [.free, .ports] := bus.setINow_onlyIn p _
      split
      · exact hslewed.into.thenIn (Dev.setRef_onlyIn _ _ _)
      · exact hslewed.into
    · exact bus.onlyIn_refl _
  · exact bus.onlyIn_refl _

theorem Dev.putPortRef_onlyIn (d : Dev) (p : PortIx) (r : RailIx) (v : Int) (lim : Bool) :
    d.onlyIn ((d.setIref r v lim).updPort p fun y => { y with inreg := lim }) [.loop, .free, .ports] := (d.setIref_onlyIn r v lim).into.thenIn (Dev.updPort_onlyIn _ p _)

theorem Dev.chargeRef_onlyIn (d : Dev) (p : PortIx) (r : RailIx) : d.onlyIn (d.chargeRef p r) [.loop, .free, .ports] := by
  rcases d.chargeRef_eq p r with h | ⟨v, lim, h⟩
  · rw [h]
    exact d.onlyIn_refl _
  · rw [h]
    unfold Dev.chargeTail
    extract_lets e
    have he : d.onlyIn e [.loop, .free, .ports] := d.putPortRef_onlyIn p r v lim
    clear_value e
    refine he.thenIn (cs := [.loop, .free, .ports]) ?_
    split
    · exact e.onlyIn_refl _
    · split
      · exact (e.preload_onlyIn _ _ _ _).into
      · exact (e.setINow_onlyIn p _).into

theorem Dev.supportRef_onlyIn (d : Dev) (p : PortIx) (r : RailIx) : d.onlyIn (d.supportRef p r) [.loop, .free, .ports] := by
  rcases d.supportRef_eq p r with h | ⟨v, lim, h⟩
  · rw [h]
    exact d.onlyIn_refl _
  · rw [h]
    exact (d.putPortRef_onlyIn p r v lim).thenIn (Dev.setINow_onlyIn _ p _)

theorem Dev.portRef_onlyIn (d : Dev) (p : PortIx) (r : RailIx) : d.onlyIn (d.portRef p r) [.loop, .free, .ports] := by
  unfold Dev.portRef
  extract_lets x
  split
  · exact d.onlyIn_refl _
  · split
    · exact d.chargeRef_onlyIn p r
    · exact d.chargeRef_onlyIn p r
    · exact d.chargeRef_onlyIn p r
    · exact d.chargeRef_onlyIn p r
    · exact d.supportRef_onlyIn p r
    · exact d.onlyIn_refl _

/-! ## The rail's sum as the members stand (R275) -/

theorem Dev.SameMembers.accOf {d e : Dev} (h : d.SameMembers e) (hs : e.sense = d.sense) (c : CtxIx) : e.accOf c = d.accOf c := by
  have htopo : e.topo c = d.topo c := by rw [Dev.topo, h.tile, Dev.topo]
  unfold Dev.accOf
  rw [hs]
  exact congrArg (fun t : TopoEnt => d.sense.accs[t.input]'(t.input).2) htopo

theorem Dev.SameMembers.railSum {d e : Dev} (h : d.SameMembers e) (hs : e.sense = d.sense) (hp : e.pwmg.rper = d.pwmg.rper) (r : RailIx) : e.railSum r = d.railSum r := by
  have hpart : e.partialSum r = d.partialSum r := funext fun q => by
    have hms : ((e.members r).filter fun n => quadOf n == q && e.isLoop n && e.isActive n) = (d.members r).filter fun n => quadOf n == q && d.isLoop n && d.isActive n := by
      rw [h.members]
      exact List.filter_congr fun n _ => by rw [h.isLoop, h.isActive]
    have hacc : e.accOf = d.accOf := funext (h.accOf hs)
    unfold Dev.partialSum
    rw [hms, hp, h.clk, hacc]
  unfold Dev.railSum
  rw [hpart]

end Sys2Proof.Machine
end

section
/-! SUPPORT. What the decisions of a mark leave, mode by mode. -/

namespace Sys2Proof.Machine

open Sys2Proof

/-! ## A Flare's exit in any mode -/

theorem Dev.flareMode_decides (d : Dev) (r : RailIx) : d.Decides (d.flareMode r (d.rails[r]'r.2).mode) r := by
  by_cases h : (d.rails[r]'r.2).mode = .ember
  · rw [h]
    exact (Dev.flareMode_modeAfter h (.inr rfl)).decides
  · have hsync : d.flareMode r (d.rails[r]'r.2).mode = d.syncCtx r := if_neg h
    rw [hsync]
    exact (d.syncCtx_keepsLoop r).decidesLoop (d.syncCtx_onlyIn r).into

theorem Dev.flareExit_decides (d : Dev) (r : RailIx) (late : Bool) : d.Decides (d.flareExit r late) r := by
  obtain ⟨hout, -, -, -⟩ := d.flareOut_decides r late
  have hrout := d.flareOut_railIs r late
  rw [Dev.flareExit_eq]
  generalize d.flareOut r late = out at hout hrout ⊢
  have hquiet := out.leaveAll_quiet r
  generalize out.leaveAll r = left at hquiet ⊢
  have hmode : (left.rails[r]'r.2).mode = (d.rails[r]'r.2).mode := by
    rw [(hrout.thenKeeps hquiet.frame).get]
    rfl
  have hm := left.flareMode_decides r
  rw [hmode] at hm
  exact (((hout.trans (hquiet.decides r)).trans hm).trans (Dev.giveIref_decides _ r _)).trans
    (((Dev.flareHandOver_keepsRun _ r _).toKeepsLoop.decidesLoop (Dev.flareHandOver_onlyIn _ r _).into).trans (Dev.respread_decides _ r))

theorem Dev.flarePoint_decides (d : Dev) (r : RailIx) : d.Decides (d.flarePoint r) r := by
  cases hf : (d.rails[r]'r.2).flare with
  | none =>
    have hidle : d.flarePoint r = d := by
      unfold Dev.flarePoint
      extract_lets x
      have hx : x.flare = none := hf
      rw [hx]
    rw [hidle]
    exact .refl d r
  | some f =>
    obtain ⟨hback, hlate, hruns⟩ := Dev.flarePoint_recovers hf
    by_cases hb : d.recovers r f
    · rw [hback hb]
      exact d.flareExit_decides r false
    · by_cases hl : d.flareEnds r f
      · rw [hlate hb hl]
        exact d.flareExit_decides r true
      · rw [hruns hb hl]
        exact .refl d r

/-- The decisions that every update point takes. -/
def Dev.pointDecisions (d : Dev) (r : RailIx) : Dev :=
  if (d.rails[r]'r.2).flare.isSome then d.flarePoint r else if d.mode r = .ember then d.emberPoint r else d

theorem Dev.pointDecisions_decides (d : Dev) (r : RailIx) : d.Decides (d.pointDecisions r) r := by
  unfold Dev.pointDecisions
  split
  · exact d.flarePoint_decides r
  · split
    · next h => exact (Dev.emberPoint_step h).decides
    · exact .refl d r

/-! ## The members after a step that writes the rail's record -/

theorem Dev.KeepsLoop.sameMembersRail {d e : Dev} {r : RailIx} {y : Rail} (k : d.KeepsLoop e) (h : d.onlyIn e [.rails, .loop, .prot, .fault, .free, .sp])
    (ht : e.prot.trips = d.prot.trips) (hrail : d.RailIs e r y) (hf : y.flare = (d.rails[r]'r.2).flare) (hd : y.drained = (d.rails[r]'r.2).drained) : d.SameMembers e := by
  have hget : ∀ x : RailIx, e.rails[x]'x.2 = if x = r then y else d.rails[x]'x.2 := fun x => by
    by_cases hx : x = r
    · subst hx
      rw [if_pos rfl]
      exact hrail.get
    · rw [if_neg hx]
      exact hrail.get_ne hx
  have hp : e.pwm = d.pwm := h .pwm (by decide)
  refine ⟨h .tile (by decide), h .clk (by decide), h .cards (by decide), fun _ => by rw [hp], ht, k.cycle, k.card, fun x => ?_, fun x => ?_⟩
  all_goals
    rw [hget]
    split
    · next hx => subst hx; assumption
    · rfl

/-! ## RAMP (R316, R319, R372) -/

/-- What decides on adding in the rail's record. -/
def Rail.adding (x : Rail) : Option PhaseIx × Option Tick × BitVec 24 × Byte × Bool × Option Tick := (x.addWait, x.addSince, x.addTh, x.addDwell, x.shedEn, x.flare)

/-- A step of a rail in RAMP before adding is decided. -/
structure Dev.RampStep (d e : Dev) (r : RailIx) : Prop where
  same : d.SameMembers e
  formed : d.KeepsFormed e r
  iref : d.KeepsIref e r
  leave : e.leave = d.leave
  rail : ∃ y, d.RailIs e r y ∧ y.adding = (d.rails[r]'r.2).adding ∧ ((d.rails[r]'r.2).m0Wait = none → y.mode = if (d.sp.sp[r]'r.2).p = (d.sp.sp[r]'r.2).aim then .regulate else .ramp)
  target : (d.rails[r]'r.2).m0Wait = none → d.KeepsTarget e r
  slewing : ((d.sp.sp[r]'r.2).slewing = true ↔ (d.sp.sp[r]'r.2).p ≠ (d.sp.sp[r]'r.2).aim) → ((e.sp.sp[r]'r.2).slewing = true ↔ (e.sp.sp[r]'r.2).p ≠ (e.sp.sp[r]'r.2).aim)

/-- What M0 leads to after the target is written. -/
def Dev.m0HandOver (d : Dev) (r : RailIx) : Dev :=
  let d := (d.syncCtx r).evalRail r
  let d := if (d.loop.ctx[outerIx r]'(outerIx r).2).active then d.preload (outerIx r) hoMode (some 0) false else d
  let d0 := d.d0 r
  (d.members r).foldl (fun d n => if (d.loop.ctx[innerIx n]'(innerIx n).2).active then d.preload (innerIx n) hoMode (some d0) false else d) d

/-- P is taken from M0. -/
def Dev.m0Target (d : Dev) (r : RailIx) (m0 : Int) : Dev := d.updSp r fun s => let p := rhe (m0 * (d.rails[r]'r.2).vscale.toNat * 65536) 1000
  { s with p := p, slewing := p != s.aim }

theorem Dev.takeM0_eq (d : Dev) (r : RailIx) (m0 : Int) : d.takeM0 r m0 =
    ((((((d.updRail r fun x => { x with m0Wait := none }).setRef (outerIx r) m0).m0Target r m0).m0HandOver r).setUv r).setRt r) := rfl

theorem Dev.m0HandOver_keepsLoop (d : Dev) (r : RailIx) : d.KeepsLoop (d.m0HandOver r) ∧ d.onlyIn (d.m0HandOver r) [.loop, .fault] := by
  unfold Dev.m0HandOver
  extract_lets ctxs outer d0
  have hctxs : d.KeepsLoop ctxs ∧ d.onlyIn ctxs [.loop, .fault] :=
    ⟨(d.syncCtx_keepsLoop r).trans (Dev.evalRail_keepsRun _ r).toKeepsLoop, (d.syncCtx_onlyIn r).thenIn (Dev.evalRail_onlyIn _ r)⟩
  have houter : ctxs.KeepsLoop outer ∧ ctxs.onlyIn outer [.loop] := ⟨Dev.keepsLoop_ite (ctxs.preload_keepsRun _ _ _ _).toKeepsLoop, Dev.onlyIn_ite (ctxs.preload_onlyIn _ _ _ _)⟩
  clear_value outer ctxs
  refine ⟨(hctxs.1.trans houter.1).trans (Dev.keepsLoop_foldl _ (fun e n => Dev.keepsLoop_ite (e.preload_keepsRun _ _ _ _).toKeepsLoop) _ outer), ?_⟩
  exact hctxs.2.thenIn houter.2 |>.thenIn (outer.preloadMembers_onlyIn r d0)

theorem Dev.takeM0_step (d : Dev) (r : RailIx) (m0 : Int) (k : Nat) (hw : (d.rails[r]'r.2).m0Wait = some k) : d.RampStep (d.takeM0 r m0) r := by
  have hsome : (d.rails[r]'r.2).m0Wait ≠ none := by
    rw [hw]
    exact Option.some_ne_none k
  have hframe := d.takeM0_onlyIn r m0
  have hrail : d.RailIs (d.takeM0 r m0) r { d.rails[r]'r.2 with m0Wait := none } := (d.updRail_railIs r _).thenKeeps (d.takeM0_after r m0)
  rw [Dev.takeM0_eq] at hframe hrail ⊢
  let waited := d.updRail r fun x => { x with m0Wait := none }
  have hwaited : d.SameMembers waited := d.updRail_sameMembers r _
  have href := waited.setRef_keepsOutputs (outerIx r) m0
  have hinner := fun n => waited.setRef_ne m0 (outerIx_ne_innerIx r n).symm
  generalize waited.setRef (outerIx r) m0 = refd at href hinner hframe hrail ⊢
  have hsp : ((refd.m0Target r m0).sp.sp[r]'r.2).slewing = true ↔ ((refd.m0Target r m0).sp.sp[r]'r.2).p ≠ ((refd.m0Target r m0).sp.sp[r]'r.2).aim := by
    have hget : (refd.m0Target r m0).sp.sp[r]'r.2 = _ := refd.updSp_get r _
    rw [hget]
    exact bne_iff_ne
  have hrun : refd.KeepsRun (refd.m0Target r m0) := refd.updSp_keepsRun r _
  have htframe : refd.onlyIn (refd.m0Target r m0) [.sp] := refd.updSp_onlyIn r _
  generalize refd.m0Target r m0 = aimed at hsp hrun htframe hframe hrail ⊢
  obtain ⟨hhand, hhframe⟩ := aimed.m0HandOver_keepsLoop r
  generalize aimed.m0HandOver r = handed at hhand hhframe hframe hrail ⊢
  have hwin : handed.KeepsRun ((handed.setUv r).setRt r) := (handed.updWin_keepsRun r _).trans (Dev.updWin_keepsRun _ r _)
  have hwframe : handed.onlyIn ((handed.setUv r).setRt r) [.prot] := (handed.setUv_onlyIn r).thenIn (Dev.setRt_onlyIn _ r)
  have htrips : ((handed.setUv r).setRt r).prot.trips = handed.prot.trips := rfl
  generalize (handed.setUv r).setRt r = e at hwin hwframe htrips hframe hrail ⊢
  have hkeep := (hrun.toKeepsLoop.trans hhand).trans hwin.toKeepsLoop
  have hrest : refd.onlyIn e [.sp, .loop, .fault, .prot] := htframe.into.thenIn hhframe |>.thenIn hwframe
  have hbefore : refd.onlyIn handed [.sp, .loop, .fault] := htframe.into.thenIn hhframe
  have hsame : d.SameMembers e := (hwaited.trans href.same).trans (hkeep.sameMembers hrest (htrips.trans (congrArg Prot.trips (hbefore .prot (by decide)))))
  have hlr : refd.loop.rails = d.loop.rails := href.lrails
  have hu := hkeep.rail r
  rw [hlr] at hu
  have hkeys : (e.loop.rails[r]'r.2).keys = (d.loop.rails[r]'r.2).keys := by
    have hk := congrArg RailLoop.keys hu
    exact hk
  have hrefs : (e.loop.rails[r]'r.2).refs = (d.loop.rails[r]'r.2).refs := by
    have hk := congrArg RailLoop.refs hu
    exact hk
  have hafter : aimed.onlyIn e [.loop, .fault, .prot] := hhframe.into.thenIn hwframe
  have hspe : e.sp = aimed.sp := hafter .sp (by decide)
  refine ⟨hsame, ⟨hkeys, by rw [hrail.get]; rfl, fun x hx => hrail.get_ne hx, hframe.into⟩, ⟨hrefs, fun n => .inl ?_⟩, hframe .leave (by decide), ⟨_, hrail, rfl, fun h => absurd h hsome⟩,
    fun h => absurd h hsome, fun _ => by rw [hspe]; exact hsp⟩
  rw [hkeep.ref]
  exact hinner n

theorem srcCardFault_ne_input (r : RailIx) (s : CardIx) : srcCardFault s ≠ srcLoopInput r := by
  revert r s
  decide

/-- LOOP_INPUT of the outer context is raised as by eight held computes (R316). -/
def Dev.inputMissed (d : Dev) (r : RailIx) : Dev := (d.updCtx (outerIx r) fun x => { x with invalidRun := 8, inputRail := some r }).loopInputCause r

theorem Dev.inputMissed_keeps (d : Dev) (r : RailIx) : d.KeepsRun (d.inputMissed r) ∧ d.onlyIn (d.inputMissed r) [.loop, .fault] :=
  ⟨(d.updCtx_keepsRun _ _).trans (Dev.setCause_keepsRun _ _ _ _ _ (srcCardFault_ne_input r)), (d.updCtx_onlyIn _ _).into.thenIn (Dev.setCause_onlyIn _ _ _ _ _)⟩

theorem Dev.m0Missed_eq (d : Dev) (r : RailIx) (k : Nat) : d.m0Missed r k =
    if k + 1 = 8 then (d.updRail r fun x => { x with m0Wait := some (k + 1) }).inputMissed r else d.updRail r fun x => { x with m0Wait := some (k + 1) } := rfl

theorem Dev.m0Missed_step (d : Dev) (r : RailIx) (k : Nat) (hw : (d.rails[r]'r.2).m0Wait = some k) : d.RampStep (d.m0Missed r k) r := by
  have hsome : (d.rails[r]'r.2).m0Wait ≠ none := by
    rw [hw]
    exact Option.some_ne_none k
  let counts := d.updRail r fun x => { x with m0Wait := some (k + 1) }
  have hlast : counts.KeepsRun (d.m0Missed r k) ∧ counts.onlyIn (d.m0Missed r k) [.loop, .fault] := by
    rw [Dev.m0Missed_eq]
    exact ⟨Dev.keepsRun_ite (counts.inputMissed_keeps r).1, Dev.onlyIn_ite (counts.inputMissed_keeps r).2⟩
  generalize d.m0Missed r k = e at hlast ⊢
  obtain ⟨hrun, hframe⟩ := hlast
  have hrail : d.RailIs e r { d.rails[r]'r.2 with m0Wait := some (k + 1) } := (d.updRail_railIs r _).thenKeeps hframe
  have hkeep : d.KeepsLoop e := ((d.updRail_keepsRun r _).trans hrun).toKeepsLoop
  have hall : d.onlyIn e [.rails, .loop, .fault] := (d.updRail_onlyIn r _).into.thenIn hframe
  have hprot : e.prot = d.prot := hall .prot (by decide)
  have hdec : d.Decides e r := hkeep.decides hrail rfl hall.into (by rw [hprot])
  exact ⟨hkeep.sameMembersRail hall.into (by rw [hprot]) hrail rfl rfl, hdec.formed, hdec.iref, hall .leave (by decide), ⟨_, hrail, rfl, fun h => absurd h hsome⟩,
    fun h => absurd h hsome, fun h => by rw [hdec.aim.sp]; exact h⟩

/-- The step of RAMP at a mark. -/
def Dev.rampStep (d : Dev) (r : RailIx) : Dev := match (d.rails[r]'r.2).m0Wait with
  | some k => match d.m0 r with
    | some m => d.takeM0 r m
    | none => d.m0Missed r k
  | none => if (d.sp.sp[r]'r.2).p = (d.sp.sp[r]'r.2).aim then d.changeMode r .regulate else d

theorem Dev.rampStep_step {d : Dev} {r : RailIx} (hm : (d.rails[r]'r.2).mode = .ramp) : d.RampStep (d.rampStep r) r := by
  unfold Dev.rampStep
  cases hw : (d.rails[r]'r.2).m0Wait with
  | some k =>
    dsimp only
    cases d.m0 r with
    | some m => exact d.takeM0_step r m k hw
    | none => exact d.m0Missed_step r k hw
  | none =>
    dsimp only
    by_cases hp : (d.sp.sp[r]'r.2).p = (d.sp.sp[r]'r.2).aim
    · rw [if_pos hp]
      have hchange : d.ModeChanged (d.changeMode r .regulate) := Dev.changeMode_on (by rw [hm]; decide) (by rw [hm]; decide) (by decide)
      have hdec := Dev.changeMode_decides hchange
      obtain ⟨since, olt, hrail⟩ := d.changeMode_railIs r .regulate
      exact ⟨hchange.keeps.sameMembersRail hchange.frame.into hchange.trips hrail rfl rfl, hdec.formed, hdec.iref, hchange.frame .leave (by decide),
        ⟨_, hrail, rfl, fun _ => (if_pos hp).symm⟩, fun _ => hdec.target, fun h => by rw [hdec.aim.sp]; exact h⟩
    · rw [if_neg hp]
      exact ⟨.refl d, .refl d r, .refl d r, rfl, ⟨_, d.railIs_refl r, rfl, fun _ => hm.trans (if_neg hp).symm⟩, fun _ => .refl d r, fun h => h⟩

/-! ## REGULATE, CHARGE and SUPPORT -/

theorem Dev.addMark_decides (d : Dev) (r : RailIx) (valid : Bool) : d.Decides (d.addMark r valid) r := by
  obtain ⟨l, since, wait, -, h⟩ := d.addMark_is r valid
  exact h.decides rfl

theorem Dev.askAdd_decides (d : Dev) (r : RailIx) : d.Decides (d.askAdd r) r := by
  obtain ⟨l, wait, -, h⟩ := d.askAdd_asked r
  exact h.decides rfl

theorem Dev.emberMark_decides {d : Dev} {r : RailIx} (hm : (d.rails[r]'r.2).mode = .regulate) : d.Decides (d.emberMark r) r := by
  obtain ⟨henter, hdwells, hnone⟩ := Dev.emberMark_is hm
  have hd : ∀ since : Option Tick, d.Decides (d.emberDwells r since) r := fun since => d.updRail_decides r _
  by_cases hlow : d.emberLow r ∧ (d.rails[r]'r.2).notice = none
  · by_cases hfull : d.emberFull r
    · have hmode : ((d.emberDwells r (some ((d.rails[r]'r.2).emberSince.getD d.clk.now))).rails[r]'r.2).mode = .regulate :=
        (congrArg Rail.mode (d.updRail_railIs r _).get).trans hm
      rw [henter hlow hfull]
      exact (hd _).trans (Dev.enterEmber_begun hmode).decides
    · rw [hdwells hlow hfull]
      exact hd _
  · rw [hnone hlow]
    exact hd none

/-- The decisions of a mark in REGULATE. -/
def Dev.regulateStep (d : Dev) (r : RailIx) (valid : Bool) : Dev := ((d.shedMark r valid).addMark r valid).emberMark r

theorem Dev.regulateStep_decides {d : Dev} {r : RailIx} (valid : Bool) (hm : (d.rails[r]'r.2).mode = .regulate) : d.Decides (d.regulateStep r valid) r := by
  obtain ⟨nt, since, -, hshed⟩ := Dev.shedMark_is valid hm
  unfold Dev.regulateStep
  generalize d.shedMark r valid = shed at hshed ⊢
  obtain ⟨l, dwell, wait, -, hadd⟩ := shed.addMark_is r valid
  generalize shed.addMark r valid = added at hadd ⊢
  have hmode : (added.rails[r]'r.2).mode = .regulate := by
    rw [hadd.railIs.get, hshed.railIs.get]
    exact hm
  exact ((hshed.decides rfl).trans (hadd.decides rfl)).trans (Dev.emberMark_decides hmode)

theorem Dev.phaseMissed_target (d : Dev) (p : PortIx) (r : RailIx) : d.KeepsTarget (d.phaseMissed p r) r := by
  unfold Dev.phaseMissed
  split
  · exact .refl d r
  · extract_lets k counts
    have hcounts : d.KeepsTarget counts r := d.updPort_target p _ r
    refine hcounts.trans ?_
    split
    · obtain ⟨hrun, hframe⟩ := counts.inputMissed_keeps r
      exact (hrun.toKeepsLoop.decidesLoop hframe.into).target
    · exact .refl counts r

/-- The decisions of a mark of a storage rail. -/
def Dev.storeStep (d : Dev) (p : PortIx) (r : RailIx) : Dev :=
  let d := d.phaseMissed p r
  if d.activeCount r < d.portMembers p r then d.askAdd r else d

theorem Dev.storeStep_target (d : Dev) (p : PortIx) (r : RailIx) : d.KeepsTarget (d.storeStep p r) r := by
  unfold Dev.storeStep
  extract_lets missed
  refine (d.phaseMissed_target p r).trans ?_
  split
  · exact (missed.askAdd_decides r).target
  · exact .refl missed r

/-! ## The decisions of a mark -/

theorem Dev.markDecisions_flare {d : Dev} {r : RailIx} (valid : Bool) (h : (d.rails[r]'r.2).flare.isSome = true) : d.markDecisions r valid = d := if_pos h

theorem Dev.markDecisions_ramp {d : Dev} {r : RailIx} (valid : Bool) (hf : (d.rails[r]'r.2).flare = none) (hm : (d.rails[r]'r.2).mode = .ramp) :
    d.markDecisions r valid = (d.rampStep r).addMark r valid := by
  unfold Dev.markDecisions
  extract_lets x
  have hx : ¬x.flare.isSome = true := by
    rw [show x.flare = none from hf]
    decide
  rw [if_neg hx, show x.mode = .ramp from hm]
  rfl

theorem Dev.markDecisions_regulate {d : Dev} {r : RailIx} (valid : Bool) (hf : (d.rails[r]'r.2).flare = none) (hm : (d.rails[r]'r.2).mode = .regulate) :
    d.markDecisions r valid = d.regulateStep r valid := by
  unfold Dev.markDecisions
  extract_lets x
  have hx : ¬x.flare.isSome = true := by
    rw [show x.flare = none from hf]
    decide
  rw [if_neg hx, show x.mode = .regulate from hm]
  rfl

theorem Dev.markDecisions_other {d : Dev} {r : RailIx} (valid : Bool) (hf : (d.rails[r]'r.2).flare = none) (hr : (d.rails[r]'r.2).mode ≠ .ramp) (hg : (d.rails[r]'r.2).mode ≠ .regulate) :
    d.markDecisions r valid = d ∨ ∃ p, d.markDecisions r valid = d.storeStep p r := by
  unfold Dev.markDecisions
  extract_lets x
  have hx : ¬x.flare.isSome = true := by
    rw [show x.flare = none from hf]
    decide
  rw [if_neg hx]
  have hport : (match d.portOf r with
      | some p => d.storeStep p r
      | none => d) = d ∨ ∃ p, (match d.portOf r with
      | some p => d.storeStep p r
      | none => d) = d.storeStep p r := by
    cases d.portOf r with
    | none => exact .inl rfl
    | some p => exact .inr ⟨p, rfl⟩
  cases hm : x.mode with
  | ramp => exact absurd hm hr
  | regulate => exact absurd hm hg
  | charge => exact hport
  | support => exact hport
  | _ => exact .inl rfl

/-- What the decisions of a mark leave of what has been formed, and of the target where no M0 is awaited. -/
structure Dev.MarkDecided (d e : Dev) (r : RailIx) : Prop where
  formed : d.KeepsFormed e r
  target : ¬((d.rails[r]'r.2).mode = .ramp ∧ (d.rails[r]'r.2).m0Wait ≠ none) → d.KeepsTarget e r
  slewing : ((d.sp.sp[r]'r.2).slewing = true ↔ (d.sp.sp[r]'r.2).p ≠ (d.sp.sp[r]'r.2).aim) → ((e.sp.sp[r]'r.2).slewing = true ↔ (e.sp.sp[r]'r.2).p ≠ (e.sp.sp[r]'r.2).aim)

theorem Dev.KeepsTarget.markDecided {d e : Dev} {r : RailIx} (h : d.KeepsTarget e r) : d.MarkDecided e r :=
  ⟨h.formed, fun _ => h, fun hs => by rw [h.sp]; exact hs⟩

theorem Dev.markDecisions_decided (d : Dev) (r : RailIx) (valid : Bool) : d.MarkDecided (d.markDecisions r valid) r := by
  cases hf : (d.rails[r]'r.2).flare with
  | some f =>
    rw [Dev.markDecisions_flare valid (by rw [hf]; rfl)]
    exact (Dev.KeepsTarget.refl d r).markDecided
  | none =>
    by_cases hr : (d.rails[r]'r.2).mode = .ramp
    · rw [Dev.markDecisions_ramp valid hf hr]
      obtain ⟨-, hformed, -, -, -, htarget, hslew⟩ := Dev.rampStep_step hr
      have hadd := ((d.rampStep r).addMark_decides r valid).target
      refine ⟨hformed.trans hadd.formed, fun hw => (htarget ?_).trans hadd, fun hs => by rw [hadd.sp]; exact hslew hs⟩
      by_contra hwait
      exact hw ⟨hr, hwait⟩
    · by_cases hg : (d.rails[r]'r.2).mode = .regulate
      · rw [Dev.markDecisions_regulate valid hf hg]
        exact (Dev.regulateStep_decides valid hg).target.markDecided
      · rcases Dev.markDecisions_other valid hf hr hg with h | ⟨p, h⟩
        · rw [h]
          exact (Dev.KeepsTarget.refl d r).markDecided
        · rw [h]
          exact (d.storeStep_target p r).markDecided

end Sys2Proof.Machine
end

section
/-! SUPPORT. A mark and an apex of a rail reference up to their decisions. -/

namespace Sys2Proof.Machine

open Sys2Proof

/-! ## A mark up to its target -/

/-- The rail's voltage as an update point forms it. -/
structure Dev.VoutIs (d : Dev) (r : RailIx) (vout : Word) (vstale : Bool) : Prop where
  formed : ∀ l : AccResult, (d.accOf (outerIx r)).latest = some l → Fits (rhe (16 * l.sum.toInt * (d.rails[r]'r.2).vscale.toNat) (l.valid.toNat * 1000)) →
    vout = BitVec.ofInt 32 (rhe (16 * l.sum.toInt * (d.rails[r]'r.2).vscale.toNat) (l.valid.toNat * 1000)) ∧ vstale = ((d.accOf (outerIx r)).valid == 0)
  kept : (d.accOf (outerIx r)).latest = none → vout = (d.rails[r]'r.2).vout ∧ vstale = true

/-- The rail's record with what an update point forms. -/
def Rail.with (x : Rail) (vout : Word) (vstale : Bool) (marks : List (Tick × Nat)) (demand : Word) : Rail :=
  { x with vout := vout, vstale := vstale, demandMarks := marks, demand := demand }

/-- What stands up to the decisions of an update point, and the voltage that has been formed. -/
structure Dev.PointBase (d e : Dev) (r : RailIx) (x : Rail) : Prop where
  same : d.SameMembers e
  frame : d.onlyIn e [.pwmg, .pwm, .fault, .free, .loop, .rails, .sp, .prot]
  rail : d.RailIs e r x
  active : ∀ c : CtxIx, (e.loop.ctx[c]'c.2).active = (d.loop.ctx[c]'c.2).active
  delivered : ∀ c : CtxIx, (e.loop.ctx[c]'c.2).delivered = (d.loop.ctx[c]'c.2).delivered
  refs : (e.loop.rails[r]'r.2).refs = (d.loop.rails[r]'r.2).refs
  vout : d.VoutIs r x.vout x.vstale
  form : x = (d.rails[r]'r.2).with x.vout x.vstale x.demandMarks x.demand

/-- A mark up to its target: the reference has begun, the keys are formed, P has moved. -/
structure Dev.MarkBase (d e : Dev) (r : RailIx) (x : Rail) : Prop extends d.PointBase e r x where
  ref : ∃ y : RefCarrier, e.pwmg = { d.pwmg with refs := d.pwmg.refs.set r y } ∧ (d.pwmg.refs[r]'r.2).Began y d.clk.now
  calm : (d.pwmg.refs[r]'r.2).pend = none → (d.pwmg.refs[r]'r.2).alignDue = false → e.pwm = d.pwm
  sum : SumIs (d.railSum r) (d.rails[r]'r.2) (d.loop.rails[r]'r.2) (e.loop.rails[r]'r.2).keyI x.demand
  volt : VoltIs (d.loop.rails[r]'r.2) d.sense.accs[(d.loop.rails[r]'r.2).voltAcc] (d.tile.cur.accs[(d.loop.rails[r]'r.2).voltAcc]).isSome (e.loop.rails[r]'r.2).keyV (e.loop.rails[r]'r.2).keyStale
  target : TargetIs (d.rails[r]'r.2) (d.sp.sp[r]'r.2).p (e.sp.sp[r]'r.2).aim (d.slewBy r (e.sp.sp[r]'r.2)) (e.sp.sp[r]'r.2).p (e.loop.ctx[outerIx r]'(outerIx r).2).ref
  slewing : (e.sp.sp[r]'r.2).slewing = true ↔ (e.sp.sp[r]'r.2).p ≠ (e.sp.sp[r]'r.2).aim

/-- A mark up to its target. -/
def Dev.markTarget (d : Dev) (r : RailIx) : Dev := ((((d.refValley r).event (0x0300 + r.val)).formVout r).formKeys r).1.setpointMark r

theorem Dev.VoutFormed.is {d e : Dev} {r : RailIx} {vout : Word} {vstale : Bool} (h : d.VoutFormed e r vout vstale) : d.VoutIs r vout vstale := ⟨h.formed, h.kept⟩

theorem Dev.markTarget_base (d : Dev) (r : RailIx) : (((((d.refValley r).event (0x0300 + r.val)).formVout r).formKeys r).2 = (d.railSum r).isSome) ∧
    ∃ x, d.MarkBase (d.markTarget r) r x := by
  obtain ⟨hvsame, hvrun, hvframe, ⟨y, hpwmg, hbegan⟩, hcalm⟩ := d.refValley_begun r
  unfold Dev.markTarget
  let begun := (d.refValley r).event (0x0300 + r.val)
  have hesame : (d.refValley r).SameMembers begun := ⟨rfl, rfl, rfl, fun _ => rfl, rfl, ⟨rfl, rfl, rfl⟩, fun _ => rfl, fun _ => rfl, fun _ => rfl⟩
  have hbsame : d.SameMembers begun := hvsame.trans hesame
  have hbrun : d.KeepsRun begun := hvrun.trans (Dev.event_keepsRun _ _)
  have hbframe : d.onlyIn begun [.pwmg, .pwm, .fault] := hvframe.into.thenIn (Dev.event_onlyIn _ _)
  have hbpwmg : begun.pwmg = { d.pwmg with refs := d.pwmg.refs.set r y } := hpwmg
  have hbcalm : (d.pwmg.refs[r]'r.2).pend = none → (d.pwmg.refs[r]'r.2).alignDue = false → begun.pwm = d.pwm := hcalm
  have hbloop : begun.loop = d.loop := hbframe .loop (by decide)
  have hbrails : begun.rails = d.rails := hbframe .rails (by decide)
  have hbsense : begun.sense = d.sense := hbframe .sense (by decide)
  have hbclk : begun.clk = d.clk := hbframe .clk (by decide)
  show (((begun.formVout r).formKeys r).2 = (d.railSum r).isSome) ∧ ∃ x, d.MarkBase (((begun.formVout r).formKeys r).1.setpointMark r) r x
  clear_value begun
  obtain ⟨vout, vstale, hvout⟩ := begun.formVout_formed r
  generalize begun.formVout r = volted at hvout ⊢
  obtain ⟨hvalid, keyI, keyV, stale, marks, demand, hkeys⟩ := volted.formKeys_taken r
  generalize hk : (volted.formKeys r).1 = keyed at hkeys ⊢
  have htarget := keyed.setpointMark_moved r
  generalize keyed.setpointMark r = e at htarget ⊢
  have hrail1 : d.RailIs volted r { d.rails[r]'r.2 with vout := vout, vstale := vstale } := by
    have hset := (show d.RailIs begun r (d.rails[r]'r.2) from Dev.railIs_of_onlyIn r hbframe).trans hvout.rail
    rw [hbrails] at hset
    exact hset
  have hrail2 : d.RailIs keyed r ((d.rails[r]'r.2).with vout vstale marks demand) := by
    have hset := hrail1.trans hkeys.rail
    rw [hrail1.get] at hset
    exact hset
  have hrail3 : d.RailIs e r ((d.rails[r]'r.2).with vout vstale marks demand) := hrail2.thenKeeps htarget.frame
  have hx : keyed.rails[r]'r.2 = (d.rails[r]'r.2).with vout vstale marks demand := hrail2.get
  have hvsame' : d.SameMembers volted := hbsame.trans hvout.same
  have hksame : d.SameMembers keyed := hvsame'.trans hkeys.same
  have hvframe' : d.onlyIn volted [.pwmg, .pwm, .fault, .free, .rails] := hbframe.into.thenIn hvout.frame
  have hkframe : d.onlyIn keyed [.pwmg, .pwm, .fault, .free, .rails, .loop] := hvframe'.into.thenIn hkeys.frame
  have hvloop : volted.loop = d.loop := hvout.loop.trans hbloop
  have hvpwmg : volted.pwmg = { d.pwmg with refs := d.pwmg.refs.set r y } := (hvout.frame .pwmg (by decide)).trans hbpwmg
  have hkpwmg : keyed.pwmg = { d.pwmg with refs := d.pwmg.refs.set r y } := (hkeys.frame .pwmg (by decide)).trans hvpwmg
  have hsum : volted.railSum r = d.railSum r := hvsame'.railSum (hvframe' .sense (by decide)) (by rw [hvpwmg]) r
  have hkloop : keyed.loop.rails[r]'r.2 = { d.loop.rails[r]'r.2 with keyI := keyI, keyV := keyV, keyStale := stale } := by
    rw [hkeys.loop.get, hvloop]
  have heloop : e.loop.rails[r]'r.2 = { d.loop.rails[r]'r.2 with keyI := keyI, keyV := keyV, keyStale := stale } := by
    rw [htarget.keeps.lrails, hkloop]
  have hkctx : keyed.loop.ctx = d.loop.ctx := hkeys.loop.1.trans (congrArg LoopEng.ctx hvloop)
  have hksp : keyed.sp = d.sp := hkframe .sp (by decide)
  refine ⟨hvalid.trans (congrArg Option.isSome hsum), _, ⟨⟨hksame.trans htarget.keeps.same, ?_, hrail3, fun c => ?_, fun c => ?_, by rw [heloop]; rfl, ?_, rfl⟩, ⟨y, ?_, hbegan⟩, fun h1 h2 => ?_, ?_, ?_,
    ?_, htarget.slewing⟩⟩
  · exact hkframe.into.thenIn htarget.frame
  · rw [htarget.keeps.active, hkctx]
  · rw [htarget.keeps.delivered, hkctx]
  · have hacc : begun.accOf (outerIx r) = d.accOf (outerIx r) := hbsame.accOf hbsense _
    obtain ⟨hformed, hkept⟩ := hvout.is
    rw [hacc, hbrails] at hformed hkept
    exact ⟨hformed, hkept⟩
  · exact (htarget.frame .pwmg (by decide)).trans hkpwmg
  · have hp1 : volted.pwm = begun.pwm := hvout.frame .pwm (by decide)
    have hp2 : keyed.pwm = volted.pwm := hkeys.frame .pwm (by decide)
    have hp3 : e.pwm = keyed.pwm := htarget.frame .pwm (by decide)
    rw [hp3, hp2, hp1, hbcalm h1 h2]
  · obtain ⟨hof, hno⟩ := hkeys.ofSum
    rw [hsum, hrail1.get] at hof
    rw [hsum, hvloop] at hno
    rw [heloop]
    exact ⟨hof, hno⟩
  · have hv := hkeys.ofVolt
    have hl : volted.loop.rails[r]'r.2 = d.loop.rails[r]'r.2 := by rw [hvloop]
    have hacc : volted.sense.accs[(volted.loop.rails[r]'r.2).voltAcc] = d.sense.accs[(d.loop.rails[r]'r.2).voltAcc] := by
      rw [show volted.sense = d.sense from hvframe' .sense (by decide)]
      exact congrArg (fun l : RailLoop => d.sense.accs[l.voltAcc]'(l.voltAcc).2) hl
    have hhas : (volted.tile.cur.accs[(volted.loop.rails[r]'r.2).voltAcc]).isSome = (d.tile.cur.accs[(d.loop.rails[r]'r.2).voltAcc]).isSome := by
      rw [show volted.tile = d.tile from hvframe' .tile (by decide)]
      exact congrArg (fun l : RailLoop => (d.tile.cur.accs[l.voltAcc]'(l.voltAcc).2).isSome) hl
    rw [hacc, hhas, hl] at hv
    rw [heloop]
    exact hv
  · have hby : keyed.slewBy r (e.sp.sp[r]'r.2) = d.slewBy r (e.sp.sp[r]'r.2) := by
      rw [Dev.slewBy, Dev.slewBy, hx, hkpwmg]
      rfl
    have hm := htarget.target
    rw [hby, hx, hksp] at hm
    exact ⟨hm.moved, hm.written, hm.still⟩

end Sys2Proof.Machine
end

section
/-! SUPPORT. From the target of a mark to the decisions of an update point. -/

namespace Sys2Proof.Machine

open Sys2Proof

/-! ## The reference's part of an update point -/

/-- A storage port's part of a mark. -/
def Dev.portWork (d : Dev) (r : RailIx) : Dev := match d.portOf r with
  | some p => d.portMark p r
  | none => d

/-- RAIL_DIV and the transfer of the reference. -/
def Dev.refWork (d : Dev) (r : RailIx) : Dev :=
  let d := d.railDiv r
  match d.portOf r with
  | some p => d.portRef p r
  | none => d.transferRef r

theorem Dev.railTransfer_eq (d : Dev) (r : RailIx) : d.railTransfer r = (d.refWork r).pointDecisions r := rfl

theorem Dev.railMark_eq (d : Dev) (r : RailIx) : d.railMark r =
    (((d.markTarget r).portWork r).evalMarks r, ((((d.refValley r).event (0x0300 + r.val)).formVout r).formKeys r).2) := by
  unfold Dev.railMark Dev.markTarget
  dsimp only
  generalize (((d.refValley r).event (0x0300 + r.val)).formVout r).formKeys r = keyed
  obtain ⟨e, valid⟩ := keyed
  rfl

/-- The rail's port, if there is one, leaves it alone. -/
def Dev.portIdle (d : Dev) (r : RailIx) : Prop := d.portOf r = none ∨ (d.rails[r]'r.2).mode ≠ .charge ∧ (d.rails[r]'r.2).mode ≠ .support

theorem Dev.portWork_work (d : Dev) (r : RailIx) : d.PortWork (d.portWork r) r := by
  unfold Dev.portWork
  split
  · exact d.portMark_step _ r
  · exact .refl d r

theorem Dev.portWork_idle {d : Dev} {r : RailIx} (h : d.portIdle r) : d.portWork r = d := by
  unfold Dev.portWork
  split
  · next p hp =>
    rcases h with h | ⟨hc, hs⟩
    · exact absurd (h.symm.trans hp) (by simp)
    · exact Dev.portMark_idle p hc hs
  · rfl

/-- A step of the loop engine that a transfer follows. -/
theorem Dev.IrefTaken.after {d m e : Dev} {r : RailIx} (h : m.IrefTaken e r) (k : d.KeepsRun m) (hf : d.onlyIn m [.loop, .fault]) : d.IrefTaken e r := by
  have hsame : d.SameMembers m := k.toKeepsLoop.sameMembers hf (congrArg Prot.trips (hf .prot (by decide)))
  have hrefs : (m.loop.rails[r]'r.2).refs = (d.loop.rails[r]'r.2).refs := by
    have hr := congrArg RailLoop.refs (k.rail r)
    exact hr
  obtain ⟨htarget, hmsame, hframe, hoff, hleast, hlim, haux, hsource, hgiven⟩ := h
  rw [k.active] at hoff hleast hlim haux hsource hgiven
  rw [k.delivered] at hleast hlim hsource
  refine ⟨(k.toKeepsLoop.decidesLoop hf.into).target.trans htarget, hsame.trans hmsame, hf.into.thenIn hframe, fun ha => (hoff ha).trans hrefs, hleast, hlim, fun ha c hc hact => ?_, fun ha => ?_, fun ha n hn hact => ?_⟩
  · rw [← k.delivered]
    exact haux ha c (by rw [hsame.auxOf]; exact hc) (by rw [k.active]; exact hact)
  · rcases hsource ha with hs | ⟨c, hc, hact, hs⟩
    · exact .inl hs
    · exact .inr ⟨c, by rw [← hsame.auxOf]; exact hc, by rw [← k.active]; exact hact, by rw [← k.delivered]; exact hs⟩
  · exact hgiven ha n ((hsame.railOf n).trans hn) (by rw [k.active]; exact hact)

theorem Dev.refWork_none {d : Dev} {r : RailIx} (h : d.portOf r = none) : d.refWork r = (d.railDiv r).transferRef r := by
  have hp : (d.railDiv r).portOf r = none := (Dev.portOf_of_tile (d.railDiv_onlyIn r .tile (by decide)) r).trans h
  unfold Dev.refWork
  dsimp only
  rw [hp]

theorem Dev.refWork_some {d : Dev} {r : RailIx} {p : PortIx} (h : d.portOf r = some p) : d.refWork r = (d.railDiv r).portRef p r := by
  have hp : (d.railDiv r).portOf r = some p := (Dev.portOf_of_tile (d.railDiv_onlyIn r .tile (by decide)) r).trans h
  unfold Dev.refWork
  dsimp only
  rw [hp]

theorem Dev.refWork_taken {d : Dev} {r : RailIx} (h : d.portOf r = none) : d.IrefTaken (d.refWork r) r := by
  rw [Dev.refWork_none h]
  exact ((d.railDiv r).transferRef_taken r).after (d.railDiv_keepsRun r) (d.railDiv_onlyIn r)

theorem Dev.railDiv_decides (d : Dev) (r : RailIx) : d.Decides (d.railDiv r) r := (d.railDiv_keepsRun r).toKeepsLoop.decidesLoop (d.railDiv_onlyIn r).into

theorem Dev.refWork_target (d : Dev) (r : RailIx) : d.KeepsTarget (d.refWork r) r := by
  cases h : d.portOf r with
  | none => exact (Dev.refWork_taken h).target
  | some p =>
    rw [Dev.refWork_some h]
    exact (d.railDiv_decides r).target.trans ((d.railDiv r).portRef_target p r)

theorem Dev.refWork_idle {d : Dev} {r : RailIx} (h : d.portIdle r) : d.SameMembers (d.refWork r) ∧ d.onlyIn (d.refWork r) [.loop, .free, .fault] := by
  have hframe := d.railDiv_onlyIn r
  have hdiv : d.SameMembers (d.railDiv r) := (d.railDiv_keepsRun r).toKeepsLoop.sameMembers hframe (congrArg Prot.trips (hframe .prot (by decide)))
  cases hp : d.portOf r with
  | none =>
    obtain ⟨-, hsame, hf, -⟩ := Dev.refWork_taken hp
    exact ⟨hsame, hf⟩
  | some p =>
    rcases h with h | ⟨hc, hs⟩
    · exact absurd (h.symm.trans hp) (by simp)
    · have hrails : (d.railDiv r).rails = d.rails := hframe .rails (by decide)
      rw [Dev.refWork_some hp, Dev.portRef_idle p (by rw [hrails]; exact hc) (by rw [hrails]; exact hs)]
      exact ⟨hdiv, hframe.into⟩

/-- From a mark's target to the decisions. -/
def Dev.toDecisions (d : Dev) (r : RailIx) : Dev := ((d.portWork r).evalMarks r).refWork r

theorem Dev.evalMarks_decides (d : Dev) (r : RailIx) : d.Decides (d.evalMarks r) r := (d.evalMarks_keepsRun r).toKeepsLoop.decidesLoop (d.evalMarks_onlyIn r).into

theorem Dev.toDecisions_work (d : Dev) (r : RailIx) : d.PortWork (d.toDecisions r) r :=
  (d.portWork_work r).trans ((Dev.evalMarks_decides _ r).target.trans (Dev.refWork_target _ r)).portWork

theorem Dev.toDecisions_idle {d : Dev} {r : RailIx} (h : d.portIdle r) :
    d.KeepsTarget (d.toDecisions r) r ∧ d.SameMembers (d.toDecisions r) ∧ d.onlyIn (d.toDecisions r) [.loop, .free, .fault] := by
  have hframe := d.evalMarks_onlyIn r
  have hmarks : d.SameMembers (d.evalMarks r) := (d.evalMarks_keepsRun r).toKeepsLoop.sameMembers hframe (congrArg Prot.trips (hframe .prot (by decide)))
  have hidle : (d.evalMarks r).portIdle r := by
    rcases h with h | h
    · exact .inl ((Dev.portOf_of_tile (hframe .tile (by decide)) r).trans h)
    · have hrails : (d.evalMarks r).rails = d.rails := hframe .rails (by decide)
      exact .inr (by rw [hrails]; exact h)
  obtain ⟨hsame, hf⟩ := Dev.refWork_idle hidle
  unfold Dev.toDecisions
  rw [Dev.portWork_idle h]
  exact ⟨(d.evalMarks_decides r).target.trans (Dev.refWork_target _ r), hmarks.trans hsame, hframe.into.thenIn hf⟩

theorem Dev.toDecisions_taken {d : Dev} {r : RailIx} (h : d.portOf r = none) : d.IrefTaken (d.toDecisions r) r := by
  have hframe := d.evalMarks_onlyIn r
  unfold Dev.toDecisions
  rw [Dev.portWork_idle (.inl h)]
  exact (Dev.refWork_taken ((Dev.portOf_of_tile (hframe .tile (by decide)) r).trans h)).after (d.evalMarks_keepsRun r) hframe

theorem Dev.portWork_onlyIn (d : Dev) (r : RailIx) : d.onlyIn (d.portWork r) [.loop, .free, .ports] := by
  unfold Dev.portWork
  split
  · exact d.portMark_onlyIn _ r
  · exact d.onlyIn_refl _

theorem Dev.refWork_onlyIn (d : Dev) (r : RailIx) : d.onlyIn (d.refWork r) [.loop, .free, .fault, .ports] := by
  cases h : d.portOf r with
  | none => exact (Dev.refWork_idle (.inl h)).2.into
  | some p =>
    rw [Dev.refWork_some h]
    exact (d.railDiv_onlyIn r).into.thenIn (Dev.portRef_onlyIn _ p r)

theorem Dev.toDecisions_onlyIn (d : Dev) (r : RailIx) : d.onlyIn (d.toDecisions r) [.loop, .free, .fault, .ports] :=
  (d.portWork_onlyIn r).into.thenIn (Dev.evalMarks_onlyIn _ r) |>.thenIn (Dev.refWork_onlyIn _ r)

/-! ## The mode after the decisions of an update point -/

theorem Dev.flareExit_sync {d : Dev} {r : RailIx} (late : Bool) (h : (d.rails[r]'r.2).mode ≠ .ember) :
    ∃ w, d.RailIs (d.flareExit r late) r { (d.rails[r]'r.2).flareOut d.clk.now late with spread := w } := by
  have hrout := d.flareOut_railIs r late
  rw [Dev.flareExit_eq]
  generalize d.flareOut r late = out at hrout ⊢
  have hleft := hrout.thenKeeps (out.leaveAll_quiet r).frame
  generalize out.leaveAll r = left at hleft ⊢
  have hsync : left.flareMode r (d.rails[r]'r.2).mode = left.syncCtx r := if_neg h
  rw [hsync]
  exact (((hleft.thenKeeps (left.syncCtx_onlyIn r)).thenKeeps (Dev.giveIref_onlyIn _ r _)).thenKeeps (Dev.flareHandOver_onlyIn _ r _)).thenRespread

/-- A rail that is in RAMP after the decisions was so before, with the same wait for M0, and in a mode that has none they leave it. -/
theorem Dev.pointDecisions_mode (d : Dev) (r : RailIx) : ((d.pointDecisions r).rails[r]'r.2).mode = .ramp → (d.rails[r]'r.2).mode = .ramp ∧ ((d.pointDecisions r).rails[r]'r.2).m0Wait = (d.rails[r]'r.2).m0Wait := by
  unfold Dev.pointDecisions
  cases hf : (d.rails[r]'r.2).flare with
  | none =>
    rw [if_neg (by decide)]
    by_cases he : d.mode r = .ember
    · rw [if_pos he]
      obtain ⟨-, hleft, hstays, -, -, -⟩ := Dev.emberPoint_step he
      intro hr
      by_cases hl : (d.rails[r]'r.2).leavesEmber (d.targetMv r) d.clk.now
      · obtain ⟨y, hy, hmode, -⟩ := hleft hl
        rw [hy.get, hmode] at hr
        cases hr
      · obtain ⟨y, hy, hs⟩ := hstays hl
        have hm : (d.rails[r]'r.2).mode = .ember := he
        rw [hy.get, hs.mode, hm] at hr
        cases hr
    · rw [if_neg he]
      exact fun h => ⟨h, rfl⟩
  | some f =>
    rw [if_pos (by rfl)]
    obtain ⟨hback, hlate, hruns⟩ := Dev.flarePoint_recovers hf
    have hexit : ∀ late : Bool, (d.flareExit r late).rails[r].mode = .ramp → (d.rails[r]'r.2).mode = .ramp ∧ (d.flareExit r late).rails[r].m0Wait = (d.rails[r]'r.2).m0Wait := fun late hr => by
      by_cases he : (d.rails[r]'r.2).mode = .ember
      · obtain ⟨y, hy, hleft⟩ := (Dev.flareExit_left (d := d) late (.inr he)).rail
        rw [hy.get, hleft.mode] at hr
        cases hr
      · obtain ⟨w, hw⟩ := Dev.flareExit_sync late he
        rw [hw.get] at hr ⊢
        exact ⟨hr, rfl⟩
    by_cases hb : d.recovers r f
    · rw [hback hb]
      exact hexit false
    · by_cases hl : d.flareEnds r f
      · rw [hlate hb hl]
        exact hexit true
      · rw [hruns hb hl]
        exact fun h => ⟨h, rfl⟩

end Sys2Proof.Machine
end

section
/-! SUPPORT. The decisions of a mark in REGULATE, together. -/

namespace Sys2Proof.Machine

open Sys2Proof

/-! ## Adding, seen from where the point began -/

/-- A decision on adding taken at a state in which the rail's members, its leave and what decides on adding stand as before. -/
structure Dev.AddFrom (d e : Dev) (r : RailIx) (valid : Bool) (wait : Option PhaseIx) (s : Dev) : Prop where
  same : d.SameMembers s
  leave : s.leave = d.leave
  adding : (s.rails[r]'r.2).adding = (d.rails[r]'r.2).adding
  keyI : (s.loop.rails[r]'r.2).keyI = (d.loop.rails[r]'r.2).keyI
  taken : s.AddIs r valid e.leave wait

/-! ## The way into EMBER at a mark -/

/-- The decision on EMBER at a mark of REGULATE, from the state before and the rail's record after. -/
structure Dev.EmberTurn (d e : Dev) (r : RailIx) (y : Rail) : Prop where
  decides : d.Decides e r
  rail : d.RailIs e r y
  frame : d.onlyIn e [.pwm, .rails, .loop, .prot, .fault]
  codes : d.KeepsCodes e
  record : y.notice = (d.rails[r]'r.2).notice ∧ y.shedSince = (d.rails[r]'r.2).shedSince ∧ y.addWait = (d.rails[r]'r.2).addWait ∧ y.flare = (d.rails[r]'r.2).flare ∧
    y.flareLastExit = (d.rails[r]'r.2).flareLastExit ∧ y.timeouts = (d.rails[r]'r.2).timeouts ∧ y.shedDelay = (d.rails[r]'r.2).shedDelay
  high : ¬(d.emberLow r ∧ (d.rails[r]'r.2).notice = none) → y.mode = .regulate ∧ y.emberSince = none
  dwells : d.emberLow r ∧ (d.rails[r]'r.2).notice = none → ¬d.emberFull r → y.mode = .regulate ∧ y.emberSince = some ((d.rails[r]'r.2).emberSince.getD d.clk.now)
  enters : d.emberLow r ∧ (d.rails[r]'r.2).notice = none → d.emberFull r → y.mode = .ember ∧ y.burst = none ∧ y.sleepSince = d.clk.now ∧ y.emberSince = none ∧
    (∀ c ∈ d.ctxsOf r, (e.loop.ctx[c]'c.2).active = false) ∧ ∀ n : PhaseIx, d.railOf n = some r → d.isLoop n = true → d.isActive n = true →
      (e.pwm[n]'n.2).mask.ember = true ∧ y.burstMembers.getLsbD n.val = true
  out : (d.rails[r]'r.2).staysOut → y.mode = .regulate ∧ y.burst = (d.rails[r]'r.2).burst ∧ d.onlyIn e [.rails]

theorem Dev.emberDwells_railIs (d : Dev) (r : RailIx) (since : Option Tick) : d.RailIs (d.emberDwells r since) r { d.rails[r]'r.2 with emberSince := since } := d.updRail_railIs r _

/-- Only the dwell is written. -/
theorem Dev.emberDwells_turn {d : Dev} {r : RailIx} (since : Option Tick) (hm : (d.rails[r]'r.2).mode = .regulate)
    (hh : ¬(d.emberLow r ∧ (d.rails[r]'r.2).notice = none) → since = none)
    (hd : d.emberLow r ∧ (d.rails[r]'r.2).notice = none → ¬d.emberFull r ∧ since = some ((d.rails[r]'r.2).emberSince.getD d.clk.now)) :
    d.EmberTurn (d.emberDwells r since) r { d.rails[r]'r.2 with emberSince := since } :=
  ⟨d.updRail_decides r _, d.emberDwells_railIs r since, (d.updRail_onlyIn r _).into, Dev.keepsCodes_of_frame (d.updRail_onlyIn r _), ⟨rfl, rfl, rfl, rfl, rfl, rfl, rfl⟩,
    fun h => ⟨hm, hh h⟩, fun h _ => ⟨hm, (hd h).2⟩, fun h hf => absurd hf (hd h).1, fun _ => ⟨hm, rfl, d.updRail_onlyIn r _⟩⟩

theorem Rail.staysOut_not_full {d : Dev} {r : RailIx} (h : (d.rails[r]'r.2).staysOut) (hlow : d.emberLow r) : ¬d.emberFull r := by
  rcases h with h | ⟨hs, hd⟩
  · exact absurd (h.symm.trans hlow.1) (by decide)
  · have hpos : 0 < (d.rails[r]'r.2).emberDwell.toNat := by
      rcases Nat.eq_zero_or_pos (d.rails[r]'r.2).emberDwell.toNat with h0 | h0
      · exact absurd (BitVec.eq_of_toNat_eq h0) hd
      · exact h0
    intro hfull
    have hle : d.clk.now + (d.rails[r]'r.2).emberDwell.toNat * 48000 ≤ d.clk.now := by
      have hf : (d.rails[r]'r.2).emberSince.getD d.clk.now + (d.rails[r]'r.2).emberDwell.toNat * 48000 ≤ d.clk.now := hfull
      rwa [hs] at hf
    have hzero := Nat.le_of_add_le_add_left (c := 0) hle
    omega

theorem Dev.emberMark_turn {d : Dev} {r : RailIx} (hm : (d.rails[r]'r.2).mode = .regulate) : ∃ y, d.EmberTurn (d.emberMark r) r y := by
  obtain ⟨henter, hdwells, hnone⟩ := Dev.emberMark_is hm
  by_cases hlow : d.emberLow r ∧ (d.rails[r]'r.2).notice = none
  · by_cases hfull : d.emberFull r
    · rw [henter hlow hfull]
      have hdrail := d.emberDwells_railIs r (some ((d.rails[r]'r.2).emberSince.getD d.clk.now))
      have hdsame : d.SameMembers (d.emberDwells r (some ((d.rails[r]'r.2).emberSince.getD d.clk.now))) := d.updRail_sameMembers r _
      have hddec : d.Decides (d.emberDwells r (some ((d.rails[r]'r.2).emberSince.getD d.clk.now))) r := d.updRail_decides r _
      have hdframe : d.onlyIn (d.emberDwells r (some ((d.rails[r]'r.2).emberSince.getD d.clk.now))) [.rails] := d.updRail_onlyIn r _
      generalize d.emberDwells r (some ((d.rails[r]'r.2).emberSince.getD d.clk.now)) = dwelt at hdrail hdsame hddec hdframe ⊢
      have hbegun := Dev.enterEmber_begun (d := dwelt) (r := r) ((congrArg Rail.mode hdrail.get).trans hm)
      generalize dwelt.enterEmber r = e at hbegun ⊢
      obtain ⟨hdec, hframe, ⟨since, olt, hrail⟩, hcodes, hidle, hmasked⟩ := hbegun
      rw [hdrail.get, hdsame.clk] at hrail
      refine ⟨_, hddec.trans hdec, hdrail.trans hrail, hdframe.into.thenIn hframe, (Dev.keepsCodes_of_frame hdframe).trans hcodes, ⟨rfl, rfl, rfl, rfl, rfl, rfl, rfl⟩, fun h => absurd hlow h, fun _ h => absurd hfull h,
        fun _ _ => ⟨rfl, rfl, rfl, rfl, fun c hc => hidle c (by rw [hdsame.ctxsOf]; exact hc), fun n hn hl ha => ?_⟩, fun h => absurd hfull (Rail.staysOut_not_full h hlow.1)⟩
      have hn' := (hdsame.railOf n).trans hn
      have hl' := (hdsame.isLoop n).trans hl
      have ha' := (hdsame.isActive n).trans ha
      exact ⟨hmasked n hn' hl' ha', Dev.sleepers_bit hn' hl' ha'⟩
    · rw [hdwells hlow hfull]
      exact ⟨_, Dev.emberDwells_turn _ hm (fun h => absurd hlow h) fun _ => ⟨hfull, rfl⟩⟩
  · rw [hnone hlow]
    exact ⟨_, Dev.emberDwells_turn none hm (fun _ => rfl) fun h => absurd h hlow⟩

/-! ## Shedding, adding and EMBER -/

/-- The decisions of a mark of REGULATE, from the state before and the rail's record after. -/
structure Dev.RegulateIs (d e : Dev) (r : RailIx) (valid : Bool) (y : Rail) : Prop where
  decides : d.Decides e r
  rail : d.RailIs e r y
  codes : d.KeepsCodes e
  shed : d.ShedIs r valid y.notice y.shedSince
  add : ∃ s, d.AddFrom e r valid y.addWait s ∧ (s.rails[r]'r.2).mode = .regulate
  record : y.flare = (d.rails[r]'r.2).flare ∧ y.flareLastExit = (d.rails[r]'r.2).flareLastExit ∧ y.timeouts = (d.rails[r]'r.2).timeouts ∧ y.shedDelay = (d.rails[r]'r.2).shedDelay
  mode : y.mode ≠ .ramp
  high : (d.rails[r]'r.2).notice = none → ¬d.emberLow r → y.mode = .regulate ∧ y.emberSince = none
  dwells : (d.rails[r]'r.2).notice = none → d.emberLow r → ¬d.emberFull r → y.mode = .regulate ∧ y.emberSince = some ((d.rails[r]'r.2).emberSince.getD d.clk.now)
  enters : (d.rails[r]'r.2).notice = none → d.emberLow r → d.emberFull r → y.mode = .ember ∧ y.burst = none ∧ y.sleepSince = d.clk.now ∧ y.emberSince = none ∧
    (∀ c ∈ d.ctxsOf r, (e.loop.ctx[c]'c.2).active = false) ∧ ∀ n : PhaseIx, d.railOf n = some r → d.isLoop n = true → d.isActive n = true →
      (e.pwm[n]'n.2).mask.ember = true ∧ y.burstMembers.getLsbD n.val = true
  out : (d.rails[r]'r.2).staysOut → y.mode = .regulate ∧ y.burst = (d.rails[r]'r.2).burst ∧ d.onlyIn e [.rails, .leave]

theorem Dev.regulateStep_is {d : Dev} {r : RailIx} (valid : Bool) (hm : (d.rails[r]'r.2).mode = .regulate) : ∃ y, d.RegulateIs (d.regulateStep r valid) r valid y := by
  obtain ⟨nt, since, hshed, hsleave⟩ := Dev.shedMark_is valid hm
  unfold Dev.regulateStep
  generalize d.shedMark r valid = shed at hsleave ⊢
  obtain ⟨l, dwell, wait, hadd, haleave⟩ := shed.addMark_is r valid
  generalize shed.addMark r valid = added at haleave ⊢
  have hrail := hsleave.railIs.trans haleave.railIs
  rw [hsleave.railIs.get] at hrail
  have hboth := hsleave.trans haleave
  have hs1 : d.SameMembers shed := hsleave.sameMembers rfl rfl
  have hs2 : d.SameMembers added := hboth.sameMembers (by rw [hsleave.railIs.get]) (by rw [hsleave.railIs.get])
  have hmode : (added.rails[r]'r.2).mode = .regulate := by
    rw [hrail.get]
    exact hm
  have hframe : d.onlyIn added [.rails, .leave] := hboth.frame
  have hlow : added.emberLow r ↔ d.emberLow r := by
    unfold Dev.emberLow
    rw [hrail.get, hs2.activeCount, hs2.minPhases, show added.loop = d.loop from hframe .loop (by decide)]
  have hfull : added.emberFull r ↔ d.emberFull r := by
    unfold Dev.emberFull
    rw [hrail.get, hs2.clk]
  obtain ⟨y, hdec, hyrail, hyframe, hcodes, ⟨hnotice, hsince, hwait, hflare, hexit, htimeouts, hdelay⟩, hhigh, hdwells, henters, hout⟩ := Dev.emberMark_turn hmode
  generalize added.emberMark r = e at hdec hyrail hyframe hcodes henters hout ⊢
  rw [hrail.get] at hnotice hsince hwait hflare hexit htimeouts hdelay hhigh hdwells henters hout
  have hquiet : (d.rails[r]'r.2).notice = none → d.emberLow r → nt = none := fun h hl => hshed.few h (by rw [hl.2.1]; omega)
  refine ⟨y, ((hsleave.decides rfl).trans (haleave.decides rfl)).trans hdec, hrail.trans hyrail, (Dev.keepsCodes_of_frame hframe).trans hcodes, by rw [hnotice, hsince]; exact hshed,
    ⟨shed, ⟨hs1, hsleave.leave, by rw [hsleave.railIs.get]; rfl, by rw [show shed.loop = d.loop from hsleave.frame .loop (by decide)], ?_⟩, by rw [hsleave.railIs.get]; exact hm⟩,
    ⟨hflare, hexit, htimeouts, hdelay⟩, ?_, fun hn hl => hhigh fun h => hl (hlow.1 h.1), fun hn hl hf => ?_, fun hn hl hf => ?_, fun h => ?_⟩
  · rw [hwait, show e.leave = added.leave from hyframe .leave (by decide), haleave.leave]
    exact hadd
  · by_cases hl : added.emberLow r ∧ nt = none
    · by_cases hf : added.emberFull r
      · rw [(henters hl hf).1]
        decide
      · rw [(hdwells hl hf).1]
        decide
    · rw [(hhigh hl).1]
      decide
  · obtain ⟨h1, h2⟩ := hdwells ⟨hlow.2 hl, hquiet hn hl⟩ (mt hfull.1 hf)
    exact ⟨h1, h2.trans (by rw [hs2.clk])⟩
  · obtain ⟨h1, h2, h3, h4, hidle, hmasked⟩ := henters ⟨hlow.2 hl, hquiet hn hl⟩ (hfull.2 hf)
    exact ⟨h1, h2, h3.trans (by rw [hs2.clk]), h4, fun c hc => hidle c (by rw [hs2.ctxsOf]; exact hc),
      fun n hn hl ha => hmasked n ((hs2.railOf n).trans hn) ((hs2.isLoop n).trans hl) ((hs2.isActive n).trans ha)⟩
  · obtain ⟨h1, h2, h3⟩ := hout h
    exact ⟨h1, h2, hframe.thenIn h3⟩

end Sys2Proof.Machine
end

section
/-! SUPPORT. The words of the statement about an update point of a rail reference, from what the steps leave. -/

namespace Sys2Proof.Machine

open Sys2Proof

/-! ## Keys and target -/

theorem Dev.MarkBase.keysFormed {d m e : Dev} {r : RailIx} {x : Rail} (h : d.MarkBase m r x) (k : m.KeepsFormed e r) : d.KeysFormed e r := by
  have hform := k.form
  rw [h.rail.get] at hform
  have hdemand : (e.rails[r]'r.2).demand = x.demand := congrArg (fun p => p.2.2) hform
  have hkeyI : (e.loop.rails[r]'r.2).keyI = (m.loop.rails[r]'r.2).keyI := congrArg (fun p => p.1) k.keys
  have hkeyV : (e.loop.rails[r]'r.2).keyV = (m.loop.rails[r]'r.2).keyV := congrArg (fun p => p.2.1) k.keys
  have hstale : (e.loop.rails[r]'r.2).keyStale = (m.loop.rails[r]'r.2).keyStale := congrArg (fun p => p.2.2) k.keys
  obtain ⟨hof, hno⟩ := h.sum
  obtain ⟨hhost, hvolt, hnovolt⟩ := h.volt
  unfold Dev.KeysFormed
  dsimp only
  rw [hdemand, hkeyI, hkeyV, hstale]
  exact ⟨hof, hno, hhost, hvolt, hnovolt⟩

theorem moveTo_cases (p c delta : Int) : (p < c → moveTo p c delta = min (p + delta) c) ∧ (c < p → moveTo p c delta = max (p - delta) c) ∧ (p = c → moveTo p c delta = c) := by
  unfold moveTo
  refine ⟨fun h => if_pos h, fun h => ?_, fun h => ?_⟩
  · rw [if_neg (by omega), if_pos h]
  · rw [if_neg (by omega), if_neg (by omega), h]

theorem Dev.MarkBase.targetSlewed {d m e : Dev} {r : RailIx} {x : Rail} (h : d.MarkBase m r x)
    (hkeep : ¬((d.rails[r]'r.2).mode = .ramp ∧ (d.rails[r]'r.2).m0Wait ≠ none) → e.sp = m.sp) (href : (d.rails[r]'r.2).moves → (e.loop.ctx[outerIx r]'(outerIx r).2).ref = (m.loop.ctx[outerIx r]'(outerIx r).2).ref)
    (hslew : (e.sp.sp[r]'r.2).slewing = true ↔ (e.sp.sp[r]'r.2).p ≠ (e.sp.sp[r]'r.2).aim)
    (hmode : (d.rails[r]'r.2).mode = .ramp → (d.rails[r]'r.2).m0Wait = none → (d.rails[r]'r.2).flare = none → (e.rails[r]'r.2).mode = if (m.sp.sp[r]'r.2).p = (m.sp.sp[r]'r.2).aim then .regulate else .ramp) :
    d.TargetSlewed e r := by
  have hmoves : (d.rails[r]'r.2).moves → ¬((d.rails[r]'r.2).mode = .ramp ∧ (d.rails[r]'r.2).m0Wait ≠ none) := by
    rintro (hm | hm | ⟨-, hw⟩) ⟨hr, hw'⟩
    · exact absurd (hm.symm.trans hr) (by decide)
    · exact absurd (hm.symm.trans hr) (by decide)
    · exact hw' hw
  unfold Dev.TargetSlewed
  refine ⟨fun hm => ?_, fun h1 h2 h3 => ?_, hslew, fun hr hw hf => ?_⟩
  · have hm : (d.rails[r]'r.2).moves := by
      rcases hm with hm | hm | hm
      · exact .inl hm
      · exact .inr (.inl hm)
      · exact .inr (.inr hm)
    obtain ⟨hup, hdown, heq⟩ := moveTo_cases (d.sp.sp[r]'r.2).p (m.sp.sp[r]'r.2).aim (d.slewBy r (m.sp.sp[r]'r.2))
    rw [← h.target.moved hm] at hup hdown heq
    rw [hkeep (hmoves hm), href hm]
    exact ⟨hup, hdown, heq, h.target.written hm⟩
  · rw [hkeep fun hr => h1 hr.1]
    exact h.target.still fun hm => by
      rcases hm with hm | hm | hm
      · exact h1 hm
      · exact h2 hm
      · exact h3 hm
  · rw [hkeep fun hr' => hr'.2 hw]
    exact hmode hr hw hf

/-! ## IREF -/

theorem Dev.IrefTaken.transferred {d m n e : Dev} {r : RailIx} {x : Rail} (h : d.PointBase m r x) (k : m.IrefTaken n r) (hk : n.KeepsIref e r) : d.IrefTransferred e r := by
  have hiref : (e.loop.rails[r]'r.2).iref = (n.loop.rails[r]'r.2).iref := congrArg Prod.fst hk.refs
  have haux : (e.loop.rails[r]'r.2).auxLim = (n.loop.rails[r]'r.2).auxLim := congrArg Prod.snd hk.refs
  have hinner := hk.inner
  obtain ⟨-, -, -, hoff, hleast, hlim, hauxs, hsource, hgiven⟩ := k
  rw [h.active] at hoff hleast hlim hauxs hsource hgiven
  rw [h.delivered] at hleast hlim hsource
  unfold Dev.IrefTransferred
  dsimp only
  rw [hiref, haux]
  refine ⟨fun ha => ?_, fun ha => ⟨hleast ha, hlim ha, fun c hc hact => ?_, ?_, fun p hp hact => ?_⟩⟩
  · have hrefs := (hoff ha).trans h.refs
    exact ⟨congrArg Prod.fst hrefs, congrArg Prod.snd hrefs⟩
  · rw [← h.delivered]
    exact hauxs ha c (by rw [h.same.auxOf]; exact hc) (by rw [h.active]; exact hact)
  · rcases hsource ha with hs | ⟨c, hc, hact, hs⟩
    · exact .inl hs
    · exact .inr ⟨c, by rw [← h.same.auxOf]; exact hc, by rw [← h.active]; exact hact, by rw [← h.delivered]; exact hs⟩
  · have hn := hgiven ha p ((h.same.railOf p).trans hp) (by rw [h.active]; exact hact)
    rcases hinner p with hi | hi
    · rw [hi, hn]
    · exact hi

/-! ## Decisions, seen from where the point began -/

/-- A state at the decisions of an update point that leaves members, leave and results, with what the point has formed of the rail. -/
structure Dev.AtDecisions (d s : Dev) (r : RailIx) (v : Word) (st : Bool) (mk : List (Tick × Nat)) (dm : Word) : Prop where
  same : d.SameMembers s
  rail : s.rails[r]'r.2 = (d.rails[r]'r.2).with v st mk dm
  leave : s.leave = d.leave
  sense : s.sense = d.sense

/-- The rail's record as the end of a mark leaves it. -/
def Rail.marked (y : Rail) (now : Tick) : Rail := { y.noticeMark with markAt := now }

section
variable {d s e : Dev} {r : RailIx} {v : Word} {st : Bool} {mk : List (Tick × Nat)} {dm : Word} {y : Rail} {now : Tick} (h : d.AtDecisions s r v st mk dm)
include h

theorem Dev.AtDecisions.mayShed (hbusy : s.respreadBusy r = d.respreadBusy r) : s.mayShed r ↔ d.mayShed r := by
  unfold Dev.mayShed
  rw [h.rail, hbusy, h.same.minPhases, h.same.activeCount]
  exact Iff.rfl

/-- The sum is low for shedding, by the key that stands at the end. -/
theorem Dev.AtDecisions.shedLow (hk : (e.loop.rails[r]'r.2).keyI = (s.loop.rails[r]'r.2).keyI) :
    s.shedLow r ↔ (e.loop.rails[r]'r.2).keyI.toInt.natAbs < (d.rails[r]'r.2).shedTh.toNat * (d.activeCount r - 1) := by
  unfold Dev.shedLow
  rw [h.rail, hk, h.same.activeCount]
  exact Iff.rfl

theorem Dev.AtDecisions.shedFull : s.shedFull r ↔ d.shedFull r := by
  unfold Dev.shedFull
  rw [h.rail, h.same.clk]
  exact Iff.rfl

theorem Dev.AtDecisions.noticeEnds (valid : Bool) (nt : Notice) (hk : (e.loop.rails[r]'r.2).keyI = (s.loop.rails[r]'r.2).keyI) :
    s.noticeEnds r valid nt ↔ valid = true ∧ nt.drain = false ∧ (d.rails[r]'r.2).addTh.toNat * d.activeCount r < (e.loop.rails[r]'r.2).keyI.toInt.natAbs := by
  unfold Dev.noticeEnds
  rw [h.rail, hk, h.same.activeCount]
  exact Iff.rfl

theorem Dev.AtDecisions.shedDecided (hbusy : s.respreadBusy r = d.respreadBusy r) (hs : s.ShedIs r (d.railSum r).isSome y.notice y.shedSince)
    (hdelay : y.shedDelay = (d.rails[r]'r.2).shedDelay) (hfin : e.rails[r]'r.2 = y.marked now) (hk : (e.loop.rails[r]'r.2).keyI = (s.loop.rails[r]'r.2).keyI) : d.ShedDecided e r := by
  obtain ⟨hends, hgoes, hoff, hout, hdwells, hbegins, -⟩ := hs
  have hnotice : (s.rails[r]'r.2).notice = (d.rails[r]'r.2).notice := by rw [h.rail]; rfl
  have hsince : (s.rails[r]'r.2).shedSince = (d.rails[r]'r.2).shedSince := by rw [h.rail]; rfl
  have hmark : (s.rails[r]'r.2).markAt = (d.rails[r]'r.2).markAt := by rw [h.rail]; rfl
  have hd : (s.rails[r]'r.2).shedDelay = (d.rails[r]'r.2).shedDelay := by rw [h.rail]; rfl
  have hclk := h.same.clk
  rw [hnotice] at hends hgoes hoff hout hdwells hbegins
  rw [hsince] at hout hdwells
  rw [hmark] at hout
  rw [hclk] at hout hdwells hbegins
  rw [hd] at hbegins
  have hmarked : ∀ nt : Option Notice, y.notice = nt → (e.rails[r]'r.2).notice = nt.map fun n => { n with until_ := n.began + (d.rails[r]'r.2).shedDelay.toNat * 48000 } := fun nt hn => by
    rw [hfin, ← hdelay, ← ticks_hundreds, ← hn]
    rfl
  have hnone : y.notice = none → (e.rails[r]'r.2).notice = none := fun hn => (hmarked none hn).trans rfl
  have hkept : (e.rails[r]'r.2).shedSince = y.shedSince := by
    rw [hfin]
    rfl
  have hmay := h.mayShed hbusy
  have hlow := h.shedLow hk
  have hfull := h.shedFull
  have hend := fun nt => h.noticeEnds (d.railSum r).isSome nt hk
  unfold Dev.ShedDecided
  dsimp only
  rw [hkept]
  refine ⟨fun nt hn => ⟨fun hx => ?_, fun hx => ?_⟩, fun hn hx => ?_, fun hn hm hv => ?_, fun hn hm hv hl hf => ?_, fun n hn hm hv hl hf ht => ?_⟩
  · obtain ⟨h1, h2⟩ := hends nt hn ((hend nt).2 hx)
    exact ⟨hnone h1, h2⟩
  · exact (hmarked _ (hgoes nt hn (mt (hend nt).1 hx))).trans rfl
  · obtain ⟨h1, h2⟩ := hoff hn (hx.imp (mt hmay.1) fun hx => ⟨hx.1, mt hlow.1 hx.2⟩)
    exact ⟨hnone h1, h2⟩
  · obtain ⟨h1, h2⟩ := hout hn (hmay.2 hm) hv
    exact ⟨hnone h1, h2⟩
  · obtain ⟨h1, h2⟩ := hdwells hn (hmay.2 hm) hv (hlow.2 hl) (mt hfull.1 hf)
    exact ⟨hnone h1, h2⟩
  · exact (hmarked _ (hbegins n hn (hmay.2 hm) hv (hlow.2 hl) (hfull.2 hf) ((h.same.topMember r).trans ht))).trans rfl

/-- Adding, from a decision taken where members, leave and what decides on adding stand as at the decisions. -/
theorem Dev.AtDecisions.addDecided {u : Dev} (hu : s.AddFrom e r (d.railSum r).isSome (e.rails[r]'r.2).addWait u) (hf : (d.rails[r]'r.2).flare = none)
    (hmode : (u.rails[r]'r.2).mode = .ramp ↔ (e.rails[r]'r.2).mode = .ramp) (hk : (e.loop.rails[r]'r.2).keyI = (s.loop.rails[r]'r.2).keyI) : d.AddDecided e r := by
  have hsame := h.same.trans hu.same
  have hadding : (u.rails[r]'r.2).adding = (d.rails[r]'r.2).adding := by
    rw [hu.adding, h.rail]
    rfl
  have hwait : (u.rails[r]'r.2).addWait = (d.rails[r]'r.2).addWait := congrArg (fun p => p.1) hadding
  have hsince : (u.rails[r]'r.2).addSince = (d.rails[r]'r.2).addSince := congrArg (fun p => p.2.1) hadding
  have hth : (u.rails[r]'r.2).addTh = (d.rails[r]'r.2).addTh := congrArg (fun p => p.2.2.1) hadding
  have hdwell : (u.rails[r]'r.2).addDwell = (d.rails[r]'r.2).addDwell := congrArg (fun p => p.2.2.2.1) hadding
  have hen : (u.rails[r]'r.2).shedEn = (d.rails[r]'r.2).shedEn := congrArg (fun p => p.2.2.2.2.1) hadding
  have hflare : (u.rails[r]'r.2).flare = (d.rails[r]'r.2).flare := congrArg (fun p => p.2.2.2.2.2) hadding
  have hgoes : u.addGoes r (d.railSum r).isSome ↔ ((d.railSum r).isSome = true ∧ (d.rails[r]'r.2).addTh.toNat * d.activeCount r < (e.loop.rails[r]'r.2).keyI.toInt.natAbs ∧
      (d.rails[r]'r.2).addSince.getD d.clk.now + (d.rails[r]'r.2).addDwell.toNat * 48000 ≤ d.clk.now) ∨ (d.rails[r]'r.2).shedEn = false ∨ (e.rails[r]'r.2).mode = .ramp ∨ d.activeCount r < d.minPhases r := by
    unfold Dev.addGoes Dev.addDwelt
    rw [hth, hsince, hdwell, hen, hmode, hsame.activeCount, hsame.minPhases, hsame.clk, hu.keyI, hk]
  obtain ⟨hwaits, hidle, hjoins⟩ := hu.taken
  rw [hwait] at hwaits hidle hjoins
  rw [hsame.addCandidate] at hidle hjoins
  rw [hflare, hu.leave, h.leave] at hjoins
  unfold Dev.AddDecided
  refine ⟨hwaits, fun hn hx => hidle hn (hx.imp_left (mt hgoes.1)), fun n hn hg hc hq hb => hjoins n hn hf (hgoes.2 hg) hc hq hb⟩

theorem Dev.AtDecisions.emberLow (hk : (e.loop.rails[r]'r.2).keyI = (s.loop.rails[r]'r.2).keyI) :
    s.emberLow r ↔ (d.rails[r]'r.2).emberEn = true ∧ d.activeCount r = d.minPhases r ∧ (e.loop.rails[r]'r.2).keyI.toInt.natAbs < (d.rails[r]'r.2).emberEnter.toNat := by
  unfold Dev.emberLow
  rw [h.rail, hk, h.same.minPhases, h.same.activeCount]
  exact Iff.rfl

theorem Dev.AtDecisions.emberFull : s.emberFull r ↔ d.emberFull r := by
  unfold Dev.emberFull
  rw [h.rail, h.same.clk]
  exact Iff.rfl

theorem Dev.AtDecisions.emberEntered {m : Dev} (hm : s.RegulateIs m r (d.railSum r).isSome y) (hfin : e.rails[r]'r.2 = y.marked now) (hk : (e.loop.rails[r]'r.2).keyI = (s.loop.rails[r]'r.2).keyI)
    (hn : (d.rails[r]'r.2).notice = none) (hloop : e.loop = m.loop) (hpwm : e.pwm = m.pwm) : d.EmberEntered e r := by
  have hnotice : (s.rails[r]'r.2).notice = none := by
    rw [h.rail]
    exact hn
  have hsince : (s.rails[r]'r.2).emberSince = (d.rails[r]'r.2).emberSince := by rw [h.rail]; rfl
  have hlow := h.emberLow hk
  have hfull := h.emberFull
  have hdwells := hm.dwells hnotice
  have henters := hm.enters hnotice
  rw [hsince, h.same.clk] at hdwells
  rw [h.same.clk] at henters
  unfold Dev.EmberEntered
  dsimp only
  rw [hfin]
  refine ⟨fun hl => hm.high hnotice (mt hlow.1 hl), fun hl hf => hdwells (hlow.2 hl) (mt hfull.1 hf), fun hl hf => ?_⟩
  obtain ⟨h1, h2, h3, h4, hidle, hmasked⟩ := henters (hlow.2 hl) (hfull.2 hf)
  refine ⟨h1, h2, h3, h4, fun c hc => ?_, fun n hn hlp ha => ?_⟩
  · rw [hloop]
    exact hidle c (by rw [h.same.ctxsOf]; exact hc)
  · rw [hpwm]
    exact hmasked n ((h.same.railOf n).trans hn) ((h.same.isLoop n).trans hlp) ((h.same.isActive n).trans ha)

end

end Sys2Proof.Machine
end

section
/-! SUPPORT. The words of the statement about EMBER and a Flare at an update point. -/

namespace Sys2Proof.Machine

open Sys2Proof

/-- What EMBER's decisions write of a rail's record. -/
def Rail.bursts (x : Rail) : RailMode × Nat × Nat × Option Tick × BitVec 22 × Tick := (x.mode, x.shortSleeps, x.staleRun, x.burst, x.packetDuty, x.sleepSince)

theorem Dev.targetMv_of_sp {d e : Dev} (h : e.sp = d.sp) (r : RailIx) : e.targetMv r = d.targetMv r := by rw [Dev.targetMv, h, Dev.targetMv]

section
variable {d s n e : Dev} {r : RailIx} {v : Word} {st : Bool} {mk : List (Tick × Nat)} {dm : Word} (h : d.AtDecisions s r v st mk dm)
include h

/-! ## EMBER (R329, R330) -/

theorem Dev.AtDecisions.emberDecided {settled : Prop} (hs : s.EmberStep n r) (hvout : (e.rails[r]'r.2).vout = v) (hstale : (e.rails[r]'r.2).vstale = st) (hsp : e.sp = s.sp) (hpwmg : e.pwmg = s.pwmg)
    (hleft : (s.rails[r]'r.2).leavesEmber (s.targetMv r) s.clk.now → settled → (e.rails[r]'r.2).mode = .regulate ∧ (e.rails[r]'r.2).burst = none ∧ e.pwm = n.pwm)
    (hstay : ¬(s.rails[r]'r.2).leavesEmber (s.targetMv r) s.clk.now → ∀ y : Rail, s.RailIs n r y → (e.rails[r]'r.2).bursts = y.bursts ∧ e.pwm = n.pwm) (hmode : (d.rails[r]'r.2).mode = .ember) :
    d.EmberDecided e r settled := by
  have haim : s.targetMv r = e.targetMv r := (Dev.targetMv_of_sp hsp r).symm
  have hends : ∀ b : Tick, s.burstEnds r b ↔ b + (d.rails[r]'r.2).pktLen.toNat * 2 * (e.pwmg.refs[r]'r.2).per.toNat ≤ d.clk.now ∨ e.targetMv r + (d.rails[r]'r.2).embHi.toNat ≤ (e.rails[r]'r.2).vout.toInt := fun b => by
    unfold Dev.burstEnds
    rw [h.rail, haim, h.same.clk, hpwmg, hvout]
    exact Iff.rfl
  obtain ⟨-, -, hstays, hwoken, hwritten, hasleep⟩ := hs
  rw [h.rail, haim, h.same.clk] at hleft hstay hwoken
  rw [h.rail, haim, h.same.clk] at hstays
  rw [h.rail, haim, h.same.clk, h.same.cycleTick] at hwritten
  rw [h.rail, haim, h.same.clk] at hasleep
  unfold Dev.EmberDecided
  dsimp only
  rw [hvout, hstale]
  have hwok : ∀ (m : PhaseIx), ((d.rails[r]'r.2).with v st mk dm).leavesEmber (e.targetMv r) d.clk.now ∨ ((d.rails[r]'r.2).with v st mk dm).wakes (e.targetMv r) → d.railOf m = some r →
      (d.rails[r]'r.2).burstMembers.getLsbD m.val = true → (d.setNow m).ember = false → (n.pwm[m]'m.2).mask.ember = false := fun m hl hm hb hset =>
    hwoken hl m ((h.same.railOf m).trans hm) hb (by rw [h.same.setNow]; exact hset)
  refine ⟨fun hl hset => ?_, fun hl => ?_⟩
  · obtain ⟨h1, h2, h3⟩ := hleft hl hset
    refine ⟨h1, h2, fun m hm hb hclear => ?_⟩
    rw [h3]
    exact hwok m (.inl hl) hm hb hclear
  · obtain ⟨y, hy, hstep⟩ := hstays hl
    obtain ⟨hb, hpwm⟩ := hstay hl y hy
    have hmode' : (e.rails[r]'r.2).mode = y.mode := congrArg (fun p => p.1) hb
    have hshort : (e.rails[r]'r.2).shortSleeps = y.shortSleeps := congrArg (fun p => p.2.1) hb
    have hrun : (e.rails[r]'r.2).staleRun = y.staleRun := congrArg (fun p => p.2.2.1) hb
    have hburst : (e.rails[r]'r.2).burst = y.burst := congrArg (fun p => p.2.2.2.1) hb
    have hduty : (e.rails[r]'r.2).packetDuty = y.packetDuty := congrArg (fun p => p.2.2.2.2.1) hb
    have hsleep : (e.rails[r]'r.2).sleepSince = y.sleepSince := congrArg (fun p => p.2.2.2.2.2) hb
    rw [hmode', hshort, hrun, hburst, hduty, hsleep, hpwm]
    refine ⟨hstep.mode.trans hmode, hstep.sleeps, hstep.stales, fun hw => ?_, fun hw hnone => hstep.still hw hnone, fun b hsome => ⟨fun hend => ?_, fun hend => ?_⟩⟩
    · obtain ⟨h1, h2⟩ := hstep.wakes hw
      refine ⟨h1, h2, fun m => ⟨fun hm hbit hclear => hwok m (.inr hw) hm hbit hclear, fun hm hbit hhost hfl => ?_⟩⟩
      exact hwritten hl hw m ((h.same.railOf m).trans hm) hbit ((h.same.srcHost m).trans hhost) ((h.same.flareOn m).trans hfl)
    · exact hstep.runs b hsome (by rw [hends, hvout]; exact hend)
    · have hend' : s.burstEnds r b := by
        rw [hends, hvout]
        exact hend
      obtain ⟨h1, h2⟩ := hstep.sleeping b hsome hend'
      exact ⟨h1, h2, fun m hm hbit => hasleep hl b hsome hend' m ((h.same.railOf m).trans hm) hbit⟩

end

/-! ## A Flare (R333, R334) -/

/-- What follows a Flare's exit at the same update point. -/
structure Dev.AfterFlare (n e : Dev) (r : RailIx) (settled : Prop) : Prop where
  record : (e.rails[r]'r.2).flare = (n.rails[r]'r.2).flare ∧ (e.rails[r]'r.2).flareLastExit = (n.rails[r]'r.2).flareLastExit ∧ (e.rails[r]'r.2).timeouts = (n.rails[r]'r.2).timeouts
  codes : n.KeepsCodes e
  raised : n.cyc.raised ⊆ e.cyc.raised
  settles : settled → (e.rails[r]'r.2).mode = .regulate ∧ e.pwm = n.pwm ∧ e.loop = n.loop

/-- What has been formed, the aim and the clock stand from the decisions on. -/
structure Dev.Holds (s e : Dev) (r : RailIx) (v : Word) (st : Bool) : Prop where
  vout : (e.rails[r]'r.2).vout = v
  vstale : (e.rails[r]'r.2).vstale = st
  sp : e.sp = s.sp
  uv : (e.prot.wins[r]'r.2).uv = (s.prot.wins[r]'r.2).uv
  clk : e.clk = s.clk
  no : e.cyc.no = s.cyc.no

section
variable {d s e : Dev} {r : RailIx} {f : Tick} {v : Word} {st : Bool} {mk : List (Tick × Nat)} {dm : Word} (h : d.AtDecisions s r v st mk dm)
include h

theorem Dev.AtDecisions.flareEnds : s.flareEnds r f ↔ f + (d.rails[r]'r.2).flareTime.toNat * 480 ≤ d.clk.now := by
  unfold Dev.flareEnds
  rw [h.rail, h.same.clk]
  exact Iff.rfl

/-- What a Flare's exit leaves at the end of the point. -/
theorem Dev.AtDecisions.flareLeft {n : Dev} {late : Bool} {settled : Prop} (hl : s.FlareLeft n r late) (ha : n.AfterFlare e r settled) :
    ((e.rails[r]'r.2).flare = none ∧ (e.rails[r]'r.2).flareLastExit = some d.clk.now ∧
      ∀ m : PhaseIx, d.railOf m = some r → (d.pwm[m]'m.2).flareOn = true → (e.pwm[m]'m.2).loopShadow = some { duty := (d.rails[r]'r.2).flareDuty, at_ := d.cycleTick + 1 }) ∧
    (settled → (e.rails[r]'r.2).mode = .regulate ∧
      ∀ m : PhaseIx, d.railOf m = some r → (d.pwm[m]'m.2).flareOn = true → (d.rails[r]'r.2).drained.getLsbD m.val = false →
        ((d.setNow m).shed = false → (e.pwm[m]'m.2).mask.shed = false) ∧ ((d.setNow m).ember = false → (e.pwm[m]'m.2).mask.ember = false) ∧
        ((e.loop.ctx[innerIx m]'(innerIx m).2).active = true → (e.loop.ctx[innerIx m]'(innerIx m).2).ref = (e.loop.rails[r]'r.2).iref)) := by
  obtain ⟨-, ⟨y, hy, hleft⟩, hphases, hgiven, -⟩ := hl
  obtain ⟨⟨hfl, hexit, -⟩, hcodes, -, hsettles⟩ := ha
  rw [hy.get] at hfl hexit
  rw [h.rail] at hgiven
  have hphase := fun m hm hon => hphases m ((h.same.railOf m).trans hm) ((h.same.flareOn m).trans hon)
  refine ⟨⟨hfl.trans hleft.flare, hexit.trans (hleft.exit.trans (by rw [h.same.clk])), fun m hm hon => ?_⟩, fun hset => ?_⟩
  · have hshadow := (hphase m hm hon).shadow
    rw [h.rail, h.same.cycleTick] at hshadow
    exact (hcodes m).1.trans hshadow
  · obtain ⟨h1, h2, h3⟩ := hsettles hset
    refine ⟨h1, fun m hm hon hd => ?_⟩
    obtain ⟨-, hshed, hember⟩ := hphase m hm hon
    rw [h.rail, h.same.setNow] at hshed hember
    rw [h2, h3]
    exact ⟨hshed hd, hember hd, hgiven m ((h.same.railOf m).trans hm) ((h.same.flareOn m).trans hon) hd⟩

variable (k : s.Holds e r v st)
include k

theorem Dev.AtDecisions.recovers : s.recovers r f ↔ (∃ l : AccResult, (d.accOf (outerIx r)).latest = some l ∧ f < l.at_) ∧
    e.targetMv r - (d.rails[r]'r.2).flareRec.toNat ≤ (e.rails[r]'r.2).vout.toInt ∧ (e.prot.wins[r]'r.2).uv = false := by
  unfold Dev.recovers
  rw [h.rail, h.same.accOf h.sense, Dev.targetMv_of_sp k.sp, k.vout, k.uv]
  exact Iff.rfl

theorem Dev.AtDecisions.flareDecided {n : Dev} {settled : Prop} (hf : (d.rails[r]'r.2).flare = some f)
    (hback : s.recovers r f → s.FlareLeft n r false) (hlate : ¬s.recovers r f → s.flareEnds r f → s.FlareLeft n r true) (ha : s.recovers r f ∨ s.flareEnds r f → n.AfterFlare e r settled)
    (hruns : ¬s.recovers r f → ¬s.flareEnds r f → e.rails[r]'r.2 = s.rails[r]'r.2 ∨ e.rails[r]'r.2 = (s.rails[r]'r.2).marked d.clk.now) (hdef : d.railDefined r = true) (hno : d.cyc.no = d.cycle) :
    d.FlareDecided e r f settled := by
  have hrec := h.recovers k (f := f)
  have hend := h.flareEnds (f := f)
  have hone : s.recovers r f ∨ s.flareEnds r f → ∃ late, s.FlareLeft n r late := fun hx => by
    by_cases hb : s.recovers r f
    · exact ⟨false, hback hb⟩
    · exact ⟨true, hlate hb (hx.resolve_left hb)⟩
  have htimeouts : (s.rails[r]'r.2).timeouts = (d.rails[r]'r.2).timeouts := by rw [h.rail]; rfl
  unfold Dev.FlareDecided
  dsimp only
  refine ⟨fun hb hl => ?_, fun hb => ?_, fun hb hl => ?_, fun hx => ?_, fun hx => ?_⟩
  · have hrail : e.rails[r]'r.2 = (d.rails[r]'r.2).with v st mk dm ∨ e.rails[r]'r.2 = ((d.rails[r]'r.2).with v st mk dm).marked d.clk.now := by
      rw [← h.rail]
      exact hruns (mt hrec.1 hb) (mt hend.1 hl)
    rcases hrail with hrail | hrail
    · rw [hrail]
      exact ⟨hf, rfl, rfl, rfl⟩
    · rw [hrail]
      exact ⟨hf, rfl, rfl, rfl⟩
  · obtain ⟨y, hy, hleft⟩ := (hback (hrec.2 hb)).rail
    obtain ⟨-, -, ht⟩ := (ha (.inl (hrec.2 hb))).record
    rw [ht, hy.get, hleft.timeouts, if_neg (by decide), htimeouts]
  · have hl' := hlate (mt hrec.1 hb) (hend.2 hl)
    have ha' := ha (.inr (hend.2 hl))
    obtain ⟨y, hy, hleft⟩ := hl'.rail
    obtain ⟨-, -, ht⟩ := ha'.record
    refine ⟨by rw [ht, hy.get, hleft.timeouts, if_pos rfl, htimeouts], ?_⟩
    have hraised := ha'.raised (hl'.cause rfl (by rw [Dev.railDefined, h.same.tile]; exact hdef))
    have hcycle : e.cyc.no = e.cycle := by
      obtain ⟨hn, -, -⟩ := h.same.cycle
      rw [k.no, hn, hno, Dev.cycle, Dev.cycle, k.clk, h.same.clk]
    have hnow : e.eventNow (srcFlareTimeout r) 0 = true := Bool.and_eq_true_iff.2 ⟨beq_iff_eq.2 hcycle, List.contains_iff_mem.2 hraised⟩
    rw [Dev.causeOf, hnow, Bool.or_true, Bool.true_or]
  · have hx' : s.recovers r f ∨ s.flareEnds r f := hx.imp hrec.2 hend.2
    obtain ⟨late, hl⟩ := hone hx'
    exact (h.flareLeft hl (ha hx')).1
  · have hx' : s.recovers r f ∨ s.flareEnds r f := hx.imp hrec.2 hend.2
    obtain ⟨late, hl⟩ := hone hx'
    exact (h.flareLeft hl (ha hx')).2

end

end Sys2Proof.Machine
end

section
/-! SUPPORT. The rest of an update point after the decisions every one takes. -/

namespace Sys2Proof.Machine

open Sys2Proof

/-- The rest of an update point: nothing at an apex; at a mark its decisions, with the mark noted. -/
def Dev.tail (n : Dev) (r : RailIx) (apex valid : Bool) (now : Tick) : Dev :=
  if apex then n else (n.markDecisions r valid).updRail r fun y => y.marked now

theorem Dev.tail_mark (n : Dev) (r : RailIx) (valid : Bool) (now : Tick) : n.tail r false valid now = (n.markDecisions r valid).updRail r fun y => y.marked now := rfl

theorem Dev.markDecisions_ember {d : Dev} {r : RailIx} (valid : Bool) (hf : (d.rails[r]'r.2).flare = none) (hm : (d.rails[r]'r.2).mode = .ember) : d.markDecisions r valid = d := by
  unfold Dev.markDecisions
  extract_lets x
  have hx : ¬x.flare.isSome = true := by
    rw [show x.flare = none from hf]
    decide
  rw [if_neg hx, show x.mode = .ember from hm]

/-- Where the decisions of the mark change nothing, the mark alone is noted. -/
theorem Dev.tail_idle {n : Dev} {r : RailIx} {valid : Bool} (apex : Bool) (now : Tick) (h : n.markDecisions r valid = n) :
    ((n.tail r apex valid now).rails[r]'r.2 = n.rails[r]'r.2 ∨ (n.tail r apex valid now).rails[r]'r.2 = (n.rails[r]'r.2).marked now) ∧ (n.tail r apex valid now).pwm = n.pwm ∧
    n.Decides (n.tail r apex valid now) r := by
  cases apex with
  | true => exact ⟨.inl rfl, rfl, .refl n r⟩
  | false =>
    rw [Dev.tail_mark, h]
    exact ⟨.inr (n.updRail_railIs r _).get, rfl, n.updRail_decides r _⟩

/-- The rest of an update point of a rail that has come to REGULATE. -/
structure Dev.TailOut (n e : Dev) (r : RailIx) (settled : Prop) : Prop where
  after : n.AfterFlare e r settled
  decides : n.Decides e r
  burst : settled → (e.rails[r]'r.2).burst = (n.rails[r]'r.2).burst

theorem Dev.tail_regulate {n : Dev} {r : RailIx} {apex valid : Bool} (now : Tick) (hf : (n.rails[r]'r.2).flare = none) (hm : (n.rails[r]'r.2).mode = .regulate) :
    n.TailOut (n.tail r apex valid now) r (apex = true ∨ (n.rails[r]'r.2).staysOut) := by
  cases apex with
  | true => exact ⟨⟨⟨rfl, rfl, rfl⟩, .refl n, fun _ h => h, fun _ => ⟨hm, rfl, rfl⟩⟩, .refl n r, fun _ => rfl⟩
  | false =>
    rw [Dev.tail_mark, Dev.markDecisions_regulate valid hf hm]
    obtain ⟨y, hy⟩ := Dev.regulateStep_is valid hm
    generalize n.regulateStep r valid = q at hy ⊢
    have hmark : q.Decides (q.updRail r fun y => y.marked now) r := q.updRail_decides r _
    have hrail : (q.updRail r fun y => y.marked now).rails[r]'r.2 = y.marked now := by
      rw [(q.updRail_railIs r _).get, hy.rail.get]
    have hframe : q.onlyIn (q.updRail r fun y => y.marked now) [.rails] := q.updRail_onlyIn r _
    generalize (q.updRail r fun y => y.marked now) = e at hmark hrail hframe ⊢
    obtain ⟨hflare, hexit, htimeouts, -⟩ := hy.record
    have hdec := hy.decides.trans hmark
    have hstay : false = true ∨ (n.rails[r]'r.2).staysOut → (n.rails[r]'r.2).staysOut := fun h => h.resolve_left (by decide)
    refine ⟨⟨?_, hy.codes.trans (Dev.keepsCodes_of_frame hframe), hdec.aim.raised, fun h => ?_⟩, hdec, fun h => ?_⟩
    · rw [hrail]
      exact ⟨hflare, hexit, htimeouts⟩
    · obtain ⟨h1, -, h3⟩ := hy.out (hstay h)
      have hall := h3.thenIn (bs := [.rails, .leave]) hframe
      rw [hrail]
      exact ⟨h1, hall .pwm (by decide), hall .loop (by decide)⟩
    · obtain ⟨-, h2, -⟩ := hy.out (hstay h)
      rw [hrail]
      exact h2

/-! ## EMBER and a Flare at an update point without a port -/

theorem Rail.staysOut_of_dwell {x y : Rail} (hx : x.staysOut) (hy : y.emberEn = x.emberEn ∧ y.emberSince = x.emberSince ∧ y.emberDwell = x.emberDwell) : y.staysOut := by
  obtain ⟨h1, h2, h3⟩ := hy
  rcases hx with hx | ⟨hx, hd⟩
  · exact .inl (h1.trans hx)
  · exact .inr ⟨h2.trans hx, by rw [h3]; exact hd⟩

section
variable {d s : Dev} {r : RailIx} {v : Word} {st : Bool} {mk : List (Tick × Nat)} {dm : Word} (h : d.AtDecisions s r v st mk dm)
include h

theorem Dev.Decides.holds {e : Dev} (k : s.Decides e r) : s.Holds e r v st := by
  have hform := k.formed.form
  rw [h.rail] at hform
  exact ⟨congrArg (fun p => p.1) hform, congrArg (fun p => p.2.1) hform, k.aim.sp, k.aim.uv, k.formed.frame .clk (by decide), k.aim.no⟩

theorem Dev.AtDecisions.flarePoint {f : Tick} {apex valid : Bool} (hf : (d.rails[r]'r.2).flare = some f) (hm : (d.rails[r]'r.2).mode = .regulate ∨ (d.rails[r]'r.2).mode = .ember)
    (hdef : d.railDefined r = true) (hno : d.cyc.no = d.cycle) :
    d.FlareDecided ((s.pointDecisions r).tail r apex valid d.clk.now) r f (apex = true ∨ (d.rails[r]'r.2).staysOut) ∧ s.Decides ((s.pointDecisions r).tail r apex valid d.clk.now) r := by
  have hsf : (s.rails[r]'r.2).flare = some f := by
    rw [h.rail]
    exact hf
  have hsm : (s.rails[r]'r.2).mode = .regulate ∨ (s.rails[r]'r.2).mode = .ember := by
    rw [h.rail]
    exact hm
  have hpoint : s.pointDecisions r = s.flarePoint r := if_pos (by rw [hsf]; rfl)
  obtain ⟨hback, hlate, hruns⟩ := Dev.flarePoint_recovers hsf
  have hleft : ∀ late : Bool, s.FlareLeft (s.flareExit r late) r late := fun late => Dev.flareExit_left late hsm
  have hout : ∀ {n : Dev} {late : Bool}, s.FlareLeft n r late → n.TailOut (n.tail r apex valid d.clk.now) r (apex = true ∨ (d.rails[r]'r.2).staysOut) := fun {n late} hl => by
    obtain ⟨y, hy, hx⟩ := hl.rail
    have hd : (n.rails[r]'r.2).emberEn = (s.rails[r]'r.2).emberEn ∧ (n.rails[r]'r.2).emberSince = (s.rails[r]'r.2).emberSince ∧ (n.rails[r]'r.2).emberDwell = (s.rails[r]'r.2).emberDwell := by
      rw [hy.get]
      exact hx.dwell
    rw [h.rail] at hd
    have htail := Dev.tail_regulate (n := n) (r := r) (apex := apex) (valid := valid) d.clk.now (by rw [hy.get]; exact hx.flare) (by rw [hy.get]; exact hx.mode)
    have hmono : (apex = true ∨ (d.rails[r]'r.2).staysOut) → (apex = true ∨ (n.rails[r]'r.2).staysOut) := Or.imp_right fun ho => Rail.staysOut_of_dwell ho hd
    exact ⟨⟨htail.after.record, htail.after.codes, htail.after.raised, fun hs => htail.after.settles (hmono hs)⟩, htail.decides, fun hs => htail.burst (hmono hs)⟩
  have hdec : s.Decides ((s.pointDecisions r).tail r apex valid d.clk.now) r := by
    refine (s.pointDecisions_decides r).trans ?_
    rw [hpoint]
    by_cases hb : s.recovers r f
    · rw [hback hb]
      exact (hout (hleft false)).decides
    · by_cases hl : s.flareEnds r f
      · rw [hlate hb hl]
        exact (hout (hleft true)).decides
      · rw [hruns hb hl]
        exact (Dev.tail_idle apex _ (Dev.markDecisions_flare valid (by rw [hsf]; rfl))).2.2
  refine ⟨h.flareDecided (hdec.holds h) (n := s.pointDecisions r) hf (fun hb => ?_) (fun hb hl => ?_) (fun hx => ?_) (fun hb hl => ?_) hdef hno, hdec⟩
  · rw [hpoint, hback hb]
    exact hleft false
  · rw [hpoint, hlate hb hl]
    exact hleft true
  · rw [hpoint]
    by_cases hb : s.recovers r f
    · rw [hback hb]
      exact (hout (hleft false)).after
    · rw [hlate hb (hx.resolve_left hb)]
      exact (hout (hleft true)).after
  · rw [hpoint, hruns hb hl]
    exact (Dev.tail_idle apex _ (Dev.markDecisions_flare valid (by rw [hsf]; rfl))).1

theorem Dev.AtDecisions.emberPoint {apex valid : Bool} (hf : (d.rails[r]'r.2).flare = none) (hm : (d.rails[r]'r.2).mode = .ember) :
    d.EmberDecided ((s.pointDecisions r).tail r apex valid d.clk.now) r (apex = true ∨ (d.rails[r]'r.2).staysOut) ∧ s.Decides ((s.pointDecisions r).tail r apex valid d.clk.now) r := by
  have hsf : (s.rails[r]'r.2).flare = none := by
    rw [h.rail]
    exact hf
  have hsm : (s.rails[r]'r.2).mode = .ember := by
    rw [h.rail]
    exact hm
  have hpoint : s.pointDecisions r = s.emberPoint r := (if_neg (by rw [hsf]; decide)).trans (if_pos hsm)
  have hstep := Dev.emberPoint_step hsm
  rw [hpoint]
  generalize s.emberPoint r = n at hstep ⊢
  have htail : (s.rails[r]'r.2).leavesEmber (s.targetMv r) s.clk.now → n.TailOut (n.tail r apex valid d.clk.now) r (apex = true ∨ (d.rails[r]'r.2).staysOut) ∧ (n.rails[r]'r.2).burst = none := fun hl => by
    obtain ⟨y, hy, hymode, hyburst, hyflare, hdwell⟩ := hstep.left hl
    have hd : (n.rails[r]'r.2).emberEn = (s.rails[r]'r.2).emberEn ∧ (n.rails[r]'r.2).emberSince = (s.rails[r]'r.2).emberSince ∧ (n.rails[r]'r.2).emberDwell = (s.rails[r]'r.2).emberDwell := by
      rw [hy.get]
      exact hdwell
    rw [h.rail] at hd
    have htail := Dev.tail_regulate (n := n) (r := r) (apex := apex) (valid := valid) d.clk.now (by rw [hy.get]; exact hyflare.trans hsf) (by rw [hy.get]; exact hymode)
    have hmono : (apex = true ∨ (d.rails[r]'r.2).staysOut) → (apex = true ∨ (n.rails[r]'r.2).staysOut) := Or.imp_right fun ho => Rail.staysOut_of_dwell ho hd
    exact ⟨⟨⟨htail.after.record, htail.after.codes, htail.after.raised, fun hs => htail.after.settles (hmono hs)⟩, htail.decides, fun hs => htail.burst (hmono hs)⟩, by rw [hy.get]; exact hyburst⟩
  have hidle : ¬(s.rails[r]'r.2).leavesEmber (s.targetMv r) s.clk.now → n.markDecisions r valid = n := fun hl => by
    obtain ⟨y, hy, hs⟩ := hstep.stays hl
    exact Dev.markDecisions_ember valid (by rw [hy.get, hs.flare]; exact hsf) (by rw [hy.get, hs.mode]; exact hsm)
  have hdec : s.Decides (n.tail r apex valid d.clk.now) r := by
    by_cases hl : (s.rails[r]'r.2).leavesEmber (s.targetMv r) s.clk.now
    · exact hstep.decides.trans (htail hl).1.decides
    · exact hstep.decides.trans (Dev.tail_idle apex _ (hidle hl)).2.2
  have hholds := hdec.holds h
  refine ⟨h.emberDecided hstep hholds.vout hholds.vstale hholds.sp (hdec.formed.frame .pwmg (by decide)) (fun hl hs => ?_) (fun hl y hy => ?_) hm, hdec⟩
  · obtain ⟨hout, hb⟩ := htail hl
    obtain ⟨h1, h2, -⟩ := hout.after.settles hs
    exact ⟨h1, (hout.burst hs).trans hb, h2⟩
  · obtain ⟨hrail, hpwm, -⟩ := Dev.tail_idle apex d.clk.now (hidle hl)
    rw [hy.get] at hrail
    refine ⟨?_, hpwm⟩
    rcases hrail with hrail | hrail
    · rw [hrail]
    · rw [hrail]
      rfl

end

end Sys2Proof.Machine
end

section
/-! SUPPORT. An update point of a rail reference as a whole. -/

namespace Sys2Proof.Machine

open Sys2Proof

/-! ## The point and its parts -/

/-- The point is noted in the cycle's bookkeeping. -/
def Dev.pointed (d : Dev) (r : RailIx) : Dev := { d with cyc := { d.cyc with points := setBit d.cyc.points r.val true } }

theorem Dev.railPoint_still {d : Dev} {r : RailIx} {apex : Bool}
    (h : (d.tile.cur.rails[r]'r.2).isSome = false ∨ (d.pwmg.refs[r]'r.2).running = false ∨ (d.pwmg.refs[r]'r.2).holding = true ∨ (d.pwmg.refs[r]'r.2).due d.clk.now apex = false) :
    d.railPoint r apex = d := by
  have hstill : (!d.railDefined r || !(d.pwmg.refs[r]'r.2).running || (d.pwmg.refs[r]'r.2).holding || !(d.pwmg.refs[r]'r.2).due d.clk.now apex) = true := by
    unfold Dev.railDefined
    rcases h with h | h | h | h <;> rw [h] <;> simp
  exact if_pos hstill

/-- The end of a mark, from its transfer on. -/
def Dev.markEnd (k : Dev × Bool) (r : RailIx) : Dev := ((k.1.railTransfer r).markDecisions r k.2).updRail r fun x => x.marked k.1.clk.now

theorem Dev.railPoint_due {d : Dev} {r : RailIx} {apex : Bool} (h1 : (d.tile.cur.rails[r]'r.2).isSome = true) (h2 : (d.pwmg.refs[r]'r.2).running = true)
    (h3 : (d.pwmg.refs[r]'r.2).holding = false) (h4 : (d.pwmg.refs[r]'r.2).due d.clk.now apex = true) :
    d.railPoint r apex = if apex then (((d.pointed r).refApex r).formVout r).railTransfer r else Dev.markEnd ((d.pointed r).railMark r) r := by
  have hdue : ¬(!d.railDefined r || !(d.pwmg.refs[r]'r.2).running || (d.pwmg.refs[r]'r.2).holding || !(d.pwmg.refs[r]'r.2).due d.clk.now apex) = true := by
    rw [Dev.railDefined, h1, h2, h3, h4]
    decide
  unfold Dev.railPoint
  extract_lets ref cyc pointed
  rw [if_neg hdue]
  obtain hpointed : pointed = d.pointed r := rfl
  rw [← hpointed]
  clear_value pointed
  generalize pointed.railMark r = k
  rfl

theorem Dev.pointed_sameMembers (d : Dev) (r : RailIx) : d.SameMembers (d.pointed r) := ⟨rfl, rfl, rfl, fun _ => rfl, rfl, ⟨rfl, rfl, rfl⟩, fun _ => rfl, fun _ => rfl, fun _ => rfl⟩

/-- What holds from the point with its note holds from the point. -/
theorem Dev.PointBase.unpoint {d m : Dev} {r : RailIx} {x : Rail} (h : (d.pointed r).PointBase m r x) : d.PointBase m r x := by
  obtain ⟨hsame, hframe, hrail, hactive, hdelivered, hrefs, ⟨hformed, hkept⟩, hform⟩ := h
  have hacc : (d.pointed r).accOf (outerIx r) = d.accOf (outerIx r) := (d.pointed_sameMembers r).accOf rfl _
  rw [hacc] at hformed hkept
  exact ⟨(d.pointed_sameMembers r).trans hsame, Dev.onlyIn_of_cyc hframe, hrail, hactive, hdelivered, hrefs, ⟨hformed, hkept⟩, hform⟩

theorem Dev.MarkBase.unpoint {d m : Dev} {r : RailIx} {x : Rail} (h : (d.pointed r).MarkBase m r x) : d.MarkBase m r x := by
  obtain ⟨hpoint, href, hcalm, hsum, hvolt, htarget, hslewing⟩ := h
  have hrail : (d.pointed r).railSum r = d.railSum r := (d.pointed_sameMembers r).railSum rfl rfl r
  rw [hrail] at hsum
  exact ⟨hpoint.unpoint, href, hcalm, hsum, hvolt, htarget, hslewing⟩

/-! ## An apex up to its decisions -/

theorem Dev.apex_base (d : Dev) (r : RailIx) : ∃ x, d.PointBase ((d.refApex r).formVout r) r x ∧
    ((d.refApex r).formVout r).pwmg = { d.pwmg with refs := d.pwmg.refs.set r { (d.pwmg.refs[r]'r.2).sync d.clk.now with down := true } } := by
  have hsame : d.SameMembers (d.refApex r) := ⟨rfl, rfl, rfl, fun _ => rfl, rfl, ⟨rfl, rfl, rfl⟩, fun _ => rfl, fun _ => rfl, fun _ => rfl⟩
  have hframe : d.onlyIn (d.refApex r) [.pwmg] := d.onlyIn_pwmg _
  have hloop : (d.refApex r).loop = d.loop := rfl
  have hrails : (d.refApex r).rails = d.rails := rfl
  have hpwmg : (d.refApex r).pwmg = { d.pwmg with refs := d.pwmg.refs.set r { (d.pwmg.refs[r]'r.2).sync d.clk.now with down := true } } := rfl
  have hacc : (d.refApex r).accOf (outerIx r) = d.accOf (outerIx r) := hsame.accOf rfl _
  obtain ⟨vout, vstale, hvout⟩ := (d.refApex r).formVout_formed r
  generalize d.refApex r = passed at hsame hframe hloop hrails hpwmg hacc hvout ⊢
  generalize passed.formVout r = e at hvout ⊢
  have hrail := (show d.RailIs passed r (d.rails[r]'r.2) from Dev.railIs_of_onlyIn r hframe).trans hvout.rail
  rw [hrails] at hrail
  have hel : e.loop = d.loop := hvout.loop.trans hloop
  obtain ⟨hformed, hkept⟩ := hvout.is
  rw [hacc, hrails] at hformed hkept
  exact ⟨_, ⟨hsame.trans hvout.same, hframe.into.thenIn hvout.frame, hrail, fun _ => by rw [hel], fun _ => by rw [hel], by rw [hel], ⟨hformed, hkept⟩, rfl⟩, (hvout.frame .pwmg (by decide)).trans hpwmg⟩

/-! ## A mark: keys and target at its end -/

/-- The whole of a mark after its target. -/
def Dev.markRest (m : Dev) (r : RailIx) (valid : Bool) (now : Tick) : Dev := ((m.toDecisions r).pointDecisions r).tail r false valid now

theorem Dev.PointBase.mode {d m : Dev} {r : RailIx} {x : Rail} (h : d.PointBase m r x) : (m.rails[r]'r.2).mode = (d.rails[r]'r.2).mode ∧ (m.rails[r]'r.2).m0Wait = (d.rails[r]'r.2).m0Wait ∧
    (m.rails[r]'r.2).flare = (d.rails[r]'r.2).flare := by
  rw [h.rail.get, h.form]
  exact ⟨rfl, rfl, rfl⟩

theorem Dev.marked_decides (n : Dev) (r : RailIx) (now : Tick) : n.Decides (n.updRail r fun y => y.marked now) r := n.updRail_decides r _

theorem Dev.markRest_formed (m : Dev) (r : RailIx) (valid : Bool) (now : Tick) : m.KeepsFormed (m.markRest r valid now) r ∧ ((m.markRest r valid now).rails[r]'r.2).markAt = now := by
  unfold Dev.markRest
  rw [Dev.tail_mark]
  refine ⟨(m.toDecisions_work r).formed.trans (((Dev.pointDecisions_decides _ r).formed.trans (Dev.markDecisions_decided _ r valid).formed).trans (Dev.marked_decides _ r now).formed), ?_⟩
  rw [(Dev.updRail_railIs _ r _).get]
  rfl

theorem Dev.MarkBase.slewed {d m : Dev} {r : RailIx} {x : Rail} (h : d.MarkBase m r x) (valid : Bool) (now : Tick) : d.TargetSlewed (m.markRest r valid now) r := by
  obtain ⟨hmode, hwait, hflare⟩ := h.toPointBase.mode
  have hsrails : (m.toDecisions r).rails = m.rails := m.toDecisions_onlyIn r .rails (by decide)
  have hssp : (m.toDecisions r).sp = m.sp := (m.toDecisions_work r).sp
  have hidle : (d.rails[r]'r.2).moves → m.portIdle r := by
    rintro (hm | hm | ⟨hm, -⟩) <;> exact .inr (by rw [hmode, hm]; decide)
  have href : (d.rails[r]'r.2).moves → ((m.toDecisions r).loop.ctx[outerIx r]'(outerIx r).2).ref = (m.loop.ctx[outerIx r]'(outerIx r).2).ref := fun hm => (Dev.toDecisions_idle (hidle hm)).1.ref
  unfold Dev.markRest
  generalize m.toDecisions r = s at hsrails hssp href ⊢
  have hnd := s.pointDecisions_decides r
  have hnm := s.pointDecisions_mode r
  have hpoint : (d.rails[r]'r.2).mode = .ramp → (d.rails[r]'r.2).flare = none → s.pointDecisions r = s := fun hr hf => by
    have hsf : (s.rails[r]'r.2).flare = none := by
      rw [hsrails, hflare]
      exact hf
    have hsm : ¬s.mode r = .ember := by
      rw [Dev.mode, hsrails, hmode, hr]
      decide
    exact (if_neg (by rw [hsf]; decide)).trans (if_neg hsm)
  generalize s.pointDecisions r = n at hnd hnm hpoint ⊢
  obtain ⟨-, htarget, hslew⟩ := n.markDecisions_decided r valid
  have hnsp : n.sp = m.sp := hnd.aim.sp.trans hssp
  have hlast : (n.markDecisions r valid).Decides (n.tail r false valid now) r := (n.markDecisions r valid).marked_decides r now
  have hfree : ¬((d.rails[r]'r.2).mode = .ramp ∧ (d.rails[r]'r.2).m0Wait ≠ none) → n.KeepsTarget (n.tail r false valid now) r := fun hr => by
    refine (htarget fun hn => hr ?_).trans hlast.target
    obtain ⟨hs, hw⟩ := hnm hn.1
    rw [hsrails] at hs hw
    exact ⟨hmode.symm.trans hs, by rw [← hwait, ← hw]; exact hn.2⟩
  refine h.targetSlewed (fun hr => (hfree hr).sp.trans hnsp) (fun hm => ?_) ?_ fun hr hw hf => ?_
  · have hnot : ¬((d.rails[r]'r.2).mode = .ramp ∧ (d.rails[r]'r.2).m0Wait ≠ none) := by
      rcases hm with hm | hm | ⟨-, hm⟩
      · exact fun hx => absurd (hm.symm.trans hx.1) (by decide)
      · exact fun hx => absurd (hm.symm.trans hx.1) (by decide)
      · exact fun hx => hx.2 hm
    exact (hfree hnot).ref.trans (hnd.aim.ref.trans (href hm))
  · rw [hlast.aim.sp]
    refine hslew ?_
    rw [hnsp]
    exact h.slewing
  · have hn := hpoint hr hf
    have hnr : (n.rails[r]'r.2).mode = .ramp := by
      rw [hn, hsrails, hmode, hr]
    have hnf : (n.rails[r]'r.2).flare = none := by
      rw [hn, hsrails, hflare, hf]
    obtain ⟨-, -, -, -, ⟨y, hy, -, hym⟩, -, -⟩ := Dev.rampStep_step hnr
    obtain ⟨l, since, wait, -, hadd⟩ := (n.rampStep r).addMark_is r valid
    rw [Dev.tail_mark, Dev.markDecisions_ramp valid hnf hnr, (Dev.updRail_railIs _ r _).get, hadd.railIs.get, hy.get]
    have hymode := hym (by rw [hn, hsrails, hwait]; exact hw)
    rw [hnsp] at hymode
    exact hymode

end Sys2Proof.Machine
end

section
/-! SUPPORT. The decisions of an update point without a port, together. -/

namespace Sys2Proof.Machine

open Sys2Proof

/-! ## A mark in its parts -/

theorem Dev.railPoint_mark {d : Dev} {r : RailIx} (h1 : (d.tile.cur.rails[r]'r.2).isSome = true) (h2 : (d.pwmg.refs[r]'r.2).running = true)
    (h3 : (d.pwmg.refs[r]'r.2).holding = false) (h4 : (d.pwmg.refs[r]'r.2).due d.clk.now false = true) :
    ∃ m x, d.MarkBase m r x ∧ d.railPoint r false = m.markRest r (d.railSum r).isSome d.clk.now := by
  have hend : d.railPoint r false = Dev.markEnd ((d.pointed r).railMark r) r := (Dev.railPoint_due h1 h2 h3 h4).trans (if_neg (by decide))
  rw [hend, Dev.railMark_eq]
  obtain ⟨hvalid, x, hbase⟩ := (d.pointed r).markTarget_base r
  have hsum : (d.pointed r).railSum r = d.railSum r := (d.pointed_sameMembers r).railSum rfl rfl r
  rw [hvalid, hsum]
  have hm := hbase.unpoint
  generalize (d.pointed r).markTarget r = m at hm ⊢
  refine ⟨m, x, hm, ?_⟩
  have hevals : m.onlyIn ((m.portWork r).evalMarks r) [.loop, .free, .ports, .fault] := (m.portWork_onlyIn r).into.thenIn (Dev.evalMarks_onlyIn _ r)
  have hclk : ((m.portWork r).evalMarks r).clk = d.clk := (hevals .clk (by decide)).trans (hm.frame .clk (by decide))
  rw [← hclk]
  rfl

/-! ## IREF after the decisions -/

theorem Dev.markDecisions_portless {d : Dev} {r : RailIx} (valid : Bool) (hp : d.portOf r = none) (hr : (d.rails[r]'r.2).mode ≠ .ramp) (hg : (d.rails[r]'r.2).mode ≠ .regulate) :
    d.markDecisions r valid = d := by
  unfold Dev.markDecisions
  extract_lets x
  split
  · rfl
  · rw [hp]
    cases hm : x.mode with
    | ramp => exact absurd hm hr
    | regulate => exact absurd hm hg
    | _ => rfl

theorem Dev.markDecisions_iref {d : Dev} {r : RailIx} (valid : Bool) (hp : d.portOf r = none) : d.KeepsIref (d.markDecisions r valid) r := by
  cases hf : (d.rails[r]'r.2).flare with
  | some f =>
    rw [Dev.markDecisions_flare valid (by rw [hf]; rfl)]
    exact .refl d r
  | none =>
    by_cases hr : (d.rails[r]'r.2).mode = .ramp
    · rw [Dev.markDecisions_ramp valid hf hr]
      exact (Dev.rampStep_step hr).iref.trans (Dev.addMark_decides _ r valid).iref
    · by_cases hg : (d.rails[r]'r.2).mode = .regulate
      · rw [Dev.markDecisions_regulate valid hf hg]
        exact (Dev.regulateStep_decides valid hg).iref
      · rw [Dev.markDecisions_portless valid hp hr hg]
        exact .refl d r

theorem Dev.tail_iref (s : Dev) (r : RailIx) (apex valid : Bool) (now : Tick) (hp : s.portOf r = none) : s.KeepsIref ((s.pointDecisions r).tail r apex valid now) r := by
  have hpoint := s.pointDecisions_decides r
  have hport : (s.pointDecisions r).portOf r = none := (Dev.portOf_of_tile (hpoint.formed.frame .tile (by decide)) r).trans hp
  cases apex with
  | true => exact hpoint.iref
  | false => exact (hpoint.iref.trans (Dev.markDecisions_iref valid hport)).trans (Dev.marked_decides _ r now).iref

/-! ## Where the decisions begin -/

theorem Dev.PointBase.atDecisions {d m s : Dev} {r : RailIx} {x : Rail} (h : d.PointBase m r x) (k : m.IrefTaken s r) :
    d.AtDecisions s r x.vout x.vstale x.demandMarks x.demand := by
  have hrails : s.rails = m.rails := k.frame .rails (by decide)
  refine ⟨h.same.trans k.same, ?_, (k.frame .leave (by decide)).trans (h.frame .leave (by decide)), (k.frame .sense (by decide)).trans (h.frame .sense (by decide))⟩
  rw [hrails, h.rail.get]
  exact h.form

theorem Dev.slewing_of {d e : Dev} (ht : e.tile = d.tile) (hp : e.pwm = d.pwm) (hper : ∀ k : RailIx, (e.pwmg.refs[k]'k.2).per = (d.pwmg.refs[k]'k.2).per)
    (hrun : ∀ k : RailIx, (e.pwmg.refs[k]'k.2).running = (d.pwmg.refs[k]'k.2).running) : e.slewing = d.slewing := by
  funext n
  have hrail : e.carrierRail n = d.carrierRail n := by
    unfold Dev.carrierRail Dev.railOf
    rw [ht, hp]
  unfold Dev.slewing Dev.aligned
  rw [hrail, hp]
  cases d.carrierRail n with
  | none => rfl
  | some k =>
    dsimp only
    rw [hper, hrun]

/-- Only the rail's own reference has been written, as `y`. -/
def Dev.RefIs (d e : Dev) (r : RailIx) (y : RefCarrier) : Prop := e.pwmg = { d.pwmg with refs := d.pwmg.refs.set r y }

section
variable {d e : Dev} {r : RailIx} {y : RefCarrier} (h : d.RefIs e r y)
include h

theorem Dev.RefIs.refs : e.pwmg.refs = d.pwmg.refs.set r y := congrArg (fun g => g.refs) h

theorem Dev.RefIs.own : e.pwmg.refs[r]'r.2 = y := by
  rw [h.refs]
  simp

theorem Dev.RefIs.others {k : RailIx} (hk : k ≠ r) : e.pwmg.refs[k]'k.2 = d.pwmg.refs[k]'k.2 := by
  rw [h.refs]
  exact Vector.getElem_set_ne r.isLt k.isLt fun hv => hk (Fin.ext hv.symm)

/-- What the reference keeps is kept of every reference. -/
theorem Dev.RefIs.keeps {α : Type} (f : RefCarrier → α) (hf : f y = f (d.pwmg.refs[r]'r.2)) (k : RailIx) : f (e.pwmg.refs[k]'k.2) = f (d.pwmg.refs[k]'k.2) := by
  by_cases hk : k = r
  · subst hk
    rw [h.own, hf]
  · rw [h.others hk]

end

theorem Dev.MarkBase.respreadBusy {d m s : Dev} {r : RailIx} {x : Rail} (h : d.MarkBase m r x) (k : m.IrefTaken s r) (hp : (d.pwmg.refs[r]'r.2).pend = none) (ha : (d.pwmg.refs[r]'r.2).alignDue = false) :
    s.respreadBusy r = d.respreadBusy r := by
  obtain ⟨y, hy, hbegan⟩ := h.ref
  have href : d.RefIs s r y := (k.frame .pwmg (by decide)).trans hy
  have hper : y.per = (d.pwmg.refs[r]'r.2).per := by
    rw [hbegan.per, hp]
    rfl
  have hslew : s.slewing = d.slewing := Dev.slewing_of (h.same.trans k.same).tile ((k.frame .pwm (by decide)).trans (h.calm hp ha))
    (href.keeps (fun c => c.per) hper) (href.keeps (fun c => c.running) hbegan.running)
  unfold Dev.respreadBusy
  rw [hslew, (h.same.trans k.same).active]

/-! ## The decisions of a mark outside a Flare -/

section
variable {d s : Dev} {r : RailIx} {v : Word} {st : Bool} {mk : List (Tick × Nat)} {dm : Word} (h : d.AtDecisions s r v st mk dm)
include h

theorem Dev.AtDecisions.regulateMark {now : Tick} (hf : (d.rails[r]'r.2).flare = none) (hm : (d.rails[r]'r.2).mode = .regulate) :
    let e := (s.pointDecisions r).tail r false (d.railSum r).isSome now
    (s.respreadBusy r = d.respreadBusy r → d.ShedDecided e r) ∧ d.AddDecided e r ∧ ((d.rails[r]'r.2).notice = none → d.EmberEntered e r) := by
  have hsf : (s.rails[r]'r.2).flare = none := by
    rw [h.rail]
    exact hf
  have hsm : (s.rails[r]'r.2).mode = .regulate := by
    rw [h.rail]
    exact hm
  have hpoint : s.pointDecisions r = s := (if_neg (by rw [hsf]; decide)).trans (if_neg fun he => absurd (hsm.symm.trans he) (by decide))
  rw [hpoint, Dev.tail_mark, Dev.markDecisions_regulate _ hsf hsm]
  obtain ⟨y, hy⟩ := Dev.regulateStep_is (d.railSum r).isSome hsm
  generalize s.regulateStep r (d.railSum r).isSome = q at hy ⊢
  have hmark := q.marked_decides r now
  have hframe : q.onlyIn (q.updRail r fun y => y.marked now) [.rails] := q.updRail_onlyIn r _
  have hfin : (q.updRail r fun y => y.marked now).rails[r]'r.2 = y.marked now := by
    rw [(q.updRail_railIs r _).get, hy.rail.get]
  dsimp only
  generalize (q.updRail r fun y => y.marked now) = e at hmark hframe hfin ⊢
  have hk : (e.loop.rails[r]'r.2).keyI = (s.loop.rails[r]'r.2).keyI := congrArg (fun p => p.1) (hy.decides.trans hmark).formed.keys
  obtain ⟨-, -, -, hdelay⟩ := hy.record
  rw [h.rail] at hdelay
  refine ⟨fun hbusy => h.shedDecided hbusy hy.shed hdelay hfin hk, ?_, fun hn => h.emberEntered hy hfin hk hn (hframe .loop (by decide)) (hframe .pwm (by decide))⟩
  obtain ⟨u, hadd, humode⟩ := hy.add
  have hwait : (e.rails[r]'r.2).addWait = y.addWait := by
    rw [hfin]
    rfl
  have hmode : (e.rails[r]'r.2).mode = y.mode := by
    rw [hfin]
    rfl
  have htaken : s.AddFrom e r (d.railSum r).isSome (e.rails[r]'r.2).addWait u := by
    refine ⟨hadd.same, hadd.leave, hadd.adding, hadd.keyI, ?_⟩
    rw [hwait, show e.leave = q.leave from hframe .leave (by decide)]
    exact hadd.taken
  refine h.addDecided htaken hf ?_ hk
  rw [humode, hmode]
  exact ⟨fun hx => absurd hx (by decide), fun hx => absurd hx hy.mode⟩

theorem Dev.AtDecisions.rampMark {now : Tick} (hf : (d.rails[r]'r.2).flare = none) (hm : (d.rails[r]'r.2).mode = .ramp) :
    d.AddDecided ((s.pointDecisions r).tail r false (d.railSum r).isSome now) r := by
  have hsf : (s.rails[r]'r.2).flare = none := by
    rw [h.rail]
    exact hf
  have hsm : (s.rails[r]'r.2).mode = .ramp := by
    rw [h.rail]
    exact hm
  have hpoint : s.pointDecisions r = s := (if_neg (by rw [hsf]; decide)).trans (if_neg fun he => absurd (hsm.symm.trans he) (by decide))
  rw [hpoint, Dev.tail_mark, Dev.markDecisions_ramp _ hsf hsm]
  obtain ⟨husame, huformed, -, huleave, ⟨z, hz, hadding, -⟩, -, -⟩ := Dev.rampStep_step hsm
  generalize s.rampStep r = u at husame huformed huleave hz ⊢
  obtain ⟨l, since, wait, hadd, hleave⟩ := u.addMark_is r (d.railSum r).isSome
  have hdec := u.addMark_decides r (d.railSum r).isSome
  generalize u.addMark r (d.railSum r).isSome = q at hleave hdec ⊢
  have hmark := q.marked_decides r now
  have hframe : q.onlyIn (q.updRail r fun y => y.marked now) [.rails] := q.updRail_onlyIn r _
  have hfin : (q.updRail r fun y => y.marked now).rails[r]'r.2 = ({ u.rails[r]'r.2 with addSince := since, addWait := wait } : Rail).marked now := by
    rw [(q.updRail_railIs r _).get, hleave.railIs.get]
  generalize (q.updRail r fun y => y.marked now) = e at hmark hframe hfin ⊢
  have hu : (u.loop.rails[r]'r.2).keyI = (s.loop.rails[r]'r.2).keyI := congrArg (fun p => p.1) huformed.keys
  have hk : (e.loop.rails[r]'r.2).keyI = (u.loop.rails[r]'r.2).keyI := congrArg (fun p => p.1) (hdec.trans hmark).formed.keys
  have hwait : (e.rails[r]'r.2).addWait = wait := by
    rw [hfin]
    rfl
  have hmode : (e.rails[r]'r.2).mode = (u.rails[r]'r.2).mode := by
    rw [hfin]
    rfl
  refine h.addDecided (u := u) ⟨husame, huleave, by rw [hz.get]; exact hadding, hu, ?_⟩ hf (by rw [hmode]) (hk.trans hu)
  rw [hwait, show e.leave = q.leave from hframe .leave (by decide), hleave.leave]
  exact hadd

end

end Sys2Proof.Machine
end

section
/-! SUPPORT. An update point of a rail reference, and the obligation. -/

namespace Sys2Proof.Machine

open Sys2Proof

/-! ## A point without a port -/

/-- What a point of a rail without a port transfers and decides. -/
structure Dev.PortlessDecided (d e : Dev) (r : RailIx) (apex : Bool) : Prop where
  iref : d.IrefTransferred e r
  shed : (d.rails[r]'r.2).flare = none → apex = false → (d.rails[r]'r.2).mode = .regulate → (d.pwmg.refs[r]'r.2).pend = none → (d.pwmg.refs[r]'r.2).alignDue = false → d.ShedDecided e r
  add : (d.rails[r]'r.2).flare = none → apex = false → (d.rails[r]'r.2).mode = .regulate ∨ (d.rails[r]'r.2).mode = .ramp → d.AddDecided e r
  enter : (d.rails[r]'r.2).flare = none → apex = false → (d.rails[r]'r.2).mode = .regulate → (d.rails[r]'r.2).notice = none → d.EmberEntered e r
  ember : (d.rails[r]'r.2).flare = none → (d.rails[r]'r.2).mode = .ember → d.EmberDecided e r (apex = true ∨ (d.rails[r]'r.2).staysOut)
  flare : ∀ f : Tick, (d.rails[r]'r.2).flare = some f → (d.rails[r]'r.2).mode = .regulate ∨ (d.rails[r]'r.2).mode = .ember → d.FlareDecided e r f (apex = true ∨ (d.rails[r]'r.2).staysOut)

theorem Dev.PointBase.portless {d m s : Dev} {r : RailIx} {x : Rail} {apex : Bool} (h : d.PointBase m r x) (k : m.IrefTaken s r) (hp : d.portOf r = none)
    (hdef : d.railDefined r = true) (hno : d.cyc.no = d.cycle)
    (hbusy : apex = false → (d.pwmg.refs[r]'r.2).pend = none → (d.pwmg.refs[r]'r.2).alignDue = false → s.respreadBusy r = d.respreadBusy r) :
    d.PortlessDecided ((s.pointDecisions r).tail r apex (d.railSum r).isSome d.clk.now) r apex := by
  have hat := h.atDecisions k
  have hport : s.portOf r = none := (Dev.portOf_of_tile hat.same.tile r).trans hp
  refine ⟨k.transferred h (s.tail_iref r apex _ _ hport), fun hf ha hm h1 h2 => ?_, fun hf ha hm => ?_, fun hf ha hm hn => ?_, fun hf hm => (hat.emberPoint hf hm).1,
    fun f hf hm => (hat.flarePoint hf hm hdef hno).1⟩
  · subst ha
    exact (hat.regulateMark hf hm).1 (hbusy rfl h1 h2)
  · subst ha
    rcases hm with hm | hm
    · exact (hat.regulateMark hf hm).2.1
    · exact hat.rampMark hf hm
  · subst ha
    exact (hat.regulateMark hf hm).2.2 hn

/-! ## What every point leaves -/

/-- What every update point leaves: the rail's voltage, the other rails, and the blocks it may write. -/
structure Dev.PointFormed (d e : Dev) (r : RailIx) : Prop where
  vout : d.VoutIs r (e.rails[r]'r.2).vout (e.rails[r]'r.2).vstale
  others : ∀ k : RailIx, k ≠ r → e.rails[k]'k.2 = d.rails[k]'k.2
  frame : d.onlyIn e [.pwm, .pwmg, .loop, .rails, .prot, .sp, .ports, .fault, .lantern, .leave, .free]

theorem Dev.PointBase.formed {d m e : Dev} {r : RailIx} {x : Rail} (h : d.PointBase m r x) (k : m.KeepsFormed e r) : d.PointFormed e r := by
  have hform := k.form
  rw [h.rail.get] at hform
  have hvout : (e.rails[r]'r.2).vout = x.vout := congrArg (fun p => p.1) hform
  have hstale : (e.rails[r]'r.2).vstale = x.vstale := congrArg (fun p => p.2.1) hform
  refine ⟨?_, fun n hn => (k.others n hn).trans (h.rail.get_ne hn), h.frame.into.thenIn k.frame⟩
  rw [hvout, hstale]
  exact h.vout

/-- An apex in full. -/
theorem Dev.railPoint_apexIs {d : Dev} {r : RailIx} (h1 : (d.tile.cur.rails[r]'r.2).isSome = true) (h2 : (d.pwmg.refs[r]'r.2).running = true)
    (h3 : (d.pwmg.refs[r]'r.2).holding = false) (h4 : (d.pwmg.refs[r]'r.2).due d.clk.now true = true) (hno : d.cyc.no = d.cycle) : let e := d.railPoint r true
    d.PointFormed e r ∧ d.RefIs e r { (d.pwmg.refs[r]'r.2).sync d.clk.now with down := true } ∧ (d.portOf r = none → d.PortlessDecided e r true) := by
  have hend : d.railPoint r true = (((d.pointed r).refApex r).formVout r).railTransfer r := (Dev.railPoint_due h1 h2 h3 h4).trans (if_pos rfl)
  obtain ⟨x, hbase, hpwmg⟩ := (d.pointed r).apex_base r
  dsimp only
  rw [hend, Dev.railTransfer_eq]
  have hm := hbase.unpoint
  have href : d.RefIs ((((d.pointed r).refApex r).formVout r)) r { (d.pwmg.refs[r]'r.2).sync d.clk.now with down := true } := hpwmg
  clear hbase hpwmg hend
  generalize ((d.pointed r).refApex r).formVout r = m at hm href ⊢
  have hwork := m.refWork_target r
  have hdec := (m.refWork r).pointDecisions_decides r
  refine ⟨hm.formed (hwork.formed.trans hdec.formed), ?_, fun hp => ?_⟩
  · exact ((hwork.formed.trans hdec.formed).frame .pwmg (by decide)).trans href
  · have htaken := Dev.refWork_taken ((Dev.portOf_of_tile hm.same.tile r).trans hp)
    exact hm.portless (apex := true) htaken hp h1 hno fun hx => absurd hx (by decide)

/-- A mark in full. -/
theorem Dev.railPoint_markIs {d : Dev} {r : RailIx} (h1 : (d.tile.cur.rails[r]'r.2).isSome = true) (h2 : (d.pwmg.refs[r]'r.2).running = true)
    (h3 : (d.pwmg.refs[r]'r.2).holding = false) (h4 : (d.pwmg.refs[r]'r.2).due d.clk.now false = true) (hno : d.cyc.no = d.cycle) : let e := d.railPoint r false
    d.PointFormed e r ∧ (∃ y, d.RefIs e r y ∧ (d.pwmg.refs[r]'r.2).Began y d.clk.now) ∧ (e.rails[r]'r.2).markAt = d.clk.now ∧ d.KeysFormed e r ∧ d.TargetSlewed e r ∧
    (d.portOf r = none → d.PortlessDecided e r false) := by
  obtain ⟨m, x, hm, hend⟩ := Dev.railPoint_mark h1 h2 h3 h4
  obtain ⟨hformed, hmark⟩ := m.markRest_formed r (d.railSum r).isSome d.clk.now
  obtain ⟨y, hy, hbegan⟩ := hm.ref
  dsimp only
  rw [hend]
  refine ⟨hm.formed hformed, ⟨y, (hformed.frame .pwmg (by decide)).trans hy, hbegan⟩, hmark, hm.keysFormed hformed, hm.slewed _ _, fun hp => ?_⟩
  have htaken := Dev.toDecisions_taken ((Dev.portOf_of_tile hm.same.tile r).trans hp)
  exact hm.portless (apex := false) htaken hp h1 hno fun _ hpend hdue => hm.respreadBusy htaken hpend hdue

end Sys2Proof.Machine

open Sys2Proof Sys2Proof.Machine

/-- Settles O40: a point that is not due changes nothing (`Dev.railPoint_still`); an apex is `Dev.railPoint_apexIs` and a mark `Dev.railPoint_markIs`, whose decisions
    start from a state that leaves members, leave and results as they were (`Dev.AtDecisions`).
    The interval that a mark with an invalid sum leaves out of the shed dwell is log entry 75; the order of a Flare's exit and its mark's decisions is the model's. -/
theorem railUpdatePointsFormTheVoltage : Obligations.RailUpdatePointsFormTheVoltage := by
  intro s t r apex d ref a ha
  refine ⟨fun h => State.runLive_next ha (Dev.railPoint_still h), fun h1 h2 h3 h4 => ⟨d.railPoint r apex, State.runLive_next ha rfl, ?_⟩⟩
  have hno : d.cyc.no = d.cycle := s.dev.advance_cycle t
  cases apex with
  | true =>
    obtain ⟨⟨⟨hvout, hnone⟩, hothers, hframe⟩, href, hless⟩ := Dev.railPoint_apexIs h1 h2 h3 h4 hno
    refine ⟨fun l hl hlo hhi => hvout l hl ⟨hlo, hhi⟩, hnone, fun _ => href, fun h => absurd h (by decide), fun k hk => ⟨href.others hk, hothers k hk⟩, hframe, fun h => absurd h (by decide),
      fun hp => ?_⟩
    obtain ⟨hiref, -, -, -, hember, hflare⟩ := hless hp
    exact ⟨hiref, fun _ h => absurd h (by decide), hember, hflare⟩
  | false =>
    obtain ⟨⟨⟨hvout, hnone⟩, hothers, hframe⟩, ⟨y, href, hbegan⟩, hmark, hkeys, hslew, hless⟩ := Dev.railPoint_markIs h1 h2 h3 h4 hno
    refine ⟨fun l hl hlo hhi => hvout l hl ⟨hlo, hhi⟩, hnone, fun h => absurd h (by decide), fun _ => ?_, fun k hk => ⟨href.others hk, hothers k hk⟩, hframe, fun _ => ⟨hkeys, hslew⟩,
      fun hp => ?_⟩
    · rw [href.own]
      exact ⟨hbegan.valley, hmark, hbegan.per, hbegan.wasPer, hbegan.pend, hbegan.down, congrArg (fun g => g.dev) href⟩
    · obtain ⟨hiref, hshed, hadd, henter, hember, hflare⟩ := hless hp
      exact ⟨hiref, fun hf _ => ⟨fun hm hcalm => hshed hf rfl hm hcalm.1 hcalm.2, hadd hf rfl, henter hf rfl⟩, hember, hflare⟩
end
